-- ==== Sys2Proof/Word.lean ====
section
/-! DEFINITION. The word types of the manual: values are little-endian and bit 0 is the least significant bit (R9). -/

namespace Sys2Proof

/-- One byte of memory. -/
abbrev Byte := BitVec 8

/-- One 32-bit register, control word or structure word. -/
abbrev Word := BitVec 32

/-- One 64-bit register, general register or sync word. -/
abbrev DWord := BitVec 64

/-- One 64-byte command, W0 in bits [31:0] (R80, R94). -/
abbrev CmdBits := BitVec 512

end Sys2Proof
end

