-- ==== Sys2Proof/Syntax/Types.lean ====
section
/-! DEFINITION. The operand types of the commands: who issues an access, how wide it is, and the units by number. -/

namespace Sys2Proof

/-- A core slot: 17 × region + slot, slots 0–15 logical and slot 16 the spare that is not swapped in (R17, R44). -/
abbrev CoreIx := Fin 272

/-- A region, the compute die of the same number (R17). -/
abbrev RegionIx := Fin 16

/-- A link die LDn (R17). -/
abbrev LinkIx := Fin 8

/-- A die index of the CSR window (R43). -/
abbrev DieIx := Fin 32

/-- A context ID (R35). -/
abbrev CtxIx := Fin 1024

/-- An engine of a core: 0 MTX, 1 VEC, 2 STA, 3 STB, 4 SYN (R72). -/
abbrev EngIx := Fin 5

/-- A stream cell: 0 STA, 1 STB. -/
abbrev StrIx := Fin 2

/-- The unit that issues a register or memory access (the masters of chapter 2). A core's cells act for the context placed on the core;
an access from another chip carries its own context, or none. `sideband` is the system controller on the I3C sideband (R630). -/
inductive Master where
  | host (port : Fin 2)
  | firmware (mcore : Fin 8)
  | sideband
  | cell (core : CoreIx) (eng : Fin 4)
  | remote (node : Fin 65536) (ctx : Option CtxIx)
deriving DecidableEq, Repr

/-- Width of a register access (R56). -/
inductive AccWidth where
  | w8 | w16 | w32 | w64
deriving DecidableEq, Repr

/-- Bytes of an access. -/
def AccWidth.bytes : AccWidth → Nat
  | .w8 => 1 | .w16 => 2 | .w32 => 4 | .w64 => 8

/-- The outcome of a protected read that the hardware checks: good, good when read once more, or bad twice (R526). -/
inductive ReadCheck where
  | clean | transient | lasting
deriving DecidableEq, Repr

/-- What the check bits or the command parity of a memory access show (R294, R295, R298): nothing, a corrected crumb, an uncorrectable
one that the second read clears or does not, a command repeated with success or without. -/
inductive EccEvent where
  | clean | corrected | transient | lasting | cmdTransient | cmdLasting
deriving DecidableEq, Repr

/-- What the training of one LPDDR port shows (R307, R324, R325): whether each of the two attempts passes every step, and the type (0
LPDDR5, 1 LPDDR5X, 2 LPDDR6), the installed capacity in units of 512 MiB and the second rank that its devices report. -/
structure PortReport where
  first : Bool
  second : Bool
  type : Fin 3
  installed : BitVec 9
  twoRank : Bool
deriving DecidableEq, Repr

/-- How the training of a PCI Express link ends: whether it reaches L0, at which rate (encoded as HUB_CTRL.GEN_MAX) and with how many lanes, 2 to
the power `width`. -/
structure LinkUp where
  up : Bool
  rate : Fin 3
  width : Fin 5
deriving DecidableEq, Repr

/-- What a host writes into the configuration space of a port (R613, R616, R625): the size of BAR2, 1 GiB × 2 to the power of the index;
MSI-X enabled and its function mask; D3hot or D0. -/
inductive ConfigWrite where
  | bar2Size (index : Fin 17)
  | msix (enable mask : Bool)
  | power (d3 : Bool)
deriving DecidableEq, Repr

/-- How a sideband command frame is bad (R632): a wrong PEC, or another first byte. -/
inductive BadFrame where
  | pec
  | command
deriving DecidableEq, Repr

/-- What a host transaction does (R616–R618): a read of 1 to 4,096 bytes, or a write whose bytes carry enables and whose EP bit is `ep`. -/
inductive HostOp where
  | read (bytes : Fin 4096)
  | write (data : List (Option Byte)) (ep : Bool)
deriving DecidableEq, Repr

/-- Where a watch message is taken from: message n of those on their way to a core of this chip, or the oldest packet of a virtual channel in
the receive buffer of a port. -/
inductive WatchSrc where
  | here (n : Nat)
  | port (p : LinkIx) (vc : Fin 8)
deriving DecidableEq, Repr

end Sys2Proof
end

