-- ==== Sys2Proof/Syntax.lean ====
section
/-! DEFINITION. The commands of the block, one for each row of the opcode table. Every operand is what the outside gives: which unit acts,
the value written or received, or an outcome that only the device or its environment decides (a check that fails, a sample). -/

namespace Sys2Proof

/-- The commands of the TX-2, in the order of the opcode table. -/
inductive Instr where
  /-- A write to a register that has no behaviour of its own is performed at the die's CSR logic under the width, alignment and byte-enable rules. (R62) -/
  | registerWrite (master : Master) (addr : BitVec 46) (width : AccWidth) (enables : BitVec 8) (data : DWord)
  /-- A register-form integer instruction computes g[D] from g[A] and g[B]. (R76) -/
  | aluReg (core : CoreIx)
  /-- An immediate-form integer instruction computes g[D] from g[A] and the sign-extended IMM12. (R76) -/
  | aluImm (core : CoreIx)
  /-- LHI loads IMM20 times 4,096, sign-extended, into g[D]. (R76) -/
  | lhi (core : CoreIx)
  /-- A memory load issues a read of a CVA in the context's space and holds later instructions until its reply. (R76) -/
  | memLoad (core : CoreIx)
  /-- A memory store issues a write of g[D] to a CVA and holds later instructions until it is acknowledged. (R76) -/
  | memStore (core : CoreIx)
  /-- The reply to a control-core load or store returns and the instruction completes, letting the control core go on. (R76) -/
  | memAccessReply (core : CoreIx)
  /-- A scratchpad load reads the core's own scratchpad into g[D]. (R76) -/
  | scratchpadLoad (core : CoreIx)
  /-- A scratchpad store writes g[D] into the core's own scratchpad. (R76) -/
  | scratchpadStore (core : CoreIx)
  /-- A branch compares g[D] with g[A] and moves the PC by 4 × IMM12 when the comparison holds. (R76) -/
  | branch (core : CoreIx)
  /-- CALL writes the return address to g1 and jumps by 4 × IMM20. (R76) -/
  | call (core : CoreIx)
  /-- JMP moves the PC by 4 × IMM20. (R76) -/
  | jmp (core : CoreIx)
  /-- JMPR jumps to g[A] + IMM12 and optionally links the old PC + 4 into g[D]. (R76) -/
  | jmpr (core : CoreIx)
  /-- The special instruction NOP does nothing. (R76) -/
  | ctlNop (core : CoreIx)
  /-- SRD copies a special register into g[D], waiting for the vector chain to drain when it reads SEED. (R79) -/
  | srd (core : CoreIx)
  /-- SWR writes g[A] into SEED, the only writable special register, after the vector chain drains. (R79) -/
  | swr (core : CoreIx)
  /-- A stalled SRD or SWR of SEED proceeds once the VEC queue is empty and VEC is idle. (R136) -/
  | seedAccessResume (core : CoreIx)
  /-- BRK completes and halts the core as a break hit does, with HIT set and no cause bits. (R113) -/
  | brk (core : CoreIx)
  /-- CWR writes g[GA][31:0] into one word of a CAB. (R82) -/
  | cwr (core : CoreIx)
  /-- CWF writes a bit field of a CAB word from g[GA]. (R82) -/
  | cwf (core : CoreIx)
  /-- CLD loads a CAB from 64 bytes of scratchpad. (R82) -/
  | cld (core : CoreIx)
  /-- CPUSH appends a copy of a CAB to an engine's queue, optionally incrementing the tag, stalling while the queue is full. (R83) -/
  | cpush (core : CoreIx)
  /-- CPUSHM appends 64 bytes of scratchpad as a command to an engine's queue. (R82) -/
  | cpushm (core : CoreIx)
  /-- A push that stalled on a full queue completes once a slot frees. (R83) -/
  | cpushUnstall (core : CoreIx)
  /-- CQST returns the free slots, DONE count and DONE tag of an engine's queue as of the previous CTL cycle. (R85) -/
  | cqst (core : CoreIx)
  /-- CWAIT stalls the control core until an engine's DONE count has reached a value. (R82) -/
  | cwait (core : CoreIx)
  /-- A stalled CWAIT ends when the engine's DONE count has reached its value. (R84) -/
  | cwaitRelease (core : CoreIx)
  /-- CBND stalls the control core until every earlier command of the core has completed. (R110) -/
  | cbnd (core : CoreIx)
  /-- A stalled CBND ends once all earlier commands complete, reaching a chain boundary when links and banks are empty. (R110) -/
  | cbndComplete (core : CoreIx)
  /-- An engine issues the command at the head of its queue once its dependency is met, no break holds it and the core is not halted. (R87) -/
  | commandIssue (core : CoreIx) (eng : EngIx)
  /-- A repeat that waited for its link half or accumulator bank takes it and moves the pointer. (R106) -/
  | repeatStart (core : CoreIx) (eng : EngIx)
  /-- A producer repeat marks its half full when its last write to it is visible. (R106) -/
  | halfMarkFull (core : CoreIx) (eng : EngIx)
  /-- A consumer repeat marks its half empty when its last read of it has returned. (R106) -/
  | halfMarkEmpty (core : CoreIx) (eng : EngIx)
  /-- A command completes: the DONE count advances, DONE_TAG updates and the SIG add is made when SIG is set. (R90) -/
  | commandComplete (core : CoreIx) (eng : EngIx)
  /-- Opcode 0x00 issues, does no work and completes for any engine. (R91) -/
  | engineNop (core : CoreIx) (eng : EngIx)
  /-- MMA adds the product of A and B into the open accumulator bank on the array, segmented or not. (R99) -/
  | mma (core : CoreIx)
  /-- MVM forms a product of up to 16 rows on the matrix-vector path into the open bank. (R172) -/
  | mvm (core : CoreIx)
  /-- ACLR enters the array as one group that sets every element of the open bank to +0. (R165) -/
  | aclr (core : CoreIx)
  /-- ACLOSE closes the open bank without a product. (R166) -/
  | aclose (core : CoreIx)
  /-- PROOF moves the activity level to LEVEL and holds it with Proof groups for LENGTH CORE cycles. (R185) -/
  | proof (core : CoreIx)
  /-- The segment-table read of a segmented MMA ends and the fetch of its groups starts. (R179) -/
  | segTableReadDone (core : CoreIx)
  /-- A K group enters the array once every needed feeder queue holds it and its scales. (R156) -/
  | groupEnter (core : CoreIx) (parity : Option (Fin 128))
  /-- A closing bank is sealed and marked full 296 CORE cycles after its last group entered, or 24 for the MVP. (R159) -/
  | bankFull (core : CoreIx) (bank : Fin 2)
  /-- At a run boundary the array's activity level moves one ladder step toward its target. (R181) -/
  | levelStep (core : CoreIx)
  /-- HOLD CORE cycles after real array work stops, the target falls to the lower priority rules. (R182) -/
  | rampHoldExpire (core : CoreIx)
  /-- A parity error on a feeder group or segment entry is found and the words are fetched again. (R188) -/
  | feedParityError (core : CoreIx)
  /-- The refetch ends, making the error transient or lasting. (R188) -/
  | feedRefetchEnd (core : CoreIx) (clean : Bool)
  /-- A write of MTX_PROOF_CTRL sets or ends forced Proof activity on a core. (R186) -/
  | proofCtrlWrite (master : Master) (core : CoreIx) (value : Word)
  /-- RUN starts a vector chain reading its configuration block and walking its operands through its stages. (R102) -/
  | vecRun (core : CoreIx) (parity : Option (Fin 16384))
  /-- The configuration block read ends and the chain's first input read follows. (R197) -/
  | vecCfgReadDone (core : CoreIx) (check : ReadCheck)
  /-- A VEC repeat's last bank read returns and the accumulator bank becomes empty. (R213) -/
  | bankEmpty (core : CoreIx)
  /-- Writing CORE_BRK_CTRL with EN_COUNT 1 arms a count break and zeroes CORE_BRK_SEEN. (R111) -/
  | brkArmCount (master : Master) (core : CoreIx) (value : Word)
  /-- Writing CORE_BRK_CTRL with EN_TAG 1 arms a tag break, testing the commands already at the head. (R112) -/
  | brkArmTag (master : Master) (core : CoreIx) (value : Word)
  /-- A write of CORE_RUN.HALT halts the core with RUN 4. (R114) -/
  | coreHalt (master : Master) (core : CoreIx)
  /-- A write of CORE_RUN.RESUME ends a halt, clears the break status and restarts the core. (R114) -/
  | coreResume (master : Master) (core : CoreIx)
  /-- A written CORE_LINK_CFG_k takes effect when link k is next idle. (R109) -/
  | linkCfgApply (core : CoreIx) (link : Fin 15)
  /-- The region swaps its spare core in for a withdrawn logical core while no context is placed there. (R117) -/
  | spareSwap (region : RegionIx) (slot : Fin 16)
  /-- LOAD moves memory described by a descriptor into the scratchpad, repeat by repeat. (R239) -/
  | strLoad (core : CoreIx) (str : StrIx) (check : ReadCheck) (word : Fin 8)
  /-- STORE moves scratchpad data to memory and completes when its writes are visible. (R241) -/
  | strStore (core : CoreIx) (str : StrIx) (check : ReadCheck) (word : Fin 8)
  /-- GATHER reads indexed entries of memory into the scratchpad. (R230) -/
  | strGather (core : CoreIx) (str : StrIx) (check : ReadCheck) (word : Fin 8)
  /-- SCATTER writes scratchpad data to indexed memory entries. (R236) -/
  | strScatter (core : CoreIx) (str : StrIx) (check : ReadCheck) (word : Fin 8)
  /-- COLL reads chunks and sends them to the link dies, opening an operation of its collective set. (R388) -/
  | strColl (core : CoreIx) (str : StrIx)
  /-- A write of STR_INSTALL copies descriptor images from scratchpad into the region's store with clamping. (R225) -/
  | strInstall (master : Master) (core : CoreIx) (value : DWord)
  /-- The last descriptor of an installation is in the store and the write is performed for its master. (R225) -/
  | installDone (region : RegionIx)
  /-- A stream cell issues its next request of up to 4 KiB once it has a slot, a pool operation and credit. (R235) -/
  | streamRequest (core : CoreIx) (str : StrIx)
  /-- Read data or a write acknowledgement returns to a stream cell. (R241) -/
  | streamReply (req : Nat)
  /-- An ATOMIC command sends an operation to its target sync word. (R254) -/
  | synAtomic (core : CoreIx)
  /-- The holder's return reaches the issuing cell, SYN_RESULT is written and the ATOMIC completes. (R255) -/
  | atomicReply (core : CoreIx)
  /-- A WAIT tests its target locally or registers a watch on a remote holder. (R258) -/
  | synWait (core : CoreIx) (check : ReadCheck)
  /-- A sync cell performs one queued operation on a sync object. (R253) -/
  | syncOpPerform (core : CoreIx) (check : ReadCheck)
  /-- A 64-bit write to SYN_OBJ_i sets a sync word. (R251) -/
  | synObjWrite (master : Master) (core : CoreIx) (obj : Fin 1024) (value : DWord)
  /-- A 64-bit write to SYN_ADD_i adds to a sync word. (R251) -/
  | synAddWrite (master : Master) (core : CoreIx) (obj : Fin 1024) (value : DWord)
  /-- A REGISTER message reaches the holder, which answers WAKE, ACCEPTED or FULL. (R260) -/
  | watchRegister (src : WatchSrc)
  /-- The waiter learns its watch is held and starts rechecking. (R264) -/
  | watchAccepted (src : WatchSrc)
  /-- A FULL answer makes the waiter fall back to polling. (R263) -/
  | watchFull (src : WatchSrc)
  /-- A WAKE reaches the waiter and completes its WAIT, or is dropped when stale. (R262) -/
  | watchWake (src : WatchSrc)
  /-- An ABSENT message makes the waiter fall back to polling. (R265) -/
  | watchAbsent (src : WatchSrc)
  /-- A CANCEL clears the waiter's watch entry at the holder. (R266) -/
  | watchCancel (src : WatchSrc)
  /-- Each polling interval the waiter reads the target and completes when the condition holds. (R263) -/
  | pollRead (core : CoreIx)
  /-- Each recheck interval a waiter with an accepted watch reads the target. (R264) -/
  | recheckRead (core : CoreIx)
  /-- A core waiting unbroken for THRESH µs sends a long-wait notice to the Kiln. (R267) -/
  | longwaitNotice (core : CoreIx)
  /-- A channel's admission arbiter admits one request into its reorder queue by weighted round-robin. (R276) -/
  | memRequestAdmit (region : RegionIx) (chan : Fin 64)
  /-- A stacked channel performs the next chosen access from its reorder queue. (R280) -/
  | memAccess (region : RegionIx) (chan : Fin 64) (crumb : Fin 2) (ecc : EccEvent)
  /-- At each refresh interval a channel refreshes all banks for TRFC. (R291) -/
  | memRefresh (region : RegionIx) (chan : Fin 64)
  /-- Every 100 µs the stack's layer temperatures are sampled and hot state judged. (R292) -/
  | memTempSample (region : RegionIx) (layers : DWord)
  /-- Each scrub interval a channel queues a scrub read of its next burst. (R297) -/
  | memScrubRead (region : RegionIx) (chan : Fin 64)
  /-- A write of MEM_BIST_CTRL.START begins a 40 µs self-test of one channel. (R300) -/
  | memBistStart (master : Master) (region : RegionIx) (value : Word)
  /-- A self-test ends, passing, retrying once, or marking the channel failed. (R302) -/
  | memBistEnd (region : RegionIx) (pass : Bool)
  /-- A write of CAP_CMD.TRAIN trains the die's four LPDDR ports. (R324) -/
  | capTrain (master : Master) (die : Fin 4) (value : Word)
  /-- Training ends, retrying a failed port once and checking the die's organisation. (R325) -/
  | capTrainDone (die : Fin 4) (p0 p1 p2 p3 : PortReport)
  /-- A capacity access enters its channel or group queue. (R314) -/
  | capRequestAdmit (die port : Fin 4) (chan : Fin 8)
  /-- A capacity queue performs its next chosen access, with inline check bits where used. (R315) -/
  | capAccess (die port : Fin 4) (chan : Fin 8) (crumb : Fin 2) (ecc : EccEvent)
  /-- A capacity channel refreshes per bank or all banks at its interval. (R318) -/
  | capRefresh (die port : Fin 4) (chan : Fin 8)
  /-- Every 100 µs the port reads each rank's temperature mode register. (R319) -/
  | capTempRead (die port : Fin 4) (rank : Fin 2) (check : ReadCheck) (rate : Fin 8) (hot : Bool)
  /-- Each scrub interval a port reads its next burst. (R322) -/
  | capScrubRead (die port : Fin 4)
  /-- Clearing CAP_CTRL.EN makes the die's ranges unbacked and puts its devices into self-refresh. (R327) -/
  | capEnClear (master : Master) (die : Fin 4) (value : Word)
  /-- A paging unit translates a request's CVA, hitting its buffer or starting a walk. (R337) -/
  | translate (req : Nat)
  /-- A page-table walk's reads return and the leaf is filled or a fault results. (R337) -/
  | pageWalkDone (req : Nat) (victim : Fin 4096)
  /-- A write through a leaf with a clean copy clears SHADOW_V by compare-and-swap and frees the shadow frame. (R339) -/
  | shadowClear (req : Nat)
  /-- An invalidation reaches a paging unit, which drops matching leaves and acknowledges when drained. (R340) -/
  | shootdown (region : RegionIx) (inval : Nat)
  /-- All 16 acknowledgements arrive and the leaf change proceeds. (R340) -/
  | shootdownAck (inval : Nat)
  /-- A write of PGE_INVAL starts an invalidation of a context's range in all regions. (R340) -/
  | pgeInval (region : RegionIx) (value : DWord)
  /-- The migration engine starts moving a queued leaf: mark, log, shootdown. (R342) -/
  | migrationMove (region : RegionIx) (dest : Nat)
  /-- A move's copy ends, the new leaf is written and old frames freed. (R342) -/
  | migrationCopyDone (region : RegionIx)
  /-- Every EPOCH µs all access counts and use counts are halved. (R345) -/
  | epochHalve (region : RegionIx)
  /-- With free slab frames below FREE_LOW, the engine demotes the least-used leaf. (R346) -/
  | demoteStart (region : RegionIx) (frame dest : Nat)
  /-- A hint reaches a region's engine, which forwards each slab to its target region. (R348) -/
  | hintReceive (region : RegionIx)
  /-- A forwarded slab is acted on: promotions queued for PREPAGE, use counts cleared for RELEASE. (R348) -/
  | hintSlab (region : RegionIx)
  /-- A write of ALC_SUBMIT hands a command record to the allocators, which forward and queue it. (R351) -/
  | alcSubmit (master : Master) (region : RegionIx) (value : DWord)
  /-- Allocator NOP completes with no effect. (R352) -/
  | alcNop (region : RegionIx)
  /-- MAP_PAGES maps COUNT page leaves from frames that TIER directs. (R354) -/
  | mapPages (region : RegionIx) (choices : List Nat)
  /-- MAP_SLABS maps COUNT slab leaves from aligned contiguous frames. (R354) -/
  | mapSlabs (region : RegionIx) (choices : List Nat)
  /-- UNMAP removes the leaves lying wholly in its range after shootdown and frees their frames. (R354) -/
  | unmap (region : RegionIx)
  /-- ALLOC_SPM gives a context contiguous scratchpad granules of a core. (R352) -/
  | allocSpm (region : RegionIx) (start : Fin 256)
  /-- FREE_SPM returns scratchpad granules. (R352) -/
  | freeSpm (region : RegionIx)
  /-- ALLOC_DESC gives a context contiguous descriptor indices. (R352) -/
  | allocDesc (region : RegionIx) (start : Fin 16384)
  /-- FREE_DESC returns descriptor indices. (R352) -/
  | freeDesc (region : RegionIx)
  /-- UNMAP_CTX removes all of a context's leaves, tables, granules, indices and moves. (R354) -/
  | unmapCtx (region : RegionIx)
  /-- QUERY returns the leaf that maps a CVA. (R352) -/
  | query (region : RegionIx)
  /-- A paging unit handles an uncorrectable burst by reread, retire, restore, shadow drop or poison. (R356) -/
  | pgeUeReport (region : RegionIx) (reread : ReadCheck) (shadow : Bool)
  /-- Writing STATE 1 on a FREE entry admits a context after clearing its save flags and presence. (R362) -/
  | ctxAdmit (master : Master) (ctx : CtxIx) (value : Word)
  /-- Writing STATE 3 withdraws a context, abandoning its launch and taking it off at boundaries. (R363) -/
  | ctxWithdraw (master : Master) (ctx : CtxIx) (value : Word)
  /-- Writing STATE 0 returns an IDLE or unplaced WITHDRAWN entry to FREE. (R361) -/
  | ctxFree (master : Master) (ctx : CtxIx) (value : Word)
  /-- The scheduler sees a producer count differing from CONS and reads the next ring entry. (R365) -/
  | ringEntryRead (ctx : CtxIx)
  /-- A NOP entry is consumed and signals. (R366) -/
  | ringNop (ctx : CtxIx)
  /-- A LAUNCH entry makes the context ACTIVE and sets LEFT. (R366) -/
  | ringLaunch (ctx : CtxIx)
  /-- A whole-word store to SCH_EXIT ends the launch on the storing core. (R367) -/
  | schExit (master : Master) (value : Word)
  /-- Once the exiting core's commands complete, it is emptied, saved and taken off, and LEFT falls. (R367) -/
  | exitFinish (core : CoreIx)
  /-- A context's quantum elapses on a core. (R374) -/
  | quantumExpire (core : CoreIx)
  /-- The scheduler places a ready context on an idle core. (R373) -/
  | contextPlace (core : CoreIx)
  /-- A gang context next on a core reserves all its ready cores. (R376) -/
  | gangForm (core : CoreIx)
  /-- When every reserved core is idle, the gang is placed on all in one CTL cycle. (R376) -/
  | gangPlace
  /-- A core with PENDING unswitched for OVERDUE µs sets OVERDUE. (R375) -/
  | schOverdue (core : CoreIx)
  /-- A write to a set entry in LD(2a) is copied to LD(2a+1). (R383) -/
  | colSetWrite (master : Master) (axis : Fin 4) (set : Fin 256) (off : Fin 24) (width : AccWidth) (enables : BitVec 8) (data : DWord)
  /-- A written set entry takes effect when no lane holds an open operation on it. (R383) -/
  | colSetApply (axis : Fin 4) (set : Fin 256)
  /-- A link die accepts a chunk into its store against credit, converting to RED_FMT. (R407) -/
  | collChunkAccept (core : CoreIx) (str : StrIx) (check : ReadCheck)
  /-- A collective piece arrives and is added, written, forwarded or passed through. (R403) -/
  | collPiece (port : LinkIx) (bulk : Bool) (check : ReadCheck)
  /-- A port sends the next ready collective packet by step, chunk and round-robin order. (R408) -/
  | collPieceSend (port : LinkIx) (bulk : Bool) (check : ReadCheck)
  /-- A CREDIT message grants store credit for pieces. (R407) -/
  | colCredit (port : LinkIx)
  /-- An ARRIVE message reaches a parent in the barrier tree. (R400) -/
  | barrierArrive (port : LinkIx)
  /-- A RELEASE message adds to RSIG and is passed to children. (R400) -/
  | barrierRelease (port : LinkIx)
  /-- An operation idle for LIMIT ms is ended as failed and its state freed. (R413) -/
  | colWatchdog (die : LinkIx) (set lane : Fin 256)
  /-- A flit is checked as data or link flit, accepted or discarded as bad. (R425) -/
  | flitReceive (port : LinkIx) (flit : BitVec 1024) (corrected : BitVec 16) (uncorrectable replay : Bool)
  /-- An IDLE link flit updates acknowledgements and credits. (R426) -/
  | linkFlit (port : LinkIx) (ack : BitVec 16) (credits : BitVec 128)
  /-- A NAK makes the sender replay from NAK_SEQ. (R430) -/
  | nakReceive (port : LinkIx) (ack nak : BitVec 16) (credits : BitVec 128)
  /-- Eight RESET_NOTICE link flits in a row put the port in PAUSED. (R450) -/
  | resetNotice (port : LinkIx) (ack : BitVec 16) (credits : BitVec 128)
  /-- ACK_SEQ stalls for ACK_TO: first a replay, then the link goes down. (R431) -/
  | ackTimeout (port : LinkIx)
  /-- No flit passes for 1 ms and the port goes DOWN. (R444) -/
  | linkSilence (port : LinkIx)
  /-- A port begins a packet on the chosen virtual channel when credit covers it. (R433) -/
  | packetSend (port : LinkIx)
  /-- An RD packet is accepted and routed or served. (R436) -/
  | pktRd (port : LinkIx) (vc : Fin 8)
  /-- A WR packet is accepted and routed or written. (R436) -/
  | pktWr (port : LinkIx) (vc : Fin 8)
  /-- An ATOMIC packet is accepted and routed or handed to its sync cell. (R436) -/
  | pktAtomic (port : LinkIx) (vc : Fin 8)
  /-- A RESP packet reaches its requester, or is routed on. (R468) -/
  | pktResp (port : LinkIx) (vc : Fin 8)
  /-- An ACK packet completes a write at its requester, or is routed on. (R468) -/
  | pktAck (port : LinkIx) (vc : Fin 8)
  /-- A delivered MGMT packet is put in its mailbox or discarded when full. (R627) -/
  | pktMgmt (port : LinkIx) (vc : Fin 8)
  /-- A response waiting ESC_WAIT cycles moves to VC0. (R467) -/
  | respEscape (port : LinkIx)
  /-- LNK_CTRL.EN 0 to 1 starts a fresh training. (R454) -/
  | linkEnable (master : Master) (port : LinkIx) (value : Word)
  /-- LNK_CTRL.EN 1 to 0 disables the port and empties its queues. (R454) -/
  | linkDisable (master : Master) (port : LinkIx) (value : Word)
  /-- LNK_CMD.TRAIN starts a training from ABSENT or FAILED. (R454) -/
  | linkCmdTrain (master : Master) (port : LinkIx) (value : Word)
  /-- LNK_CMD.DOWN takes an ACTIVE port down to train. (R450) -/
  | linkCmdDown (master : Master) (port : LinkIx) (value : Word)
  /-- A partner's training block is received and its fields are taken. (R448) -/
  | trainingBlock (port : LinkIx) (block : BitVec 128)
  /-- A training step ends and the port moves to the next state or ACTIVE. (R445) -/
  | trainStepDone (port : LinkIx) (fails : BitVec 48)
  /-- A training step exceeds its bound and the attempt fails. (R445) -/
  | trainStepBound (port : LinkIx)
  /-- A training ends after 16 attempts or 2 s, ABSENT or FAILED. (R446) -/
  | trainTimeout (port : LinkIx)
  /-- A PAUSED port waits RESET_WAIT and becomes FAILED. (R445) -/
  | resetWaitExpire (port : LinkIx)
  /-- FEN_CMD.RAISE raises an alert that applies ALERT_MODE and floods the partition. (R489) -/
  | fenRaise (master : Master) (port : LinkIx) (value : Word)
  /-- FEN_CMD.CLEAR ends the alert on the chip and unlatches fences. (R491) -/
  | fenClear (master : Master) (port : LinkIx) (value : Word)
  /-- An arriving FENCE ALERT is applied and forwarded, or discarded at a boundary. (R489) -/
  | fenceAlert (port : LinkIx)
  /-- A port's effective fence mode changes, disabling it or retraining it fresh. (R487) -/
  | fenModeChange (master : Master) (port : LinkIx) (value : Word)
  /-- A write to a shared RTE_ register in LD0 is copied to every die. (R493) -/
  | rteSharedWrite (master : Master) (off : BitVec 12) (width : AccWidth) (enables : BitVec 8) (data : DWord)
  /-- A store to SNP_PHASE_MARK puts a core in a phase or marks it done. (R499) -/
  | phaseMark (master : Master) (value : Word)
  /-- SNP_PHASE_CTRL.EN 0 to 1 zeroes the live totals and phases. (R499) -/
  | phaseEnable (master : Master) (value : Word)
  /-- A write of SNP_MIRROR triggers a range for the open or next step. (R503) -/
  | snpTrigger (master : Master) (value : Word)
  /-- Every read of a range returns and READSIG is added. (R504) -/
  | snpRangeReadDone (range : Fin 256)
  /-- A snapshot request's reply arrives, retried once on failure, then FAILED. (R510) -/
  | snpRequestReply (req : Nat)
  /-- With all ranges written, the step is committed to records and CSTEP. (R505) -/
  | snpCommit (set : Fin 16)
  /-- Setting VALID checks the buddy's domain and sets CSTEP by KEEP. (R508) -/
  | snpSetEnable (master : Master) (set : Fin 16) (value : Word)
  /-- Clearing VALID ends the open step's mirror and drops triggers. (R509) -/
  | snpSetDisable (master : Master) (set : Fin 16) (value : Word)
  /-- SNP_CMD.RESTORE restores a set to step t from a copy. (R511) -/
  | snpRestore (value : Word)
  /-- A pending MODE or RED64 change takes effect when no context is ACTIVE and no operation open. (R518) -/
  | detModeApply
  /-- A host TLP through BAR0 or BAR2 reaches a DPA on the chip. (R618) -/
  | hostAccess (port : Fin 2) (tag : Fin 1024) (bar2 : Bool) (offset : BitVec 46) (op : HostOp)
  /-- ERR_CMD level 0 resets one cell. (R540) -/
  | cellReset (master : Master) (die : DieIx) (value : Word)
  /-- A core reset clears a core's cells and state. (R540) -/
  | coreReset (master : Master) (die : DieIx) (value : Word)
  /-- A region reset holds requests, retrains, tests and rebuilds the region. (R548) -/
  | regionReset (region : RegionIx) (failed : DWord) (late : Bool)
  /-- A chip reset resets all four levels and runs chip recovery. (R554) -/
  | chipReset (failed : BitVec 1024) (late : BitVec 16)
  /-- ERR_CMD.FENCE on a link die sets its fence ELECTRICAL. (R556) -/
  | errFence (master : Master) (die : DieIx) (value : Word)
  /-- ERR_CMD.SELFTEST orders a self-test of a physical core. (R546) -/
  | errSelftest (master : Master) (die : DieIx) (value : Word)
  /-- A pending self-test starts once its core is idle. (R546) -/
  | selftestStart (core : CoreIx)
  /-- A 6 ms self-test ends, passing, rerun or withdrawing the core. (R546) -/
  | selftestEnd (core : CoreIx) (pass : Bool)
  /-- ERR_ABORT with GO aborts a context, resetting its cores. (R534) -/
  | contextAbort (master : Master) (value : Word)
  /-- A write of ERR_FW_HEART resets a management core's heartbeat. (R539) -/
  | fwHeartbeat (master : Master) (value : Word)
  /-- ERR_RELEASE.CHIP zeroes the count, clears RECOVERY and starts a chip reset. (R552) -/
  | errReleaseChip (master : Master) (value : Word)
  /-- ERR_RELEASE.UNITS marks disabled units for return and zeroes counts. (R553) -/
  | errReleaseUnits (master : Master) (value : Word)
  /-- A core idle of completions for CORE_MS is recorded as hung and reset. (R536) -/
  | coreHang (core : CoreIx)
  /-- A request outstanding REQ_MS completes with a fault and becomes an orphan. (R537) -/
  | reqTimeout (req : Nat)
  /-- A channel idle with work for 1 ms raises REGION_HANG. (R538) -/
  | regionHang (region : RegionIx) (chan : Fin 64)
  /-- A management core missing its heartbeat for FW_MS is restarted. (R539) -/
  | fwHang (mcore : Fin 8) (read : ReadCheck)
  /-- A reply with no matching outstanding request is dropped, freeing its orphan. (R544) -/
  | lateReplyDrop (orphan : Nat)
  /-- An orphan reaching REQ_MS returns its pool operation. (R544) -/
  | orphanExpire (orphan : Nat)
  /-- An abort not completed in 10 ms sets ABORT_STUCK. (R556) -/
  | abortStuck
  /-- A fabric line failing its CRC is resent once. (R528) -/
  | fabricLineRetry (die : DieIx) (clean : Bool)
  /-- CLK_CMD.RELOCK relocks the root PLL through BYPASS. (R562) -/
  | clkRelock (master : Master) (value : Word)
  /-- A reference is judged absent. (R564) -/
  | refAbsent (ref : Fin 2)
  /-- The root PLL out of lock for 1 µs halts the clocks. (R569) -/
  | pllLockLoss
  /-- A reference becoming stable after a halt starts chip recovery. (R569) -/
  | refStableReturn
  /-- A comparison window ends and the sources are judged. (R565) -/
  | clkMonWindow (edgesA edgesB : Bool) (devA devB devAB : BitVec 16)
  /-- MGMT is lost and the oscillators force safe states. (R571) -/
  | mgmtAbsent
  /-- MGMT present for 1 ms resumes the plane and resets the chip. (R571) -/
  | mgmtReturn
  /-- Each 10 µs the Kiln updates energy, target and cap budget. (R575) -/
  | kilnPeriod (power vin iin : Word) (est : BitVec 256)
  /-- A long-wait notice moves a core's units to the pool for lending. (R576) -/
  | kilnLend (core : CoreIx)
  /-- An end notice takes a core's units back and restores its cap. (R577) -/
  | kilnReclaim (core : CoreIx)
  /-- Each STEP_US the Kiln moves the forced Proof level a step. (R579) -/
  | proofScheduleStep (core : CoreIx)
  /-- A die's temperature sample moves its region ceiling. (R581) -/
  | thermalSample (die : DieIx) (junction : Byte)
  /-- A junction or DRAM over its trip limit turns off the rails. (R583) -/
  | thermalTrip (die : DieIx) (dram : Bool)
  /-- Power-good lost for 1 µs is handled as a trip. (R584) -/
  | pgoodLoss (sd : Fin 2) (input : Bool) (rails : Byte)
  /-- Input good again for 10 ms after PGOOD powers the rails up. (R584) -/
  | inputGoodReturn
  /-- PWR_CMD.RESTART powers the rails up after a trip. (R583) -/
  | pwrRestart (master : Master) (value : Word)
  /-- The straps are sampled 1 ms after standby good. (R587) -/
  | strapSample (samples : BitVec 72)
  /-- An address-chain frame is received, passed on and adopted. (R590) -/
  | achainFrame (frame : BitVec 19)
  /-- No good frame within 100 ms of a bad one sets PARITY_LASTING. (R590) -/
  | achainBadTimeout
  /-- BOOT_ACHAIN_CMD.RELEARN clears the held block number. (R591) -/
  | achainRelearn (master : Master) (value : Word)
  /-- Mask ROM reads and checks the Starter region. (R594) -/
  | starterCheck (read1 read2 : Bool)
  /-- The Starter scans records, chooses and loads an image, or enters host recovery. (R602) -/
  | bootImageLoad (readA : ReadCheck) (badA : Fin 7) (readB : ReadCheck) (badB : Fin 7)
  /-- After the block-number wait the Starter resumes flash and starts the management cores. (R602) -/
  | bootRelease
  /-- Flash command NOP does nothing. (R607) -/
  | flashNop (master : Master) (value : Word)
  /-- RAISE_SVN raises SVN_MIN to the running image's SVN. (R607) -/
  | raiseSvn (master : Master) (value : Word)
  /-- REVOKE_KEY revokes a signing key. (R607) -/
  | revokeKey (master : Master) (value : Word)
  /-- CONFIRM appends a CONFIRM record for the pointer. (R607) -/
  | flashConfirm (master : Master) (value : Word)
  /-- ACTIVATE appends an ACTIVATE record for a verified slot. (R607) -/
  | flashActivate (master : Master) (value : Word)
  /-- ERASE erases a 64 KiB sector. (R607) -/
  | flashErase (master : Master) (value : Word)
  /-- PROGRAM programs the data buffer into a page. (R607) -/
  | flashProgram (master : Master) (value : Word)
  /-- VERIFY runs the image checks on a slot. (R607) -/
  | flashVerify (master : Master) (value : Word)
  /-- READ reads 256 bytes into the data buffer. (R607) -/
  | flashRead (master : Master) (value : Word)
  /-- A flash command completes, retrying a failed program or erase once. (R607) -/
  | flashCmdDone (first second : Bool) (read : ReadCheck) (bad : Fin 7)
  /-- The boot controller erases the older record sector outside boots. (R600) -/
  | recordSectorErase
  /-- A host request outstanding CPL_MS completes with Completer Abort. (R620) -/
  | cplTimeout (req : Nat)
  /-- PERST_n low resets the port's link, configuration and requests. (R620) -/
  | pcieFundamentalReset (port : Fin 2) (link : LinkUp)
  /-- A hot reset or link disable resets the port. (R620) -/
  | pcieHotReset (port : Fin 2) (disable : Bool) (link : LinkUp)
  /-- A function level reset resets configuration and requests. (R620) -/
  | pcieFlr (port : Fin 2)
  /-- A link leaving L0 for Detect is retrained once or marked failed. (R622) -/
  | pcieLinkDown (port : Fin 2) (link : LinkUp)
  /-- A write to a doorbell word is a sync-word write the scheduler watches. (R623) -/
  | hubDbWrite (word : Fin 1024) (add : Bool) (value : DWord)
  /-- An operation on an interrupt word sets its pending bit. (R625) -/
  | hubIwWrite (hub : Fin 2) (vector : Fin 256) (add : Bool) (value : DWord)
  /-- A pending unmasked vector is sent once the holdoff has passed. (R625) -/
  | msixSend (port : Fin 2) (vector : Fin 256)
  /-- MGT_HMB_POST places a firmware message in a host mailbox slot. (R628) -/
  | hmbPost (master : Master) (value : DWord)
  /-- Writing 1 to a slot's VALID frees it. (R628) -/
  | hmbFree (slot : Fin 8)
  /-- A sideband READ frame reads an always-on register. (R631) -/
  | sbRead (addr : BitVec 48) (len : BitVec 8)
  /-- A sideband WRITE frame writes an always-on register. (R631) -/
  | sbWrite (addr : BitVec 48) (len : BitVec 8) (data : DWord)
  /-- A sideband STATUS frame returns MGT_SB_STAT. (R631) -/
  | sbStatus
  /-- MGT_TEL_CTRL.SNAP copies telemetry coherently. (R634) -/
  | telSnap (master : Master) (value : Word)
  /-- An enabled trigger condition holds and the unit fires its actions. (R642) -/
  | triggerFire
  /-- DBG_TRIG_CMD.FIRE fires the armed unit. (R642) -/
  | trigCmdFire (master : Master) (value : Word)
  /-- DBG_TRIG_CMD.CLEAR_OUT drives TRIG_OUT low. (R643) -/
  | trigClearOut (master : Master) (value : Word)
  /-- TRIG_OUT falls after OUT_LEN samples. (R643) -/
  | trigOutEnd
  /-- Writing 1 to DBG_TRIG_STAT.HIT re-arms the unit. (R644) -/
  | trigRearm
  /-- DBG_TRACE_CFG.EN starts trace capture from index 0. (R645) -/
  | traceEnable (master : Master) (value : Word)
  /-- POST samples after firing, capture stops with FROZEN. (R645) -/
  | traceFreeze
  /-- A change of DBG_CNT_CTRL.FREEZE freezes or releases a die's counters. (R646) -/
  | cntFreeze (master : Master) (die : DieIx) (value : Word)
  /-- DBG_OBS_CFG.EN 0 to 1 drives OBS and zeroes the sample counts. (R641) -/
  | obsEnable (master : Master) (value : Word)
  /-- IDCODE selects the identification register. (R647) -/
  | tapIdcode
  /-- SAMPLE/PRELOAD samples the boundary register. (R647) -/
  | tapSamplePreload (pins : Nat)
  /-- EXTEST takes the pins only while the chip is out of service. (R648) -/
  | tapExtest
  /-- CLAMP is accepted only out of service. (R648) -/
  | tapClamp
  /-- HIGHZ is accepted only out of service. (R648) -/
  | tapHighz
  /-- EXTEST_PULSE on lanes is accepted only out of service. (R648) -/
  | tapExtestPulse
  /-- EXTEST_TRAIN on lanes is accepted only out of service. (R648) -/
  | tapExtestTrain
  /-- BYPASS or an unassigned code selects the bypass register. (R647) -/
  | tapBypass
  /-- TRST_N low holds the TAP in Test-Logic-Reset. (R648) -/
  | tapReset (low : Bool)
  /-- V3P3_SB rises to 3.0 V and the always-on plane starts. (R657) -/
  | standbyGood
  /-- V3P3_SB below 2.9 V for 10 µs turns off rails and outputs. (R657) -/
  | standbyLoss
  /-- With standby, Starter and input good held, the rails come up and a chip reset begins. (R658) -/
  | railsUp (link0 link1 : LinkUp)
  /-- A host configuration request reaches a port's configuration space, where it resizes BAR2, enables or disables MSI-X, or changes the power state. (R613) -/
  | pcieConfigAccess (port : Fin 2) (change : ConfigWrite)
  /-- A correctable error on a host port's link is a transient fault of the port, counted and recorded. (R622) -/
  | aerCorrectableError (port : Fin 2)
  /-- A sideband command frame with a wrong PEC or a first byte other than 0x01 to 0x03 is not performed and is answered PEC_ERR or BAD_CMD. (R632) -/
  | sbBadCommand (frame : BadFrame)
  /-- In I3C mode the sideband target accepts a dynamic address by ENTDAA or by SETDASA, shown in MGT_SB_STAT.DYNAMIC. (R630) -/
  | dynamicAddressAssignment (addr : BitVec 7)
  /-- The controller acknowledges a pending in-band interrupt, which clears IBI_PEND and ends the merging of further events into it. (R633) -/
  | ibiAcknowledge
  /-- At each OCLK edge every die samples its selected group, OBS is updated, the match count advances and the trace buffer writes a sample at WPTR. (R638) -/
  | obsSample (loEvents hiEvents : BitVec 16) (trigIn : Bool)
deriving DecidableEq, Repr

end Sys2Proof
end

