-- ==== Sys2Proof/Decode.lean ====
section
/-! DEFINITION. The command that a word spells by the opcode table's bits. No row of the table gives bits, so no word spells a command. -/

namespace Sys2Proof

/-- The command spelled by the word `w` of `nbits` bits: none, since no row of the opcode table has bits (log entry 4). -/
def decodeTableWord (_nbits _w : Nat) : Option Instr := none

end Sys2Proof
end

