-- ==== Sys2Proof/Config.lean ====
section
/-! DEFINITION. What the spec leaves open: the free values. Each is an opaque constant, so no proof can learn a number for it;
`n` is a counter of the state that every use advances (log entry 3). -/

namespace Sys2Proof.Config

/-- A byte whose contents the spec does not give (a granule that a self-test wrote patterns into, an element lost to an
uncorrectable error), by draw number and address. -/
opaque freeByte : Nat → Nat → BitVec 8

/-- A word whose value the spec does not give, by draw number and index: accumulator contents that nothing has written. -/
opaque freeWord : Nat → Nat → BitVec 32

/-- A number whose value the spec does not give, by draw number and a bound it stays below. -/
opaque freeNat : Nat → Nat → Nat

/-- The FP32 result of a TRANS operation whose value the spec bounds but does not give, used where it lies within the bound, by operation and input: the same in every run
(R204, R205; log entry 9). -/
opaque trans : Nat → BitVec 32 → BitVec 32

/-- The Starter digest that Maelkagal fuses into HD0 (R594, R611). -/
opaque starterDigest : Nat

/-- The fused digests of the four signing keys (R598, R611). -/
opaque keyDigest : Nat → Nat

/-- The serial number of the part (R636). -/
opaque serial : BitVec 64

end Sys2Proof.Config
end

