-- ==== Sys2Proof/Machine/SMap.lean ====
section
/-! DEFINITION. Sparse maps as plain data: lists of (key, value) pairs with strictly rising keys. `SMap.set` keeps the one canonical
form in which no entry holds the value an unlisted key reads as. -/

namespace Sys2Proof.Machine

/-- A sparse map from numbers to values. -/
abbrev SMap (α : Type) := List (Nat × α)

/-- The entry of a key. -/
def SMap.find? {α : Type} : List (Nat × α) → Nat → Option α
  | [], _ => none
  | (j, v) :: m, k => if j = k then some v else SMap.find? m k

/-- The value of a key, the default `d` where nothing is listed. -/
def SMap.get {α : Type} (d : α) (m : List (Nat × α)) (k : Nat) : α :=
  (SMap.find? m k).getD d

/-- Insert or replace, keeping the keys rising. -/
def SMap.put {α : Type} : List (Nat × α) → Nat → α → List (Nat × α)
  | [], k, v => [(k, v)]
  | (j, u) :: m, k, v =>
    if k < j then (k, v) :: (j, u) :: m
    else if k = j then (k, v) :: m
    else (j, u) :: SMap.put m k v

/-- Remove a key. -/
def SMap.del {α : Type} : List (Nat × α) → Nat → List (Nat × α)
  | [], _ => []
  | (j, u) :: m, k => if j = k then SMap.del m k else (j, u) :: SMap.del m k

/-- Write a value: the default is never listed. -/
def SMap.set {α : Type} [DecidableEq α] (d : α) (m : List (Nat × α)) (k : Nat) (v : α) : List (Nat × α) :=
  if v = d then SMap.del m k else SMap.put m k v

/-- The keys rise strictly from `lo` on. -/
def SMap.risingFrom {α : Type} : Nat → List (Nat × α) → Bool
  | _, [] => true
  | lo, (j, _) :: m => decide (lo ≤ j) && SMap.risingFrom (j + 1) m

/-- The canonical form against a default that may depend on the key. -/
def SMap.canonical {α : Type} [DecidableEq α] (d : Nat → α) (m : List (Nat × α)) : Bool :=
  SMap.risingFrom 0 m && m.all (fun e => decide (e.2 ≠ d e.1))

end Sys2Proof.Machine
end

