-- ==== Sys2Proof/Machine/RegTypes.lean ====
section
/-! DEFINITION. The shape of a register map row: access codes (R13), legal values of a field (R64), fields, registers, and where the
die windows and the core slots lie (R43, R44). -/

namespace Sys2Proof.Machine

/-- Field access codes (R13). -/
inductive Acc where
  | rw | ro | wo | w1c | w1s | rc
deriving DecidableEq, Repr

/-- Which values of a field are legal, and how an illegal one is clamped (R64). `take a b t`: a code from a to b takes the legal code t;
`codes l`: only the codes of l are legal. -/
inductive Legal where
  | any
  | range (lo hi : Nat)
  | align (n : Nat)
  | rangeAlign (lo hi n : Nat)
  | take (a b t : Nat)
  | codes (l : List Nat)
deriving DecidableEq, Repr

/-- A bit field: least significant bit and width. -/
structure Fld where
  lsb : Nat
  width : Nat
deriving DecidableEq, Repr

/-- One field of a register as a write sees it. -/
structure FieldRow where
  lsb : Nat
  width : Nat
  acc : Acc
  legal : Legal
deriving DecidableEq, Repr

/-- One row of a register map: offset, two index strides with their counts, size in bytes, whole-word mark, reset value, fields. -/
structure RegRow where
  name : String
  off : Nat
  stride1 : Nat
  count1 : Nat
  stride2 : Nat
  count2 : Nat
  size : Nat
  ww : Bool
  reset : Nat
  fields : List FieldRow
deriving DecidableEq, Repr

/-- The CSR window of the die with index d (R43). -/
def dieWindow (d : Nat) : Nat := 0x3F0000000000 + d * 0x100000000

/-- The register slot of core slot c = 17 × region + slot (R44). -/
def coreWindow (c : Nat) : Nat := dieWindow (c / 17) + (c % 17) * 0x1000000

end Sys2Proof.Machine
end

