-- ==== Sys2Proof/Machine/Fld.lean ====
section
/-! DEFINITION. The bit fields of the registers, named REGISTER_FIELD as the field tables of the spec name them: ⟨least significant bit, width⟩. -/

namespace Sys2Proof.Machine.Fld

def CORE_ID_LCORE : Fld := ⟨0, 8⟩
def CORE_ID_PHYS : Fld := ⟨8, 5⟩
def CORE_ID_SPARE_IN : Fld := ⟨13, 1⟩
def CORE_ID_REGION : Fld := ⟨16, 4⟩
def CORE_STATE_RUN : Fld := ⟨0, 3⟩
def CORE_STATE_ENG_BUSY : Fld := ⟨4, 5⟩
def CORE_STATE_CTL_STALL : Fld := ⟨9, 1⟩
def CORE_STATE_AT_BOUNDARY : Fld := ⟨10, 1⟩
def CORE_RUN_HALT : Fld := ⟨0, 1⟩
def CORE_RUN_RESUME : Fld := ⟨1, 1⟩
def CORE_PC_PC : Fld := ⟨0, 24⟩
def CORE_CTX_CTX : Fld := ⟨0, 10⟩
def CORE_CTX_VALID : Fld := ⟨10, 1⟩
def CORE_CTX_GEN : Fld := ⟨16, 8⟩
def CORE_QSTAT_DEPTH : Fld := ⟨0, 7⟩
def CORE_QSTAT_BUSY : Fld := ⟨8, 1⟩
def CORE_QSTAT_DEP_WAIT : Fld := ⟨9, 1⟩
def CORE_QSTAT_LINK_WAIT : Fld := ⟨10, 1⟩
def CORE_QSTAT_ACC_WAIT : Fld := ⟨11, 1⟩
def CORE_QSTAT_HELD : Fld := ⟨12, 1⟩
def CORE_QCNT_ISSUED : Fld := ⟨0, 16⟩
def CORE_QCNT_DONE : Fld := ⟨16, 16⟩
def CORE_QTAG_ISSUED_TAG : Fld := ⟨0, 16⟩
def CORE_QTAG_DONE_TAG : Fld := ⟨16, 16⟩
def CORE_BRK_CTRL_EN_COUNT : Fld := ⟨0, 1⟩
def CORE_BRK_CTRL_EN_TAG : Fld := ⟨1, 1⟩
def CORE_BRK_CTRL_ENG : Fld := ⟨2, 3⟩
def CORE_BRK_CTRL_ANY_ENG : Fld := ⟨5, 1⟩
def CORE_BRK_CTRL_CTX : Fld := ⟨16, 10⟩
def CORE_BRK_CTRL_CTX_EN : Fld := ⟨26, 1⟩
def CORE_BRK_COUNT_N : Fld := ⟨0, 32⟩
def CORE_BRK_TAG_TAG : Fld := ⟨0, 16⟩
def CORE_BRK_TAG_MASK : Fld := ⟨16, 16⟩
def CORE_BRK_STAT_HIT : Fld := ⟨0, 1⟩
def CORE_BRK_STAT_BY_COUNT : Fld := ⟨1, 1⟩
def CORE_BRK_STAT_BY_TAG : Fld := ⟨2, 1⟩
def CORE_BRK_STAT_ENG : Fld := ⟨3, 3⟩
def CORE_BRK_STAT_HELD_TAG : Fld := ⟨16, 16⟩
def CORE_BRK_SEEN_COUNT : Fld := ⟨0, 32⟩
def CORE_LINK_CFG_BASE : Fld := ⟨0, 24⟩
def CORE_LINK_CFG_HALF_UNITS : Fld := ⟨24, 16⟩
def CORE_LINK_CFG_PROD_ENG : Fld := ⟨40, 3⟩
def CORE_LINK_CFG_CONS_ENG : Fld := ⟨43, 3⟩
def MTX_STATUS_BANK0 : Fld := ⟨0, 2⟩
def MTX_STATUS_BANK1 : Fld := ⟨2, 2⟩
def MTX_STATUS_OPEN : Fld := ⟨4, 1⟩
def MTX_STATUS_LEVEL : Fld := ⟨5, 4⟩
def MTX_STATUS_TARGET : Fld := ⟨9, 4⟩
def MTX_STATUS_PROOF : Fld := ⟨13, 1⟩
def MTX_STATUS_MVP : Fld := ⟨14, 1⟩
def MTX_RAMP_CFG_HOLD : Fld := ⟨0, 16⟩
def MTX_PROOF_CTRL_FORCE : Fld := ⟨0, 1⟩
def MTX_PROOF_CTRL_LEVEL : Fld := ⟨1, 4⟩
def MTX_PROOF_CTRL_FMT : Fld := ⟨8, 4⟩
def MTX_ERR_STAT_FEED_TRANSIENT : Fld := ⟨0, 1⟩
def MTX_ERR_STAT_FEED_LASTING : Fld := ⟨1, 1⟩
def MTX_ERR_STAT_ACC_LASTING : Fld := ⟨2, 1⟩
def MTX_ERR_STAT_TRANSIENT_CNT : Fld := ⟨8, 8⟩
def MTX_GROUPS_COUNT : Fld := ⟨0, 64⟩
def MTX_PROOF_CYC_COUNT : Fld := ⟨0, 64⟩
def MTX_STALL_FEED_COUNT : Fld := ⟨0, 64⟩
def MTX_STALL_BANK_COUNT : Fld := ⟨0, 64⟩
def MTX_STALL_LINK_COUNT : Fld := ⟨0, 64⟩
def MTX_RAMP_LOSS_COUNT : Fld := ⟨0, 64⟩
def MTX_SEG_STAT_NONEMPTY : Fld := ⟨0, 9⟩
def MTX_SEG_STAT_CLAMPED : Fld := ⟨16, 1⟩
def MTX_SEG_STAT_ENTRIES : Fld := ⟨24, 8⟩
def MTX_ERR_INFO_TAG : Fld := ⟨0, 16⟩
def MTX_ERR_INFO_BANK : Fld := ⟨16, 1⟩
def MTX_ERR_INFO_ROW : Fld := ⟨17, 7⟩
def MTX_ERR_INFO_KIND : Fld := ⟨24, 1⟩
def VEC_STATUS_BUSY : Fld := ⟨0, 1⟩
def VEC_STATUS_WIDTH : Fld := ⟨1, 2⟩
def VEC_STATUS_STAGES : Fld := ⟨3, 3⟩
def VEC_STATUS_ACCIN : Fld := ⟨6, 1⟩
def VEC_STATUS_BANK : Fld := ⟨7, 1⟩
def VEC_STATUS_REPEATS_LEFT : Fld := ⟨16, 16⟩
def VEC_ERR_STAT_CFG_TRANSIENT : Fld := ⟨0, 1⟩
def VEC_ERR_STAT_CFG_LASTING : Fld := ⟨1, 1⟩
def VEC_ERR_STAT_ACC_PARITY : Fld := ⟨2, 1⟩
def VEC_ERR_STAT_TRANSIENT_CNT : Fld := ⟨8, 8⟩
def VEC_ERR_INFO_TAG : Fld := ⟨0, 16⟩
def VEC_ERR_INFO_KIND : Fld := ⟨16, 1⟩
def VEC_SAT_ANCHOR_COUNT : Fld := ⟨0, 32⟩
def VEC_SAT_FLOAT_COUNT : Fld := ⟨0, 32⟩
def VEC_ELEMS_COUNT : Fld := ⟨0, 64⟩
def VEC_STALL_BANK_COUNT : Fld := ⟨0, 64⟩
def VEC_STALL_ACC_COUNT : Fld := ⟨0, 64⟩
def VEC_STALL_LINK_COUNT : Fld := ⟨0, 64⟩
def VEC_STALL_HAZARD_COUNT : Fld := ⟨0, 64⟩
def STR_INSTALL_SRC : Fld := ⟨0, 24⟩
def STR_INSTALL_INDEX : Fld := ⟨32, 14⟩
def STR_INSTALL_COUNT_M1 : Fld := ⟨48, 10⟩
def STR_PEEK_IDX_INDEX : Fld := ⟨0, 14⟩
def STR_PEEK_W_WORD : Fld := ⟨0, 32⟩
def STR_PEEK_POS_P : Fld := ⟨0, 32⟩
def STR_ERR_STAT_DESC_TRANSIENT : Fld := ⟨0, 1⟩
def STR_ERR_STAT_DESC_LASTING : Fld := ⟨1, 1⟩
def STR_ERR_STAT_REQ_FAULT : Fld := ⟨2, 1⟩
def STR_ERR_STAT_TRANSIENT_CNT : Fld := ⟨8, 8⟩
def STR_ERR_INFO_TAG : Fld := ⟨0, 16⟩
def STR_ERR_INFO_CELL : Fld := ⟨16, 1⟩
def STR_ERR_INFO_KIND : Fld := ⟨17, 1⟩
def STR_ERR_INFO_DESC : Fld := ⟨18, 14⟩
def STR_STATUS_BUSY : Fld := ⟨0, 1⟩
def STR_STATUS_OPCODE : Fld := ⟨1, 6⟩
def STR_STATUS_DESC : Fld := ⟨7, 14⟩
def STR_STATUS_OUTSTANDING : Fld := ⟨21, 9⟩
def STR_BUSY_COUNT : Fld := ⟨0, 64⟩
def STR_BYTES_COUNT : Fld := ⟨0, 64⟩
def STR_REQS_COUNT : Fld := ⟨0, 64⟩
def STR_STALL_LINK_COUNT : Fld := ⟨0, 64⟩
def STR_STALL_XLATE_COUNT : Fld := ⟨0, 64⟩
def STR_STALL_REQ_COUNT : Fld := ⟨0, 64⟩
def STR_STALL_CREDIT_COUNT : Fld := ⟨0, 64⟩
def STR_STALL_BANK_COUNT : Fld := ⟨0, 64⟩
def STR_STALL_MEM_COUNT : Fld := ⟨0, 64⟩
def STR_ACTIVE_COUNT : Fld := ⟨0, 64⟩
def SYN_STATUS_MODE : Fld := ⟨0, 2⟩
def SYN_STATUS_LONGWAIT : Fld := ⟨2, 1⟩
def SYN_STATUS_WAIT_OBJ : Fld := ⟨3, 10⟩
def SYN_STATUS_QDEPTH : Fld := ⟨14, 7⟩
def SYN_POLL_CFG_INTERVAL : Fld := ⟨0, 16⟩
def SYN_POLL_CFG_RECHECK : Fld := ⟨16, 16⟩
def SYN_LONGWAIT_THRESH : Fld := ⟨0, 16⟩
def SYN_LONGWAIT_EN : Fld := ⟨16, 1⟩
def SYN_WATCH_STAT_USED : Fld := ⟨0, 9⟩
def SYN_WATCH_STAT_HIGH : Fld := ⟨16, 9⟩
def SYN_ERR_STAT_OBJ_TRANSIENT : Fld := ⟨0, 1⟩
def SYN_ERR_STAT_OBJ_LASTING : Fld := ⟨1, 1⟩
def SYN_ERR_STAT_NONSYNC : Fld := ⟨2, 1⟩
def SYN_ERR_STAT_NOCTX : Fld := ⟨3, 1⟩
def SYN_ERR_STAT_TRANSIENT_CNT : Fld := ⟨8, 8⟩
def SYN_ERR_INFO_TAG : Fld := ⟨0, 16⟩
def SYN_ERR_INFO_OBJ : Fld := ⟨16, 10⟩
def SYN_ERR_INFO_KIND : Fld := ⟨26, 1⟩
def SYN_RESULT_VALUE : Fld := ⟨0, 64⟩
def SYN_RESULT_TAG_TAG : Fld := ⟨0, 16⟩
def SYN_RESULT_TAG_POISON : Fld := ⟨16, 1⟩
def SYN_WAIT_TAG_TAG : Fld := ⟨0, 16⟩
def SYN_WAIT_TAG_VALID : Fld := ⟨16, 1⟩
def SYN_WAIT_CYC_COUNT : Fld := ⟨0, 64⟩
def SYN_OPS_COUNT : Fld := ⟨0, 64⟩
def SYN_WAKES_COUNT : Fld := ⟨0, 64⟩
def SYN_WAKE_DROP_COUNT : Fld := ⟨0, 64⟩
def SYN_POLLS_COUNT : Fld := ⟨0, 64⟩
def SYN_FALLBACKS_COUNT : Fld := ⟨0, 64⟩
def SYN_WATCH_CTL_OBJ : Fld := ⟨0, 10⟩
def SYN_WATCH_CTL_OP : Fld := ⟨10, 4⟩
def SYN_WATCH_CTL_VALID : Fld := ⟨15, 1⟩
def SYN_WATCH_CTL_NODE : Fld := ⟨16, 16⟩
def SYN_WATCH_CTL_CORE : Fld := ⟨32, 8⟩
def SYN_WATCH_CTL_GEN : Fld := ⟨40, 8⟩
def SYN_WATCH_OPND_OPERAND : Fld := ⟨0, 64⟩
def SYN_WATCH_CMP_COMPARE : Fld := ⟨0, 64⟩
def SYN_OBJ_VALUE : Fld := ⟨0, 64⟩
def SYN_ADD_ADDEND : Fld := ⟨0, 64⟩
def MEM_CTRL_SCRUB_EN : Fld := ⟨0, 1⟩
def MEM_CTRL_REF_DOUBLE_FORCE : Fld := ⟨1, 1⟩
def MEM_CTRL_CRUMB_ACT : Fld := ⟨2, 1⟩
def MEM_STATUS_TRAINED : Fld := ⟨0, 1⟩
def MEM_STATUS_HOT : Fld := ⟨1, 1⟩
def MEM_STATUS_BIST_BUSY : Fld := ⟨2, 1⟩
def MEM_STATUS_FAILED : Fld := ⟨3, 8⟩
def MEM_TEMP_MAX : Fld := ⟨0, 8⟩
def MEM_TEMP_LAYER : Fld := ⟨8, 3⟩
def MEM_TEMP_PEAK : Fld := ⟨16, 8⟩
def MEM_REF_CFG_TREFI : Fld := ⟨0, 16⟩
def MEM_REF_CFG_HOT_ON : Fld := ⟨16, 8⟩
def MEM_REF_CFG_HOT_OFF : Fld := ⟨24, 8⟩
def MEM_SCHED_CFG_AGE_LIMIT : Fld := ⟨0, 12⟩
def MEM_SCHED_CFG_WR_HIGH : Fld := ⟨12, 6⟩
def MEM_SCHED_CFG_WR_LOW : Fld := ⟨18, 6⟩
def MEM_SCHED_CFG_HOT_LIMIT : Fld := ⟨24, 5⟩
def MEM_SCRUB_CFG_INTERVAL : Fld := ⟨0, 16⟩
def MEM_BIST_CTRL_CHAN : Fld := ⟨0, 6⟩
def MEM_BIST_CTRL_START : Fld := ⟨8, 1⟩
def MEM_BIST_STAT_BUSY : Fld := ⟨0, 1⟩
def MEM_BIST_STAT_CHAN : Fld := ⟨1, 6⟩
def MEM_BIST_STAT_PASS : Fld := ⟨7, 1⟩
def MEM_BIST_STAT_TRANSIENT : Fld := ⟨8, 1⟩
def MEM_ERR_STAT_CE : Fld := ⟨0, 1⟩
def MEM_ERR_STAT_UE_TRANSIENT : Fld := ⟨1, 1⟩
def MEM_ERR_STAT_UE_LASTING : Fld := ⟨2, 1⟩
def MEM_ERR_STAT_CMD_TRANSIENT : Fld := ⟨3, 1⟩
def MEM_ERR_STAT_CMD_LASTING : Fld := ⟨4, 1⟩
def MEM_ERR_STAT_BIST_FAIL : Fld := ⟨5, 1⟩
def MEM_ERR_STAT_POISON_WRITE : Fld := ⟨6, 1⟩
def MEM_ERR_STAT_TRANSIENT_CNT : Fld := ⟨8, 8⟩
def MEM_ERR_INFO_CHAN : Fld := ⟨0, 6⟩
def MEM_ERR_INFO_KIND : Fld := ⟨8, 3⟩
def MEM_ERR_INFO_BANK : Fld := ⟨11, 5⟩
def MEM_ERR_INFO_CTX : Fld := ⟨16, 10⟩
def MEM_ERR_INFO_CTX_VALID : Fld := ⟨26, 1⟩
def MEM_ERR_ADDR_DPA : Fld := ⟨0, 46⟩
def MEM_POOL_STAT_USED : Fld := ⟨0, 13⟩
def MEM_POOL_STAT_HIGH : Fld := ⟨16, 13⟩
def MEM_CH_FAIL_FAILED : Fld := ⟨0, 64⟩
def MEM_TIMING_0_TRCD : Fld := ⟨0, 8⟩
def MEM_TIMING_0_TRP : Fld := ⟨8, 8⟩
def MEM_TIMING_0_TRAS : Fld := ⟨16, 8⟩
def MEM_TIMING_0_TCL : Fld := ⟨24, 8⟩
def MEM_TIMING_1_TCCD_S : Fld := ⟨0, 4⟩
def MEM_TIMING_1_TCCD_L : Fld := ⟨4, 4⟩
def MEM_TIMING_1_TRRD_S : Fld := ⟨8, 4⟩
def MEM_TIMING_1_TRRD_L : Fld := ⟨12, 4⟩
def MEM_TIMING_1_TWTR : Fld := ⟨16, 8⟩
def MEM_TIMING_1_TRTW : Fld := ⟨24, 8⟩
def MEM_TIMING_2_ACT_WIN : Fld := ⟨0, 8⟩
def MEM_TIMING_2_WT_FULL : Fld := ⟨8, 4⟩
def MEM_TIMING_2_WT_CRUMB : Fld := ⟨12, 4⟩
def MEM_TIMING_2_BUDGET : Fld := ⟨16, 8⟩
def MEM_TIMING_3_TRFC : Fld := ⟨0, 10⟩
def MEM_TIMING_3_TWR : Fld := ⟨16, 8⟩
def MEM_CH_STAT_QDEPTH : Fld := ⟨0, 7⟩
def MEM_CH_STAT_WRITES : Fld := ⟨7, 7⟩
def MEM_CH_STAT_BATCH : Fld := ⟨14, 1⟩
def MEM_CH_STAT_BIST : Fld := ⟨15, 1⟩
def MEM_CH_STAT_FAILED : Fld := ⟨16, 1⟩
def MEM_CH_CE_COUNT : Fld := ⟨0, 32⟩
def MEM_CH_RD_COUNT : Fld := ⟨0, 64⟩
def MEM_CH_WR_COUNT : Fld := ⟨0, 64⟩
def MEM_CH_ACT_COUNT : Fld := ⟨0, 64⟩
def MEM_CH_TURN_COUNT : Fld := ⟨0, 64⟩
def MEM_CH_REF_COUNT : Fld := ⟨0, 64⟩
def MEM_CH_BUSY_COUNT : Fld := ⟨0, 64⟩
def MEM_CH_HOT_COUNT : Fld := ⟨0, 32⟩
def PGE_CTRL_MIG_EN : Fld := ⟨0, 1⟩
def PGE_CTRL_RESTORE_EN : Fld := ⟨1, 1⟩
def PGE_STATUS_MQ_DEPTH : Fld := ⟨0, 9⟩
def PGE_STATUS_EVICTING : Fld := ⟨9, 1⟩
def PGE_STATUS_WALKS : Fld := ⟨10, 7⟩
def PGE_ROOT_BASE_BASE : Fld := ⟨13, 33⟩
def PGE_POLICY_PROMOTE_THRESH : Fld := ⟨0, 8⟩
def PGE_POLICY_EPOCH : Fld := ⟨8, 16⟩
def PGE_POLICY_RELEASE_NOW : Fld := ⟨24, 1⟩
def PGE_EVICT_CFG_PORTS : Fld := ⟨0, 16⟩
def PGE_EVICT_CFG_FREE_LOW : Fld := ⟨16, 12⟩
def PGE_INVAL_CTX : Fld := ⟨0, 10⟩
def PGE_INVAL_ALL : Fld := ⟨10, 1⟩
def PGE_INVAL_PAGE : Fld := ⟨16, 32⟩
def PGE_INVAL_COUNT_M1 : Fld := ⟨48, 16⟩
def PGE_FAULT_STAT_VALID : Fld := ⟨0, 1⟩
def PGE_FAULT_STAT_COUNT : Fld := ⟨16, 16⟩
def PGE_FAULT_INFO_CTX : Fld := ⟨0, 10⟩
def PGE_FAULT_INFO_KIND : Fld := ⟨10, 2⟩
def PGE_FAULT_INFO_WRITE : Fld := ⟨12, 1⟩
def PGE_FAULT_INFO_MASTER : Fld := ⟨13, 4⟩
def PGE_FAULT_INFO_CORE : Fld := ⟨17, 8⟩
def PGE_FAULT_INFO_LEVEL : Fld := ⟨25, 3⟩
def PGE_FAULT_CVA_CVA : Fld := ⟨0, 48⟩
def PGE_ERR_STAT_SCRUB_TRANSIENT : Fld := ⟨0, 1⟩
def PGE_ERR_STAT_RESTORED : Fld := ⟨1, 1⟩
def PGE_ERR_STAT_SHADOW_DROPPED : Fld := ⟨2, 1⟩
def PGE_ERR_STAT_POISONED : Fld := ⟨3, 1⟩
def PGE_ERR_STAT_RETIRED : Fld := ⟨4, 1⟩
def PGE_ERR_STAT_RESERVE_UE : Fld := ⟨5, 1⟩
def PGE_ERR_STAT_TRANSIENT_CNT : Fld := ⟨8, 8⟩
def PGE_ERR_INFO_CTX : Fld := ⟨0, 10⟩
def PGE_ERR_INFO_CTX_VALID : Fld := ⟨10, 1⟩
def PGE_ERR_INFO_ACTION : Fld := ⟨11, 3⟩
def PGE_ERR_INFO_SOURCE : Fld := ⟨14, 1⟩
def PGE_ERR_ADDR_DPA : Fld := ⟨0, 46⟩
def PGE_TB_HIT_COUNT : Fld := ⟨0, 64⟩
def PGE_TB_MISS_COUNT : Fld := ⟨0, 64⟩
def PGE_PROMOTED_COUNT : Fld := ⟨0, 64⟩
def PGE_DEMOTED_COUNT : Fld := ⟨0, 64⟩
def PGE_COPY_BYTES_COUNT : Fld := ⟨0, 64⟩
def PGE_HINT_DROP_COUNT : Fld := ⟨0, 64⟩
def PGE_HINT_SKIP_COUNT : Fld := ⟨0, 64⟩
def PGE_MIG_FAIL_COUNT : Fld := ⟨0, 64⟩
def ALC_CTRL_EN : Fld := ⟨0, 1⟩
def ALC_STATUS_QDEPTH : Fld := ⟨0, 7⟩
def ALC_STATUS_REBUILD : Fld := ⟨7, 1⟩
def ALC_STATUS_SHORT : Fld := ⟨8, 1⟩
def ALC_SUBMIT_RECORD : Fld := ⟨0, 46⟩
def ALC_RESERVE_BASE_BASE : Fld := ⟨21, 25⟩
def ALC_RESERVE_SLABS_SLABS : Fld := ⟨0, 14⟩
def ALC_OWNED_PORTS : Fld := ⟨0, 16⟩
def ALC_POLICY_RETIRE_LIMIT : Fld := ⟨0, 16⟩
def ALC_FREE_STK_FRAMES : Fld := ⟨0, 20⟩
def ALC_FREE_CAP_FRAMES : Fld := ⟨0, 24⟩
def ALC_RETIRED_STK : Fld := ⟨0, 16⟩
def ALC_RETIRED_CAP : Fld := ⟨16, 16⟩
def ALC_ERR_STAT_RETIRE_LIMIT : Fld := ⟨0, 1⟩
def ALC_ERR_STAT_REJECTED : Fld := ⟨1, 1⟩
def ALC_CMDS_COUNT : Fld := ⟨0, 64⟩
def PWR_RG_STATUS_CEIL : Fld := ⟨0, 4⟩
def PWR_RG_STATUS_MEM_THROT : Fld := ⟨4, 1⟩
def PWR_RG_EST_W : Fld := ⟨0, 16⟩
def PWR_RG_CAP_CAP : Fld := ⟨0, 4⟩
def PWR_RG_CAP_BASE : Fld := ⟨4, 4⟩
def PWR_RG_CAP_LOAN : Fld := ⟨8, 4⟩
def PWR_RG_CAP_LENT : Fld := ⟨12, 1⟩
def PWR_RG_CAP_FORCED : Fld := ⟨13, 1⟩
def LNK_CTRL_EN : Fld := ⟨0, 1⟩
def LNK_CTRL_MODE_MAX : Fld := ⟨1, 2⟩
def LNK_CTRL_ALLOW_HALF : Fld := ⟨3, 1⟩
def LNK_CTRL_FENCE_ON_FAIL : Fld := ⟨4, 1⟩
def LNK_CTRL_TXEQ_PRESET : Fld := ⟨8, 4⟩
def LNK_CMD_TRAIN : Fld := ⟨0, 1⟩
def LNK_CMD_DOWN : Fld := ⟨1, 1⟩
def LNK_STATUS_STATE : Fld := ⟨0, 4⟩
def LNK_STATUS_MODE : Fld := ⟨4, 2⟩
def LNK_STATUS_HALF : Fld := ⟨6, 1⟩
def LNK_STATUS_SIGNAL : Fld := ⟨7, 1⟩
def LNK_STATUS_ATTEMPTS : Fld := ⟨8, 5⟩
def LNK_STATUS_FRESH : Fld := ⟨13, 1⟩
def LNK_PARTNER_BLOCK : Fld := ⟨0, 8⟩
def LNK_PARTNER_POS : Fld := ⟨8, 8⟩
def LNK_PARTNER_PORT : Fld := ⟨16, 3⟩
def LNK_PARTNER_GEN : Fld := ⟨20, 2⟩
def LNK_PARTNER_VALID : Fld := ⟨22, 1⟩
def LNK_TIMERS_ACK_TO : Fld := ⟨0, 16⟩
def LNK_TIMERS_RESET_WAIT : Fld := ⟨16, 16⟩
def LNK_SEQ_TX_NEXT : Fld := ⟨0, 16⟩
def LNK_SEQ_RX_EXPECT : Fld := ⟨16, 16⟩
def LNK_REPLAY_USED : Fld := ⟨0, 16⟩
def LNK_REPLAY_HIGH : Fld := ⟨16, 16⟩
def LNK_RXBUF_CFG_0_VC0 : Fld := ⟨0, 16⟩
def LNK_RXBUF_CFG_0_VC1 : Fld := ⟨16, 16⟩
def LNK_RXBUF_CFG_0_VC2 : Fld := ⟨32, 16⟩
def LNK_RXBUF_CFG_0_VC3 : Fld := ⟨48, 16⟩
def LNK_RXBUF_CFG_1_VC4 : Fld := ⟨0, 16⟩
def LNK_RXBUF_CFG_1_VC5 : Fld := ⟨16, 16⟩
def LNK_RXBUF_CFG_1_VC6 : Fld := ⟨32, 16⟩
def LNK_RXBUF_CFG_1_VC7 : Fld := ⟨48, 16⟩
def LNK_LANE_FAIL_LANES : Fld := ⟨0, 48⟩
def LNK_ERR_STAT_CRC_TRANSIENT : Fld := ⟨0, 1⟩
def LNK_ERR_STAT_REPLAY_LASTING : Fld := ⟨1, 1⟩
def LNK_ERR_STAT_ACK_LASTING : Fld := ⟨2, 1⟩
def LNK_ERR_STAT_SILENCE : Fld := ⟨3, 1⟩
def LNK_ERR_STAT_PARTNER_RESET : Fld := ⟨4, 1⟩
def LNK_ERR_STAT_TRAIN_ABSENT : Fld := ⟨5, 1⟩
def LNK_ERR_STAT_PORT_FAIL : Fld := ⟨6, 1⟩
def LNK_ERR_STAT_EXCESS : Fld := ⟨7, 1⟩
def LNK_ERR_STAT_UNSUP : Fld := ⟨8, 1⟩
def LNK_ERR_STAT_FRESH_DROP : Fld := ⟨9, 1⟩
def LNK_ERR_STAT_PARTNER_SEEN : Fld := ⟨10, 1⟩
def LNK_ERR_STAT_HALF : Fld := ⟨11, 1⟩
def LNK_ERR_STAT_TRANSIENT_CNT : Fld := ⟨16, 8⟩
def LNK_ERR_INFO_KIND : Fld := ⟨0, 4⟩
def LNK_ERR_INFO_SEQ : Fld := ⟨4, 16⟩
def LNK_ERR_INFO_STATE : Fld := ⟨20, 4⟩
def LNK_ERR_INFO_ATTEMPT : Fld := ⟨24, 5⟩
def LNK_TX_FLITS_COUNT : Fld := ⟨0, 64⟩
def LNK_RX_FLITS_COUNT : Fld := ⟨0, 64⟩
def LNK_TX_PKTS_COUNT : Fld := ⟨0, 64⟩
def LNK_RX_PKTS_COUNT : Fld := ⟨0, 64⟩
def LNK_FEC_CORR_COUNT : Fld := ⟨0, 64⟩
def LNK_FEC_UNCORR_COUNT : Fld := ⟨0, 64⟩
def LNK_CRC_ERR_COUNT : Fld := ⟨0, 64⟩
def LNK_REPLAYS_COUNT : Fld := ⟨0, 64⟩
def LNK_REPLAY_FLITS_COUNT : Fld := ⟨0, 64⟩
def LNK_RX_EXCESS_COUNT : Fld := ⟨0, 64⟩
def LNK_TX_UNSUP_COUNT : Fld := ⟨0, 64⟩
def LNK_DROPS_COUNT : Fld := ⟨0, 64⟩
def LNK_DOWNS_COUNT : Fld := ⟨0, 64⟩
def LNK_CREDIT_STALL_COUNT : Fld := ⟨0, 64⟩
def LNK_REPLAY_STALL_COUNT : Fld := ⟨0, 64⟩
def LNK_VC_CRED_CREDIT : Fld := ⟨0, 16⟩
def LNK_VC_CRED_RX_USED : Fld := ⟨16, 16⟩
def COL_CTRL_EN : Fld := ⟨0, 1⟩
def COL_STATUS_OPEN : Fld := ⟨0, 16⟩
def COL_STATUS_FAILED : Fld := ⟨16, 1⟩
def COL_WDOG_LIMIT : Fld := ⟨0, 16⟩
def COL_STORE_USED : Fld := ⟨0, 14⟩
def COL_STORE_HIGH : Fld := ⟨16, 14⟩
def COL_ERR_STAT_STORE_TRANSIENT : Fld := ⟨0, 1⟩
def COL_ERR_STAT_STORE_LASTING : Fld := ⟨1, 1⟩
def COL_ERR_STAT_WDOG : Fld := ⟨2, 1⟩
def COL_ERR_STAT_MISMATCH : Fld := ⟨3, 1⟩
def COL_ERR_STAT_REJECT : Fld := ⟨4, 1⟩
def COL_ERR_STAT_LANE_RESET : Fld := ⟨5, 1⟩
def COL_ERR_STAT_TRANSIENT_CNT : Fld := ⟨8, 8⟩
def COL_ERR_INFO_SET : Fld := ⟨0, 8⟩
def COL_ERR_INFO_CTX : Fld := ⟨8, 10⟩
def COL_ERR_INFO_CORE : Fld := ⟨18, 8⟩
def COL_ERR_INFO_KIND : Fld := ⟨26, 3⟩
def COL_ERR_INFO_WAIT : Fld := ⟨29, 3⟩
def COL_ERR_INFO2_OPSEQ : Fld := ⟨0, 8⟩
def COL_ERR_INFO2_STEP : Fld := ⟨8, 5⟩
def COL_ERR_INFO2_TAG : Fld := ⟨16, 16⟩
def COL_PIECES_OUT_COUNT : Fld := ⟨0, 64⟩
def COL_PIECES_IN_COUNT : Fld := ⟨0, 64⟩
def COL_BYTES_OUT_COUNT : Fld := ⟨0, 64⟩
def COL_BYTES_IN_COUNT : Fld := ⟨0, 64⟩
def COL_DEPOSITS_COUNT : Fld := ⟨0, 64⟩
def COL_GLAZE_ELEMS_COUNT : Fld := ⟨0, 64⟩
def COL_PEERWAIT_CYC_COUNT : Fld := ⟨0, 64⟩
def COL_LOCALWAIT_CYC_COUNT : Fld := ⟨0, 64⟩
def COL_DISCARD_COUNT : Fld := ⟨0, 64⟩
def COL_SET_CFG0_KIND : Fld := ⟨0, 4⟩
def COL_SET_CFG0_DIR : Fld := ⟨4, 2⟩
def COL_SET_CFG0_CLASS : Fld := ⟨6, 1⟩
def COL_SET_CFG0_VALID : Fld := ⟨7, 1⟩
def COL_SET_CFG0_CTX : Fld := ⟨8, 10⟩
def COL_SET_CFG0_L_M1 : Fld := ⟨18, 4⟩
def COL_SET_CFG0_POS : Fld := ⟨22, 4⟩
def COL_SET_CFG0_WRAP : Fld := ⟨26, 1⟩
def COL_SET_CFG0_ROOT : Fld := ⟨27, 4⟩
def COL_SET_CFG1_SRC_FMT : Fld := ⟨0, 4⟩
def COL_SET_CFG1_RED_FMT : Fld := ⟨4, 4⟩
def COL_SET_CFG1_DEP_FMT : Fld := ⟨8, 4⟩
def COL_SET_CFG1_ANCHOR : Fld := ⟨12, 9⟩
def COL_SET_CFG1_CHUNK_M1 : Fld := ⟨21, 6⟩
def COL_SET_CFG2_RBASE : Fld := ⟨0, 24⟩
def COL_SET_CFG3_RSIG : Fld := ⟨0, 10⟩
def COL_SET_PERM_DEST : Fld := ⟨0, 64⟩
def COL_SET_SAT_COUNT : Fld := ⟨0, 32⟩
def COL_SET_PEERWAIT_US : Fld := ⟨0, 32⟩
def RTE_CTRL_EN : Fld := ⟨0, 1⟩
def RTE_SELF_PHYS : Fld := ⟨0, 16⟩
def RTE_SELF_LOGICAL : Fld := ⟨16, 16⟩
def RTE_IDSTAT_BLOCK : Fld := ⟨0, 8⟩
def RTE_IDSTAT_BLOCK_VALID : Fld := ⟨8, 1⟩
def RTE_IDSTAT_POS : Fld := ⟨16, 8⟩
def RTE_MACH_LEN_M1 : Fld := ⟨0, 16⟩
def RTE_MACH_RING : Fld := ⟨16, 4⟩
def RTE_PART_LO : Fld := ⟨0, 16⟩
def RTE_PART_LEN_M1 : Fld := ⟨16, 16⟩
def RTE_ARB_W3 : Fld := ⟨0, 8⟩
def RTE_ARB_W4 : Fld := ⟨8, 8⟩
def RTE_ARB_W5 : Fld := ⟨16, 8⟩
def RTE_ARB_W6 : Fld := ⟨24, 8⟩
def RTE_ARB2_VC2_CAP : Fld := ⟨0, 4⟩
def RTE_ARB2_ESC_WAIT : Fld := ⟨16, 16⟩
def RTE_MAP_PHYS : Fld := ⟨0, 64⟩
def RTE_DETOUR_VALID : Fld := ⟨0, 1⟩
def RTE_DETOUR_CIRC : Fld := ⟨1, 6⟩
def RTE_ERR_STAT_MISDELIVER : Fld := ⟨0, 1⟩
def RTE_ERR_STAT_CIRC_INVALID : Fld := ⟨1, 1⟩
def RTE_ERR_STAT_NOROUTE : Fld := ⟨2, 1⟩
def RTE_ERR_INFO_DST : Fld := ⟨0, 16⟩
def RTE_ERR_INFO_PORT : Fld := ⟨16, 4⟩
def RTE_ERR_INFO_VC : Fld := ⟨20, 3⟩
def RTE_ERR_INFO_KIND : Fld := ⟨23, 2⟩
def RTE_OUT_PKTS_COUNT : Fld := ⟨0, 64⟩
def RTE_TRANSIT_COUNT : Fld := ⟨0, 64⟩
def RTE_ESCAPED_COUNT : Fld := ⟨0, 64⟩
def RTE_DETOURED_COUNT : Fld := ⟨0, 64⟩
def RTE_NOROUTE_COUNT : Fld := ⟨0, 64⟩
def RTE_DLWAIT_COUNT : Fld := ⟨0, 64⟩
def RTE_VC2_CAPPED_COUNT : Fld := ⟨0, 64⟩
def RTE_SUB_VALID : Fld := ⟨0, 1⟩
def RTE_SUB_LOGICAL : Fld := ⟨16, 16⟩
def RTE_SUB_PHYS : Fld := ⟨32, 16⟩
def RTE_INJ_VALID : Fld := ⟨0, 1⟩
def RTE_INJ_VCMASK : Fld := ⟨8, 8⟩
def RTE_INJ_CIRC : Fld := ⟨16, 6⟩
def RTE_INJ_DST : Fld := ⟨32, 16⟩
def RTE_CIRC_VALID : Fld := ⟨0, 1⟩
def RTE_CIRC_OUT : Fld := ⟨1, 4⟩
def RTE_CIRC_OUT_CIRC : Fld := ⟨5, 6⟩
def RTE_CIRC_PRIO : Fld := ⟨11, 1⟩
def RTE_CIRC_SHARE : Fld := ⟨12, 4⟩
def RTE_JOIN_VALID : Fld := ⟨0, 1⟩
def RTE_JOIN_OUT : Fld := ⟨1, 4⟩
def RTE_JOIN_OUT_CIRC : Fld := ⟨5, 6⟩
def RTE_JOIN_PRIO : Fld := ⟨11, 1⟩
def RTE_JOIN_SHARE : Fld := ⟨12, 4⟩
def RTE_VC_FLITS_COUNT : Fld := ⟨0, 64⟩
def FEN_PORT_CFG_MODE : Fld := ⟨0, 2⟩
def FEN_PORT_CFG_ALERT_MODE : Fld := ⟨2, 2⟩
def FEN_PORT_CFG_BOUNDARY : Fld := ⟨4, 1⟩
def FEN_STATUS_EFFECTIVE : Fld := ⟨0, 2⟩
def FEN_STATUS_ALERTED : Fld := ⟨2, 1⟩
def FEN_STATUS_LATCHED : Fld := ⟨3, 1⟩
def FEN_CMD_RAISE : Fld := ⟨0, 1⟩
def FEN_CMD_CLEAR : Fld := ⟨1, 1⟩
def FEN_CMD_ID : Fld := ⟨16, 16⟩
def FEN_ALERT_ID : Fld := ⟨0, 16⟩
def FEN_ALERT_ORIGIN : Fld := ⟨16, 16⟩
def FEN_ALERT_CAUSE_CAUSE : Fld := ⟨0, 64⟩
def FEN_ERR_STAT_ALERT_IN : Fld := ⟨0, 1⟩
def FEN_ERR_STAT_ALERT_LOCAL : Fld := ⟨1, 1⟩
def FEN_ERR_STAT_OUTSIDE : Fld := ⟨2, 1⟩
def FEN_DROP_IN_COUNT : Fld := ⟨0, 64⟩
def FEN_DROP_OUT_COUNT : Fld := ⟨0, 64⟩
def FEN_REFUSED_COUNT : Fld := ⟨0, 64⟩
def CAP_CTRL_TYPE : Fld := ⟨0, 2⟩
def CAP_CTRL_INLINE_ECC : Fld := ⟨2, 1⟩
def CAP_CTRL_SCRUB_EN : Fld := ⟨3, 1⟩
def CAP_CTRL_EN : Fld := ⟨4, 1⟩
def CAP_CTRL_REF_PB : Fld := ⟨5, 1⟩
def CAP_CTRL_RATE : Fld := ⟨8, 6⟩
def CAP_CMD_TRAIN : Fld := ⟨0, 1⟩
def CAP_STATUS_TRAINED : Fld := ⟨0, 4⟩
def CAP_STATUS_FAILED : Fld := ⟨4, 4⟩
def CAP_STATUS_BUSY : Fld := ⟨8, 1⟩
def CAP_STATUS_MISMATCH : Fld := ⟨9, 1⟩
def CAP_STATUS_SELFREF : Fld := ⟨10, 1⟩
def CAP_PORT_INFO_INSTALLED : Fld := ⟨0, 9⟩
def CAP_PORT_INFO_USABLE : Fld := ⟨16, 9⟩
def CAP_PORT_INFO_TWO_RANK : Fld := ⟨25, 1⟩
def CAP_PORT_INFO_REF_RATE : Fld := ⟨28, 3⟩
def CAP_SCRUB_CFG_INTERVAL : Fld := ⟨0, 16⟩
def CAP_SCHED_CFG_AGE_LIMIT : Fld := ⟨0, 12⟩
def CAP_SCHED_CFG_WR_HIGH : Fld := ⟨12, 6⟩
def CAP_SCHED_CFG_WR_LOW : Fld := ⟨18, 6⟩
def CAP_SCHED_CFG_HOT_LIMIT : Fld := ⟨24, 5⟩
def CAP_TIMING_0_TRCD : Fld := ⟨0, 8⟩
def CAP_TIMING_0_TRPPB : Fld := ⟨8, 8⟩
def CAP_TIMING_0_TRPAB : Fld := ⟨16, 8⟩
def CAP_TIMING_0_TRAS : Fld := ⟨24, 8⟩
def CAP_TIMING_1_TRL : Fld := ⟨0, 8⟩
def CAP_TIMING_1_TWL : Fld := ⟨8, 8⟩
def CAP_TIMING_1_TCCD : Fld := ⟨16, 4⟩
def CAP_TIMING_1_TRRD : Fld := ⟨20, 4⟩
def CAP_TIMING_1_TFAW : Fld := ⟨24, 8⟩
def CAP_TIMING_2_TWTR : Fld := ⟨0, 8⟩
def CAP_TIMING_2_TRTW : Fld := ⟨8, 8⟩
def CAP_TIMING_2_TWR : Fld := ⟨16, 8⟩
def CAP_TIMING_3_TRFCAB : Fld := ⟨0, 10⟩
def CAP_TIMING_3_TRFCPB : Fld := ⟨16, 10⟩
def CAP_TIMING_4_TREFI : Fld := ⟨0, 16⟩
def CAP_ERR_STAT_CE : Fld := ⟨0, 1⟩
def CAP_ERR_STAT_UE_TRANSIENT : Fld := ⟨1, 1⟩
def CAP_ERR_STAT_UE_LASTING : Fld := ⟨2, 1⟩
def CAP_ERR_STAT_PORT_TRANSIENT : Fld := ⟨3, 1⟩
def CAP_ERR_STAT_PORT_FAIL : Fld := ⟨4, 1⟩
def CAP_ERR_STAT_TRAIN_FAIL : Fld := ⟨5, 1⟩
def CAP_ERR_STAT_POISON_WRITE : Fld := ⟨6, 1⟩
def CAP_ERR_STAT_TRANSIENT_CNT : Fld := ⟨8, 8⟩
def CAP_ERR_INFO_PORT : Fld := ⟨0, 2⟩
def CAP_ERR_INFO_KIND : Fld := ⟨2, 3⟩
def CAP_ERR_INFO_CHAN : Fld := ⟨5, 4⟩
def CAP_ERR_INFO_CTX : Fld := ⟨16, 10⟩
def CAP_ERR_INFO_CTX_VALID : Fld := ⟨26, 1⟩
def CAP_ERR_ADDR_DPA : Fld := ⟨0, 46⟩
def CAP_P_RD_COUNT : Fld := ⟨0, 64⟩
def CAP_P_WR_COUNT : Fld := ⟨0, 64⟩
def CAP_P_BUSY_COUNT : Fld := ⟨0, 64⟩
def CAP_P_REF_COUNT : Fld := ⟨0, 64⟩
def CAP_P_CE_COUNT : Fld := ⟨0, 32⟩
def CAP_P_HOT_COUNT : Fld := ⟨0, 32⟩
def HUB_CTRL_GEN_MAX : Fld := ⟨0, 2⟩
def HUB_CTRL_CPL_MS : Fld := ⟨16, 16⟩
def HUB_STATUS_LTSSM : Fld := ⟨0, 4⟩
def HUB_STATUS_RATE : Fld := ⟨4, 2⟩
def HUB_STATUS_WIDTH : Fld := ⟨6, 5⟩
def HUB_STATUS_FAILED : Fld := ⟨11, 1⟩
def HUB_PCI_ID_VENDOR : Fld := ⟨0, 16⟩
def HUB_PCI_ID_DEVICE : Fld := ⟨16, 16⟩
def HUB_IRQ_CFG_HOLDOFF : Fld := ⟨0, 16⟩
def HUB_BAR2_BASE_BASE : Fld := ⟨30, 16⟩
def HUB_LANE_MAP_POLARITY : Fld := ⟨0, 16⟩
def HUB_LANE_MAP_REVERSED : Fld := ⟨16, 1⟩
def HUB_ERR_STAT_LINK_TRANSIENT : Fld := ⟨0, 1⟩
def HUB_ERR_STAT_LINK_LASTING : Fld := ⟨1, 1⟩
def HUB_ERR_STAT_CPL_LATE : Fld := ⟨2, 1⟩
def HUB_ERR_STAT_EP_IN : Fld := ⟨3, 1⟩
def HUB_ERR_STAT_TRANSIENT_CNT : Fld := ⟨8, 8⟩
def HUB_RX_BYTES_COUNT : Fld := ⟨0, 64⟩
def HUB_TX_BYTES_COUNT : Fld := ⟨0, 64⟩
def HUB_CPL_DROP_COUNT : Fld := ⟨0, 64⟩
def HUB_IW_VALUE : Fld := ⟨0, 64⟩
def HUB_IW_ADD_ADDEND : Fld := ⟨0, 64⟩
def HUB_DB_VALUE : Fld := ⟨0, 64⟩
def HUB_DB_ADD_ADDEND : Fld := ⟨0, 64⟩
def SCH_CTRL_EN : Fld := ⟨0, 1⟩
def SCH_STATUS_ACTIVE : Fld := ⟨0, 11⟩
def SCH_STATUS_FORMING : Fld := ⟨11, 1⟩
def SCH_STATUS_GANG_CTX : Fld := ⟨12, 10⟩
def SCH_POLICY_OVERDUE : Fld := ⟨0, 16⟩
def SCH_POLICY_PREEMPT : Fld := ⟨16, 1⟩
def SCH_ERR_STAT_WS_CONFLICT : Fld := ⟨0, 1⟩
def SCH_ERR_STAT_OVERDUE : Fld := ⟨1, 1⟩
def SCH_ERR_STAT_SAVE_FAULT : Fld := ⟨2, 1⟩
def SCH_ERR_INFO_CTX : Fld := ⟨0, 10⟩
def SCH_ERR_INFO_CORE : Fld := ⟨10, 8⟩
def SCH_ERR_INFO_KIND : Fld := ⟨18, 2⟩
def SCH_EXIT_CODE : Fld := ⟨0, 16⟩
def SCH_SWITCHES_COUNT : Fld := ⟨0, 64⟩
def SCH_SWITCH_CYC_COUNT : Fld := ⟨0, 64⟩
def SCH_SWITCH_BYTES_COUNT : Fld := ⟨0, 64⟩
def SCH_HELD_OPEN_COUNT : Fld := ⟨0, 64⟩
def SCH_CORE_CTX : Fld := ⟨0, 10⟩
def SCH_CORE_VALID : Fld := ⟨10, 1⟩
def SCH_CORE_PENDING : Fld := ⟨11, 1⟩
def SCH_CORE_RESERVED : Fld := ⟨12, 1⟩
def SCH_CORE_OVERDUE : Fld := ⟨13, 1⟩
def SCH_CORE_EXIT_CODE : Fld := ⟨16, 16⟩
def SCH_CORE_SLICE_US : Fld := ⟨32, 32⟩
def SCH_CTX_CTRL_STATE : Fld := ⟨0, 3⟩
def SCH_CTX_CTRL_PRIO : Fld := ⟨4, 2⟩
def SCH_CTX_CTRL_GANG : Fld := ⟨6, 1⟩
def SCH_CTX_CTRL_WEIGHT : Fld := ⟨8, 8⟩
def SCH_CTX_CTRL_QUANTUM : Fld := ⟨16, 16⟩
def SCH_CTX_SPM_WS_FIRST : Fld := ⟨0, 8⟩
def SCH_CTX_SPM_WS_COUNT : Fld := ⟨8, 9⟩
def SCH_CTX_SAVE_BASE : Fld := ⟨14, 32⟩
def SCH_CTX_RING_BASE_BASE : Fld := ⟨6, 40⟩
def SCH_CTX_RING_LOG2 : Fld := ⟨0, 4⟩
def SCH_CTX_RING_DOORBELL : Fld := ⟨4, 10⟩
def SCH_CTX_RUN_CONS : Fld := ⟨0, 16⟩
def SCH_CTX_RUN_LEFT : Fld := ⟨16, 9⟩
def SCH_CTX_RUN_OPEN : Fld := ⟨25, 1⟩
def SCH_CTX_RUN_PLACED : Fld := ⟨26, 1⟩
def SCH_CTX_MASK_CORES : Fld := ⟨0, 64⟩
def SCH_CTX_VT_VT : Fld := ⟨0, 64⟩
def SCH_PRES_OWNER : Fld := ⟨0, 10⟩
def SCH_PRES_VALID : Fld := ⟨10, 1⟩
def SCH_PRES_FIXED : Fld := ⟨11, 1⟩
def SNP_CTRL_EN : Fld := ⟨0, 1⟩
def SNP_STATUS_BUSY : Fld := ⟨0, 1⟩
def SNP_STATUS_RESTORING : Fld := ⟨1, 1⟩
def SNP_STATUS_OUTSTANDING : Fld := ⟨2, 11⟩
def SNP_DOMAIN_DOMAIN : Fld := ⟨0, 16⟩
def SNP_CMD_RESTORE : Fld := ⟨0, 1⟩
def SNP_CMD_SOURCE : Fld := ⟨1, 1⟩
def SNP_CMD_OTHER : Fld := ⟨2, 1⟩
def SNP_CMD_SET : Fld := ⟨4, 4⟩
def SNP_MIRROR_RANGE : Fld := ⟨0, 8⟩
def SNP_RESTORE_STEP_STEP : Fld := ⟨0, 64⟩
def SNP_ERR_STAT_READ_TRANSIENT : Fld := ⟨0, 1⟩
def SNP_ERR_STAT_READ_LASTING : Fld := ⟨1, 1⟩
def SNP_ERR_STAT_WRITE_TRANSIENT : Fld := ⟨2, 1⟩
def SNP_ERR_STAT_WRITE_LASTING : Fld := ⟨3, 1⟩
def SNP_ERR_STAT_SAME_DOMAIN : Fld := ⟨4, 1⟩
def SNP_ERR_STAT_STALE : Fld := ⟨5, 1⟩
def SNP_ERR_STAT_TRANSIENT_CNT : Fld := ⟨8, 8⟩
def SNP_ERR_INFO_SET : Fld := ⟨0, 4⟩
def SNP_ERR_INFO_RANGE : Fld := ⟨4, 8⟩
def SNP_ERR_INFO_KIND : Fld := ⟨12, 3⟩
def SNP_ERR_INFO_STATUS : Fld := ⟨15, 4⟩
def SNP_ERR_INFO_CTX : Fld := ⟨19, 10⟩
def SNP_BYTES_COUNT : Fld := ⟨0, 64⟩
def SNP_COMMITS_COUNT : Fld := ⟨0, 64⟩
def SNP_DROP_COUNT : Fld := ⟨0, 64⟩
def SNP_PHASE_CTRL_EN : Fld := ⟨0, 1⟩
def SNP_PHASE_CTRL_CTX : Fld := ⟨4, 10⟩
def SNP_PHASE_CTRL_CORES : Fld := ⟨16, 9⟩
def SNP_PHASE_MARK_PHASE : Fld := ⟨0, 4⟩
def SNP_PHASE_MARK_END : Fld := ⟨8, 1⟩
def SNP_PHASE_SIG_ADDR : Fld := ⟨0, 64⟩
def SNP_PHASE_STEP_COUNT : Fld := ⟨0, 64⟩
def SNP_PHASE_STAMP_MGMT : Fld := ⟨0, 64⟩
def SNP_PHASE_DUR_MGMT : Fld := ⟨0, 64⟩
def SNP_PH_SUM_CORE_CYC : Fld := ⟨0, 64⟩
def SNP_PH_WALL_CYC : Fld := ⟨0, 64⟩
def SNP_PH_MAX_CYC : Fld := ⟨0, 32⟩
def SNP_PH_MAXCORE_CORE : Fld := ⟨0, 8⟩
def SNP_SET_CFG_VALID : Fld := ⟨0, 1⟩
def SNP_SET_CFG_MODE : Fld := ⟨1, 2⟩
def SNP_SET_CFG_KEEP : Fld := ⟨3, 1⟩
def SNP_SET_CFG_KSRC : Fld := ⟨4, 1⟩
def SNP_SET_CFG_CTX : Fld := ⟨6, 10⟩
def SNP_SET_CFG_BUDDY : Fld := ⟨16, 16⟩
def SNP_SET_STATE_STATE : Fld := ⟨0, 2⟩
def SNP_SET_STATE_DONE : Fld := ⟨2, 9⟩
def SNP_SET_STATE_RANGES : Fld := ⟨11, 9⟩
def SNP_SET_CSTEP_STEP : Fld := ⟨0, 64⟩
def SNP_SET_LREC_DPA : Fld := ⟨3, 43⟩
def SNP_SET_BREC_DPA : Fld := ⟨3, 43⟩
def SNP_SET_READSIG_ADDR : Fld := ⟨0, 64⟩
def SNP_SET_COMMITSIG_ADDR : Fld := ⟨0, 64⟩
def SNP_RANGE_CFG_VALID : Fld := ⟨0, 1⟩
def SNP_RANGE_CFG_SET : Fld := ⟨4, 4⟩
def SNP_RANGE_CFG_TRIG : Fld := ⟨8, 1⟩
def SNP_RANGE_CFG_HELD : Fld := ⟨9, 1⟩
def SNP_RANGE_CFG_DONE : Fld := ⟨10, 1⟩
def SNP_RANGE_LEN_PAGES : Fld := ⟨0, 24⟩
def SNP_RANGE_SRC_CVA : Fld := ⟨16, 32⟩
def SNP_RANGE_LDST_DPA : Fld := ⟨16, 30⟩
def SNP_RANGE_BDST_DPA : Fld := ⟨16, 30⟩
def DET_CTRL_MODE : Fld := ⟨0, 1⟩
def DET_CTRL_RED64 : Fld := ⟨1, 1⟩
def DET_CTRL_DIG_EN : Fld := ⟨2, 1⟩
def DET_CTRL_CTX : Fld := ⟨4, 10⟩
def DET_STATUS_MODE_EFF : Fld := ⟨0, 1⟩
def DET_STATUS_PENDING : Fld := ⟨1, 1⟩
def DET_ENV_FWVER : Fld := ⟨0, 32⟩
def DET_ENV_STEPPING : Fld := ⟨32, 4⟩
def DET_ENV_DISABLED : Fld := ⟨36, 9⟩
def DET_ENV_MODE_EFF : Fld := ⟨45, 1⟩
def DET_ERR_STAT_SHARED_DESC : Fld := ⟨0, 1⟩
def DET_ERR_STAT_REPLAY_DIFF : Fld := ⟨1, 1⟩
def DET_ERR_STAT_REC_OVERFLOW : Fld := ⟨2, 1⟩
def DET_ERR_INFO_CORE : Fld := ⟨0, 8⟩
def DET_ERR_INFO_DESC : Fld := ⟨8, 14⟩
def DET_ERR_INFO_CTX : Fld := ⟨22, 10⟩
def DET_UNITMAP_DISABLED : Fld := ⟨0, 64⟩
def DET_REC_CTRL_EN : Fld := ⟨0, 1⟩
def DET_REC_CTRL_REPLAY : Fld := ⟨1, 1⟩
def DET_REC_CTRL_CTX : Fld := ⟨2, 10⟩
def DET_REC_CTRL_LOG2 : Fld := ⟨16, 5⟩
def DET_REC_BASE_DPA : Fld := ⟨16, 30⟩
def DET_REC_HEAD_COUNT : Fld := ⟨0, 64⟩
def DET_REC_WIN_LO_DPA : Fld := ⟨12, 34⟩
def DET_REC_WIN_HI_DPA : Fld := ⟨12, 34⟩
def DET_REC_LOST_COUNT : Fld := ⟨0, 64⟩
def DET_REC_DIFF_INDEX : Fld := ⟨0, 64⟩
def DET_DIG_A_SUM : Fld := ⟨0, 64⟩
def DET_DIG_B_SUM : Fld := ⟨0, 64⟩
def DET_DIG_C_SUM : Fld := ⟨0, 64⟩
def BOOT_STATUS_STAGE : Fld := ⟨0, 4⟩
def BOOT_STATUS_SOURCE : Fld := ⟨4, 2⟩
def BOOT_STATUS_NO_POINTER : Fld := ⟨6, 1⟩
def BOOT_STATUS_REVERTED : Fld := ⟨7, 1⟩
def BOOT_STATUS_CONFIRMED : Fld := ⟨8, 1⟩
def BOOT_STATUS_ATTEMPTS : Fld := ⟨9, 2⟩
def BOOT_STATUS_NO_BLOCK : Fld := ⟨11, 1⟩
def BOOT_STATUS_COLD : Fld := ⟨12, 1⟩
def BOOT_STATUS_TABLE_SKIP : Fld := ⟨13, 1⟩
def BOOT_CTRL_FLASH_MHZ : Fld := ⟨0, 8⟩
def BOOT_CMD_OP : Fld := ⟨0, 4⟩
def BOOT_CMD_SLOT : Fld := ⟨4, 1⟩
def BOOT_CMD_KEY : Fld := ⟨5, 2⟩
def BOOT_CMD_ARG_OFFSET : Fld := ⟨0, 32⟩
def BOOT_CMD_STAT_BUSY : Fld := ⟨0, 1⟩
def BOOT_CMD_STAT_OP : Fld := ⟨1, 4⟩
def BOOT_CMD_STAT_RESULT : Fld := ⟨8, 4⟩
def BOOT_CMD_STAT_CHECK : Fld := ⟨12, 3⟩
def BOOT_ACTIVE_SLOT : Fld := ⟨0, 1⟩
def BOOT_ACTIVE_VALID : Fld := ⟨1, 1⟩
def BOOT_ACTIVE_REVERT : Fld := ⟨2, 1⟩
def BOOT_ACT_SEQ_SEQ : Fld := ⟨0, 32⟩
def BOOT_FWVER_FWVER : Fld := ⟨0, 32⟩
def BOOT_SLOT_VERIFIED : Fld := ⟨0, 1⟩
def BOOT_SLOT_CHECKED : Fld := ⟨1, 1⟩
def BOOT_SLOT_CHECK : Fld := ⟨4, 3⟩
def BOOT_SLOT_SVN : Fld := ⟨8, 8⟩
def BOOT_SLOT_FWVER : Fld := ⟨32, 32⟩
def BOOT_FUSE_KEY_REVOKED : Fld := ⟨0, 4⟩
def BOOT_FUSE_SVN_MIN : Fld := ⟨8, 8⟩
def BOOT_FUSE_PROVISIONED : Fld := ⟨16, 1⟩
def BOOT_ERR_STAT_FLASH_TRANSIENT : Fld := ⟨0, 1⟩
def BOOT_ERR_STAT_FLASH_LASTING : Fld := ⟨1, 1⟩
def BOOT_ERR_STAT_SLOT_BAD : Fld := ⟨2, 1⟩
def BOOT_ERR_STAT_STARTER_BAD : Fld := ⟨3, 1⟩
def BOOT_ERR_STAT_REC_CRC : Fld := ⟨4, 1⟩
def BOOT_ERR_STAT_CMD_DROP : Fld := ⟨5, 1⟩
def BOOT_ERR_STAT_TRANSIENT_CNT : Fld := ⟨8, 8⟩
def BOOT_ERR_INFO_CHECK : Fld := ⟨0, 3⟩
def BOOT_ERR_INFO_SLOT : Fld := ⟨3, 1⟩
def BOOT_ERR_INFO_RECORD : Fld := ⟨16, 16⟩
def BOOT_REC_SEQ : Fld := ⟨0, 32⟩
def BOOT_DATA_DATA : Fld := ⟨0, 32⟩
def BOOT_STRAP_POS : Fld := ⟨0, 8⟩
def BOOT_STRAP_RECOVERY : Fld := ⟨8, 1⟩
def BOOT_STRAP_UNSTABLE : Fld := ⟨9, 1⟩
def BOOT_ACHAIN_STAT_BLOCK : Fld := ⟨0, 8⟩
def BOOT_ACHAIN_STAT_VALID : Fld := ⟨8, 1⟩
def BOOT_ACHAIN_STAT_HOP : Fld := ⟨16, 8⟩
def BOOT_ACHAIN_CFG_WAIT_MS : Fld := ⟨0, 16⟩
def BOOT_ACHAIN_CMD_RELEARN : Fld := ⟨0, 1⟩
def BOOT_ACHAIN_ERR_PARITY_TRANSIENT : Fld := ⟨0, 1⟩
def BOOT_ACHAIN_ERR_PARITY_LASTING : Fld := ⟨1, 1⟩
def BOOT_ACHAIN_ERR_CONFLICT : Fld := ⟨2, 1⟩
def BOOT_ACHAIN_ERR_BAD_FRAMES : Fld := ⟨8, 8⟩
def CLK_CTRL_REF_PREF : Fld := ⟨0, 1⟩
def CLK_CTRL_FAILOVER : Fld := ⟨1, 1⟩
def CLK_STATUS_REF_ACTIVE : Fld := ⟨0, 1⟩
def CLK_STATUS_A_PRESENT : Fld := ⟨1, 1⟩
def CLK_STATUS_B_PRESENT : Fld := ⟨2, 1⟩
def CLK_STATUS_A_STABLE : Fld := ⟨3, 1⟩
def CLK_STATUS_B_STABLE : Fld := ⟨4, 1⟩
def CLK_STATUS_A_OFF : Fld := ⟨5, 1⟩
def CLK_STATUS_B_OFF : Fld := ⟨6, 1⟩
def CLK_STATUS_XTAL_SUSPECT : Fld := ⟨7, 1⟩
def CLK_STATUS_MARGINAL : Fld := ⟨8, 1⟩
def CLK_STATUS_LOCKED : Fld := ⟨9, 1⟩
def CLK_STATUS_HALTED : Fld := ⟨10, 1⟩
def CLK_STATUS_DOM_SRC : Fld := ⟨11, 2⟩
def CLK_ROOT_MULT : Fld := ⟨0, 7⟩
def CLK_ROOT_ACTIVE_MULT : Fld := ⟨8, 7⟩
def CLK_CMD_RELOCK : Fld := ⟨0, 1⟩
def CLK_MON_CFG_WIN_K : Fld := ⟨0, 16⟩
def CLK_MON_CFG_TOL : Fld := ⟨16, 8⟩
def CLK_MON_CFG_STABLE_N : Fld := ⟨24, 4⟩
def CLK_MON_A_DEV : Fld := ⟨0, 16⟩
def CLK_MON_B_DEV : Fld := ⟨0, 16⟩
def CLK_MON_AB_DEV : Fld := ⟨0, 16⟩
def CLK_ERR_STAT_FAILOVER : Fld := ⟨0, 1⟩
def CLK_ERR_STAT_HALT : Fld := ⟨1, 1⟩
def CLK_ERR_STAT_MGMT_LOSS : Fld := ⟨2, 1⟩
def CLK_ERR_STAT_A_OFF_SEEN : Fld := ⟨3, 1⟩
def CLK_ERR_STAT_B_OFF_SEEN : Fld := ⟨4, 1⟩
def CLK_ERR_STAT_XTAL_SEEN : Fld := ⟨5, 1⟩
def CLK_ERR_STAT_LOCK_LOSS : Fld := ⟨6, 1⟩
def CLK_FAILOVERS_COUNT : Fld := ⟨0, 64⟩
def CLK_RELOCKS_COUNT : Fld := ⟨0, 64⟩
def PWR_CTRL_EN : Fld := ⟨0, 1⟩
def PWR_CTRL_LEND_EN : Fld := ⟨1, 1⟩
def PWR_STATUS_RECOVERING : Fld := ⟨0, 1⟩
def PWR_STATUS_AT_FLOOR : Fld := ⟨1, 1⟩
def PWR_STATUS_PROOF : Fld := ⟨2, 1⟩
def PWR_STATUS_EDGE_HOT : Fld := ⟨3, 1⟩
def PWR_STATUS_TRIPPED : Fld := ⟨4, 1⟩
def PWR_BUDGET_SUSTAIN_W : Fld := ⟨0, 16⟩
def PWR_BUDGET_PEAK_W : Fld := ⟨16, 16⟩
def PWR_CTL_CFG_PEAK_MS : Fld := ⟨0, 8⟩
def PWR_CTL_CFG_RECOVER_W : Fld := ⟨8, 8⟩
def PWR_CTL_CFG_UNIT_W : Fld := ⟨16, 8⟩
def PWR_CTL_CFG_HYST_W : Fld := ⟨24, 8⟩
def PWR_THERM_CFG_THROT_J : Fld := ⟨0, 8⟩
def PWR_THERM_CFG_THROT_D : Fld := ⟨8, 8⟩
def PWR_THERM_CFG_HYST_T : Fld := ⟨16, 4⟩
def PWR_THERM_CFG_MEM_ADMIT : Fld := ⟨20, 4⟩
def PWR_PROOF_CFG_HOLD_LEVEL : Fld := ⟨0, 4⟩
def PWR_PROOF_CFG_FMT : Fld := ⟨4, 4⟩
def PWR_PROOF_CFG_STEP_US : Fld := ⟨8, 16⟩
def PWR_CMD_RESTART : Fld := ⟨0, 1⟩
def PWR_INPUT_P_W : Fld := ⟨0, 16⟩
def PWR_INPUT_HIGH_W : Fld := ⟨16, 16⟩
def PWR_EXCESS_E_MJ : Fld := ⟨0, 16⟩
def PWR_CAPS_C : Fld := ⟨0, 12⟩
def PWR_CAPS_POOL : Fld := ⟨12, 12⟩
def PWR_CAPS_LENDERS : Fld := ⟨24, 8⟩
def PWR_TEMP_J_MAX : Fld := ⟨0, 8⟩
def PWR_TEMP_J_DIE : Fld := ⟨8, 5⟩
def PWR_TEMP_D_MAX : Fld := ⟨16, 8⟩
def PWR_TEMP_D_REGION : Fld := ⟨24, 4⟩
def PWR_ERR_STAT_THERM_TRIP : Fld := ⟨0, 1⟩
def PWR_ERR_STAT_PGOOD_LOSS : Fld := ⟨1, 1⟩
def PWR_ERR_STAT_RAIL_FAULT : Fld := ⟨2, 1⟩
def PWR_ERR_STAT_EDGE_HOT : Fld := ⟨3, 1⟩
def PWR_ERR_STAT_FLOOR : Fld := ⟨4, 1⟩
def PWR_TRIP_INFO_CAUSE : Fld := ⟨0, 2⟩
def PWR_TRIP_INFO_DIE : Fld := ⟨2, 5⟩
def PWR_TRIP_INFO_TEMP : Fld := ⟨8, 8⟩
def PWR_THROT_US_COUNT : Fld := ⟨0, 64⟩
def PWR_RECOVER_US_COUNT : Fld := ⟨0, 64⟩
def PWR_LOANS_COUNT : Fld := ⟨0, 64⟩
def PWR_SD_STATUS_PGOOD_IN : Fld := ⟨0, 1⟩
def PWR_SD_STATUS_RAILS_OK : Fld := ⟨1, 1⟩
def PWR_SD_STATUS_RAILS_ON : Fld := ⟨2, 1⟩
def PWR_SD_STATUS_RAIL_FAULT : Fld := ⟨4, 8⟩
def PWR_SD_VIN_MV : Fld := ⟨0, 16⟩
def PWR_SD_IIN_CA : Fld := ⟨0, 16⟩
def PWR_SD_POWER_W : Fld := ⟨0, 16⟩
def PWR_SD_TEMP_C : Fld := ⟨0, 8⟩
def ERR_STATUS_IN_RESET : Fld := ⟨0, 4⟩
def ERR_STATUS_DISABLED : Fld := ⟨4, 1⟩
def ERR_STATUS_ABORT_STUCK : Fld := ⟨5, 1⟩
def ERR_STATUS_SELFTEST : Fld := ⟨6, 1⟩
def ERR_CMD_LEVEL : Fld := ⟨0, 2⟩
def ERR_CMD_PCORE : Fld := ⟨2, 5⟩
def ERR_CMD_CELL : Fld := ⟨7, 3⟩
def ERR_CMD_RESET : Fld := ⟨10, 1⟩
def ERR_CMD_FENCE : Fld := ⟨11, 1⟩
def ERR_CMD_SELFTEST : Fld := ⟨12, 1⟩
def ERR_TRANSIENT_COUNT : Fld := ⟨0, 64⟩
def ERR_LASTING_COUNT : Fld := ⟨0, 64⟩
def ERR_CTRL_LOG_TRANSIENT : Fld := ⟨0, 1⟩
def ERR_CTRL_AUTO_CHIP : Fld := ⟨1, 1⟩
def ERR_WDOG_CORE_MS : Fld := ⟨0, 16⟩
def ERR_WDOG_FW_MS : Fld := ⟨16, 16⟩
def ERR_REQ_WDOG_REQ_MS : Fld := ⟨0, 16⟩
def ERR_POLICY_WITHDRAW : Fld := ⟨0, 64⟩
def ERR_ABORT_CTX : Fld := ⟨0, 10⟩
def ERR_ABORT_GO : Fld := ⟨15, 1⟩
def ERR_FW_HEART_MCORE : Fld := ⟨0, 3⟩
def ERR_REC_HEAD_COUNT : Fld := ⟨0, 32⟩
def ERR_REC_TAIL_COUNT : Fld := ⟨0, 32⟩
def ERR_REC_LOST_COUNT : Fld := ⟨0, 32⟩
def ERR_CHIP_STATE : Fld := ⟨0, 2⟩
def ERR_CHIP_PHASE : Fld := ⟨2, 5⟩
def ERR_RELEASE_CHIP : Fld := ⟨0, 1⟩
def ERR_RELEASE_UNITS : Fld := ⟨1, 1⟩
def ERR_ORPHANS_COUNT : Fld := ⟨0, 16⟩
def ERR_LATE_DROP_COUNT : Fld := ⟨0, 64⟩
def ERR_REC_0_KIND : Fld := ⟨0, 8⟩
def ERR_REC_0_LEVEL : Fld := ⟨8, 2⟩
def ERR_REC_0_LASTING : Fld := ⟨10, 1⟩
def ERR_REC_0_CTX_VALID : Fld := ⟨11, 1⟩
def ERR_REC_0_CTX : Fld := ⟨12, 10⟩
def ERR_REC_0_DIE : Fld := ⟨22, 5⟩
def ERR_REC_0_UNIT : Fld := ⟨27, 4⟩
def ERR_REC_0_WITHDRAWN : Fld := ⟨31, 1⟩
def ERR_REC_0_CORE : Fld := ⟨32, 8⟩
def ERR_REC_0_GEN : Fld := ⟨40, 8⟩
def ERR_REC_0_TAG : Fld := ⟨48, 16⟩
def ERR_REC_1_ADDR : Fld := ⟨0, 48⟩
def ERR_REC_1_ADDR_VALID : Fld := ⟨62, 1⟩
def ERR_REC_1_ADDR_CVA : Fld := ⟨63, 1⟩
def ERR_REC_2_TIME : Fld := ⟨0, 64⟩
def ERR_REC_3_SEQ : Fld := ⟨0, 32⟩
def ERR_REC_3_DETAIL : Fld := ⟨32, 24⟩
def ERR_REC_3_DUP : Fld := ⟨56, 8⟩
def ERR_ESC_CORE_COUNT : Fld := ⟨0, 4⟩
def ERR_ESC_CORE_DISABLED : Fld := ⟨4, 1⟩
def ERR_ESC_CORE_RETURN : Fld := ⟨5, 1⟩
def ERR_ESC_CORE_LAST_S : Fld := ⟨32, 32⟩
def ERR_ESC_REGION_COUNT : Fld := ⟨0, 4⟩
def ERR_ESC_REGION_DISABLED : Fld := ⟨4, 1⟩
def ERR_ESC_REGION_RETURN : Fld := ⟨5, 1⟩
def ERR_ESC_REGION_LAST_S : Fld := ⟨32, 32⟩
def ERR_ESC_CHIP_COUNT : Fld := ⟨0, 4⟩
def ERR_ESC_CHIP_DISABLED : Fld := ⟨4, 1⟩
def ERR_ESC_CHIP_RETURN : Fld := ⟨5, 1⟩
def ERR_ESC_CHIP_LAST_S : Fld := ⟨32, 32⟩
def DBG_CLAMP_CNT_COUNT : Fld := ⟨0, 32⟩
def DBG_CLAMP_NOCTX_COUNT : Fld := ⟨0, 32⟩
def DBG_CLAMP_LINK_COUNT : Fld := ⟨0, 32⟩
def DBG_CLAMP_LAST_ADDR_ADDR : Fld := ⟨0, 46⟩
def DBG_CLAMP_LAST_INFO_CTX : Fld := ⟨0, 10⟩
def DBG_CLAMP_LAST_INFO_CTX_VALID : Fld := ⟨10, 1⟩
def DBG_CLAMP_LAST_INFO_SOURCE : Fld := ⟨11, 3⟩
def DBG_CLAMP_LAST_INFO_PORT_HI : Fld := ⟨14, 2⟩
def DBG_CLAMP_LAST_INFO_FIELD_LSB : Fld := ⟨16, 5⟩
def DBG_CLAMP_LAST_INFO_RULE : Fld := ⟨21, 2⟩
def DBG_CLAMP_LAST_INFO_PORT_LO : Fld := ⟨23, 1⟩
def DBG_CLAMP_LAST_INFO_WORD : Fld := ⟨24, 8⟩
def DBG_CLAMP_STAT_LAST_VALID : Fld := ⟨0, 1⟩
def DBG_MUX_SEL_SEL : Fld := ⟨0, 8⟩
def DBG_MUX_SEL_MODE : Fld := ⟨8, 2⟩
def DBG_CNT_CTRL_FREEZE : Fld := ⟨0, 1⟩
def DBG_FREEZE_STAMP_MGMT : Fld := ⟨0, 64⟩
def DBG_OBS_CFG_EN : Fld := ⟨0, 1⟩
def DBG_OBS_CFG_SRC : Fld := ⟨1, 1⟩
def DBG_OBS_CFG_DIV : Fld := ⟨2, 2⟩
def DBG_OBS_CFG_STROBE : Fld := ⟨4, 1⟩
def DBG_OBS_CFG_LO_DIE : Fld := ⟨8, 5⟩
def DBG_OBS_CFG_LO_BYTE : Fld := ⟨13, 1⟩
def DBG_OBS_CFG_HI_DIE : Fld := ⟨16, 5⟩
def DBG_OBS_CFG_HI_BYTE : Fld := ⟨21, 1⟩
def DBG_TRIG_CTRL_ARM : Fld := ⟨0, 1⟩
def DBG_TRIG_CTRL_C_MATCH : Fld := ⟨1, 1⟩
def DBG_TRIG_CTRL_C_TRIGIN : Fld := ⟨2, 1⟩
def DBG_TRIG_CTRL_C_BRK : Fld := ⟨3, 1⟩
def DBG_TRIG_CTRL_C_FAULT : Fld := ⟨4, 1⟩
def DBG_TRIG_CTRL_A_OUT : Fld := ⟨8, 1⟩
def DBG_TRIG_CTRL_A_TRACE : Fld := ⟨9, 1⟩
def DBG_TRIG_CTRL_A_FREEZE : Fld := ⟨10, 1⟩
def DBG_TRIG_CTRL_A_HALT : Fld := ⟨11, 1⟩
def DBG_TRIG_MATCH_VALUE : Fld := ⟨0, 16⟩
def DBG_TRIG_MATCH_MASK : Fld := ⟨16, 16⟩
def DBG_TRIG_CFG_COUNT : Fld := ⟨0, 16⟩
def DBG_TRIG_CFG_OUT_LEN : Fld := ⟨16, 8⟩
def DBG_TRIG_CFG_EDGE : Fld := ⟨24, 1⟩
def DBG_TRIG_STAT_HIT : Fld := ⟨0, 1⟩
def DBG_TRIG_STAT_BY : Fld := ⟨1, 5⟩
def DBG_TRIG_STAT_MISSED : Fld := ⟨8, 8⟩
def DBG_TRIG_STAT_OUT : Fld := ⟨16, 1⟩
def DBG_TRIG_CMD_FIRE : Fld := ⟨0, 1⟩
def DBG_TRIG_CMD_CLEAR_OUT : Fld := ⟨1, 1⟩
def DBG_TRIG_HALT_REGIONS : Fld := ⟨0, 16⟩
def DBG_TRACE_CFG_EN : Fld := ⟨0, 1⟩
def DBG_TRACE_CFG_POST : Fld := ⟨16, 13⟩
def DBG_TRACE_STAT_WPTR : Fld := ⟨0, 13⟩
def DBG_TRACE_STAT_TRIG_IDX : Fld := ⟨16, 13⟩
def DBG_TRACE_STAT_FROZEN : Fld := ⟨31, 1⟩
def DBG_TRIG_STAMP_MGMT : Fld := ⟨0, 64⟩
def DBG_TAP_STAT_IR : Fld := ⟨0, 8⟩
def DBG_TAP_STAT_REFUSED : Fld := ⟨8, 8⟩
def DBG_TRACE_SAMPLE : Fld := ⟨16, 16⟩
def MGT_ID_PART : Fld := ⟨0, 16⟩
def MGT_ID_STEPPING : Fld := ⟨16, 4⟩
def MGT_ID_DIE : Fld := ⟨24, 5⟩
def MGT_SERIAL_SERIAL : Fld := ⟨0, 64⟩
def MGT_UPTIME_MGMT : Fld := ⟨0, 64⟩
def MGT_SB_CFG_MODE : Fld := ⟨0, 1⟩
def MGT_SB_CFG_PEC : Fld := ⟨1, 1⟩
def MGT_SB_CFG_IBI_EN : Fld := ⟨2, 1⟩
def MGT_SB_CFG_SPEED : Fld := ⟨4, 2⟩
def MGT_SB_STAT_STATIC : Fld := ⟨0, 7⟩
def MGT_SB_STAT_DYNAMIC : Fld := ⟨8, 7⟩
def MGT_SB_STAT_IBI_PEND : Fld := ⟨15, 1⟩
def MGT_TEL_CTRL_SNAP : Fld := ⟨0, 1⟩
def MGT_TEL_SEQ_COUNT : Fld := ⟨0, 32⟩
def MGT_MBOX_DROP_COUNT : Fld := ⟨0, 32⟩
def MGT_HMB_POST_SLOT : Fld := ⟨0, 3⟩
def MGT_HMB_POST_LEN : Fld := ⟨3, 13⟩
def MGT_HMB_POST_MSGID : Fld := ⟨16, 16⟩
def MGT_HMB_HDR_SRC : Fld := ⟨0, 16⟩
def MGT_HMB_HDR_MSGID : Fld := ⟨16, 16⟩
def MGT_HMB_HDR_LEN : Fld := ⟨32, 13⟩
def MGT_HMB_HDR_VALID : Fld := ⟨63, 1⟩

end Sys2Proof.Machine.Fld
end

