-- ==== Sys2Proof/Machine/Reg.lean ====
section
/-! DEFINITION. The DPA of every register: the die window of R43, the block offset of R44 and the offset of the block's own map. -/

namespace Sys2Proof.Machine.Reg

def CORE_ID (c : Nat) : Nat := coreWindow c + 0
def CORE_STATE (c : Nat) : Nat := coreWindow c + 4
def CORE_RUN (c : Nat) : Nat := coreWindow c + 8
def CORE_PC (c : Nat) : Nat := coreWindow c + 0xc
def CORE_CTX (c : Nat) : Nat := coreWindow c + 0x10
def CORE_QSTAT (c i : Nat) : Nat := coreWindow c + 0x100 + 16 * i
def CORE_QCNT (c i : Nat) : Nat := coreWindow c + 0x104 + 16 * i
def CORE_QTAG (c i : Nat) : Nat := coreWindow c + 0x108 + 16 * i
def CORE_BRK_CTRL (c : Nat) : Nat := coreWindow c + 0x200
def CORE_BRK_COUNT (c : Nat) : Nat := coreWindow c + 0x204
def CORE_BRK_TAG (c : Nat) : Nat := coreWindow c + 0x208
def CORE_BRK_STAT (c : Nat) : Nat := coreWindow c + 0x20c
def CORE_BRK_SEEN (c : Nat) : Nat := coreWindow c + 0x210
def CORE_LINK_CFG (c i : Nat) : Nat := coreWindow c + 0x300 + 8 * i
def CORE_LINK_STAT (c : Nat) : Nat := coreWindow c + 0x380

def MTX_STATUS (c : Nat) : Nat := coreWindow c + 0x10000 + 0
def MTX_RAMP_CFG (c : Nat) : Nat := coreWindow c + 0x10000 + 4
def MTX_PROOF_CTRL (c : Nat) : Nat := coreWindow c + 0x10000 + 8
def MTX_ERR_STAT (c : Nat) : Nat := coreWindow c + 0x10000 + 0xc
def MTX_GROUPS (c : Nat) : Nat := coreWindow c + 0x10000 + 0x10
def MTX_PROOF_CYC (c : Nat) : Nat := coreWindow c + 0x10000 + 0x18
def MTX_STALL_FEED (c : Nat) : Nat := coreWindow c + 0x10000 + 0x20
def MTX_STALL_BANK (c : Nat) : Nat := coreWindow c + 0x10000 + 0x28
def MTX_STALL_LINK (c : Nat) : Nat := coreWindow c + 0x10000 + 0x30
def MTX_RAMP_LOSS (c : Nat) : Nat := coreWindow c + 0x10000 + 0x38
def MTX_SEG_STAT (c : Nat) : Nat := coreWindow c + 0x10000 + 0x40
def MTX_ERR_INFO (c : Nat) : Nat := coreWindow c + 0x10000 + 0x44

def VEC_STATUS (c : Nat) : Nat := coreWindow c + 0x20000 + 0
def VEC_ERR_STAT (c : Nat) : Nat := coreWindow c + 0x20000 + 4
def VEC_ERR_INFO (c : Nat) : Nat := coreWindow c + 0x20000 + 8
def VEC_SAT_ANCHOR (c : Nat) : Nat := coreWindow c + 0x20000 + 0xc
def VEC_SAT_FLOAT (c : Nat) : Nat := coreWindow c + 0x20000 + 0x10
def VEC_ELEMS (c : Nat) : Nat := coreWindow c + 0x20000 + 0x18
def VEC_STALL_BANK (c : Nat) : Nat := coreWindow c + 0x20000 + 0x20
def VEC_STALL_ACC (c : Nat) : Nat := coreWindow c + 0x20000 + 0x28
def VEC_STALL_LINK (c : Nat) : Nat := coreWindow c + 0x20000 + 0x30
def VEC_STALL_HAZARD (c : Nat) : Nat := coreWindow c + 0x20000 + 0x38

def STR_INSTALL (c : Nat) : Nat := coreWindow c + 0x30000 + 0
def STR_PEEK_IDX (c : Nat) : Nat := coreWindow c + 0x30000 + 8
def STR_PEEK_W (c i : Nat) : Nat := coreWindow c + 0x30000 + 0x10 + 4 * i
def STR_PEEK_POS (c : Nat) : Nat := coreWindow c + 0x30000 + 0x30
def STR_ERR_STAT (c : Nat) : Nat := coreWindow c + 0x30000 + 0x40
def STR_ERR_INFO (c : Nat) : Nat := coreWindow c + 0x30000 + 0x44
def STR_STATUS (c i : Nat) : Nat := coreWindow c + 0x30000 + 0x100 + 256 * i
def STR_BUSY (c i : Nat) : Nat := coreWindow c + 0x30000 + 0x108 + 256 * i
def STR_BYTES (c i : Nat) : Nat := coreWindow c + 0x30000 + 0x110 + 256 * i
def STR_REQS (c i : Nat) : Nat := coreWindow c + 0x30000 + 0x118 + 256 * i
def STR_STALL_LINK (c i : Nat) : Nat := coreWindow c + 0x30000 + 0x120 + 256 * i
def STR_STALL_XLATE (c i : Nat) : Nat := coreWindow c + 0x30000 + 0x128 + 256 * i
def STR_STALL_REQ (c i : Nat) : Nat := coreWindow c + 0x30000 + 0x130 + 256 * i
def STR_STALL_CREDIT (c i : Nat) : Nat := coreWindow c + 0x30000 + 0x138 + 256 * i
def STR_STALL_BANK (c i : Nat) : Nat := coreWindow c + 0x30000 + 0x140 + 256 * i
def STR_STALL_MEM (c i : Nat) : Nat := coreWindow c + 0x30000 + 0x148 + 256 * i
def STR_ACTIVE (c i : Nat) : Nat := coreWindow c + 0x30000 + 0x150 + 256 * i

def SYN_STATUS (c : Nat) : Nat := coreWindow c + 0x40000 + 0
def SYN_POLL_CFG (c : Nat) : Nat := coreWindow c + 0x40000 + 4
def SYN_LONGWAIT (c : Nat) : Nat := coreWindow c + 0x40000 + 8
def SYN_WATCH_STAT (c : Nat) : Nat := coreWindow c + 0x40000 + 0xc
def SYN_ERR_STAT (c : Nat) : Nat := coreWindow c + 0x40000 + 0x10
def SYN_ERR_INFO (c : Nat) : Nat := coreWindow c + 0x40000 + 0x14
def SYN_RESULT (c : Nat) : Nat := coreWindow c + 0x40000 + 0x18
def SYN_RESULT_TAG (c : Nat) : Nat := coreWindow c + 0x40000 + 0x20
def SYN_WAIT_TAG (c : Nat) : Nat := coreWindow c + 0x40000 + 0x24
def SYN_WAIT_CYC (c : Nat) : Nat := coreWindow c + 0x40000 + 0x28
def SYN_OPS (c : Nat) : Nat := coreWindow c + 0x40000 + 0x30
def SYN_WAKES (c : Nat) : Nat := coreWindow c + 0x40000 + 0x38
def SYN_WAKE_DROP (c : Nat) : Nat := coreWindow c + 0x40000 + 0x40
def SYN_POLLS (c : Nat) : Nat := coreWindow c + 0x40000 + 0x48
def SYN_FALLBACKS (c : Nat) : Nat := coreWindow c + 0x40000 + 0x50
def SYN_WATCH_CTL (c i : Nat) : Nat := coreWindow c + 0x40000 + 0x1000 + 32 * i
def SYN_WATCH_OPND (c i : Nat) : Nat := coreWindow c + 0x40000 + 0x1008 + 32 * i
def SYN_WATCH_CMP (c i : Nat) : Nat := coreWindow c + 0x40000 + 0x1010 + 32 * i
def SYN_OBJ (c i : Nat) : Nat := coreWindow c + 0x40000 + 0x8000 + 8 * i
def SYN_ADD (c i : Nat) : Nat := coreWindow c + 0x40000 + 0xa000 + 8 * i

def MEM_CTRL (r : Nat) : Nat := dieWindow r + 0x20000000 + 0
def MEM_STATUS (r : Nat) : Nat := dieWindow r + 0x20000000 + 4
def MEM_TEMP (r : Nat) : Nat := dieWindow r + 0x20000000 + 8
def MEM_REF_CFG (r : Nat) : Nat := dieWindow r + 0x20000000 + 0xc
def MEM_SCHED_CFG (r : Nat) : Nat := dieWindow r + 0x20000000 + 0x10
def MEM_SCRUB_CFG (r : Nat) : Nat := dieWindow r + 0x20000000 + 0x14
def MEM_BIST_CTRL (r : Nat) : Nat := dieWindow r + 0x20000000 + 0x18
def MEM_BIST_STAT (r : Nat) : Nat := dieWindow r + 0x20000000 + 0x1c
def MEM_ERR_STAT (r : Nat) : Nat := dieWindow r + 0x20000000 + 0x20
def MEM_ERR_INFO (r : Nat) : Nat := dieWindow r + 0x20000000 + 0x24
def MEM_ERR_ADDR (r : Nat) : Nat := dieWindow r + 0x20000000 + 0x28
def MEM_POOL_STAT (r : Nat) : Nat := dieWindow r + 0x20000000 + 0x30
def MEM_CH_FAIL (r : Nat) : Nat := dieWindow r + 0x20000000 + 0x38
def MEM_TIMING_0 (r : Nat) : Nat := dieWindow r + 0x20000000 + 0x40
def MEM_TIMING_1 (r : Nat) : Nat := dieWindow r + 0x20000000 + 0x44
def MEM_TIMING_2 (r : Nat) : Nat := dieWindow r + 0x20000000 + 0x48
def MEM_TIMING_3 (r : Nat) : Nat := dieWindow r + 0x20000000 + 0x4c
def MEM_CH_STAT (r i : Nat) : Nat := dieWindow r + 0x20000000 + 0x1000 + 64 * i
def MEM_CH_CE (r i : Nat) : Nat := dieWindow r + 0x20000000 + 0x1004 + 64 * i
def MEM_CH_RD (r i : Nat) : Nat := dieWindow r + 0x20000000 + 0x1008 + 64 * i
def MEM_CH_WR (r i : Nat) : Nat := dieWindow r + 0x20000000 + 0x1010 + 64 * i
def MEM_CH_ACT (r i : Nat) : Nat := dieWindow r + 0x20000000 + 0x1018 + 64 * i
def MEM_CH_TURN (r i : Nat) : Nat := dieWindow r + 0x20000000 + 0x1020 + 64 * i
def MEM_CH_REF (r i : Nat) : Nat := dieWindow r + 0x20000000 + 0x1028 + 64 * i
def MEM_CH_BUSY (r i : Nat) : Nat := dieWindow r + 0x20000000 + 0x1030 + 64 * i
def MEM_CH_HOT (r i : Nat) : Nat := dieWindow r + 0x20000000 + 0x1038 + 64 * i

def PGE_CTRL (r : Nat) : Nat := dieWindow r + 0x21000000 + 0
def PGE_STATUS (r : Nat) : Nat := dieWindow r + 0x21000000 + 4
def PGE_ROOT_BASE (r : Nat) : Nat := dieWindow r + 0x21000000 + 8
def PGE_POLICY (r : Nat) : Nat := dieWindow r + 0x21000000 + 0x10
def PGE_EVICT_CFG (r : Nat) : Nat := dieWindow r + 0x21000000 + 0x14
def PGE_INVAL (r : Nat) : Nat := dieWindow r + 0x21000000 + 0x18
def PGE_FAULT_STAT (r : Nat) : Nat := dieWindow r + 0x21000000 + 0x20
def PGE_FAULT_INFO (r : Nat) : Nat := dieWindow r + 0x21000000 + 0x24
def PGE_FAULT_CVA (r : Nat) : Nat := dieWindow r + 0x21000000 + 0x28
def PGE_ERR_STAT (r : Nat) : Nat := dieWindow r + 0x21000000 + 0x30
def PGE_ERR_INFO (r : Nat) : Nat := dieWindow r + 0x21000000 + 0x34
def PGE_ERR_ADDR (r : Nat) : Nat := dieWindow r + 0x21000000 + 0x38
def PGE_TB_HIT (r : Nat) : Nat := dieWindow r + 0x21000000 + 0x40
def PGE_TB_MISS (r : Nat) : Nat := dieWindow r + 0x21000000 + 0x48
def PGE_PROMOTED (r : Nat) : Nat := dieWindow r + 0x21000000 + 0x50
def PGE_DEMOTED (r : Nat) : Nat := dieWindow r + 0x21000000 + 0x58
def PGE_COPY_BYTES (r : Nat) : Nat := dieWindow r + 0x21000000 + 0x60
def PGE_HINT_DROP (r : Nat) : Nat := dieWindow r + 0x21000000 + 0x68
def PGE_HINT_SKIP (r : Nat) : Nat := dieWindow r + 0x21000000 + 0x70
def PGE_MIG_FAIL (r : Nat) : Nat := dieWindow r + 0x21000000 + 0x78

def ALC_CTRL (r : Nat) : Nat := dieWindow r + 0x22000000 + 0
def ALC_STATUS (r : Nat) : Nat := dieWindow r + 0x22000000 + 4
def ALC_SUBMIT (r : Nat) : Nat := dieWindow r + 0x22000000 + 8
def ALC_RESERVE_BASE (r : Nat) : Nat := dieWindow r + 0x22000000 + 0x10
def ALC_RESERVE_SLABS (r : Nat) : Nat := dieWindow r + 0x22000000 + 0x18
def ALC_OWNED (r : Nat) : Nat := dieWindow r + 0x22000000 + 0x1c
def ALC_POLICY (r : Nat) : Nat := dieWindow r + 0x22000000 + 0x20
def ALC_FREE_STK (r : Nat) : Nat := dieWindow r + 0x22000000 + 0x24
def ALC_FREE_CAP (r : Nat) : Nat := dieWindow r + 0x22000000 + 0x28
def ALC_RETIRED (r : Nat) : Nat := dieWindow r + 0x22000000 + 0x2c
def ALC_ERR_STAT (r : Nat) : Nat := dieWindow r + 0x22000000 + 0x30
def ALC_CMDS (r : Nat) : Nat := dieWindow r + 0x22000000 + 0x38

def PWR_RG_STATUS (r : Nat) : Nat := dieWindow r + 0x23000000 + 0
def PWR_RG_EST (r : Nat) : Nat := dieWindow r + 0x23000000 + 4
def PWR_RG_CAP (r i : Nat) : Nat := dieWindow r + 0x23000000 + 0x100 + 4 * i

def LNK_CTRL (l : Nat) : Nat := dieWindow (16 + l) + 0
def LNK_CMD (l : Nat) : Nat := dieWindow (16 + l) + 4
def LNK_STATUS (l : Nat) : Nat := dieWindow (16 + l) + 8
def LNK_PARTNER (l : Nat) : Nat := dieWindow (16 + l) + 0xc
def LNK_TIMERS (l : Nat) : Nat := dieWindow (16 + l) + 0x10
def LNK_SEQ (l : Nat) : Nat := dieWindow (16 + l) + 0x14
def LNK_REPLAY (l : Nat) : Nat := dieWindow (16 + l) + 0x18
def LNK_RXBUF_CFG_0 (l : Nat) : Nat := dieWindow (16 + l) + 0x20
def LNK_RXBUF_CFG_1 (l : Nat) : Nat := dieWindow (16 + l) + 0x28
def LNK_LANE_FAIL (l : Nat) : Nat := dieWindow (16 + l) + 0x30
def LNK_ERR_STAT (l : Nat) : Nat := dieWindow (16 + l) + 0x38
def LNK_ERR_INFO (l : Nat) : Nat := dieWindow (16 + l) + 0x3c
def LNK_TX_FLITS (l : Nat) : Nat := dieWindow (16 + l) + 0x40
def LNK_RX_FLITS (l : Nat) : Nat := dieWindow (16 + l) + 0x48
def LNK_TX_PKTS (l : Nat) : Nat := dieWindow (16 + l) + 0x50
def LNK_RX_PKTS (l : Nat) : Nat := dieWindow (16 + l) + 0x58
def LNK_FEC_CORR (l : Nat) : Nat := dieWindow (16 + l) + 0x60
def LNK_FEC_UNCORR (l : Nat) : Nat := dieWindow (16 + l) + 0x68
def LNK_CRC_ERR (l : Nat) : Nat := dieWindow (16 + l) + 0x70
def LNK_REPLAYS (l : Nat) : Nat := dieWindow (16 + l) + 0x78
def LNK_REPLAY_FLITS (l : Nat) : Nat := dieWindow (16 + l) + 0x80
def LNK_RX_EXCESS (l : Nat) : Nat := dieWindow (16 + l) + 0x88
def LNK_TX_UNSUP (l : Nat) : Nat := dieWindow (16 + l) + 0x90
def LNK_DROPS (l : Nat) : Nat := dieWindow (16 + l) + 0x98
def LNK_DOWNS (l : Nat) : Nat := dieWindow (16 + l) + 0xa0
def LNK_CREDIT_STALL (l : Nat) : Nat := dieWindow (16 + l) + 0xa8
def LNK_REPLAY_STALL (l : Nat) : Nat := dieWindow (16 + l) + 0xb0
def LNK_VC_CRED (l i : Nat) : Nat := dieWindow (16 + l) + 0x100 + 4 * i

def COL_CTRL (l : Nat) : Nat := dieWindow (16 + l) + 0x1000000 + 0
def COL_STATUS (l : Nat) : Nat := dieWindow (16 + l) + 0x1000000 + 4
def COL_WDOG (l : Nat) : Nat := dieWindow (16 + l) + 0x1000000 + 8
def COL_STORE (l : Nat) : Nat := dieWindow (16 + l) + 0x1000000 + 0xc
def COL_ERR_STAT (l : Nat) : Nat := dieWindow (16 + l) + 0x1000000 + 0x10
def COL_ERR_INFO (l : Nat) : Nat := dieWindow (16 + l) + 0x1000000 + 0x14
def COL_ERR_INFO2 (l : Nat) : Nat := dieWindow (16 + l) + 0x1000000 + 0x18
def COL_PIECES_OUT (l : Nat) : Nat := dieWindow (16 + l) + 0x1000000 + 0x40
def COL_PIECES_IN (l : Nat) : Nat := dieWindow (16 + l) + 0x1000000 + 0x48
def COL_BYTES_OUT (l : Nat) : Nat := dieWindow (16 + l) + 0x1000000 + 0x50
def COL_BYTES_IN (l : Nat) : Nat := dieWindow (16 + l) + 0x1000000 + 0x58
def COL_DEPOSITS (l : Nat) : Nat := dieWindow (16 + l) + 0x1000000 + 0x60
def COL_GLAZE_ELEMS (l : Nat) : Nat := dieWindow (16 + l) + 0x1000000 + 0x68
def COL_PEERWAIT_CYC (l : Nat) : Nat := dieWindow (16 + l) + 0x1000000 + 0x70
def COL_LOCALWAIT_CYC (l : Nat) : Nat := dieWindow (16 + l) + 0x1000000 + 0x78
def COL_DISCARD (l : Nat) : Nat := dieWindow (16 + l) + 0x1000000 + 0x80
def COL_SET_CFG0 (l i : Nat) : Nat := dieWindow (16 + l) + 0x1000000 + 0x10000 + 32 * i
def COL_SET_CFG1 (l i : Nat) : Nat := dieWindow (16 + l) + 0x1000000 + 0x10004 + 32 * i
def COL_SET_CFG2 (l i : Nat) : Nat := dieWindow (16 + l) + 0x1000000 + 0x10008 + 32 * i
def COL_SET_CFG3 (l i : Nat) : Nat := dieWindow (16 + l) + 0x1000000 + 0x1000c + 32 * i
def COL_SET_PERM (l i : Nat) : Nat := dieWindow (16 + l) + 0x1000000 + 0x10010 + 32 * i
def COL_SET_SAT (l i : Nat) : Nat := dieWindow (16 + l) + 0x1000000 + 0x10018 + 32 * i
def COL_SET_PEERWAIT (l i : Nat) : Nat := dieWindow (16 + l) + 0x1000000 + 0x1001c + 32 * i

def RTE_CTRL (l : Nat) : Nat := dieWindow (16 + l) + 0x2000000 + 0
def RTE_SELF (l : Nat) : Nat := dieWindow (16 + l) + 0x2000000 + 4
def RTE_IDSTAT (l : Nat) : Nat := dieWindow (16 + l) + 0x2000000 + 8
def RTE_MACH (l : Nat) : Nat := dieWindow (16 + l) + 0x2000000 + 0xc
def RTE_PART (l : Nat) : Nat := dieWindow (16 + l) + 0x2000000 + 0x10
def RTE_ARB (l : Nat) : Nat := dieWindow (16 + l) + 0x2000000 + 0x14
def RTE_ARB2 (l : Nat) : Nat := dieWindow (16 + l) + 0x2000000 + 0x18
def RTE_MAP (l i : Nat) : Nat := dieWindow (16 + l) + 0x2000000 + 0x20 + 8 * i
def RTE_DETOUR (l i : Nat) : Nat := dieWindow (16 + l) + 0x2000000 + 0x40 + 4 * i
def RTE_ERR_STAT (l : Nat) : Nat := dieWindow (16 + l) + 0x2000000 + 0x60
def RTE_ERR_INFO (l : Nat) : Nat := dieWindow (16 + l) + 0x2000000 + 0x64
def RTE_OUT_PKTS (l : Nat) : Nat := dieWindow (16 + l) + 0x2000000 + 0x80
def RTE_TRANSIT (l : Nat) : Nat := dieWindow (16 + l) + 0x2000000 + 0x88
def RTE_ESCAPED (l : Nat) : Nat := dieWindow (16 + l) + 0x2000000 + 0x90
def RTE_DETOURED (l : Nat) : Nat := dieWindow (16 + l) + 0x2000000 + 0x98
def RTE_NOROUTE (l : Nat) : Nat := dieWindow (16 + l) + 0x2000000 + 0xa0
def RTE_DLWAIT (l : Nat) : Nat := dieWindow (16 + l) + 0x2000000 + 0xa8
def RTE_VC2_CAPPED (l : Nat) : Nat := dieWindow (16 + l) + 0x2000000 + 0xb0
def RTE_SUB (l i : Nat) : Nat := dieWindow (16 + l) + 0x2000000 + 0x100 + 8 * i
def RTE_INJ (l i : Nat) : Nat := dieWindow (16 + l) + 0x2000000 + 0x400 + 8 * i
def RTE_CIRC (l i : Nat) : Nat := dieWindow (16 + l) + 0x2000000 + 0x800 + 4 * i
def RTE_JOIN (l i : Nat) : Nat := dieWindow (16 + l) + 0x2000000 + 0xa00 + 4 * i
def RTE_VC_FLITS (l i : Nat) : Nat := dieWindow (16 + l) + 0x2000000 + 0xc00 + 8 * i

def FEN_PORT_CFG (l : Nat) : Nat := dieWindow (16 + l) + 0x3000000 + 0
def FEN_STATUS (l : Nat) : Nat := dieWindow (16 + l) + 0x3000000 + 4
def FEN_CMD (l : Nat) : Nat := dieWindow (16 + l) + 0x3000000 + 8
def FEN_ALERT (l : Nat) : Nat := dieWindow (16 + l) + 0x3000000 + 0xc
def FEN_ALERT_CAUSE (l : Nat) : Nat := dieWindow (16 + l) + 0x3000000 + 0x10
def FEN_ERR_STAT (l : Nat) : Nat := dieWindow (16 + l) + 0x3000000 + 0x18
def FEN_DROP_IN (l : Nat) : Nat := dieWindow (16 + l) + 0x3000000 + 0x20
def FEN_DROP_OUT (l : Nat) : Nat := dieWindow (16 + l) + 0x3000000 + 0x28
def FEN_REFUSED (l : Nat) : Nat := dieWindow (16 + l) + 0x3000000 + 0x30

def CAP_CTRL (d : Nat) : Nat := dieWindow (24 + d) + 0
def CAP_CMD (d : Nat) : Nat := dieWindow (24 + d) + 4
def CAP_STATUS (d : Nat) : Nat := dieWindow (24 + d) + 8
def CAP_PORT_INFO (d i : Nat) : Nat := dieWindow (24 + d) + 0x10 + 4 * i
def CAP_SCRUB_CFG (d : Nat) : Nat := dieWindow (24 + d) + 0x20
def CAP_SCHED_CFG (d : Nat) : Nat := dieWindow (24 + d) + 0x24
def CAP_TIMING_0 (d : Nat) : Nat := dieWindow (24 + d) + 0x40
def CAP_TIMING_1 (d : Nat) : Nat := dieWindow (24 + d) + 0x44
def CAP_TIMING_2 (d : Nat) : Nat := dieWindow (24 + d) + 0x48
def CAP_TIMING_3 (d : Nat) : Nat := dieWindow (24 + d) + 0x4c
def CAP_TIMING_4 (d : Nat) : Nat := dieWindow (24 + d) + 0x50
def CAP_ERR_STAT (d : Nat) : Nat := dieWindow (24 + d) + 0x60
def CAP_ERR_INFO (d : Nat) : Nat := dieWindow (24 + d) + 0x64
def CAP_ERR_ADDR (d : Nat) : Nat := dieWindow (24 + d) + 0x68
def CAP_P_RD (d i : Nat) : Nat := dieWindow (24 + d) + 0x1000 + 64 * i
def CAP_P_WR (d i : Nat) : Nat := dieWindow (24 + d) + 0x1008 + 64 * i
def CAP_P_BUSY (d i : Nat) : Nat := dieWindow (24 + d) + 0x1010 + 64 * i
def CAP_P_REF (d i : Nat) : Nat := dieWindow (24 + d) + 0x1018 + 64 * i
def CAP_P_CE (d i : Nat) : Nat := dieWindow (24 + d) + 0x1020 + 64 * i
def CAP_P_HOT (d i : Nat) : Nat := dieWindow (24 + d) + 0x1024 + 64 * i

def HUB_CTRL (h : Nat) : Nat := dieWindow (28 + h) + 0
def HUB_STATUS (h : Nat) : Nat := dieWindow (28 + h) + 4
def HUB_PCI_ID (h : Nat) : Nat := dieWindow (28 + h) + 8
def HUB_IRQ_CFG (h : Nat) : Nat := dieWindow (28 + h) + 0xc
def HUB_BAR2_BASE (h : Nat) : Nat := dieWindow (28 + h) + 0x10
def HUB_LANE_MAP (h : Nat) : Nat := dieWindow (28 + h) + 0x18
def HUB_ERR_STAT (h : Nat) : Nat := dieWindow (28 + h) + 0x20
def HUB_RX_BYTES (h : Nat) : Nat := dieWindow (28 + h) + 0x40
def HUB_TX_BYTES (h : Nat) : Nat := dieWindow (28 + h) + 0x48
def HUB_CPL_DROP (h : Nat) : Nat := dieWindow (28 + h) + 0x50
def HUB_IW (h i : Nat) : Nat := dieWindow (28 + h) + 0x10000 + 8 * i
def HUB_IW_ADD (h i : Nat) : Nat := dieWindow (28 + h) + 0x11000 + 8 * i
def HUB_DB (h i : Nat) : Nat := dieWindow (28 + h) + 0x20000 + 8 * i
def HUB_DB_ADD (h i : Nat) : Nat := dieWindow (28 + h) + 0x22000 + 8 * i

def SCH_CTRL : Nat := dieWindow 28 + 0x1000000 + 0
def SCH_STATUS : Nat := dieWindow 28 + 0x1000000 + 4
def SCH_POLICY : Nat := dieWindow 28 + 0x1000000 + 8
def SCH_ERR_STAT : Nat := dieWindow 28 + 0x1000000 + 0xc
def SCH_ERR_INFO : Nat := dieWindow 28 + 0x1000000 + 0x10
def SCH_EXIT : Nat := dieWindow 28 + 0x1000000 + 0x100
def SCH_SWITCHES : Nat := dieWindow 28 + 0x1000000 + 0x200
def SCH_SWITCH_CYC : Nat := dieWindow 28 + 0x1000000 + 0x208
def SCH_SWITCH_BYTES : Nat := dieWindow 28 + 0x1000000 + 0x210
def SCH_HELD_OPEN : Nat := dieWindow 28 + 0x1000000 + 0x218
def SCH_CORE (i : Nat) : Nat := dieWindow 28 + 0x1000000 + 0x1000 + 8 * i
def SCH_CTX_CTRL (i : Nat) : Nat := dieWindow 28 + 0x1000000 + 0x10000 + 64 * i
def SCH_CTX_SPM (i : Nat) : Nat := dieWindow 28 + 0x1000000 + 0x10004 + 64 * i
def SCH_CTX_SAVE (i : Nat) : Nat := dieWindow 28 + 0x1000000 + 0x10008 + 64 * i
def SCH_CTX_RING_BASE (i : Nat) : Nat := dieWindow 28 + 0x1000000 + 0x10010 + 64 * i
def SCH_CTX_RING (i : Nat) : Nat := dieWindow 28 + 0x1000000 + 0x10018 + 64 * i
def SCH_CTX_RUN (i : Nat) : Nat := dieWindow 28 + 0x1000000 + 0x1001c + 64 * i
def SCH_CTX_MASK (i j : Nat) : Nat := dieWindow 28 + 0x1000000 + 0x10020 + 64 * i + 8 * j
def SCH_CTX_VT (i : Nat) : Nat := dieWindow 28 + 0x1000000 + 0x20000 + 8 * i
def SCH_PRES (i j : Nat) : Nat := dieWindow 28 + 0x1000000 + 0x40000 + 1024 * i + 4 * j

def SNP_CTRL : Nat := dieWindow 28 + 0x2000000 + 0
def SNP_STATUS : Nat := dieWindow 28 + 0x2000000 + 4
def SNP_DOMAIN : Nat := dieWindow 28 + 0x2000000 + 8
def SNP_CMD : Nat := dieWindow 28 + 0x2000000 + 0xc
def SNP_MIRROR : Nat := dieWindow 28 + 0x2000000 + 0x10
def SNP_RESTORE_STEP : Nat := dieWindow 28 + 0x2000000 + 0x18
def SNP_ERR_STAT : Nat := dieWindow 28 + 0x2000000 + 0x20
def SNP_ERR_INFO : Nat := dieWindow 28 + 0x2000000 + 0x24
def SNP_BYTES : Nat := dieWindow 28 + 0x2000000 + 0x40
def SNP_COMMITS : Nat := dieWindow 28 + 0x2000000 + 0x48
def SNP_DROP : Nat := dieWindow 28 + 0x2000000 + 0x50
def SNP_PHASE_CTRL : Nat := dieWindow 28 + 0x2000000 + 0x100
def SNP_PHASE_MARK : Nat := dieWindow 28 + 0x2000000 + 0x104
def SNP_PHASE_SIG : Nat := dieWindow 28 + 0x2000000 + 0x108
def SNP_PHASE_STEP : Nat := dieWindow 28 + 0x2000000 + 0x110
def SNP_PHASE_STAMP : Nat := dieWindow 28 + 0x2000000 + 0x118
def SNP_PHASE_DUR : Nat := dieWindow 28 + 0x2000000 + 0x120
def SNP_PH_SUM (i : Nat) : Nat := dieWindow 28 + 0x2000000 + 0x1000 + 32 * i
def SNP_PH_WALL (i : Nat) : Nat := dieWindow 28 + 0x2000000 + 0x1008 + 32 * i
def SNP_PH_MAX (i : Nat) : Nat := dieWindow 28 + 0x2000000 + 0x1010 + 32 * i
def SNP_PH_MAXCORE (i : Nat) : Nat := dieWindow 28 + 0x2000000 + 0x1014 + 32 * i
def SNP_SET_CFG (i : Nat) : Nat := dieWindow 28 + 0x2000000 + 0x2000 + 64 * i
def SNP_SET_STATE (i : Nat) : Nat := dieWindow 28 + 0x2000000 + 0x2004 + 64 * i
def SNP_SET_CSTEP (i : Nat) : Nat := dieWindow 28 + 0x2000000 + 0x2008 + 64 * i
def SNP_SET_LREC (i : Nat) : Nat := dieWindow 28 + 0x2000000 + 0x2010 + 64 * i
def SNP_SET_BREC (i : Nat) : Nat := dieWindow 28 + 0x2000000 + 0x2018 + 64 * i
def SNP_SET_READSIG (i : Nat) : Nat := dieWindow 28 + 0x2000000 + 0x2020 + 64 * i
def SNP_SET_COMMITSIG (i : Nat) : Nat := dieWindow 28 + 0x2000000 + 0x2028 + 64 * i
def SNP_RANGE_CFG (i : Nat) : Nat := dieWindow 28 + 0x2000000 + 0x4000 + 32 * i
def SNP_RANGE_LEN (i : Nat) : Nat := dieWindow 28 + 0x2000000 + 0x4004 + 32 * i
def SNP_RANGE_SRC (i : Nat) : Nat := dieWindow 28 + 0x2000000 + 0x4008 + 32 * i
def SNP_RANGE_LDST (i : Nat) : Nat := dieWindow 28 + 0x2000000 + 0x4010 + 32 * i
def SNP_RANGE_BDST (i : Nat) : Nat := dieWindow 28 + 0x2000000 + 0x4018 + 32 * i

def DET_CTRL : Nat := dieWindow 28 + 0x3000000 + 0
def DET_STATUS : Nat := dieWindow 28 + 0x3000000 + 4
def DET_ENV : Nat := dieWindow 28 + 0x3000000 + 8
def DET_ERR_STAT : Nat := dieWindow 28 + 0x3000000 + 0x10
def DET_ERR_INFO : Nat := dieWindow 28 + 0x3000000 + 0x14
def DET_UNITMAP (i : Nat) : Nat := dieWindow 28 + 0x3000000 + 0x20 + 8 * i
def DET_REC_CTRL : Nat := dieWindow 28 + 0x3000000 + 0x40
def DET_REC_BASE : Nat := dieWindow 28 + 0x3000000 + 0x48
def DET_REC_HEAD : Nat := dieWindow 28 + 0x3000000 + 0x50
def DET_REC_WIN_LO : Nat := dieWindow 28 + 0x3000000 + 0x58
def DET_REC_WIN_HI : Nat := dieWindow 28 + 0x3000000 + 0x60
def DET_REC_LOST : Nat := dieWindow 28 + 0x3000000 + 0x68
def DET_REC_DIFF : Nat := dieWindow 28 + 0x3000000 + 0x70
def DET_DIG_A (i : Nat) : Nat := dieWindow 28 + 0x3000000 + 0x1000 + 32 * i
def DET_DIG_B (i : Nat) : Nat := dieWindow 28 + 0x3000000 + 0x1008 + 32 * i
def DET_DIG_C (i : Nat) : Nat := dieWindow 28 + 0x3000000 + 0x1010 + 32 * i

def BOOT_STATUS (h : Nat) : Nat := dieWindow (28 + h) + 0x4000000 + 0
def BOOT_CTRL (h : Nat) : Nat := dieWindow (28 + h) + 0x4000000 + 4
def BOOT_CMD (h : Nat) : Nat := dieWindow (28 + h) + 0x4000000 + 8
def BOOT_CMD_ARG (h : Nat) : Nat := dieWindow (28 + h) + 0x4000000 + 0xc
def BOOT_CMD_STAT (h : Nat) : Nat := dieWindow (28 + h) + 0x4000000 + 0x10
def BOOT_ACTIVE (h : Nat) : Nat := dieWindow (28 + h) + 0x4000000 + 0x14
def BOOT_ACT_SEQ (h : Nat) : Nat := dieWindow (28 + h) + 0x4000000 + 0x18
def BOOT_FWVER (h : Nat) : Nat := dieWindow (28 + h) + 0x4000000 + 0x1c
def BOOT_SLOT (h i : Nat) : Nat := dieWindow (28 + h) + 0x4000000 + 0x20 + 8 * i
def BOOT_FUSE (h : Nat) : Nat := dieWindow (28 + h) + 0x4000000 + 0x30
def BOOT_ERR_STAT (h : Nat) : Nat := dieWindow (28 + h) + 0x4000000 + 0x34
def BOOT_ERR_INFO (h : Nat) : Nat := dieWindow (28 + h) + 0x4000000 + 0x38
def BOOT_REC (h : Nat) : Nat := dieWindow (28 + h) + 0x4000000 + 0x3c
def BOOT_DATA (h i : Nat) : Nat := dieWindow (28 + h) + 0x4000000 + 0x100 + 4 * i
def BOOT_STRAP (h : Nat) : Nat := dieWindow (28 + h) + 0x4000000 + 0x800
def BOOT_ACHAIN_STAT (h : Nat) : Nat := dieWindow (28 + h) + 0x4000000 + 0x804
def BOOT_ACHAIN_CFG (h : Nat) : Nat := dieWindow (28 + h) + 0x4000000 + 0x808
def BOOT_ACHAIN_CMD (h : Nat) : Nat := dieWindow (28 + h) + 0x4000000 + 0x80c
def BOOT_ACHAIN_ERR (h : Nat) : Nat := dieWindow (28 + h) + 0x4000000 + 0x810

def CLK_CTRL : Nat := dieWindow 28 + 0x5000000 + 0
def CLK_STATUS : Nat := dieWindow 28 + 0x5000000 + 4
def CLK_ROOT : Nat := dieWindow 28 + 0x5000000 + 8
def CLK_CMD : Nat := dieWindow 28 + 0x5000000 + 0xc
def CLK_MON_CFG : Nat := dieWindow 28 + 0x5000000 + 0x10
def CLK_MON_A : Nat := dieWindow 28 + 0x5000000 + 0x14
def CLK_MON_B : Nat := dieWindow 28 + 0x5000000 + 0x18
def CLK_MON_AB : Nat := dieWindow 28 + 0x5000000 + 0x1c
def CLK_ERR_STAT : Nat := dieWindow 28 + 0x5000000 + 0x20
def CLK_FAILOVERS : Nat := dieWindow 28 + 0x5000000 + 0x28
def CLK_RELOCKS : Nat := dieWindow 28 + 0x5000000 + 0x30

def PWR_CTRL : Nat := dieWindow 28 + 0x6000000 + 0
def PWR_STATUS : Nat := dieWindow 28 + 0x6000000 + 4
def PWR_BUDGET : Nat := dieWindow 28 + 0x6000000 + 8
def PWR_CTL_CFG : Nat := dieWindow 28 + 0x6000000 + 0xc
def PWR_THERM_CFG : Nat := dieWindow 28 + 0x6000000 + 0x10
def PWR_PROOF_CFG : Nat := dieWindow 28 + 0x6000000 + 0x14
def PWR_CMD : Nat := dieWindow 28 + 0x6000000 + 0x18
def PWR_INPUT : Nat := dieWindow 28 + 0x6000000 + 0x20
def PWR_EXCESS : Nat := dieWindow 28 + 0x6000000 + 0x24
def PWR_CAPS : Nat := dieWindow 28 + 0x6000000 + 0x28
def PWR_TEMP : Nat := dieWindow 28 + 0x6000000 + 0x2c
def PWR_ERR_STAT : Nat := dieWindow 28 + 0x6000000 + 0x30
def PWR_TRIP_INFO : Nat := dieWindow 28 + 0x6000000 + 0x34
def PWR_THROT_US : Nat := dieWindow 28 + 0x6000000 + 0x40
def PWR_RECOVER_US : Nat := dieWindow 28 + 0x6000000 + 0x48
def PWR_LOANS : Nat := dieWindow 28 + 0x6000000 + 0x50

def PWR_SD_STATUS (s : Nat) : Nat := dieWindow (30 + s) + 0
def PWR_SD_VIN (s : Nat) : Nat := dieWindow (30 + s) + 4
def PWR_SD_IIN (s : Nat) : Nat := dieWindow (30 + s) + 8
def PWR_SD_POWER (s : Nat) : Nat := dieWindow (30 + s) + 0xc
def PWR_SD_TEMP (s : Nat) : Nat := dieWindow (30 + s) + 0x10

def ERR_STATUS (d : Nat) : Nat := dieWindow d + 0x2F000000 + 0
def ERR_CMD (d : Nat) : Nat := dieWindow d + 0x2F000000 + 4
def ERR_TRANSIENT (d : Nat) : Nat := dieWindow d + 0x2F000000 + 8
def ERR_LASTING (d : Nat) : Nat := dieWindow d + 0x2F000000 + 0x10
def ERR_CTRL : Nat := dieWindow 28 + 0x2F000000 + 0x100
def ERR_WDOG : Nat := dieWindow 28 + 0x2F000000 + 0x104
def ERR_REQ_WDOG : Nat := dieWindow 28 + 0x2F000000 + 0x108
def ERR_POLICY : Nat := dieWindow 28 + 0x2F000000 + 0x110
def ERR_ABORT : Nat := dieWindow 28 + 0x2F000000 + 0x118
def ERR_FW_HEART : Nat := dieWindow 28 + 0x2F000000 + 0x11c
def ERR_REC_HEAD : Nat := dieWindow 28 + 0x2F000000 + 0x120
def ERR_REC_TAIL : Nat := dieWindow 28 + 0x2F000000 + 0x124
def ERR_REC_LOST : Nat := dieWindow 28 + 0x2F000000 + 0x128
def ERR_CHIP : Nat := dieWindow 28 + 0x2F000000 + 0x12c
def ERR_RELEASE : Nat := dieWindow 28 + 0x2F000000 + 0x130
def ERR_ORPHANS : Nat := dieWindow 28 + 0x2F000000 + 0x134
def ERR_LATE_DROP : Nat := dieWindow 28 + 0x2F000000 + 0x140
def ERR_REC (i j : Nat) : Nat := dieWindow 28 + 0x2F000000 + 0x1000 + 32 * i + 8 * j
def ERR_ESC_CORE (i : Nat) : Nat := dieWindow 28 + 0x2F000000 + 0x3000 + 8 * i
def ERR_ESC_REGION (i : Nat) : Nat := dieWindow 28 + 0x2F000000 + 0x3900 + 8 * i
def ERR_ESC_CHIP : Nat := dieWindow 28 + 0x2F000000 + 0x3980

def DBG_CLAMP_CNT (i : Nat) : Nat := dieWindow 28 + 0x30000000 + 0x1000 + 4 * i
def DBG_CLAMP_NOCTX : Nat := dieWindow 28 + 0x30000000 + 0x2000
def DBG_CLAMP_LINK (i : Nat) : Nat := dieWindow 28 + 0x30000000 + 0x2020 + 4 * i
def DBG_CLAMP_LAST_ADDR : Nat := dieWindow 28 + 0x30000000 + 0x2040
def DBG_CLAMP_LAST_INFO : Nat := dieWindow 28 + 0x30000000 + 0x2048
def DBG_CLAMP_STAT : Nat := dieWindow 28 + 0x30000000 + 0x204c
def DBG_MUX_SEL (d : Nat) : Nat := dieWindow d + 0x30000000 + 0
def DBG_CNT_CTRL (d : Nat) : Nat := dieWindow d + 0x30000000 + 4
def DBG_FREEZE_STAMP (d : Nat) : Nat := dieWindow d + 0x30000000 + 8
def DBG_OBS_CFG : Nat := dieWindow 29 + 0x30000000 + 0x100
def DBG_TRIG_CTRL : Nat := dieWindow 29 + 0x30000000 + 0x104
def DBG_TRIG_MATCH : Nat := dieWindow 29 + 0x30000000 + 0x108
def DBG_TRIG_CFG : Nat := dieWindow 29 + 0x30000000 + 0x10c
def DBG_TRIG_STAT : Nat := dieWindow 29 + 0x30000000 + 0x110
def DBG_TRIG_CMD : Nat := dieWindow 29 + 0x30000000 + 0x114
def DBG_TRIG_HALT : Nat := dieWindow 29 + 0x30000000 + 0x118
def DBG_TRACE_CFG : Nat := dieWindow 29 + 0x30000000 + 0x120
def DBG_TRACE_STAT : Nat := dieWindow 29 + 0x30000000 + 0x124
def DBG_TRIG_STAMP : Nat := dieWindow 29 + 0x30000000 + 0x128
def DBG_TAP_STAT : Nat := dieWindow 29 + 0x30000000 + 0x300
def DBG_TRACE (i : Nat) : Nat := dieWindow 29 + 0x30000000 + 0x4000 + 4 * i

def MGT_ID (h : Nat) : Nat := dieWindow (28 + h) + 0x38000000 + 0
def MGT_SERIAL (h : Nat) : Nat := dieWindow (28 + h) + 0x38000000 + 8
def MGT_UPTIME (h : Nat) : Nat := dieWindow (28 + h) + 0x38000000 + 0x10
def MGT_SB_CFG (h : Nat) : Nat := dieWindow (28 + h) + 0x38000000 + 0x18
def MGT_SB_STAT (h : Nat) : Nat := dieWindow (28 + h) + 0x38000000 + 0x1c
def MGT_TEL_CTRL (h : Nat) : Nat := dieWindow (28 + h) + 0x38000000 + 0x20
def MGT_TEL_SEQ (h : Nat) : Nat := dieWindow (28 + h) + 0x38000000 + 0x24
def MGT_TEL (h i : Nat) : Nat := dieWindow (28 + h) + 0x38000000 + 0x40 + 8 * i
def MGT_MBOX_DROP (h : Nat) : Nat := dieWindow (28 + h) + 0x38000000 + 0x100
def MGT_HMB_POST (h : Nat) : Nat := dieWindow (28 + h) + 0x38000000 + 0x108
def MGT_HMB_HDR (h i : Nat) : Nat := dieWindow (28 + h) + 0x38000000 + 0x200 + 8 * i

end Sys2Proof.Machine.Reg
end

