-- ==== Sys2Proof/Machine/RegTable.lean ====
section
/-! DEFINITION. The register maps of the spec, block by block (R69, R119, R190, R221, R247, R270, R305, R328, R359, R360,
R381, R418, R454, R493, R494, R515, R525, R557, R585, R586, R612, R635, R636, R649): one row for each register, with the fields
a write or a read acts on (read-only fields take no write and are left out of the rows; `Fld` names them all). -/

namespace Sys2Proof.Machine

/-- Rows of the CORE_ register map. -/
def coreRows0 : List RegRow := [
  ⟨"CORE_ID", 0, 0, 1, 0, 1, 4, false, 0, []⟩,
  ⟨"CORE_STATE", 4, 0, 1, 0, 1, 4, false, 1, []⟩,
  ⟨"CORE_RUN", 8, 0, 1, 0, 1, 4, true, 0, [⟨0, 1, .wo, .any⟩, ⟨1, 1, .wo, .any⟩]⟩,
  ⟨"CORE_PC", 0xc, 0, 1, 0, 1, 4, false, 0, []⟩,
  ⟨"CORE_CTX", 0x10, 0, 1, 0, 1, 4, false, 0, []⟩,
  ⟨"CORE_QSTAT_e", 0x100, 16, 5, 0, 1, 4, false, 0, []⟩,
  ⟨"CORE_QCNT_e", 0x104, 16, 5, 0, 1, 4, false, 0, []⟩,
  ⟨"CORE_QTAG_e", 0x108, 16, 5, 0, 1, 4, false, 0, []⟩,
  ⟨"CORE_BRK_CTRL", 0x200, 0, 1, 0, 1, 4, false, 0, [⟨0, 1, .rw, .any⟩, ⟨1, 1, .rw, .any⟩, ⟨2, 3, .rw, (.range 0 4)⟩, ⟨5, 1, .rw, .any⟩, ⟨16, 10, .rw, .any⟩, ⟨26, 1, .rw, .any⟩]⟩,
  ⟨"CORE_BRK_COUNT", 0x204, 0, 1, 0, 1, 4, false, 1, [⟨0, 32, .rw, (.range 1 0xffffffff)⟩]⟩,
  ⟨"CORE_BRK_TAG", 0x208, 0, 1, 0, 1, 4, false, 0, [⟨0, 16, .rw, .any⟩, ⟨16, 16, .rw, .any⟩]⟩,
  ⟨"CORE_BRK_STAT", 0x20c, 0, 1, 0, 1, 4, false, 0, []⟩]

/-- Further rows of the CORE_ register map. -/
def coreRows1 : List RegRow := [
  ⟨"CORE_BRK_SEEN", 0x210, 0, 1, 0, 1, 4, false, 0, []⟩,
  ⟨"CORE_LINK_CFG_k", 0x300, 8, 15, 0, 1, 8, false, 0x1000000, [⟨0, 24, .rw, (.align 0x100)⟩, ⟨24, 16, .rw, (.range 1 0x8000)⟩, ⟨40, 3, .rw, (.range 0 4)⟩, ⟨43, 3, .rw, (.range 0 4)⟩]⟩,
  ⟨"CORE_LINK_STAT", 0x380, 0, 1, 0, 1, 8, false, 0, []⟩]

/-- The CORE_ register map. -/
def coreRows : List RegRow := coreRows0 ++ coreRows1

/-- Rows of the MTX_ register map. -/
def mtxRows0 : List RegRow := [
  ⟨"MTX_STATUS", 0, 0, 1, 0, 1, 4, false, 0, []⟩,
  ⟨"MTX_RAMP_CFG", 4, 0, 1, 0, 1, 4, false, 0x40, [⟨0, 16, .rw, .any⟩]⟩,
  ⟨"MTX_PROOF_CTRL", 8, 0, 1, 0, 1, 4, false, 2, [⟨0, 1, .rw, .any⟩, ⟨1, 4, .rw, (.range 1 8)⟩, ⟨8, 4, .rw, (.take 0xb 0xf 0xa)⟩]⟩,
  ⟨"MTX_ERR_STAT", 0xc, 0, 1, 0, 1, 4, false, 0, [⟨0, 1, .w1c, .any⟩, ⟨1, 1, .w1c, .any⟩, ⟨2, 1, .w1c, .any⟩, ⟨8, 8, .rc, .any⟩]⟩,
  ⟨"MTX_GROUPS", 0x10, 0, 1, 0, 1, 8, false, 0, []⟩,
  ⟨"MTX_PROOF_CYC", 0x18, 0, 1, 0, 1, 8, false, 0, []⟩,
  ⟨"MTX_STALL_FEED", 0x20, 0, 1, 0, 1, 8, false, 0, []⟩,
  ⟨"MTX_STALL_BANK", 0x28, 0, 1, 0, 1, 8, false, 0, []⟩,
  ⟨"MTX_STALL_LINK", 0x30, 0, 1, 0, 1, 8, false, 0, []⟩,
  ⟨"MTX_RAMP_LOSS", 0x38, 0, 1, 0, 1, 8, false, 0, []⟩,
  ⟨"MTX_SEG_STAT", 0x40, 0, 1, 0, 1, 4, false, 0, []⟩,
  ⟨"MTX_ERR_INFO", 0x44, 0, 1, 0, 1, 4, false, 0, []⟩]

/-- The MTX_ register map. -/
def mtxRows : List RegRow := mtxRows0

/-- Rows of the VEC_ register map. -/
def vecRows0 : List RegRow := [
  ⟨"VEC_STATUS", 0, 0, 1, 0, 1, 4, false, 0, []⟩,
  ⟨"VEC_ERR_STAT", 4, 0, 1, 0, 1, 4, false, 0, [⟨0, 1, .w1c, .any⟩, ⟨1, 1, .w1c, .any⟩, ⟨2, 1, .w1c, .any⟩, ⟨8, 8, .rc, .any⟩]⟩,
  ⟨"VEC_ERR_INFO", 8, 0, 1, 0, 1, 4, false, 0, []⟩,
  ⟨"VEC_SAT_ANCHOR", 0xc, 0, 1, 0, 1, 4, false, 0, [⟨0, 32, .rw, .any⟩]⟩,
  ⟨"VEC_SAT_FLOAT", 0x10, 0, 1, 0, 1, 4, false, 0, [⟨0, 32, .rw, .any⟩]⟩,
  ⟨"VEC_ELEMS", 0x18, 0, 1, 0, 1, 8, false, 0, []⟩,
  ⟨"VEC_STALL_BANK", 0x20, 0, 1, 0, 1, 8, false, 0, []⟩,
  ⟨"VEC_STALL_ACC", 0x28, 0, 1, 0, 1, 8, false, 0, []⟩,
  ⟨"VEC_STALL_LINK", 0x30, 0, 1, 0, 1, 8, false, 0, []⟩,
  ⟨"VEC_STALL_HAZARD", 0x38, 0, 1, 0, 1, 8, false, 0, []⟩]

/-- The VEC_ register map. -/
def vecRows : List RegRow := vecRows0

/-- Rows of the STR_ register map. -/
def strRows0 : List RegRow := [
  ⟨"STR_INSTALL", 0, 0, 1, 0, 1, 8, true, 0, [⟨0, 24, .wo, (.align 0x20)⟩, ⟨32, 14, .wo, .any⟩, ⟨48, 10, .wo, .any⟩]⟩,
  ⟨"STR_PEEK_IDX", 8, 0, 1, 0, 1, 4, false, 0, [⟨0, 14, .rw, .any⟩]⟩,
  ⟨"STR_PEEK_Ww", 0x10, 4, 8, 0, 1, 4, false, 0, []⟩,
  ⟨"STR_PEEK_POS", 0x30, 0, 1, 0, 1, 4, false, 0, []⟩,
  ⟨"STR_ERR_STAT", 0x40, 0, 1, 0, 1, 4, false, 0, [⟨0, 1, .w1c, .any⟩, ⟨1, 1, .w1c, .any⟩, ⟨2, 1, .w1c, .any⟩, ⟨8, 8, .rc, .any⟩]⟩,
  ⟨"STR_ERR_INFO", 0x44, 0, 1, 0, 1, 4, false, 0, []⟩,
  ⟨"STR_STATUS_c", 0x100, 256, 2, 0, 1, 4, false, 0, []⟩,
  ⟨"STR_BUSY_c", 0x108, 256, 2, 0, 1, 8, false, 0, []⟩,
  ⟨"STR_BYTES_c", 0x110, 256, 2, 0, 1, 8, false, 0, []⟩,
  ⟨"STR_REQS_c", 0x118, 256, 2, 0, 1, 8, false, 0, []⟩,
  ⟨"STR_STALL_LINK_c", 0x120, 256, 2, 0, 1, 8, false, 0, []⟩,
  ⟨"STR_STALL_XLATE_c", 0x128, 256, 2, 0, 1, 8, false, 0, []⟩]

/-- Further rows of the STR_ register map. -/
def strRows1 : List RegRow := [
  ⟨"STR_STALL_REQ_c", 0x130, 256, 2, 0, 1, 8, false, 0, []⟩,
  ⟨"STR_STALL_CREDIT_c", 0x138, 256, 2, 0, 1, 8, false, 0, []⟩,
  ⟨"STR_STALL_BANK_c", 0x140, 256, 2, 0, 1, 8, false, 0, []⟩,
  ⟨"STR_STALL_MEM_c", 0x148, 256, 2, 0, 1, 8, false, 0, []⟩,
  ⟨"STR_ACTIVE_c", 0x150, 256, 2, 0, 1, 8, false, 0, []⟩]

/-- The STR_ register map. -/
def strRows : List RegRow := strRows0 ++ strRows1

/-- Rows of the SYN_ register map. -/
def synRows0 : List RegRow := [
  ⟨"SYN_STATUS", 0, 0, 1, 0, 1, 4, false, 0, []⟩,
  ⟨"SYN_POLL_CFG", 4, 0, 1, 0, 1, 4, false, 0x3e800c8, [⟨0, 16, .rw, (.range 0x14 0xffff)⟩, ⟨16, 16, .rw, (.range 0xa 0xffff)⟩]⟩,
  ⟨"SYN_LONGWAIT", 8, 0, 1, 0, 1, 4, false, 0x10014, [⟨0, 16, .rw, (.range 1 0xffff)⟩, ⟨16, 1, .rw, .any⟩]⟩,
  ⟨"SYN_WATCH_STAT", 0xc, 0, 1, 0, 1, 4, false, 0, [⟨16, 9, .rc, .any⟩]⟩,
  ⟨"SYN_ERR_STAT", 0x10, 0, 1, 0, 1, 4, false, 0, [⟨0, 1, .w1c, .any⟩, ⟨1, 1, .w1c, .any⟩, ⟨2, 1, .w1c, .any⟩, ⟨3, 1, .w1c, .any⟩, ⟨8, 8, .rc, .any⟩]⟩,
  ⟨"SYN_ERR_INFO", 0x14, 0, 1, 0, 1, 4, false, 0, []⟩,
  ⟨"SYN_RESULT", 0x18, 0, 1, 0, 1, 8, false, 0, []⟩,
  ⟨"SYN_RESULT_TAG", 0x20, 0, 1, 0, 1, 4, false, 0, []⟩,
  ⟨"SYN_WAIT_TAG", 0x24, 0, 1, 0, 1, 4, false, 0, []⟩,
  ⟨"SYN_WAIT_CYC", 0x28, 0, 1, 0, 1, 8, false, 0, []⟩,
  ⟨"SYN_OPS", 0x30, 0, 1, 0, 1, 8, false, 0, []⟩,
  ⟨"SYN_WAKES", 0x38, 0, 1, 0, 1, 8, false, 0, []⟩]

/-- Further rows of the SYN_ register map. -/
def synRows1 : List RegRow := [
  ⟨"SYN_WAKE_DROP", 0x40, 0, 1, 0, 1, 8, false, 0, []⟩,
  ⟨"SYN_POLLS", 0x48, 0, 1, 0, 1, 8, false, 0, []⟩,
  ⟨"SYN_FALLBACKS", 0x50, 0, 1, 0, 1, 8, false, 0, []⟩,
  ⟨"SYN_WATCH_e_CTL", 0x1000, 32, 256, 0, 1, 8, false, 0, []⟩,
  ⟨"SYN_WATCH_e_OPND", 0x1008, 32, 256, 0, 1, 8, false, 0, []⟩,
  ⟨"SYN_WATCH_e_CMP", 0x1010, 32, 256, 0, 1, 8, false, 0, []⟩,
  ⟨"SYN_OBJ_i", 0x8000, 8, 1024, 0, 1, 8, true, 0, [⟨0, 64, .rw, .any⟩]⟩,
  ⟨"SYN_ADD_i", 0xa000, 8, 1024, 0, 1, 8, true, 0, [⟨0, 64, .wo, .any⟩]⟩]

/-- The SYN_ register map. -/
def synRows : List RegRow := synRows0 ++ synRows1

/-- Rows of the MEM_ register map. -/
def memRows0 : List RegRow := [
  ⟨"MEM_CTRL", 0, 0, 1, 0, 1, 4, false, 5, [⟨0, 1, .rw, .any⟩, ⟨1, 1, .rw, .any⟩, ⟨2, 1, .rw, .any⟩]⟩,
  ⟨"MEM_STATUS", 4, 0, 1, 0, 1, 4, false, 0, []⟩,
  ⟨"MEM_TEMP", 8, 0, 1, 0, 1, 4, false, 0, [⟨16, 8, .rc, .any⟩]⟩,
  ⟨"MEM_REF_CFG", 0xc, 0, 1, 0, 1, 4, false, 0x5355030c, [⟨0, 16, .rw, (.range 0x186 0x30c)⟩, ⟨16, 8, .rw, (.range 0x46 0x5a)⟩, ⟨24, 8, .rw, (.range 0x41 0x5a)⟩]⟩,
  ⟨"MEM_SCHED_CFG", 0x10, 0, 1, 0, 1, 4, false, 0x8020200, [⟨0, 12, .rw, (.range 0x40 0xfff)⟩, ⟨12, 6, .rw, (.range 1 0x30)⟩, ⟨18, 6, .rw, (.range 0 0x2f)⟩, ⟨24, 5, .rw, (.range 1 0x10)⟩]⟩,
  ⟨"MEM_SCRUB_CFG", 0x14, 0, 1, 0, 1, 4, false, 0x1388, [⟨0, 16, .rw, (.range 0xa 0xffff)⟩]⟩,
  ⟨"MEM_BIST_CTRL", 0x18, 0, 1, 0, 1, 4, true, 0, [⟨0, 6, .wo, .any⟩, ⟨8, 1, .wo, .any⟩]⟩,
  ⟨"MEM_BIST_STAT", 0x1c, 0, 1, 0, 1, 4, false, 0, []⟩,
  ⟨"MEM_ERR_STAT", 0x20, 0, 1, 0, 1, 4, false, 0, [⟨0, 1, .w1c, .any⟩, ⟨1, 1, .w1c, .any⟩, ⟨2, 1, .w1c, .any⟩, ⟨3, 1, .w1c, .any⟩, ⟨4, 1, .w1c, .any⟩, ⟨5, 1, .w1c, .any⟩, ⟨6, 1, .w1c, .any⟩, ⟨8, 8, .rc, .any⟩]⟩,
  ⟨"MEM_ERR_INFO", 0x24, 0, 1, 0, 1, 4, false, 0, []⟩,
  ⟨"MEM_ERR_ADDR", 0x28, 0, 1, 0, 1, 8, false, 0, []⟩,
  ⟨"MEM_POOL_STAT", 0x30, 0, 1, 0, 1, 4, false, 0, [⟨16, 13, .rc, .any⟩]⟩]

/-- Further rows of the MEM_ register map. -/
def memRows1 : List RegRow := [
  ⟨"MEM_CH_FAIL", 0x38, 0, 1, 0, 1, 8, false, 0, []⟩,
  ⟨"MEM_TIMING_0", 0x40, 0, 1, 0, 1, 4, false, 0x1c381c1c, [⟨0, 8, .rw, .any⟩, ⟨8, 8, .rw, .any⟩, ⟨16, 8, .rw, .any⟩, ⟨24, 8, .rw, .any⟩]⟩,
  ⟨"MEM_TIMING_1", 0x44, 0, 1, 0, 1, 4, false, 0x8124242, [⟨0, 4, .rw, .any⟩, ⟨4, 4, .rw, .any⟩, ⟨8, 4, .rw, .any⟩, ⟨12, 4, .rw, .any⟩, ⟨16, 8, .rw, .any⟩, ⟨24, 8, .rw, .any⟩]⟩,
  ⟨"MEM_TIMING_2", 0x48, 0, 1, 0, 1, 4, false, 0x588b20, [⟨0, 8, .rw, (.range 8 0xff)⟩, ⟨8, 4, .rw, (.range 1 0xf)⟩, ⟨12, 4, .rw, (.range 1 0xf)⟩, ⟨16, 8, .rw, .any⟩]⟩,
  ⟨"MEM_TIMING_3", 0x4c, 0, 1, 0, 1, 4, false, 0x1e00f0, [⟨0, 10, .rw, .any⟩, ⟨16, 8, .rw, .any⟩]⟩,
  ⟨"MEM_CH_STAT_c", 0x1000, 64, 64, 0, 1, 4, false, 0, []⟩,
  ⟨"MEM_CH_CE_c", 0x1004, 64, 64, 0, 1, 4, false, 0, [⟨0, 32, .rc, .any⟩]⟩,
  ⟨"MEM_CH_RD_c", 0x1008, 64, 64, 0, 1, 8, false, 0, []⟩,
  ⟨"MEM_CH_WR_c", 0x1010, 64, 64, 0, 1, 8, false, 0, []⟩,
  ⟨"MEM_CH_ACT_c", 0x1018, 64, 64, 0, 1, 8, false, 0, []⟩,
  ⟨"MEM_CH_TURN_c", 0x1020, 64, 64, 0, 1, 8, false, 0, []⟩,
  ⟨"MEM_CH_REF_c", 0x1028, 64, 64, 0, 1, 8, false, 0, []⟩]

/-- Further rows of the MEM_ register map. -/
def memRows2 : List RegRow := [
  ⟨"MEM_CH_BUSY_c", 0x1030, 64, 64, 0, 1, 8, false, 0, []⟩,
  ⟨"MEM_CH_HOT_c", 0x1038, 64, 64, 0, 1, 4, false, 0, [⟨0, 32, .rc, .any⟩]⟩]

/-- The MEM_ register map. -/
def memRows : List RegRow := memRows0 ++ memRows1 ++ memRows2

/-- Rows of the PGE_ register map. -/
def pgeRows0 : List RegRow := [
  ⟨"PGE_CTRL", 0, 0, 1, 0, 1, 4, false, 3, [⟨0, 1, .rw, .any⟩, ⟨1, 1, .rw, .any⟩]⟩,
  ⟨"PGE_STATUS", 4, 0, 1, 0, 1, 4, false, 0, []⟩,
  ⟨"PGE_ROOT_BASE", 8, 0, 1, 0, 1, 8, false, 0, [⟨13, 33, .rw, .any⟩]⟩,
  ⟨"PGE_POLICY", 0x10, 0, 1, 0, 1, 4, false, 0x3e820, [⟨0, 8, .rw, (.range 1 0xff)⟩, ⟨8, 16, .rw, (.range 0xa 0xffff)⟩, ⟨24, 1, .rw, .any⟩]⟩,
  ⟨"PGE_EVICT_CFG", 0x14, 0, 1, 0, 1, 4, false, 0x10ffff, [⟨0, 16, .rw, .any⟩, ⟨16, 12, .rw, (.range 0 0xfff)⟩]⟩,
  ⟨"PGE_INVAL", 0x18, 0, 1, 0, 1, 8, true, 0, [⟨0, 10, .wo, .any⟩, ⟨10, 1, .wo, .any⟩, ⟨16, 32, .wo, .any⟩, ⟨48, 16, .wo, .any⟩]⟩,
  ⟨"PGE_FAULT_STAT", 0x20, 0, 1, 0, 1, 4, false, 0, [⟨0, 1, .w1c, .any⟩, ⟨16, 16, .rc, .any⟩]⟩,
  ⟨"PGE_FAULT_INFO", 0x24, 0, 1, 0, 1, 4, false, 0, []⟩,
  ⟨"PGE_FAULT_CVA", 0x28, 0, 1, 0, 1, 8, false, 0, []⟩,
  ⟨"PGE_ERR_STAT", 0x30, 0, 1, 0, 1, 4, false, 0, [⟨0, 1, .w1c, .any⟩, ⟨1, 1, .w1c, .any⟩, ⟨2, 1, .w1c, .any⟩, ⟨3, 1, .w1c, .any⟩, ⟨4, 1, .w1c, .any⟩, ⟨5, 1, .w1c, .any⟩, ⟨8, 8, .rc, .any⟩]⟩,
  ⟨"PGE_ERR_INFO", 0x34, 0, 1, 0, 1, 4, false, 0, []⟩,
  ⟨"PGE_ERR_ADDR", 0x38, 0, 1, 0, 1, 8, false, 0, []⟩]

/-- Further rows of the PGE_ register map. -/
def pgeRows1 : List RegRow := [
  ⟨"PGE_TB_HIT", 0x40, 0, 1, 0, 1, 8, false, 0, []⟩,
  ⟨"PGE_TB_MISS", 0x48, 0, 1, 0, 1, 8, false, 0, []⟩,
  ⟨"PGE_PROMOTED", 0x50, 0, 1, 0, 1, 8, false, 0, []⟩,
  ⟨"PGE_DEMOTED", 0x58, 0, 1, 0, 1, 8, false, 0, []⟩,
  ⟨"PGE_COPY_BYTES", 0x60, 0, 1, 0, 1, 8, false, 0, []⟩,
  ⟨"PGE_HINT_DROP", 0x68, 0, 1, 0, 1, 8, false, 0, []⟩,
  ⟨"PGE_HINT_SKIP", 0x70, 0, 1, 0, 1, 8, false, 0, []⟩,
  ⟨"PGE_MIG_FAIL", 0x78, 0, 1, 0, 1, 8, false, 0, []⟩]

/-- The PGE_ register map. -/
def pgeRows : List RegRow := pgeRows0 ++ pgeRows1

/-- Rows of the ALC_ register map. -/
def alcRows0 : List RegRow := [
  ⟨"ALC_CTRL", 0, 0, 1, 0, 1, 4, false, 0, [⟨0, 1, .rw, .any⟩]⟩,
  ⟨"ALC_STATUS", 4, 0, 1, 0, 1, 4, false, 0, []⟩,
  ⟨"ALC_SUBMIT", 8, 0, 1, 0, 1, 8, true, 0, [⟨0, 46, .wo, (.align 0x20)⟩]⟩,
  ⟨"ALC_RESERVE_BASE", 0x10, 0, 1, 0, 1, 8, false, 0, [⟨21, 25, .rw, .any⟩]⟩,
  ⟨"ALC_RESERVE_SLABS", 0x18, 0, 1, 0, 1, 4, false, 0, [⟨0, 14, .rw, (.range 0 0x3fff)⟩]⟩,
  ⟨"ALC_OWNED", 0x1c, 0, 1, 0, 1, 4, false, 0, []⟩,
  ⟨"ALC_POLICY", 0x20, 0, 1, 0, 1, 4, false, 0x100, [⟨0, 16, .rw, .any⟩]⟩,
  ⟨"ALC_FREE_STK", 0x24, 0, 1, 0, 1, 4, false, 0, []⟩,
  ⟨"ALC_FREE_CAP", 0x28, 0, 1, 0, 1, 4, false, 0, []⟩,
  ⟨"ALC_RETIRED", 0x2c, 0, 1, 0, 1, 4, false, 0, []⟩,
  ⟨"ALC_ERR_STAT", 0x30, 0, 1, 0, 1, 4, false, 0, [⟨0, 1, .w1c, .any⟩, ⟨1, 1, .w1c, .any⟩]⟩,
  ⟨"ALC_CMDS", 0x38, 0, 1, 0, 1, 8, false, 0, []⟩]

/-- The ALC_ register map. -/
def alcRows : List RegRow := alcRows0

/-- Rows of the PWRRG_ register map. -/
def pwrRgRows0 : List RegRow := [
  ⟨"PWR_RG_STATUS", 0, 0, 1, 0, 1, 4, false, 8, []⟩,
  ⟨"PWR_RG_EST", 4, 0, 1, 0, 1, 4, false, 0, []⟩,
  ⟨"PWR_RG_CAP_s", 0x100, 4, 17, 0, 1, 4, false, 0x88, []⟩]

/-- The PWRRG_ register map. -/
def pwrRgRows : List RegRow := pwrRgRows0

/-- Rows of the LNK_ register map. -/
def lnkRows0 : List RegRow := [
  ⟨"LNK_CTRL", 0, 0, 1, 0, 1, 4, false, 0xc, [⟨0, 1, .rw, .any⟩, ⟨1, 2, .rw, (.take 3 3 2)⟩, ⟨3, 1, .rw, .any⟩, ⟨4, 1, .rw, .any⟩, ⟨8, 4, .rw, .any⟩]⟩,
  ⟨"LNK_CMD", 4, 0, 1, 0, 1, 4, true, 0, [⟨0, 1, .wo, .any⟩, ⟨1, 1, .wo, .any⟩]⟩,
  ⟨"LNK_STATUS", 8, 0, 1, 0, 1, 4, false, 0, []⟩,
  ⟨"LNK_PARTNER", 0xc, 0, 1, 0, 1, 4, false, 0, []⟩,
  ⟨"LNK_TIMERS", 0x10, 0, 1, 0, 1, 4, false, 0x1f400064, [⟨0, 16, .rw, (.range 0xa 0xffff)⟩, ⟨16, 16, .rw, (.range 0x3e8 0xffff)⟩]⟩,
  ⟨"LNK_SEQ", 0x14, 0, 1, 0, 1, 4, false, 0, []⟩,
  ⟨"LNK_REPLAY", 0x18, 0, 1, 0, 1, 4, false, 0, [⟨16, 16, .rc, .any⟩]⟩,
  ⟨"LNK_RXBUF_CFG_0", 0x20, 0, 1, 0, 1, 8, false, 0x2000200008000400, [⟨0, 16, .rw, .any⟩, ⟨16, 16, .rw, .any⟩, ⟨32, 16, .rw, .any⟩, ⟨48, 16, .rw, .any⟩]⟩,
  ⟨"LNK_RXBUF_CFG_1", 0x28, 0, 1, 0, 1, 8, false, 0x400080008002000, [⟨0, 16, .rw, .any⟩, ⟨16, 16, .rw, .any⟩, ⟨32, 16, .rw, .any⟩, ⟨48, 16, .rw, .any⟩]⟩,
  ⟨"LNK_LANE_FAIL", 0x30, 0, 1, 0, 1, 8, false, 0, []⟩,
  ⟨"LNK_ERR_STAT", 0x38, 0, 1, 0, 1, 4, false, 0, [⟨0, 1, .w1c, .any⟩, ⟨1, 1, .w1c, .any⟩, ⟨2, 1, .w1c, .any⟩, ⟨3, 1, .w1c, .any⟩, ⟨4, 1, .w1c, .any⟩, ⟨5, 1, .w1c, .any⟩, ⟨6, 1, .w1c, .any⟩, ⟨7, 1, .w1c, .any⟩, ⟨8, 1, .w1c, .any⟩, ⟨9, 1, .w1c, .any⟩, ⟨10, 1, .w1c, .any⟩, ⟨11, 1, .w1c, .any⟩, ⟨16, 8, .rc, .any⟩]⟩,
  ⟨"LNK_ERR_INFO", 0x3c, 0, 1, 0, 1, 4, false, 0, []⟩]

/-- Further rows of the LNK_ register map. -/
def lnkRows1 : List RegRow := [
  ⟨"LNK_TX_FLITS", 0x40, 0, 1, 0, 1, 8, false, 0, []⟩,
  ⟨"LNK_RX_FLITS", 0x48, 0, 1, 0, 1, 8, false, 0, []⟩,
  ⟨"LNK_TX_PKTS", 0x50, 0, 1, 0, 1, 8, false, 0, []⟩,
  ⟨"LNK_RX_PKTS", 0x58, 0, 1, 0, 1, 8, false, 0, []⟩,
  ⟨"LNK_FEC_CORR", 0x60, 0, 1, 0, 1, 8, false, 0, []⟩,
  ⟨"LNK_FEC_UNCORR", 0x68, 0, 1, 0, 1, 8, false, 0, []⟩,
  ⟨"LNK_CRC_ERR", 0x70, 0, 1, 0, 1, 8, false, 0, []⟩,
  ⟨"LNK_REPLAYS", 0x78, 0, 1, 0, 1, 8, false, 0, []⟩,
  ⟨"LNK_REPLAY_FLITS", 0x80, 0, 1, 0, 1, 8, false, 0, []⟩,
  ⟨"LNK_RX_EXCESS", 0x88, 0, 1, 0, 1, 8, false, 0, []⟩,
  ⟨"LNK_TX_UNSUP", 0x90, 0, 1, 0, 1, 8, false, 0, []⟩,
  ⟨"LNK_DROPS", 0x98, 0, 1, 0, 1, 8, false, 0, []⟩]

/-- Further rows of the LNK_ register map. -/
def lnkRows2 : List RegRow := [
  ⟨"LNK_DOWNS", 0xa0, 0, 1, 0, 1, 8, false, 0, []⟩,
  ⟨"LNK_CREDIT_STALL", 0xa8, 0, 1, 0, 1, 8, false, 0, []⟩,
  ⟨"LNK_REPLAY_STALL", 0xb0, 0, 1, 0, 1, 8, false, 0, []⟩,
  ⟨"LNK_VC_CRED_v", 0x100, 4, 8, 0, 1, 4, false, 0, []⟩]

/-- The LNK_ register map. -/
def lnkRows : List RegRow := lnkRows0 ++ lnkRows1 ++ lnkRows2

/-- Rows of the COL_ register map. -/
def colRows0 : List RegRow := [
  ⟨"COL_CTRL", 0, 0, 1, 0, 1, 4, false, 0, [⟨0, 1, .rw, .any⟩]⟩,
  ⟨"COL_STATUS", 4, 0, 1, 0, 1, 4, false, 0, []⟩,
  ⟨"COL_WDOG", 8, 0, 1, 0, 1, 4, false, 0x1f4, [⟨0, 16, .rw, (.range 1 0xffff)⟩]⟩,
  ⟨"COL_STORE", 0xc, 0, 1, 0, 1, 4, false, 0, [⟨16, 14, .rc, .any⟩]⟩,
  ⟨"COL_ERR_STAT", 0x10, 0, 1, 0, 1, 4, false, 0, [⟨0, 1, .w1c, .any⟩, ⟨1, 1, .w1c, .any⟩, ⟨2, 1, .w1c, .any⟩, ⟨3, 1, .w1c, .any⟩, ⟨4, 1, .w1c, .any⟩, ⟨5, 1, .w1c, .any⟩, ⟨8, 8, .rc, .any⟩]⟩,
  ⟨"COL_ERR_INFO", 0x14, 0, 1, 0, 1, 4, false, 0, []⟩,
  ⟨"COL_ERR_INFO2", 0x18, 0, 1, 0, 1, 4, false, 0, []⟩,
  ⟨"COL_PIECES_OUT", 0x40, 0, 1, 0, 1, 8, false, 0, []⟩,
  ⟨"COL_PIECES_IN", 0x48, 0, 1, 0, 1, 8, false, 0, []⟩,
  ⟨"COL_BYTES_OUT", 0x50, 0, 1, 0, 1, 8, false, 0, []⟩,
  ⟨"COL_BYTES_IN", 0x58, 0, 1, 0, 1, 8, false, 0, []⟩,
  ⟨"COL_DEPOSITS", 0x60, 0, 1, 0, 1, 8, false, 0, []⟩]

/-- Further rows of the COL_ register map. -/
def colRows1 : List RegRow := [
  ⟨"COL_GLAZE_ELEMS", 0x68, 0, 1, 0, 1, 8, false, 0, []⟩,
  ⟨"COL_PEERWAIT_CYC", 0x70, 0, 1, 0, 1, 8, false, 0, []⟩,
  ⟨"COL_LOCALWAIT_CYC", 0x78, 0, 1, 0, 1, 8, false, 0, []⟩,
  ⟨"COL_DISCARD", 0x80, 0, 1, 0, 1, 8, false, 0, []⟩,
  ⟨"COL_SET_n_CFG0", 0x10000, 32, 256, 0, 1, 4, false, 0, [⟨0, 4, .rw, (.take 7 15 6)⟩, ⟨4, 2, .rw, (.take 3 3 2)⟩, ⟨6, 1, .rw, .any⟩, ⟨7, 1, .rw, .any⟩, ⟨8, 10, .rw, .any⟩, ⟨18, 4, .rw, .any⟩, ⟨22, 4, .rw, .any⟩, ⟨26, 1, .rw, .any⟩, ⟨27, 4, .rw, .any⟩]⟩,
  ⟨"COL_SET_n_CFG1", 0x10004, 32, 256, 0, 1, 4, false, 0, [⟨0, 4, .rw, (.take 13 15 12)⟩, ⟨4, 4, .rw, (.codes [0, 10, 11, 12])⟩, ⟨8, 4, .rw, (.take 13 15 12)⟩, ⟨12, 9, .rw, .any⟩, ⟨21, 6, .rw, .any⟩]⟩,
  ⟨"COL_SET_n_CFG2", 0x10008, 32, 256, 0, 1, 4, false, 0, [⟨0, 24, .rw, (.align 0x100)⟩]⟩,
  ⟨"COL_SET_n_CFG3", 0x1000c, 32, 256, 0, 1, 4, false, 0, [⟨0, 10, .rw, .any⟩]⟩,
  ⟨"COL_SET_n_PERM", 0x10010, 32, 256, 0, 1, 8, false, 0xfedcba9876543210, [⟨0, 64, .rw, .any⟩]⟩,
  ⟨"COL_SET_n_SAT", 0x10018, 32, 256, 0, 1, 4, false, 0, [⟨0, 32, .rw, .any⟩]⟩,
  ⟨"COL_SET_n_PEERWAIT", 0x1001c, 32, 256, 0, 1, 4, false, 0, [⟨0, 32, .rc, .any⟩]⟩]

/-- The COL_ register map. -/
def colRows : List RegRow := colRows0 ++ colRows1

/-- Rows of the RTE_ register map. -/
def rteRows0 : List RegRow := [
  ⟨"RTE_CTRL", 0, 0, 1, 0, 1, 4, false, 0, [⟨0, 1, .rw, .any⟩]⟩,
  ⟨"RTE_SELF", 4, 0, 1, 0, 1, 4, false, 0, [⟨16, 16, .rw, .any⟩]⟩,
  ⟨"RTE_IDSTAT", 8, 0, 1, 0, 1, 4, false, 0, []⟩,
  ⟨"RTE_MACH", 0xc, 0, 1, 0, 1, 4, false, 0xf3333, [⟨0, 16, .rw, .any⟩, ⟨16, 4, .rw, .any⟩]⟩,
  ⟨"RTE_PART", 0x10, 0, 1, 0, 1, 4, false, 0x33330000, [⟨0, 16, .rw, .any⟩, ⟨16, 16, .rw, .any⟩]⟩,
  ⟨"RTE_ARB", 0x14, 0, 1, 0, 1, 4, false, 0x2020408, [⟨0, 8, .rw, (.range 1 0xff)⟩, ⟨8, 8, .rw, .any⟩, ⟨16, 8, .rw, .any⟩, ⟨24, 8, .rw, .any⟩]⟩,
  ⟨"RTE_ARB2", 0x18, 0, 1, 0, 1, 4, false, 0x1000000c, [⟨0, 4, .rw, (.range 1 0xf)⟩, ⟨16, 16, .rw, (.range 0x40 0xffff)⟩]⟩,
  ⟨"RTE_MAP_a", 0x20, 8, 4, 0, 1, 8, false, 0xfedcba9876543210, [⟨0, 64, .rw, .any⟩]⟩,
  ⟨"RTE_DETOUR_p", 0x40, 4, 8, 0, 1, 4, false, 0, [⟨0, 1, .rw, .any⟩, ⟨1, 6, .rw, .any⟩]⟩,
  ⟨"RTE_ERR_STAT", 0x60, 0, 1, 0, 1, 4, false, 0, [⟨0, 1, .w1c, .any⟩, ⟨1, 1, .w1c, .any⟩, ⟨2, 1, .w1c, .any⟩]⟩,
  ⟨"RTE_ERR_INFO", 0x64, 0, 1, 0, 1, 4, false, 0, []⟩,
  ⟨"RTE_OUT_PKTS", 0x80, 0, 1, 0, 1, 8, false, 0, []⟩]

/-- Further rows of the RTE_ register map. -/
def rteRows1 : List RegRow := [
  ⟨"RTE_TRANSIT", 0x88, 0, 1, 0, 1, 8, false, 0, []⟩,
  ⟨"RTE_ESCAPED", 0x90, 0, 1, 0, 1, 8, false, 0, []⟩,
  ⟨"RTE_DETOURED", 0x98, 0, 1, 0, 1, 8, false, 0, []⟩,
  ⟨"RTE_NOROUTE", 0xa0, 0, 1, 0, 1, 8, false, 0, []⟩,
  ⟨"RTE_DLWAIT", 0xa8, 0, 1, 0, 1, 8, false, 0, []⟩,
  ⟨"RTE_VC2_CAPPED", 0xb0, 0, 1, 0, 1, 8, false, 0, []⟩,
  ⟨"RTE_SUB_i", 0x100, 8, 64, 0, 1, 8, false, 0, [⟨0, 1, .rw, .any⟩, ⟨16, 16, .rw, .any⟩, ⟨32, 16, .rw, .any⟩]⟩,
  ⟨"RTE_INJ_i", 0x400, 8, 64, 0, 1, 8, false, 0, [⟨0, 1, .rw, .any⟩, ⟨8, 8, .rw, .any⟩, ⟨16, 6, .rw, .any⟩, ⟨32, 16, .rw, .any⟩]⟩,
  ⟨"RTE_CIRC_c", 0x800, 4, 64, 0, 1, 4, false, 0, [⟨0, 1, .rw, .any⟩, ⟨1, 4, .rw, (.take 0xa 0xf 9)⟩, ⟨5, 6, .rw, .any⟩, ⟨11, 1, .rw, .any⟩, ⟨12, 4, .rw, .any⟩]⟩,
  ⟨"RTE_JOIN_c", 0xa00, 4, 64, 0, 1, 4, false, 0, [⟨0, 1, .rw, .any⟩, ⟨1, 4, .rw, (.take 0xa 0xf 9)⟩, ⟨5, 6, .rw, .any⟩, ⟨11, 1, .rw, .any⟩, ⟨12, 4, .rw, .any⟩]⟩,
  ⟨"RTE_VC_FLITS_v", 0xc00, 8, 8, 0, 1, 8, false, 0, []⟩]

/-- The RTE_ register map. -/
def rteRows : List RegRow := rteRows0 ++ rteRows1

/-- Rows of the FEN_ register map. -/
def fenRows0 : List RegRow := [
  ⟨"FEN_PORT_CFG", 0, 0, 1, 0, 1, 4, false, 1, [⟨0, 2, .rw, (.take 3 3 2)⟩, ⟨2, 2, .rw, (.take 3 3 2)⟩, ⟨4, 1, .rw, .any⟩]⟩,
  ⟨"FEN_STATUS", 4, 0, 1, 0, 1, 4, false, 1, []⟩,
  ⟨"FEN_CMD", 8, 0, 1, 0, 1, 4, true, 0, [⟨0, 1, .wo, .any⟩, ⟨1, 1, .wo, .any⟩, ⟨16, 16, .wo, (.range 0 0x7fff)⟩]⟩,
  ⟨"FEN_ALERT", 0xc, 0, 1, 0, 1, 4, false, 0, []⟩,
  ⟨"FEN_ALERT_CAUSE", 0x10, 0, 1, 0, 1, 8, false, 0, [⟨0, 64, .rw, .any⟩]⟩,
  ⟨"FEN_ERR_STAT", 0x18, 0, 1, 0, 1, 4, false, 0, [⟨0, 1, .w1c, .any⟩, ⟨1, 1, .w1c, .any⟩, ⟨2, 1, .w1c, .any⟩]⟩,
  ⟨"FEN_DROP_IN", 0x20, 0, 1, 0, 1, 8, false, 0, []⟩,
  ⟨"FEN_DROP_OUT", 0x28, 0, 1, 0, 1, 8, false, 0, []⟩,
  ⟨"FEN_REFUSED", 0x30, 0, 1, 0, 1, 8, false, 0, []⟩]

/-- The FEN_ register map. -/
def fenRows : List RegRow := fenRows0

/-- Rows of the CAP_ register map. -/
def capRows0 : List RegRow := [
  ⟨"CAP_CTRL", 0, 0, 1, 0, 1, 4, false, 0x102c, [⟨0, 2, .rw, (.take 3 3 2)⟩, ⟨2, 1, .rw, .any⟩, ⟨3, 1, .rw, .any⟩, ⟨4, 1, .rw, .any⟩, ⟨5, 1, .rw, .any⟩, ⟨8, 6, .rw, .any⟩]⟩,
  ⟨"CAP_CMD", 4, 0, 1, 0, 1, 4, true, 0, [⟨0, 1, .wo, .any⟩]⟩,
  ⟨"CAP_STATUS", 8, 0, 1, 0, 1, 4, false, 0, []⟩,
  ⟨"CAP_PORT_INFO_q", 0x10, 4, 4, 0, 1, 4, false, 0, []⟩,
  ⟨"CAP_SCRUB_CFG", 0x20, 0, 1, 0, 1, 4, false, 0x32, [⟨0, 16, .rw, (.range 1 0xffff)⟩]⟩,
  ⟨"CAP_SCHED_CFG", 0x24, 0, 1, 0, 1, 4, false, 0x4010100, [⟨0, 12, .rw, (.range 0x20 0xfff)⟩, ⟨12, 6, .rw, (.range 1 0x18)⟩, ⟨18, 6, .rw, (.range 0 0x17)⟩, ⟨24, 5, .rw, (.range 1 8)⟩]⟩,
  ⟨"CAP_TIMING_0", 0x40, 0, 1, 0, 1, 4, false, 0x22110f0f, [⟨0, 8, .rw, .any⟩, ⟨8, 8, .rw, .any⟩, ⟨16, 8, .rw, .any⟩, ⟨24, 8, .rw, .any⟩]⟩,
  ⟨"CAP_TIMING_1", 0x44, 0, 1, 0, 1, 4, false, 0x10440b14, [⟨0, 8, .rw, .any⟩, ⟨8, 8, .rw, .any⟩, ⟨16, 4, .rw, .any⟩, ⟨20, 4, .rw, .any⟩, ⟨24, 8, .rw, .any⟩]⟩,
  ⟨"CAP_TIMING_2", 0x48, 0, 1, 0, 1, 4, false, 0x1c080a, [⟨0, 8, .rw, .any⟩, ⟨8, 8, .rw, .any⟩, ⟨16, 8, .rw, .any⟩]⟩,
  ⟨"CAP_TIMING_3", 0x4c, 0, 1, 0, 1, 4, false, 0x7000e0, [⟨0, 10, .rw, .any⟩, ⟨16, 10, .rw, .any⟩]⟩,
  ⟨"CAP_TIMING_4", 0x50, 0, 1, 0, 1, 4, false, 0x30c, [⟨0, 16, .rw, (.range 0xc3 0x618)⟩]⟩,
  ⟨"CAP_ERR_STAT", 0x60, 0, 1, 0, 1, 4, false, 0, [⟨0, 1, .w1c, .any⟩, ⟨1, 1, .w1c, .any⟩, ⟨2, 1, .w1c, .any⟩, ⟨3, 1, .w1c, .any⟩, ⟨4, 1, .w1c, .any⟩, ⟨5, 1, .w1c, .any⟩, ⟨6, 1, .w1c, .any⟩, ⟨8, 8, .rc, .any⟩]⟩]

/-- Further rows of the CAP_ register map. -/
def capRows1 : List RegRow := [
  ⟨"CAP_ERR_INFO", 0x64, 0, 1, 0, 1, 4, false, 0, []⟩,
  ⟨"CAP_ERR_ADDR", 0x68, 0, 1, 0, 1, 8, false, 0, []⟩,
  ⟨"CAP_P_RD_q", 0x1000, 64, 4, 0, 1, 8, false, 0, []⟩,
  ⟨"CAP_P_WR_q", 0x1008, 64, 4, 0, 1, 8, false, 0, []⟩,
  ⟨"CAP_P_BUSY_q", 0x1010, 64, 4, 0, 1, 8, false, 0, []⟩,
  ⟨"CAP_P_REF_q", 0x1018, 64, 4, 0, 1, 8, false, 0, []⟩,
  ⟨"CAP_P_CE_q", 0x1020, 64, 4, 0, 1, 4, false, 0, [⟨0, 32, .rc, .any⟩]⟩,
  ⟨"CAP_P_HOT_q", 0x1024, 64, 4, 0, 1, 4, false, 0, [⟨0, 32, .rc, .any⟩]⟩]

/-- The CAP_ register map. -/
def capRows : List RegRow := capRows0 ++ capRows1

/-- Rows of the HUB_ register map. -/
def hubRows0 : List RegRow := [
  ⟨"HUB_CTRL", 0, 0, 1, 0, 1, 4, false, 0x320000, [⟨0, 2, .rw, (.take 3 3 2)⟩, ⟨16, 16, .rw, (.range 1 0xffff)⟩]⟩,
  ⟨"HUB_STATUS", 4, 0, 1, 0, 1, 4, false, 0, []⟩,
  ⟨"HUB_PCI_ID", 8, 0, 1, 0, 1, 4, false, 0, []⟩,
  ⟨"HUB_IRQ_CFG", 0xc, 0, 1, 0, 1, 4, false, 0xa, [⟨0, 16, .rw, (.range 0 0xffff)⟩]⟩,
  ⟨"HUB_BAR2_BASE", 0x10, 0, 1, 0, 1, 8, false, 0, [⟨30, 16, .rw, .any⟩]⟩,
  ⟨"HUB_LANE_MAP", 0x18, 0, 1, 0, 1, 8, false, 0, [⟨0, 16, .rw, .any⟩, ⟨16, 1, .rw, .any⟩]⟩,
  ⟨"HUB_ERR_STAT", 0x20, 0, 1, 0, 1, 4, false, 0, [⟨0, 1, .w1c, .any⟩, ⟨1, 1, .w1c, .any⟩, ⟨2, 1, .w1c, .any⟩, ⟨3, 1, .w1c, .any⟩, ⟨8, 8, .rc, .any⟩]⟩,
  ⟨"HUB_RX_BYTES", 0x40, 0, 1, 0, 1, 8, false, 0, []⟩,
  ⟨"HUB_TX_BYTES", 0x48, 0, 1, 0, 1, 8, false, 0, []⟩,
  ⟨"HUB_CPL_DROP", 0x50, 0, 1, 0, 1, 8, false, 0, []⟩,
  ⟨"HUB_IW_v", 0x10010, 8, 254, 0, 1, 8, true, 0, [⟨0, 64, .rw, .any⟩]⟩,
  ⟨"HUB_IW_ADD_v", 0x11010, 8, 254, 0, 1, 8, true, 0, [⟨0, 64, .wo, .any⟩]⟩]

/-- Further rows of the HUB_ register map. -/
def hubRows1 : List RegRow := [
  ⟨"HUB_DB_n", 0x20000, 8, 1024, 0, 1, 8, true, 0, [⟨0, 64, .rw, .any⟩]⟩,
  ⟨"HUB_DB_ADD_n", 0x22000, 8, 1024, 0, 1, 8, true, 0, [⟨0, 64, .wo, .any⟩]⟩]

/-- The HUB_ register map. -/
def hubRows : List RegRow := hubRows0 ++ hubRows1

/-- Rows of the SCH_ register map. -/
def schRows0 : List RegRow := [
  ⟨"SCH_CTRL", 0, 0, 1, 0, 1, 4, false, 0, [⟨0, 1, .rw, .any⟩]⟩,
  ⟨"SCH_STATUS", 4, 0, 1, 0, 1, 4, false, 0, []⟩,
  ⟨"SCH_POLICY", 8, 0, 1, 0, 1, 4, false, 0x103e8, [⟨0, 16, .rw, (.range 0xa 0xffff)⟩, ⟨16, 1, .rw, .any⟩]⟩,
  ⟨"SCH_ERR_STAT", 0xc, 0, 1, 0, 1, 4, false, 0, [⟨0, 1, .w1c, .any⟩, ⟨1, 1, .w1c, .any⟩, ⟨2, 1, .w1c, .any⟩]⟩,
  ⟨"SCH_ERR_INFO", 0x10, 0, 1, 0, 1, 4, false, 0, []⟩,
  ⟨"SCH_EXIT", 0x100, 0, 1, 0, 1, 4, true, 0, [⟨0, 16, .wo, .any⟩]⟩,
  ⟨"SCH_SWITCHES", 0x200, 0, 1, 0, 1, 8, false, 0, []⟩,
  ⟨"SCH_SWITCH_CYC", 0x208, 0, 1, 0, 1, 8, false, 0, []⟩,
  ⟨"SCH_SWITCH_BYTES", 0x210, 0, 1, 0, 1, 8, false, 0, []⟩,
  ⟨"SCH_HELD_OPEN", 0x218, 0, 1, 0, 1, 8, false, 0, []⟩,
  ⟨"SCH_CORE_g", 0x1000, 8, 256, 0, 1, 8, false, 0, []⟩,
  ⟨"SCH_CTX_x_CTRL", 0x10000, 64, 1024, 0, 1, 4, false, 0x3e80100, [⟨0, 3, .rw, (.take 4 7 3)⟩, ⟨4, 2, .rw, .any⟩, ⟨6, 1, .rw, .any⟩, ⟨8, 8, .rw, (.range 1 0xff)⟩, ⟨16, 16, .rw, (.range 0xa 0xffff)⟩]⟩]

/-- Further rows of the SCH_ register map. -/
def schRows1 : List RegRow := [
  ⟨"SCH_CTX_x_SPM", 0x10004, 64, 1024, 0, 1, 4, false, 0, [⟨0, 8, .rw, .any⟩, ⟨8, 9, .rw, (.range 0 0x100)⟩]⟩,
  ⟨"SCH_CTX_x_SAVE", 0x10008, 64, 1024, 0, 1, 8, false, 0, [⟨14, 32, .rw, .any⟩]⟩,
  ⟨"SCH_CTX_x_RING_BASE", 0x10010, 64, 1024, 0, 1, 8, false, 0, [⟨6, 40, .rw, .any⟩]⟩,
  ⟨"SCH_CTX_x_RING", 0x10018, 64, 1024, 0, 1, 4, false, 4, [⟨0, 4, .rw, (.range 4 0xe)⟩, ⟨4, 10, .rw, .any⟩]⟩,
  ⟨"SCH_CTX_x_RUN", 0x1001c, 64, 1024, 0, 1, 4, false, 0, []⟩,
  ⟨"SCH_CTX_x_MASK_k", 0x10020, 64, 1024, 8, 4, 8, false, 0, [⟨0, 64, .rw, .any⟩]⟩,
  ⟨"SCH_CTX_x_VT", 0x20000, 8, 1024, 0, 1, 8, false, 0, []⟩,
  ⟨"SCH_PRES_g_n", 0x40000, 1024, 256, 4, 256, 4, false, 0, []⟩]

/-- The SCH_ register map. -/
def schRows : List RegRow := schRows0 ++ schRows1

/-- Rows of the SNP_ register map. -/
def snpRows0 : List RegRow := [
  ⟨"SNP_CTRL", 0, 0, 1, 0, 1, 4, false, 0, [⟨0, 1, .rw, .any⟩]⟩,
  ⟨"SNP_STATUS", 4, 0, 1, 0, 1, 4, false, 0, []⟩,
  ⟨"SNP_DOMAIN", 8, 0, 1, 0, 1, 4, false, 0, [⟨0, 16, .rw, .any⟩]⟩,
  ⟨"SNP_CMD", 0xc, 0, 1, 0, 1, 4, true, 0, [⟨0, 1, .wo, .any⟩, ⟨1, 1, .wo, .any⟩, ⟨2, 1, .wo, .any⟩, ⟨4, 4, .wo, .any⟩]⟩,
  ⟨"SNP_MIRROR", 0x10, 0, 1, 0, 1, 4, true, 0, [⟨0, 8, .wo, .any⟩]⟩,
  ⟨"SNP_RESTORE_STEP", 0x18, 0, 1, 0, 1, 8, false, 0, [⟨0, 64, .rw, .any⟩]⟩,
  ⟨"SNP_ERR_STAT", 0x20, 0, 1, 0, 1, 4, false, 0, [⟨0, 1, .w1c, .any⟩, ⟨1, 1, .w1c, .any⟩, ⟨2, 1, .w1c, .any⟩, ⟨3, 1, .w1c, .any⟩, ⟨4, 1, .w1c, .any⟩, ⟨5, 1, .w1c, .any⟩, ⟨8, 8, .rc, .any⟩]⟩,
  ⟨"SNP_ERR_INFO", 0x24, 0, 1, 0, 1, 4, false, 0, []⟩,
  ⟨"SNP_BYTES", 0x40, 0, 1, 0, 1, 8, false, 0, []⟩,
  ⟨"SNP_COMMITS", 0x48, 0, 1, 0, 1, 8, false, 0, []⟩,
  ⟨"SNP_DROP", 0x50, 0, 1, 0, 1, 8, false, 0, []⟩,
  ⟨"SNP_PHASE_CTRL", 0x100, 0, 1, 0, 1, 4, false, 0x1000000, [⟨0, 1, .rw, .any⟩, ⟨4, 10, .rw, .any⟩, ⟨16, 9, .rw, (.range 1 0x100)⟩]⟩]

/-- Further rows of the SNP_ register map. -/
def snpRows1 : List RegRow := [
  ⟨"SNP_PHASE_MARK", 0x104, 0, 1, 0, 1, 4, true, 0, [⟨0, 4, .wo, .any⟩, ⟨8, 1, .wo, .any⟩]⟩,
  ⟨"SNP_PHASE_SIG", 0x108, 0, 1, 0, 1, 8, false, 0, [⟨0, 64, .rw, .any⟩]⟩,
  ⟨"SNP_PHASE_STEP", 0x110, 0, 1, 0, 1, 8, false, 0, []⟩,
  ⟨"SNP_PHASE_STAMP", 0x118, 0, 1, 0, 1, 8, false, 0, []⟩,
  ⟨"SNP_PHASE_DUR", 0x120, 0, 1, 0, 1, 8, false, 0, []⟩,
  ⟨"SNP_PH_p_SUM", 0x1000, 32, 16, 0, 1, 8, false, 0, []⟩,
  ⟨"SNP_PH_p_WALL", 0x1008, 32, 16, 0, 1, 8, false, 0, []⟩,
  ⟨"SNP_PH_p_MAX", 0x1010, 32, 16, 0, 1, 4, false, 0, []⟩,
  ⟨"SNP_PH_p_MAXCORE", 0x1014, 32, 16, 0, 1, 4, false, 0, []⟩,
  ⟨"SNP_SET_s_CFG", 0x2000, 64, 16, 0, 1, 4, false, 2, [⟨0, 1, .rw, .any⟩, ⟨1, 2, .rw, (.take 0 0 1)⟩, ⟨3, 1, .rw, .any⟩, ⟨4, 1, .rw, .any⟩, ⟨6, 10, .rw, .any⟩, ⟨16, 16, .rw, .any⟩]⟩,
  ⟨"SNP_SET_s_STATE", 0x2004, 64, 16, 0, 1, 4, false, 0, []⟩,
  ⟨"SNP_SET_s_CSTEP", 0x2008, 64, 16, 0, 1, 8, false, 0xffffffffffffffff, [⟨0, 64, .rw, .any⟩]⟩]

/-- Further rows of the SNP_ register map. -/
def snpRows2 : List RegRow := [
  ⟨"SNP_SET_s_LREC", 0x2010, 64, 16, 0, 1, 8, false, 0, [⟨3, 43, .rw, .any⟩]⟩,
  ⟨"SNP_SET_s_BREC", 0x2018, 64, 16, 0, 1, 8, false, 0, [⟨3, 43, .rw, .any⟩]⟩,
  ⟨"SNP_SET_s_READSIG", 0x2020, 64, 16, 0, 1, 8, false, 0, [⟨0, 64, .rw, .any⟩]⟩,
  ⟨"SNP_SET_s_COMMITSIG", 0x2028, 64, 16, 0, 1, 8, false, 0, [⟨0, 64, .rw, .any⟩]⟩,
  ⟨"SNP_RANGE_i_CFG", 0x4000, 32, 256, 0, 1, 4, false, 0, [⟨0, 1, .rw, .any⟩, ⟨4, 4, .rw, .any⟩]⟩,
  ⟨"SNP_RANGE_i_LEN", 0x4004, 32, 256, 0, 1, 4, false, 1, [⟨0, 24, .rw, (.range 1 0xffffff)⟩]⟩,
  ⟨"SNP_RANGE_i_SRC", 0x4008, 32, 256, 0, 1, 8, false, 0, [⟨16, 32, .rw, .any⟩]⟩,
  ⟨"SNP_RANGE_i_LDST", 0x4010, 32, 256, 0, 1, 8, false, 0, [⟨16, 30, .rw, .any⟩]⟩,
  ⟨"SNP_RANGE_i_BDST", 0x4018, 32, 256, 0, 1, 8, false, 0, [⟨16, 30, .rw, .any⟩]⟩]

/-- The SNP_ register map. -/
def snpRows : List RegRow := snpRows0 ++ snpRows1 ++ snpRows2

/-- Rows of the DET_ register map. -/
def detRows0 : List RegRow := [
  ⟨"DET_CTRL", 0, 0, 1, 0, 1, 4, false, 0, [⟨0, 1, .rw, .any⟩, ⟨1, 1, .rw, .any⟩, ⟨2, 1, .rw, .any⟩, ⟨4, 10, .rw, .any⟩]⟩,
  ⟨"DET_STATUS", 4, 0, 1, 0, 1, 4, false, 0, []⟩,
  ⟨"DET_ENV", 8, 0, 1, 0, 1, 8, false, 0, []⟩,
  ⟨"DET_ERR_STAT", 0x10, 0, 1, 0, 1, 4, false, 0, [⟨0, 1, .w1c, .any⟩, ⟨1, 1, .w1c, .any⟩, ⟨2, 1, .w1c, .any⟩]⟩,
  ⟨"DET_ERR_INFO", 0x14, 0, 1, 0, 1, 4, false, 0, []⟩,
  ⟨"DET_UNITMAP_k", 0x20, 8, 4, 0, 1, 8, false, 0, []⟩,
  ⟨"DET_REC_CTRL", 0x40, 0, 1, 0, 1, 4, false, 0x80000, [⟨0, 1, .rw, .any⟩, ⟨1, 1, .rw, .any⟩, ⟨2, 10, .rw, .any⟩, ⟨16, 5, .rw, (.range 8 0x18)⟩]⟩,
  ⟨"DET_REC_BASE", 0x48, 0, 1, 0, 1, 8, false, 0, [⟨16, 30, .rw, .any⟩]⟩,
  ⟨"DET_REC_HEAD", 0x50, 0, 1, 0, 1, 8, false, 0, []⟩,
  ⟨"DET_REC_WIN_LO", 0x58, 0, 1, 0, 1, 8, false, 0, [⟨12, 34, .rw, .any⟩]⟩,
  ⟨"DET_REC_WIN_HI", 0x60, 0, 1, 0, 1, 8, false, 0, [⟨12, 34, .rw, .any⟩]⟩,
  ⟨"DET_REC_LOST", 0x68, 0, 1, 0, 1, 8, false, 0, []⟩]

/-- Further rows of the DET_ register map. -/
def detRows1 : List RegRow := [
  ⟨"DET_REC_DIFF", 0x70, 0, 1, 0, 1, 8, false, 0, []⟩,
  ⟨"DET_DIG_g_A", 0x1000, 32, 256, 0, 1, 8, false, 0, []⟩,
  ⟨"DET_DIG_g_B", 0x1008, 32, 256, 0, 1, 8, false, 0, []⟩,
  ⟨"DET_DIG_g_C", 0x1010, 32, 256, 0, 1, 8, false, 0, []⟩]

/-- The DET_ register map. -/
def detRows : List RegRow := detRows0 ++ detRows1

/-- Rows of the BOOT_ register map. -/
def bootRows0 : List RegRow := [
  ⟨"BOOT_STATUS", 0, 0, 1, 0, 1, 4, false, 0, []⟩,
  ⟨"BOOT_CTRL", 4, 0, 1, 0, 1, 4, false, 0xc8, [⟨0, 8, .rw, (.range 0x19 0xc8)⟩]⟩,
  ⟨"BOOT_CMD", 8, 0, 1, 0, 1, 4, true, 0, [⟨0, 4, .wo, .any⟩, ⟨4, 1, .wo, .any⟩, ⟨5, 2, .wo, .any⟩]⟩,
  ⟨"BOOT_CMD_ARG", 0xc, 0, 1, 0, 1, 4, false, 0, [⟨0, 32, .rw, .any⟩]⟩,
  ⟨"BOOT_CMD_STAT", 0x10, 0, 1, 0, 1, 4, false, 0, []⟩,
  ⟨"BOOT_ACTIVE", 0x14, 0, 1, 0, 1, 4, false, 0, []⟩,
  ⟨"BOOT_ACT_SEQ", 0x18, 0, 1, 0, 1, 4, false, 0, []⟩,
  ⟨"BOOT_FWVER", 0x1c, 0, 1, 0, 1, 4, false, 0, []⟩,
  ⟨"BOOT_SLOT_s", 0x20, 8, 2, 0, 1, 8, false, 0, []⟩,
  ⟨"BOOT_FUSE", 0x30, 0, 1, 0, 1, 4, false, 0x10000, []⟩,
  ⟨"BOOT_ERR_STAT", 0x34, 0, 1, 0, 1, 4, false, 0, [⟨0, 1, .w1c, .any⟩, ⟨1, 1, .w1c, .any⟩, ⟨2, 1, .w1c, .any⟩, ⟨3, 1, .w1c, .any⟩, ⟨4, 1, .w1c, .any⟩, ⟨5, 1, .w1c, .any⟩, ⟨8, 8, .rc, .any⟩]⟩,
  ⟨"BOOT_ERR_INFO", 0x38, 0, 1, 0, 1, 4, false, 0, []⟩]

/-- Further rows of the BOOT_ register map. -/
def bootRows1 : List RegRow := [
  ⟨"BOOT_REC", 0x3c, 0, 1, 0, 1, 4, false, 0, []⟩,
  ⟨"BOOT_DATA_n", 0x100, 4, 64, 0, 1, 4, false, 0, [⟨0, 32, .rw, .any⟩]⟩,
  ⟨"BOOT_STRAP", 0x800, 0, 1, 0, 1, 4, false, 0, []⟩,
  ⟨"BOOT_ACHAIN_STAT", 0x804, 0, 1, 0, 1, 4, false, 0, []⟩,
  ⟨"BOOT_ACHAIN_CFG", 0x808, 0, 1, 0, 1, 4, false, 0x64, [⟨0, 16, .rw, (.range 0 0xffff)⟩]⟩,
  ⟨"BOOT_ACHAIN_CMD", 0x80c, 0, 1, 0, 1, 4, true, 0, [⟨0, 1, .wo, .any⟩]⟩,
  ⟨"BOOT_ACHAIN_ERR", 0x810, 0, 1, 0, 1, 4, false, 0, [⟨0, 1, .w1c, .any⟩, ⟨1, 1, .w1c, .any⟩, ⟨2, 1, .w1c, .any⟩, ⟨8, 8, .rc, .any⟩]⟩]

/-- The BOOT_ register map. -/
def bootRows : List RegRow := bootRows0 ++ bootRows1

/-- Rows of the CLK_ register map. -/
def clkRows0 : List RegRow := [
  ⟨"CLK_CTRL", 0, 0, 1, 0, 1, 4, false, 2, [⟨0, 1, .rw, .any⟩, ⟨1, 1, .rw, .any⟩]⟩,
  ⟨"CLK_STATUS", 4, 0, 1, 0, 1, 4, false, 0x1000, []⟩,
  ⟨"CLK_ROOT", 8, 0, 1, 0, 1, 4, false, 0x50, [⟨0, 7, .rw, (.range 0x3c 0x50)⟩]⟩,
  ⟨"CLK_CMD", 0xc, 0, 1, 0, 1, 4, true, 0, [⟨0, 1, .wo, .any⟩]⟩,
  ⟨"CLK_MON_CFG", 0x10, 0, 1, 0, 1, 4, false, 0x81e00c8, [⟨0, 16, .rw, (.range 0xa 0xffff)⟩, ⟨16, 8, .rw, (.range 1 0xff)⟩, ⟨24, 4, .rw, (.range 1 0xf)⟩]⟩,
  ⟨"CLK_MON_A", 0x14, 0, 1, 0, 1, 4, false, 0, []⟩,
  ⟨"CLK_MON_B", 0x18, 0, 1, 0, 1, 4, false, 0, []⟩,
  ⟨"CLK_MON_AB", 0x1c, 0, 1, 0, 1, 4, false, 0, []⟩,
  ⟨"CLK_ERR_STAT", 0x20, 0, 1, 0, 1, 4, false, 0, [⟨0, 1, .w1c, .any⟩, ⟨1, 1, .w1c, .any⟩, ⟨2, 1, .w1c, .any⟩, ⟨3, 1, .w1c, .any⟩, ⟨4, 1, .w1c, .any⟩, ⟨5, 1, .w1c, .any⟩, ⟨6, 1, .w1c, .any⟩]⟩,
  ⟨"CLK_FAILOVERS", 0x28, 0, 1, 0, 1, 8, false, 0, []⟩,
  ⟨"CLK_RELOCKS", 0x30, 0, 1, 0, 1, 8, false, 0, []⟩]

/-- The CLK_ register map. -/
def clkRows : List RegRow := clkRows0

/-- Rows of the PWR_ register map. -/
def kilnRows0 : List RegRow := [
  ⟨"PWR_CTRL", 0, 0, 1, 0, 1, 4, false, 3, [⟨0, 1, .rw, .any⟩, ⟨1, 1, .rw, .any⟩]⟩,
  ⟨"PWR_STATUS", 4, 0, 1, 0, 1, 4, false, 0, []⟩,
  ⟨"PWR_BUDGET", 8, 0, 1, 0, 1, 4, false, 0x16a81450, [⟨0, 16, .rw, (.range 0x1f4 0x1450)⟩, ⟨16, 16, .rw, (.range 0x1f4 0x16a8)⟩]⟩,
  ⟨"PWR_CTL_CFG", 0xc, 0, 1, 0, 1, 4, false, 0x3214640a, [⟨0, 8, .rw, (.range 0 0xa)⟩, ⟨8, 8, .rw, (.range 0xa 0xff)⟩, ⟨16, 8, .rw, (.range 1 0xff)⟩, ⟨24, 8, .rw, .any⟩]⟩,
  ⟨"PWR_THERM_CFG", 0x10, 0, 1, 0, 1, 4, false, 0x435c64, [⟨0, 8, .rw, (.range 0x55 0x69)⟩, ⟨8, 8, .rw, (.range 0x50 0x5f)⟩, ⟨16, 4, .rw, (.range 1 0xf)⟩, ⟨20, 4, .rw, (.range 1 8)⟩]⟩,
  ⟨"PWR_PROOF_CFG", 0x14, 0, 1, 0, 1, 4, false, 0x3204, [⟨0, 4, .rw, (.range 1 8)⟩, ⟨4, 4, .rw, (.take 0xb 0xf 0xa)⟩, ⟨8, 16, .rw, (.range 1 0xffff)⟩]⟩,
  ⟨"PWR_CMD", 0x18, 0, 1, 0, 1, 4, true, 0, [⟨0, 1, .wo, .any⟩]⟩,
  ⟨"PWR_INPUT", 0x20, 0, 1, 0, 1, 4, false, 0, [⟨16, 16, .rc, .any⟩]⟩,
  ⟨"PWR_EXCESS", 0x24, 0, 1, 0, 1, 4, false, 0, []⟩,
  ⟨"PWR_CAPS", 0x28, 0, 1, 0, 1, 4, false, 0, []⟩,
  ⟨"PWR_TEMP", 0x2c, 0, 1, 0, 1, 4, false, 0, []⟩,
  ⟨"PWR_ERR_STAT", 0x30, 0, 1, 0, 1, 4, false, 0, [⟨0, 1, .w1c, .any⟩, ⟨1, 1, .w1c, .any⟩, ⟨2, 1, .w1c, .any⟩, ⟨3, 1, .w1c, .any⟩, ⟨4, 1, .w1c, .any⟩]⟩]

/-- Further rows of the PWR_ register map. -/
def kilnRows1 : List RegRow := [
  ⟨"PWR_TRIP_INFO", 0x34, 0, 1, 0, 1, 4, false, 0, []⟩,
  ⟨"PWR_THROT_US", 0x40, 0, 1, 0, 1, 8, false, 0, []⟩,
  ⟨"PWR_RECOVER_US", 0x48, 0, 1, 0, 1, 8, false, 0, []⟩,
  ⟨"PWR_LOANS", 0x50, 0, 1, 0, 1, 8, false, 0, []⟩]

/-- The PWR_ register map. -/
def kilnRows : List RegRow := kilnRows0 ++ kilnRows1

/-- Rows of the PWRSD_ register map. -/
def pwrSdRows0 : List RegRow := [
  ⟨"PWR_SD_STATUS", 0, 0, 1, 0, 1, 4, false, 0, []⟩,
  ⟨"PWR_SD_VIN", 4, 0, 1, 0, 1, 4, false, 0, []⟩,
  ⟨"PWR_SD_IIN", 8, 0, 1, 0, 1, 4, false, 0, []⟩,
  ⟨"PWR_SD_POWER", 0xc, 0, 1, 0, 1, 4, false, 0, []⟩,
  ⟨"PWR_SD_TEMP", 0x10, 0, 1, 0, 1, 4, false, 0, []⟩]

/-- The PWRSD_ register map. -/
def pwrSdRows : List RegRow := pwrSdRows0

/-- Rows of the ERR_ register map. -/
def errRows0 : List RegRow := [
  ⟨"ERR_STATUS", 0, 0, 1, 0, 1, 4, false, 0, []⟩,
  ⟨"ERR_CMD", 4, 0, 1, 0, 1, 4, true, 0, [⟨0, 2, .wo, .any⟩, ⟨2, 5, .wo, (.range 0 0x10)⟩, ⟨7, 3, .wo, (.take 7 7 6)⟩, ⟨10, 1, .wo, .any⟩, ⟨11, 1, .wo, .any⟩, ⟨12, 1, .wo, .any⟩]⟩,
  ⟨"ERR_TRANSIENT", 8, 0, 1, 0, 1, 8, false, 0, []⟩,
  ⟨"ERR_LASTING", 0x10, 0, 1, 0, 1, 8, false, 0, []⟩,
  ⟨"ERR_CTRL", 0x100, 0, 1, 0, 1, 4, false, 3, [⟨0, 1, .rw, .any⟩, ⟨1, 1, .rw, .any⟩]⟩,
  ⟨"ERR_WDOG", 0x104, 0, 1, 0, 1, 4, false, 0x3e807d0, [⟨0, 16, .rw, (.range 0xa 0xffff)⟩, ⟨16, 16, .rw, (.range 0x64 0xffff)⟩]⟩,
  ⟨"ERR_REQ_WDOG", 0x108, 0, 1, 0, 1, 4, false, 0xfa0, [⟨0, 16, .rw, (.range 0x9c4 0xffff)⟩]⟩,
  ⟨"ERR_POLICY", 0x110, 0, 1, 0, 1, 8, false, 0xbc0057fc, [⟨0, 64, .rw, .any⟩]⟩,
  ⟨"ERR_ABORT", 0x118, 0, 1, 0, 1, 4, true, 0, [⟨0, 10, .wo, .any⟩, ⟨15, 1, .wo, .any⟩]⟩,
  ⟨"ERR_FW_HEART", 0x11c, 0, 1, 0, 1, 4, true, 0, [⟨0, 3, .wo, .any⟩]⟩,
  ⟨"ERR_REC_HEAD", 0x120, 0, 1, 0, 1, 4, false, 0, []⟩,
  ⟨"ERR_REC_TAIL", 0x124, 0, 1, 0, 1, 4, false, 0, [⟨0, 32, .rw, .any⟩]⟩]

/-- Further rows of the ERR_ register map. -/
def errRows1 : List RegRow := [
  ⟨"ERR_REC_LOST", 0x128, 0, 1, 0, 1, 4, false, 0, []⟩,
  ⟨"ERR_CHIP", 0x12c, 0, 1, 0, 1, 4, false, 0, []⟩,
  ⟨"ERR_RELEASE", 0x130, 0, 1, 0, 1, 4, true, 0, [⟨0, 1, .wo, .any⟩, ⟨1, 1, .wo, .any⟩]⟩,
  ⟨"ERR_ORPHANS", 0x134, 0, 1, 0, 1, 4, false, 0, []⟩,
  ⟨"ERR_LATE_DROP", 0x140, 0, 1, 0, 1, 8, false, 0, []⟩,
  ⟨"ERR_REC_e_k", 0x1000, 32, 256, 8, 4, 8, false, 0, []⟩,
  ⟨"ERR_ESC_CORE_p", 0x3000, 8, 272, 0, 1, 8, false, 0, []⟩,
  ⟨"ERR_ESC_REGION_n", 0x3900, 8, 16, 0, 1, 8, false, 0, []⟩,
  ⟨"ERR_ESC_CHIP", 0x3980, 0, 1, 0, 1, 8, false, 0, []⟩]

/-- The ERR_ register map. -/
def errRows : List RegRow := errRows0 ++ errRows1

/-- Rows of the DBG_ register map. -/
def dbgRows0 : List RegRow := [
  ⟨"DBG_CLAMP_CNT_n", 0x1000, 4, 1024, 0, 1, 4, false, 0, [⟨0, 32, .rw, .any⟩]⟩,
  ⟨"DBG_CLAMP_NOCTX", 0x2000, 0, 1, 0, 1, 4, false, 0, [⟨0, 32, .rw, .any⟩]⟩,
  ⟨"DBG_CLAMP_LINK_p", 0x2020, 4, 8, 0, 1, 4, false, 0, [⟨0, 32, .rw, .any⟩]⟩,
  ⟨"DBG_CLAMP_LAST_ADDR", 0x2040, 0, 1, 0, 1, 8, false, 0, []⟩,
  ⟨"DBG_CLAMP_LAST_INFO", 0x2048, 0, 1, 0, 1, 4, false, 0, []⟩,
  ⟨"DBG_CLAMP_STAT", 0x204c, 0, 1, 0, 1, 4, false, 0, [⟨0, 1, .w1c, .any⟩]⟩,
  ⟨"DBG_MUX_SEL", 0, 0, 1, 0, 1, 4, false, 0xff, [⟨0, 8, .rw, .any⟩, ⟨8, 2, .rw, (.take 2 3 1)⟩]⟩,
  ⟨"DBG_CNT_CTRL", 4, 0, 1, 0, 1, 4, false, 0, [⟨0, 1, .rw, .any⟩]⟩,
  ⟨"DBG_FREEZE_STAMP", 8, 0, 1, 0, 1, 8, false, 0, []⟩,
  ⟨"DBG_OBS_CFG", 0x100, 0, 1, 0, 1, 4, false, 0, [⟨0, 1, .rw, .any⟩, ⟨1, 1, .rw, .any⟩, ⟨2, 2, .rw, .any⟩, ⟨4, 1, .rw, .any⟩, ⟨8, 5, .rw, .any⟩, ⟨13, 1, .rw, .any⟩, ⟨16, 5, .rw, .any⟩, ⟨21, 1, .rw, .any⟩]⟩,
  ⟨"DBG_TRIG_CTRL", 0x104, 0, 1, 0, 1, 4, false, 0, [⟨0, 1, .rw, .any⟩, ⟨1, 1, .rw, .any⟩, ⟨2, 1, .rw, .any⟩, ⟨3, 1, .rw, .any⟩, ⟨4, 1, .rw, .any⟩, ⟨8, 1, .rw, .any⟩, ⟨9, 1, .rw, .any⟩, ⟨10, 1, .rw, .any⟩, ⟨11, 1, .rw, .any⟩]⟩,
  ⟨"DBG_TRIG_MATCH", 0x108, 0, 1, 0, 1, 4, false, 0, [⟨0, 16, .rw, .any⟩, ⟨16, 16, .rw, .any⟩]⟩]

/-- Further rows of the DBG_ register map. -/
def dbgRows1 : List RegRow := [
  ⟨"DBG_TRIG_CFG", 0x10c, 0, 1, 0, 1, 4, false, 0x40001, [⟨0, 16, .rw, (.range 1 0xffff)⟩, ⟨16, 8, .rw, .any⟩, ⟨24, 1, .rw, .any⟩]⟩,
  ⟨"DBG_TRIG_STAT", 0x110, 0, 1, 0, 1, 4, false, 0, [⟨0, 1, .w1c, .any⟩, ⟨8, 8, .rc, .any⟩]⟩,
  ⟨"DBG_TRIG_CMD", 0x114, 0, 1, 0, 1, 4, true, 0, [⟨0, 1, .wo, .any⟩, ⟨1, 1, .wo, .any⟩]⟩,
  ⟨"DBG_TRIG_HALT", 0x118, 0, 1, 0, 1, 4, false, 0, [⟨0, 16, .rw, .any⟩]⟩,
  ⟨"DBG_TRACE_CFG", 0x120, 0, 1, 0, 1, 4, false, 0x10000000, [⟨0, 1, .rw, .any⟩, ⟨16, 13, .rw, .any⟩]⟩,
  ⟨"DBG_TRACE_STAT", 0x124, 0, 1, 0, 1, 4, false, 0, []⟩,
  ⟨"DBG_TRIG_STAMP", 0x128, 0, 1, 0, 1, 8, false, 0, []⟩,
  ⟨"DBG_TAP_STAT", 0x300, 0, 1, 0, 1, 4, false, 1, [⟨8, 8, .rc, .any⟩]⟩,
  ⟨"DBG_TRACE_n", 0x4000, 4, 4096, 0, 1, 4, false, 0, []⟩]

/-- The DBG_ register map. -/
def dbgRows : List RegRow := dbgRows0 ++ dbgRows1

/-- Rows of the MGT_ register map. -/
def mgtRows0 : List RegRow := [
  ⟨"MGT_ID", 0, 0, 1, 0, 1, 4, false, 0, []⟩,
  ⟨"MGT_SERIAL", 8, 0, 1, 0, 1, 8, false, 0, []⟩,
  ⟨"MGT_UPTIME", 0x10, 0, 1, 0, 1, 8, false, 0, []⟩,
  ⟨"MGT_SB_CFG", 0x18, 0, 1, 0, 1, 4, false, 0, [⟨0, 1, .rw, .any⟩, ⟨1, 1, .rw, .any⟩, ⟨2, 1, .rw, .any⟩, ⟨4, 2, .rw, (.take 3 3 2)⟩]⟩,
  ⟨"MGT_SB_STAT", 0x1c, 0, 1, 0, 1, 4, false, 0, []⟩,
  ⟨"MGT_TEL_CTRL", 0x20, 0, 1, 0, 1, 4, true, 0, [⟨0, 1, .wo, .any⟩]⟩,
  ⟨"MGT_TEL_SEQ", 0x24, 0, 1, 0, 1, 4, false, 0, []⟩,
  ⟨"MGT_TEL_k", 0x40, 8, 8, 0, 1, 8, false, 0, []⟩,
  ⟨"MGT_MBOX_DROP", 0x100, 0, 1, 0, 1, 4, false, 0, [⟨0, 32, .rc, .any⟩]⟩,
  ⟨"MGT_HMB_POST", 0x108, 0, 1, 0, 1, 8, true, 0, [⟨0, 3, .wo, .any⟩, ⟨3, 13, .wo, (.range 0 0x1000)⟩, ⟨16, 16, .wo, .any⟩]⟩,
  ⟨"MGT_HMB_s_HDR", 0x200, 8, 8, 0, 1, 8, false, 0, [⟨63, 1, .w1c, .any⟩]⟩]

/-- The MGT_ register map. -/
def mgtRows : List RegRow := mgtRows0

end Sys2Proof.Machine
end

