-- ==== Sys2Proof/Machine/Regs.lean ====
section
/-! DEFINITION. Finding the register that a DPA of the CSR window names (R43, R44, R46), and the value every register word holds at
reset (R15). -/

namespace Sys2Proof.Machine

/-- A register found at a DPA: its row, and the DPA of its lowest byte. -/
structure RegHit where
  row : RegRow
  addr : Nat
deriving DecidableEq, Repr

/-- Does block offset `off` lie in register row `r`, and at which byte does that register start? -/
def RegRow.start? (r : RegRow) (off : Nat) : Option Nat :=
  if off < r.off then none
  else
    let x := off - r.off
    let i := if r.stride1 = 0 then 0 else min (x / r.stride1) (r.count1 - 1)
    let y := x - i * r.stride1
    let j := if r.stride2 = 0 then 0 else min (y / r.stride2) (r.count2 - 1)
    let z := y - j * r.stride2
    if z < r.size then some (off - z) else none

/-- The first row of a map that holds a block offset. -/
def findRow : List RegRow → Nat → Option (RegRow × Nat)
  | [], _ => none
  | r :: rs, off => match r.start? off with
    | some a => some (r, a)
    | none => findRow rs off

/-- The per-core maps by sub-offset (R44). -/
def coreBlock (sub : Nat) : List RegRow × Nat :=
  if sub < 0x10000 then (coreRows, 0)
  else if sub < 0x20000 then (mtxRows, 0x10000)
  else if sub < 0x30000 then (vecRows, 0x20000)
  else if sub < 0x40000 then (strRows, 0x30000)
  else if sub < 0x50000 then (synRows, 0x40000)
  else ([], 0)

/-- ERR_ registers from offset 0x100 exist only in HD0 (R557). -/
def errBlock (d : Nat) : List RegRow :=
  errRows.filter (fun r => decide (d = 28) || decide (r.off < 0x100))

/-- DBG_ registers: below 0x10 on every die, the clamp counters in HD0, the rest in HD1 (R649). -/
def dbgBlock (d : Nat) : List RegRow :=
  dbgRows.filter fun r =>
    decide (r.off < 0x10) ||
    (if decide (0x1000 ≤ r.off) && decide (r.off < 0x2100) then decide (d = 28) else decide (d = 29))

/-- BOOT_ registers below 0x200 exist only in HD0, those from 0x800 upward only in HD1 (R612). -/
def bootBlock (d : Nat) : List RegRow := bootRows.filter fun r => if r.off < 0x200 then decide (d = 28) else decide (d = 29)

/-- The doorbell words exist only in HD0 (R635). -/
def hubBlock (d : Nat) : List RegRow := hubRows.filter fun r => decide (d = 28) || decide (r.off < 0x20000)

/-- The telemetry and host mailbox registers exist only in HD0, the sideband registers only in HD1 (R636). -/
def mgtBlock (d : Nat) : List RegRow :=
  mgtRows.filter fun r =>
    if r.off = 0x18 ∨ r.off = 0x1C then decide (d = 29)
    else decide (d = 28) || decide (r.off < 0x18) || decide (r.off = 0x100)

/-- The map and the block offset that die `d` holds at a window offset (R44). -/
def dieBlock (d off : Nat) : List RegRow × Nat :=
  let top := off / 0x1000000
  if top = 0x2F then (errBlock d, 0x2F000000)
  else if top = 0x30 then (dbgBlock d, 0x30000000)
  else if d < 16 then
    if top < 17 then
      let b := coreBlock (off % 0x1000000)
      (b.1, top * 0x1000000 + b.2)
    else if top = 0x20 then (memRows, 0x20000000)
    else if top = 0x21 then (pgeRows, 0x21000000)
    else if top = 0x22 then (alcRows, 0x22000000)
    else if top = 0x23 then (pwrRgRows, 0x23000000)
    else ([], 0)
  else if d < 24 then
    if top = 0 then (lnkRows, 0) else if top = 1 then (colRows, 0x1000000)
    else if top = 2 then (rteRows, 0x2000000) else if top = 3 then (fenRows, 0x3000000) else ([], 0)
  else if d < 28 then if top = 0 then (capRows, 0) else ([], 0)
  else if d < 30 then
    if top = 0 then (hubBlock d, 0)
    else if top = 4 then (bootBlock d, 0x4000000)
    else if top = 0x38 then (mgtBlock d, 0x38000000)
    else if d = 28 then
      if top = 1 then (schRows, 0x1000000) else if top = 2 then (snpRows, 0x2000000)
      else if top = 3 then (detRows, 0x3000000) else if top = 5 then (clkRows, 0x5000000)
      else if top = 6 then (kilnRows, 0x6000000) else ([], 0)
    else ([], 0)
  else if top = 0 then (pwrSdRows, 0) else ([], 0)

/-- Does a DPA lie in the CSR window of a die (R43)? -/
def isCsr (a : Nat) : Bool := decide (0x3F0000000000 ≤ a) && decide (a < 0x3F2000000000)

/-- The die whose CSR window holds a DPA. -/
def csrDie (a : Nat) : Nat := (a - 0x3F0000000000) / 0x100000000

/-- The register at a DPA, if one lies there (R46). -/
def regAt (a : Nat) : Option RegHit :=
  if isCsr a then
    let d := csrDie a
    let off := (a - 0x3F0000000000) % 0x100000000
    let b := dieBlock d off
    match findRow b.1 (off - b.2) with
    | some (r, s) => some ⟨r, dieWindow d + b.2 + s⟩
    | none => none
  else none

/-- Reset values that a map gives per unit, not as one number (R635: the device ID of each host port). -/
def resetOf (h : RegHit) : Nat :=
  if h.row.name = "HUB_PCI_ID" then (if csrDie h.addr = 28 then 0x0A211F5B else 0x0A221F5B)
  else h.row.reset

/-- The word that the register file holds at a word address when nothing has been written (R15). -/
def csrReset (a : Nat) : Word :=
  match regAt a with
  | some h => BitVec.ofNat 32 (resetOf h >>> (8 * (a - h.addr)))
  | none => 0

end Sys2Proof.Machine
end

