-- ==== Sys2Proof/Machine/StateCore.lean ====
section
/-! DEFINITION. The state of one core that no register holds: control core, command queues, hand-over links, accumulator banks and the
state inside the five engines. The registers of the core's blocks are words of the register file (State.lean). -/

namespace Sys2Proof.Machine

/-- Why the control core does not go on (R76, R78, R79, R83, R84, R110). -/
inductive CtlStall where
  | none
  | push (eng : Nat)
  | wait (eng value : Nat)
  | boundary
  | seed
  | access (req : Nat)
  | faulted
deriving DecidableEq, Repr

/-- Which halt holds the core: a break hit or BRK (RUN 3), or CORE_RUN.HALT (RUN 4) (R113, R114). -/
inductive Halt where
  | none | brk | run
deriving DecidableEq, Repr

/-- Self-test of a physical core: none, ordered and waiting for the core to be idle, or running its first or second run (R546). -/
inductive SelfTest where
  | none | pending | running (second : Bool)
deriving DecidableEq, Repr

/-- One pushed command: its 64 bytes, the scratchpad DPA CPUSHM took them from, the context placed at the push, and whether a break
holds it at the head (R113). -/
structure QEntry where
  cmd : CmdBits
  src : Option Nat
  ctx : Option Nat
  held : Bool
deriving DecidableEq, Repr

/-- One segment of a segmented MMA as read and clamped (R175, R176). -/
structure Seg where
  row : Nat
  count : Nat
  base : Nat
deriving DecidableEq, Repr

/-- One issued command that has not completed, with its fields already clamped. `src` is the scratchpad DPA that it was pushed from by CPUSHM. `ready` is false while the segment table, the
configuration block or the descriptor is being read; `started` counts the repeats that took their halves and banks; `pos` is the
progress within the running repeat (groups sent, elements walked, next byte); `inHeld`, `outHeld` and `bankHeld` list the halves and
banks taken and not yet marked, oldest first; `stopped` is set by a lasting error. `words` is the table, block or descriptor as read,
`first` the first reserved stream position, `reading` the check of a parity error under retry. -/
structure Running where
  cmd : CmdBits
  src : Option Nat
  ctx : Option Nat
  ready : Bool
  started : Nat
  pos : Nat
  inHeld : List Nat
  outHeld : List Nat
  bankHeld : List Nat
  segs : List Seg
  words : List Nat
  first : Nat
  stopped : Bool
  refetch : Bool
deriving DecidableEq, Repr

/-- One engine: its queue and the commands it runs, in issue order. -/
structure Engine where
  queue : List QEntry
  running : List Running
deriving DecidableEq, Repr

/-- An engine with nothing queued and nothing running. -/
def Engine.idle : Engine := ⟨[], []⟩

/-- One hand-over link (R105): the two halves, the pointers, and a configuration written and not yet in effect (R109). -/
structure Link where
  full0 : Bool
  full1 : Bool
  prod : Nat
  cons : Nat
  pending : Option (BitVec 64)
deriving DecidableEq, Repr

/-- Both halves empty, both pointers at half 0. -/
def Link.reset : Link := ⟨false, false, 0, 0, none⟩

/-- The states of an accumulator bank (R160). -/
inductive BankState where
  | empty | closing | full
deriving DecidableEq, Repr

/-- One accumulator bank: element 128 × row + column. An unlisted element is +0, or, with `draw` set, the free value of that draw
(R160). `mvpOnly`: every addition since it became open came from the MVP; `fast`: it closed on the matrix-vector path (R166, R173). -/
structure Bank where
  state : BankState
  elems : SMap Word
  draw : Option Nat
  mvpOnly : Bool
  fast : Bool
  lastTag : Nat
deriving DecidableEq, Repr

/-- A bank as a reset leaves it: empty, contents undefined (R160). -/
def Bank.reset : Bank := ⟨.empty, [], some 0, true, false, 0⟩

/-- The matrix cell beyond its registers: banks, open pointer, order of closing, the activity controller (R180–R186). -/
structure Mtx where
  bank0 : Bank
  bank1 : Bank
  opened : Nat
  closed : List Nat
  level : Nat
  target : Nat
  proofLeft : Option Nat
  lastFmt : Nat
  lastMvp : Bool
  proofSlot : Bool
  holding : Bool
deriving DecidableEq, Repr

/-- The matrix cell after a reset that reaches it (R190). -/
def Mtx.reset : Mtx := ⟨Bank.reset, Bank.reset, 0, [], 0, 0, none, 0, false, false, false⟩

/-- State of the outstanding WAIT (SYN_STATUS.MODE). -/
inductive WaitMode where
  | none | local | sent | accepted | polling
deriving DecidableEq, Repr

/-- Where an operation on a sync word comes from, and so where its return goes: the cell's own ATOMIC, a completion add, a request, the
sender of a watch message (node, global core, generation tag), or a master that takes no return. -/
inductive SynFrom where
  | own
  | signal
  | req (i : Nat)
  | watch (node core gen : Nat)
  | master
deriving DecidableEq, Repr

/-- What an operation on a sync word does: an ATOMIC of R254, a read, or the registration of a watch with a condition of R258. -/
inductive SynKind where
  | atomic (op : Nat)
  | read
  | register (op : Nat)
deriving DecidableEq, Repr

/-- An operation on sync object `obj` for a context, or for none (R256). -/
structure SynOp where
  obj : Nat
  kind : SynKind
  operand : DWord
  compare : DWord
  ctx : Option Nat
  source : SynFrom
deriving DecidableEq, Repr

/-- The sync cell beyond its registers. `awaiting` is set while an issued ATOMIC waits for its return. -/
structure Syn where
  incoming : List SynOp
  mode : WaitMode
  waiting : Bool
  awaiting : Option Nat
deriving DecidableEq, Repr

/-- A sync cell after a reset. -/
def Syn.reset : Syn := ⟨[], .none, false, none⟩

/-- One core slot. -/
structure Core where
  pc : BitVec 24
  regs : SMap DWord
  cabs : SMap CmdBits
  stall : CtlStall
  halt : Halt
  boundary : Bool
  engines : SMap Engine
  links : SMap Link
  mtx : Mtx
  syn : Syn
  test : SelfTest
deriving DecidableEq, Repr

/-- A core slot as a core reset leaves it (R119). -/
def Core.reset : Core := ⟨0, [], [], .none, .none, false, [], [], Mtx.reset, Syn.reset, .none⟩

end Sys2Proof.Machine
end

