-- ==== Sys2Proof/Machine/StateSys.lean ====
section
/-! DEFINITION. The types of the state outside the cores: what the region, chip and always-on units hold that no register shows. -/

namespace Sys2Proof.Machine

/-- Bytes from `lo` up to `hi` whose contents the spec does not give: they read as the free bytes of draw `draw`. -/
structure Wild where
  lo : Nat
  hi : Nat
  draw : Nat
deriving DecidableEq, Repr

/-- A stochastic-rounding generator: its state and the random values of the last step that have not been drawn (R134). -/
structure Seed where
  state : DWord
  left : List Nat
deriving DecidableEq, Repr

/-- The generator after a core reset (R136). -/
def Seed.reset : Seed := ⟨0x9E3779B97F4A7C15, []⟩

/-- The watch messages of R258 to R266. -/
inductive WatchKind where
  | register (op : Nat) (operand compare : DWord)
  | accepted
  | full
  | wake (value : DWord)
  | absent
  | cancel
deriving DecidableEq, Repr

/-- A watch message. `node` and `core` are the other party's node and global core: the sender's while the message is here, the receiver's
while it waits to leave the chip. `here` is the core slot on this chip that it comes from or goes to, `target` the DPA or CVA of the watched
word in a message to a holder, `gen` the waiter's generation tag. -/
structure WatchMsg where
  node : Nat
  core : Nat
  here : Nat
  target : Nat
  gen : Nat
  ctx : Option Nat
  kind : WatchKind
deriving DecidableEq, Repr

/-- What a snapshot set is doing beyond mirroring (R505, R508, R511): reading the buddy's domain, reading or clearing records, writing the records of
a commit, and the steps of a restore. -/
inductive SnpStage where
  | idle | domain | keep | commit | restWait | restRecord | restCopy | restSource | restOther
deriving DecidableEq, Repr

/-- A snapshot set beyond its registers. `epoch` tells its requests from those of before the last failure or disabling; `left` counts record
accesses; `step`, `buddy` and `other` are those of the restore. -/
structure SnpSet where
  epoch : Nat
  failed : Bool
  stage : SnpStage
  left : Nat
  step : Nat
  buddy : Bool
  other : Bool
deriving DecidableEq, Repr

/-- A set that does nothing. -/
def SnpSet.reset : SnpSet := ⟨0, false, .idle, 0, 0, false, false⟩

/-- A range being copied, for the open step or for a restore: the next 4 KiB to read, reads returned, writes acknowledged, and whether the reads
have been signalled (R504, R511). -/
structure SnpJob where
  range : Nat
  restore : Bool
  next : Nat
  back : Nat
  wrote : Nat
  signalled : Bool
deriving DecidableEq, Repr

/-- Why a core is reset (R540). -/
inductive ResetCause where
  | fault | command | abort | wide
deriving DecidableEq, Repr

/-- A core reset that waits (R544), with the context that a record already names. -/
structure WaitReset where
  core : Nat
  cause : ResetCause
  named : Option Nat
deriving DecidableEq, Repr

/-- What the Kiln holds for a core (R574–R577): BASE, LOAN, whether it lends, and, while its end notice is being served, the borrowers whose lowered
level it waits for. -/
structure KilnCore where
  base : Nat
  loan : Nat
  lent : Bool
  back : Option (List Nat)
deriving DecidableEq, Repr

/-- A core as PWR_RG_CAP_s is at reset. -/
def KilnCore.reset : KilnCore := ⟨8, 0, false, none⟩

/-- A flash command in progress (R607), with the data of a PROGRAM. -/
structure FlashCmd where
  op : Nat
  slot : Nat
  key : Nat
  arg : Nat
  data : List Byte
deriving DecidableEq, Repr

/-- A host port beyond its registers: log₂ of BAR2's size (R616), MSI-X enabled and function mask, D3hot (R625), and the values of
HUB_CTRL.GEN_MAX and HUB_LANE_MAP that the last fundamental reset took (R615, R635). -/
structure PciPort where
  bar2 : Nat
  msix : Bool
  masked : Bool
  d3 : Bool
  gen : Nat
  lanes : Nat
deriving DecidableEq, Repr

/-- The configuration space after a reset of the port: BAR2 is 16 GiB (R616). -/
def PciPort.reset : PciPort := ⟨34, false, false, false, 0, 0⟩

/-- A completion to a host: Completer Abort or success, whether EP is set, and the data read. -/
structure HostReply where
  abort : Bool
  ep : Bool
  data : List Byte
deriving DecidableEq, Repr

/-- A sideband response (R631): its STATUS and its data bytes. -/
structure SbReply where
  status : Nat
  data : List Byte
deriving DecidableEq, Repr

/-- A message in the mailbox of a management core (R627). -/
structure MboxMsg where
  src : Nat
  msgid : Nat
  data : List Byte
deriving DecidableEq, Repr

/-- The trigger registers that the unit works with. -/
structure TrigRegs where
  ctrl : Word
  cond : Word
  cfg : Word
deriving DecidableEq, Repr

/-- The trigger registers at standby power-on (R649). -/
def TrigRegs.reset : TrigRegs := ⟨0, 0, 0x00040001⟩

end Sys2Proof.Machine
end

