-- ==== Sys2Proof/Machine/StateMem.lean ====
section
/-! DEFINITION. Memory requests, the memory channels and the paging units as state: what no register of the MEM_, CAP_, PGE_ and ALC_ blocks
shows. -/

namespace Sys2Proof.Machine

/-- The master that a request goes back to: a core's control core, stream cell (0 STA, 1 STB) or sync cell; a host port with the tag of
its TLP; the receive path of a link die for a request from another chip, with the requester's node and tag, the virtual channel, and the requester's core and MASTER code; another
unit of a die, by its UNIT code. -/
inductive ReqFrom where
  | ctl (c : Nat)
  | str (c s : Nat)
  | syn (c : Nat)
  | host (port tag : Nat)
  | link (die node tag vc core master : Nat)
  | unit (die code : Nat)
deriving DecidableEq, Repr

/-- What a request asks. A write carries one entry for each byte, `none` where its byte enable is clear. -/
inductive ReqOp where
  | read (n : Nat)
  | write (data : List (Option Byte))
  | sync (kind : SynKind) (operand compare : DWord)
deriving DecidableEq, Repr

/-- How a request failed: a translation fault (kind and level of R338), a poisoned response, no path, no reply in time, or a target that is
no sync word (R257). -/
inductive ReqBad where
  | ok
  | xlate (kind level : Nat)
  | poison (dpa : Nat)
  | nopath
  | timeout
  | nonsync
deriving DecidableEq, Repr

/-- Where a request stands: waiting for translation, in a page walk, waiting on a leaf under migration or on a shadow being cleared, at the
memory channels with accesses left, at a register whose write is performed when what it orders ends (R225, R340), held at the external port of a core in self-test (R547), in a sync cell, at another chip
(handed to a port or not yet), or answered. -/
inductive ReqStage where
  | translate
  | walk
  | held
  | memory (left : Nat)
  | atRegister
  | atPort
  | atSync
  | remote (sent : Bool)
  | replied
deriving DecidableEq, Repr

/-- One outstanding request. `addr` is its CVA, or its DPA when `isDpa`; `rep` and `off` place a stream request in its command; `tag` is
the command's tag; `gen` the issuing core's reset generation tag; `value` the return of a sync operation. -/
structure Req where
  src : ReqFrom
  op : ReqOp
  ctx : Option Nat
  node : Nat
  addr : Nat
  isDpa : Bool
  dpa : Nat
  stage : ReqStage
  at_ : Nat
  tag : Nat
  rep : Nat
  off : Nat
  gen : Nat
  data : SMap Byte
  value : DWord
  bad : ReqBad
deriving DecidableEq, Repr

/-- One access at a memory channel: part of request `req` (none for a scrub read), `len` bytes at `lo`, from byte `off` of the request.
`input` is the arbiter's input, `master` the place of the master in the turn of R276, `at_` the CORE cycle of its arrival. -/
structure Access where
  req : Option Nat
  lo : Nat
  len : Nat
  off : Nat
  wr : Option (List (Option Byte))
  ctx : Option Nat
  master : Nat
  input : Nat
  at_ : Nat
deriving DecidableEq, Repr

/-- The admission arbiter of a channel (R276): the input served, what is left of its turn, the last master of the region port. -/
structure Arb where
  input : Nat
  left : Nat
  master : Nat
deriving DecidableEq, Repr

/-- A channel's own state: requests waiting at its inputs, the reorder queue in admission order, the write batch, the arbiter, the open
row of each bank (row + 1), whether the data bus last wrote, the next burst to scrub and the next bank to refresh. -/
structure Chan where
  waiting : List Access
  queue : List Access
  batch : Bool
  arb : Arb
  rows : SMap Nat
  wrote : Bool
  scrub : Nat
  refBank : Nat
deriving DecidableEq, Repr

/-- A channel with nothing queued. -/
def Chan.reset : Chan := ⟨[], [], false, ⟨0, 0, 0⟩, [], false, 0, 0⟩

/-- A write to STR_INSTALL whose copies are not done (R225): the core slot whose scratchpad holds the images, who wrote, where the images
start, the first index, how many, and the request that carries the write, if one does. -/
structure Install where
  core : Nat
  master : Master
  src : Nat
  index : Nat
  count : Nat
  req : Option Nat
deriving DecidableEq, Repr

/-- An uncorrectable burst reported to a paging unit (R356): its DPA, the crumbs that failed, whether the scrubber found it. -/
structure UeReport where
  dpa : Nat
  crumb0 : Bool
  crumb1 : Bool
  scrub : Bool
deriving DecidableEq, Repr

end Sys2Proof.Machine
end

