-- ==== Sys2Proof/Machine/StatePge.lean ====
section
/-! DEFINITION. The paging units, migration engines and allocators as state (R329–R358): what no register of the PGE_ and ALC_ blocks
shows. A leaf is named by its context, its first page (CVA ÷ 64 KiB) and whether it maps a slab. -/

namespace Sys2Proof.Machine

/-- The leaf of a context that maps a page or a slab. -/
structure LeafId where
  ctx : Nat
  page : Nat
  slab : Bool
deriving DecidableEq, Repr

/-- A translation-buffer entry (R337). -/
structure TbEntry where
  id : LeafId
  leaf : DWord
deriving DecidableEq, Repr

/-- A queued move, with the leaf entry as the engine saw it. `target` is the region whose stack a promotion goes to (R343). -/
structure MigEntry where
  id : LeafId
  leaf : DWord
  promote : Bool
  target : Nat
deriving DecidableEq, Repr

/-- The move in progress, which is also its log record (R342, R350). `dest` is the frame taken for it, in the other tier; a demotion of a
leaf with a clean copy takes none (R344). `free` once every paging unit has acknowledged its shootdown; `evict` for a demotion of R346. -/
structure Move where
  entry : MigEntry
  dest : Option Nat
  inval : Nat
  free : Bool
  evict : Bool
deriving DecidableEq, Repr

/-- An entry of the access table (R345). -/
structure AccessCount where
  id : LeafId
  count : Nat
deriving DecidableEq, Repr

/-- A hint on its way (R238, R348): `slab` is the first slab, CVA ÷ 2 MiB. -/
structure Hint where
  ctx : Nat
  slab : Nat
  count : Nat
  release : Bool
deriving DecidableEq, Repr

/-- One region's paging unit: translation buffer, migration queue, the move in progress, the access table, the use counts of the region's
stacked slab frames, hints and forwarded slabs waiting. -/
structure Paging where
  tb : List TbEntry
  queue : List MigEntry
  move : Option Move
  access : List AccessCount
  use : SMap Nat
  hints : List Hint
  slabs : List Hint
deriving DecidableEq, Repr

/-- A paging unit after a reset. -/
def Paging.reset : Paging := ⟨[], [], none, [], [], [], []⟩

/-- Why an invalidation runs: a write of PGE_INVAL (with the request that carries it), a move of a region's engine, an UNMAP or UNMAP_CTX of
a region's allocator. -/
inductive InvalFor where
  | write (req : Option Nat)
  | move (region : Nat)
  | unmap (region : Nat)
deriving DecidableEq, Repr

/-- An invalidation of pages `lo` up to `hi` of a context, and the regions that have acknowledged it (R340). -/
structure Inval where
  ctx : Nat
  lo : Nat
  hi : Nat
  acks : List Nat
  purpose : InvalFor
deriving DecidableEq, Repr

/-- A command record as an allocator read it (R351): its DPA, the region that received it, its 32 bytes with the fields clamped. -/
structure AlcRec where
  dpa : Nat
  received : Nat
  body : BitVec 256
deriving DecidableEq, Repr

/-- One region's allocator: the queued records, and whether the first one waits for its shootdown. -/
structure Alc where
  queue : List AlcRec
  waiting : Bool
deriving DecidableEq, Repr

/-- An allocator after a reset. -/
def Alc.reset : Alc := ⟨[], false⟩

end Sys2Proof.Machine
end

