-- ==== Sys2Proof/Machine/StateNet.lean ====
section
/-! DEFINITION. The Nopoig ports and the collectives as state (R382–R453): packets, transmit queues, replay and receive buffers, training, open
collective operations. -/

namespace Sys2Proof.Machine

/-- A packet (R435, R437): the fields of W0 to W3, words W4 to W7, the payload. LEN is the payload's length; `ctx` is CTX where CTX_VALID is 1,
`circ` is CIRC where CIRC_EN is 1. -/
structure Pkt where
  ptype : Nat
  vc : Nat
  poison : Bool
  gen : Nat
  dst : Nat
  src : Nat
  ctx : Option Nat
  core : Nat
  master : Nat
  tag : Nat
  esc : Bool
  dl : Bool
  circ : Option Nat
  w4 : Nat
  w5 : Nat
  w6 : Nat
  w7 : Nat
  data : List Byte
deriving DecidableEq, Repr

/-- A packet in a port's transmit queue: the arbiter's input it came by (a die that injects, or 32 + the arriving port), the join entry's
SHARE where its circuit has PRIO 1 (R476), whether the VC2 cap has held it back (R475). -/
structure TxPkt where
  pkt : Pkt
  input : Nat
  prio : Option Nat
  capped : Bool
deriving DecidableEq, Repr

/-- A packet in the replay buffer: the sequence number of its first flit and its flits (R428). -/
structure Sent where
  seq : Nat
  flits : Nat
  pkt : Pkt
deriving DecidableEq, Repr

/-- A packet in the receive buffer, with the flits it holds there (R433, R436). -/
structure RxPkt where
  pkt : Pkt
  flits : Nat
deriving DecidableEq, Repr

/-- A deficit round-robin: the input served last and the deficit of each input (R475, R477). -/
structure Drr where
  last : Nat
  deficit : SMap Nat
deriving DecidableEq, Repr

/-- What a training has learned of the partner, and what this side sends (R445–R449). `mine` are the shares held when it began; `absent`: it
follows EN or ABSENT; `passed`: an attempt passed DETECT; `begun` the time it began. -/
structure Training where
  absent : Bool
  passed : Bool
  begun : Nat
  mine : List Nat
  shares : SMap Nat
  gen : Nat
  modes : Nat
  half : Bool
  fresh : Bool
  resume : Nat
  partner : Nat
deriving DecidableEq, Repr

/-- No training yet. -/
def Training.none : Training := ⟨true, false, 0, [], [], 0, 0, false, false, 0, 0⟩

/-- One port beyond its registers. `part`, `partFlits`: bytes and flits of the packet arriving; `skip`, `skipVc`: flits still to be discarded of a
packet that was too long or found no space; `lastAck`: ACK_SEQ as this side sends it; `nak`: a NAK is outstanding; `notices`: RESET_NOTICE flits in a row;
`freed`, `seen`: CRED_v as sent, and as last received; `replayed`: acknowledgements have stalled once; `fresh`: the next training sends FRESH 1;
`recent`: the VC, flits and priority service of the packets sent last, newest first. -/
structure Port where
  tx : List TxPkt
  inputs : SMap Drr
  weights : Drr
  recent : List (Nat × Nat × Bool)
  replay : List Sent
  seen : SMap Nat
  replayed : Bool
  part : List Byte
  partFlits : Nat
  skip : Nat
  skipVc : Nat
  lastAck : Nat
  nak : Bool
  notices : Nat
  rx : List RxPkt
  freed : SMap Nat
  fresh : Bool
  train : Training
deriving DecidableEq, Repr

/-- A port after a chip reset (R454). -/
def Port.reset : Port where
  tx := []
  inputs := []
  weights := ⟨0, []⟩
  recent := []
  replay := []
  seen := []
  replayed := false
  part := []
  partFlits := 0
  skip := 0
  skipVc := 0
  lastAck := 65535
  nak := false
  notices := 0
  rx := []
  freed := []
  fresh := true
  train := Training.none

/-! ### Collectives -/

/-- A piece of an operation: its ring (0 plus, 1 minus), the step at which it is sent, its block and its chunk index. -/
structure Piece where
  ring : Nat
  step : Nat
  block : Nat
  chunk : Nat
deriving DecidableEq, Repr

/-- One granule of a collective store (R406): packet `pkt` of a piece in link die `die`, a contribution that waits for its arrival, or a packet
that waits for its port, bound for position `dest`. -/
structure Granule where
  die : Nat
  piece : Piece
  pkt : Nat
  waits : Bool
  dest : Nat
  data : List Byte
deriving DecidableEq, Repr

/-- The packets of a result piece that have arrived and been added (R403, R405). -/
structure Deposit where
  die : Nat
  piece : Piece
  parts : SMap (List Byte)
deriving DecidableEq, Repr

/-- Granules of a link die kept for a piece whose credit has been granted and that this chip will forward. -/
structure Reserve where
  die : Nat
  piece : Piece
  left : Nat
deriving DecidableEq, Repr

/-- The values that a set entry and a COLL give one operation, clamped (R384–R390). `elems` is E, `base` the result base of R386. -/
structure ColSet where
  kind : Nat
  dir : Nat
  bulk : Bool
  lm1 : Nat
  pos : Nat
  wrap : Bool
  root : Nat
  src : Nat
  red : Nat
  dep : Nat
  anchor : Nat
  elems : Nat
  base : Nat
  rsig : Nat
  perm : Nat
  repeats : Nat
deriving DecidableEq, Repr

/-- An open operation of a lane (R387, R411). `accepted` counts the chunks taken from its COLL, `written` its result pieces; `arrived`,
and `children` belong to BARRIER (R400); `credits` are the pieces it may send; `granted` counts the chunks of each stream of pieces that it has
granted, `awaited` are the pieces granted that have not arrived. -/
structure ColOp where
  axis : Nat
  set : Nat
  lane : Nat
  seq : Nat
  ctx : Nat
  tag : Nat
  par : ColSet
  accepted : Nat
  written : Nat
  step : Nat
  granules : List Granule
  deposits : List Deposit
  reserves : List Reserve
  granted : SMap Nat
  awaited : List Piece
  credits : List Piece
  children : List Nat
  arrived : Bool
deriving DecidableEq, Repr

/-- A BARRIER or CREDIT message that came before its lane issued the COLL: its packet and the port it came by. -/
structure EarlyMsg where
  axis : Nat
  port : Nat
  pkt : Pkt
deriving DecidableEq, Repr

end Sys2Proof.Machine
end

