-- ==== Sys2Proof/Machine/State.lean ====
section
/-! DEFINITION. The state of the machine, as plain data: the waiting commands, memory, the register file and everything the spec
gives the chip that no register shows. -/

namespace Sys2Proof.Machine

/-- No meaning of this model faults: a condition the spec reports is a record in the state, and the machine goes on. -/
inductive Fault where
  /-- Raised by no command; the type is not empty so that a statement can name it. Safe. -/
  | none
deriving DecidableEq, Repr

/-- Why a command has no next state. -/
inductive Refusal where
  /-- Raised by a command whose meaning is not written yet. Safe: no claim about it can be proved. -/
  | notModelled (mnemonic : String)
deriving DecidableEq, Repr

/-- Everything the spec gives the chip that is neither memory nor a register word. -/
structure Hw where
  /-- MGMT cycles since the standby input was applied (MGT_UPTIME). -/
  uptime : Nat
  /-- Next draw of a free value (the model's own field, log entry 3). -/
  draws : Nat
  /-- Byte ranges of unknown contents (the model's own field, log entry 3). -/
  wild : List Wild
  /-- CORE cycles since power-on, in eighths (R10; log entry 5). -/
  rootEighths : Nat
  /-- The core slots, 17 × region + slot. -/
  cores : SMap Core
  /-- CORE cycle count at each core's last reset that reached the whole core (R79, CYCLE). -/
  cycleStart : SMap Nat
  /-- Stochastic-rounding generator of each core (R134); a cell reset leaves it unchanged (R136). -/
  seeds : SMap Seed
  /-- Reset generation tags of the core slots, in the always-on plane (R543). -/
  genCore : SMap Nat
  /-- Reset generation tags of the regions (R543). -/
  genRegion : SMap Nat
  /-- Reset generation tag of the chip (R543). -/
  genChip : Nat
  /-- Per region, 1 + the logical slot that the spare serves, 0 for none (R117, R118). -/
  spareIn : SMap Nat
  /-- MSI-X pending bits, 256 × port + vector (R624, R625). -/
  msixPend : SMap Bool
  /-- Error events raised to the management cores (R532). -/
  fwEvents : Nat
  /-- A break hit since the trigger unit's last sample (R642). -/
  dbgBreak : Bool
  /-- A lasting record since the trigger unit's last sample (R642). -/
  dbgFault : Bool
  /-- Watch messages on their way to a core of this chip (R260–R266), oldest first. -/
  watchMsgs : List WatchMsg
  /-- Long-wait and end notices on their way to the Kiln: 2 × core + (1 for an end notice) (R267). -/
  longWaits : List Nat
  /-- Outstanding requests of the masters, by request number (R47, R279). -/
  reqs : SMap Req
  /-- Number of the next request (the model's own field, log entry 11). -/
  nextReq : Nat
  /-- Memory channels: stacked channel c of region r at 64 r + c, channel c of capacity port p at 1024 + 8 p + c. -/
  chans : SMap Chan
  /-- Crumbs that hold a poison codeword, by DPA ÷ 32 (R295, R296). -/
  poison : SMap Bool
  /-- Numbers of the write requests whose packets carried POISON: each crumb they write becomes a poison codeword (R437). -/
  poisonWrites : List Nat
  /-- Findings reported to each region's paging unit, oldest first (R356). -/
  ueReports : SMap (List UeReport)
  /-- Per region, 0 none, else 1 or 2: the run of the channel self-test in progress (R300, R302). -/
  bistRun : SMap Nat
  /-- Per capacity-port die, 0 while its ranges are unbacked, else 1 + TYPE + 4 × INLINE_ECC + 8 × RATE as the last training took them (R327). -/
  capMode : SMap Nat
  /-- Orphans: requests whose master was reset, or that timed out, and whose pool operation is still held (R544). -/
  orphans : SMap Req
  /-- LPDDR ranks at or above their high-temperature limit, 2 × port + rank (R319, R582). -/
  capHot : SMap Bool
  /-- The paging units, by region (R329). -/
  paging : SMap Paging
  /-- The allocators, by region (R329, R351). -/
  alcs : SMap Alc
  /-- Invalidations in progress, by number (R340). -/
  invals : SMap Inval
  /-- Number of the next invalidation (the model's own field, log entry 11). -/
  nextInval : Nat
  /-- Holder of each scratchpad granule taken through ALLOC_SPM, 256 × global core + granule: 1 + context (R352, R370). -/
  granules : SMap Nat
  /-- Holder of each descriptor index taken through ALLOC_DESC, 16,384 × region + index: 1 + context (R352). -/
  descOwner : SMap Nat
  /-- Page tables built in the table pools, by DPA ÷ 256: 1 + context + 1,024 × (1 for a 256-byte page table) (R354, R355). -/
  tables : SMap Nat
  /-- The Nopoig ports beyond their registers, by link die (R419–R453). -/
  ports : SMap Port
  /-- The last eight alerts recorded, ORIGIN and ID, newest first (R489). -/
  alertPairs : List (Nat × Nat)
  /-- Alerts that the hardware of this chip has raised (R489). -/
  alertCount : Nat
  /-- Open collective operations (R387, R411). -/
  colOps : List ColOp
  /-- Next operation number, 65,536 × axis + 256 × set + lane (R387). -/
  colSeq : SMap Nat
  /-- Lanes and sets whose last operation failed, numbered as colSeq (R413). -/
  colFailed : List Nat
  /-- BARRIER messages that wait for the local COLL (R400). -/
  colEarly : List EarlyMsg
  /-- Lane and set served last, by 2 × link die + class (R408). -/
  colTurn : SMap Nat
  /-- Words written to a collective set entry and not yet in effect, by DPA (R383). -/
  setWrites : SMap Word
  /-- Times of the counted resets, in seconds, newest first: 17 × region + physical core, 272 + region, 288 for the chip (R549). -/
  escTimes : SMap (List Nat)
  /-- Resets ordered and not yet performed: the region, or 16 for the chip; 32 more where it is not counted under R549, 64 more for one that a fault of the region caused (R530). -/
  resetsDue : List Nat
  /-- The descriptor stores, 16,384 × region + index (R224). -/
  descs : SMap (BitVec 256)
  /-- The stored positions of the descriptors (R232). -/
  descPos : SMap Nat
  /-- Words of each stored descriptor that hold a lasting parity error, one bit each (R245). -/
  descBad : SMap Nat
  /-- Installations whose copies are not done, oldest first (R225). -/
  installs : List Install
  /-- The work ring entry of each context that has been read and not consumed: the launch in progress (R365, R366). -/
  ringEntries : SMap CmdBits
  /-- Core slots whose control core has stored to SCH_EXIT: 1 + CODE (R367). -/
  exiting : SMap Nat
  /-- Cores that have exited the launch of a context, 256 × context + global core (R367, R372). -/
  exited : List Nat
  /-- MGT_UPTIME at the last chip reset (R501). -/
  chipStart : Nat
  /-- 1 + phase of each core of the timed context, by global core; 0 for no phase (R499, R500). -/
  phases : SMap Nat
  /-- Global cores that are done with the step (R501). -/
  phaseDone : List Nat
  /-- Held mark of each done core: 1 + PHASE + 16 × END (R501). -/
  phaseHeld : SMap Nat
  /-- Live SUM of each phase (R500). -/
  phaseSum : SMap Nat
  /-- Live WALL of each phase (R500). -/
  phaseWall : SMap Nat
  /-- Time of each core in each phase of the step, 16 × global core + phase (R500). -/
  phaseOwn : SMap Nat
  /-- MGT_UPTIME at the last close of a step (R501). -/
  phaseClose : Option Nat
  /-- The snapshot sets beyond their registers (R502–R511). -/
  snpSets : SMap SnpSet
  /-- Ranges being mirrored, in the order of their triggers, or restored (R504, R511). -/
  snpJobs : List SnpJob
  /-- The value of DET_CTRL.RED64 in use (R518, R519). -/
  red64 : Bool
  /-- DET_REC_HEAD as the host last read it (R522). -/
  recRead : Nat
  /-- An input has differed from its entry since EN was set (R523). -/
  recDiffers : Bool
  /-- 1 + the global core that first reserved positions of each descriptor since its installation or rearm (R520). -/
  descFirst : SMap Nat
  /-- The 3.3 V standby input is good (R657). -/
  standby : Bool
  /-- The MGMT clock is present (R571). -/
  mgmtHere : Bool
  /-- The rails fed from the 48 V input are to come up when R658 allows: at power-on, after PWR_CMD.RESTART, after input good returns (R583, R584). -/
  railsDue : Bool
  /-- THERMTRIP_N is pulled low (R660). -/
  thermTrip : Bool
  /-- What the Kiln holds for each core, by core slot (R574–R577). -/
  kiln : SMap KilnCore
  /-- The excess energy E, in units of 10 µJ (R575). -/
  kilnE : Nat
  /-- The global core that last received the extra unit of BASE (R575). -/
  kilnLast : Nat
  /-- The global core served last with a loan (R576). -/
  loanLast : Nat
  /-- Core slots that the Kiln forces into Proof: 1 for a self-test, 2 for a region reset, 3 for a chip reset (R579, R580). -/
  proof : SMap Nat
  /-- The hottest junction sensor of each die as last reported, in °C (R581). -/
  junction : SMap Nat
  /-- Consecutive good comparison windows of REFCLK_A (0) and REFCLK_B (1) (R565). -/
  stableWins : SMap Nat
  /-- Core resets that wait because an orphan holds the next generation tag (R544). -/
  resetsWait : List WaitReset
  /-- Contexts whose abort has not completed (R534, R556). -/
  abortsDue : List Nat
  /-- Regions whose last reset did not end its training in time (R548). -/
  regionLate : SMap Bool
  /-- Management cores restarted by FW_HANG and not heard from since (R539). -/
  fwLate : SMap Bool
  /-- The Starter has passed its check; SB_READY is high (R594, R660). -/
  starterOk : Bool
  /-- Rounds of strap samples taken, 2 when the straps are held (R587). -/
  strapRound : Nat
  /-- A boot has been released since the standby input was applied (R596, R602). -/
  booted : Bool
  /-- The xSPI flash; an unlisted byte is erased, 0xFF (R592, R593). -/
  flash : SMap Byte
  /-- The management memories, 16 MiB × hub die + offset (R596, R626). -/
  mgmtMem : SMap Byte
  /-- The flash command in progress (R607). -/
  flashCmd : Option FlashCmd
  /-- It is suspended by a boot (R602, R608). -/
  flashHeld : Bool
  /-- The record sector that is to be erased outside every boot (R600). -/
  recErase : Option Nat
  /-- The last address-chain frame was bad and nothing has followed it (R590). -/
  badFrame : Bool
  /-- BLOCK and HOP of the last frame passed on (R590). -/
  achainOut : Option (Nat × Nat)
  /-- Configuration space of the host ports, as far as the spec names it (R613, R616, R625). -/
  pci : SMap PciPort
  /-- The MSI-X tables, 1,024 × port + word; an unlisted word is 0, but for the vector control word, which is masked (R616). -/
  msixTable : SMap Word
  /-- 1 + MGT_UPTIME when each vector was last sent, 256 × port + vector (R625). -/
  msixSent : SMap Nat
  /-- Completions to the hosts, 1,024 × port + tag (R618, R620). -/
  completions : SMap HostReply
  /-- The sideband response that has not been read (R631, R632). -/
  sbReply : Option SbReply
  /-- Mandatory data byte of the in-band interrupt that awaits acknowledgement (R633). -/
  ibiByte : Nat
  /-- The receive queues of management cores 0 to 7 (R627). -/
  mboxes : SMap (List MboxMsg)
  /-- Payload of each host mailbox slot (R628). -/
  hmbData : SMap (List Byte)
  /-- OBS words sampled and not yet at the pins, newest first (R639). -/
  obsPipe : List Nat
  /-- OBS[15:0] (R639, R640). -/
  obsPins : Nat
  /-- The sample count of group 0xFE (R641). -/
  obsCount : Nat
  /-- Level of the strobe on OBS[15] (R639). -/
  obsToggle : Bool
  /-- TRIG_IN at the last two samples, newest first (R642). -/
  trigIn : List Bool
  /-- Consecutive samples that matched (R642). -/
  matchRun : Nat
  /-- Enabled conditions that held at the last sample and have not been acted on, as DBG_TRIG_STAT.BY counts them (R642, R643). -/
  trigConds : Nat
  /-- DBG_TRIG_CTRL, MATCH and CFG as they stood at the last OCLK edge (R644). -/
  trigRegs : TrigRegs
  /-- OCLK edges until TRIG_OUT rises, 0 for none (R643). -/
  trigRise : Nat
  /-- Samples of TRIG_OUT left, 0 while it is low or lasts until CLEAR_OUT (R643). -/
  trigLeft : Nat
  /-- The trace buffer captures (R645). -/
  traceOn : Bool
  /-- Samples left after the firing sample (R645). -/
  tracePost : Option Nat
  /-- TRST_N is held low (R648). -/
  tapReset : Bool
  /-- The boundary register (R647; no layout is given). -/
  boundary : Nat
  /-- The incoming context of the last switch (R641). -/
  lastSwitch : Nat
deriving DecidableEq, Repr

/-- The machine: the commands that wait, first in first out, the bytes of memory, the words of the register file, the rest. -/
structure State where
  pending : List Instr
  mem : List Host.Cell
  csr : SMap Word
  hw : Hw
deriving DecidableEq, Repr

/-- The chip beyond memory and registers after reset. -/
def Hw.reset : Hw where
  uptime := 0
  draws := 1
  wild := []
  rootEighths := 0
  cores := []
  cycleStart := []
  seeds := []
  genCore := []
  genRegion := []
  genChip := 0
  spareIn := []
  msixPend := []
  fwEvents := 0
  dbgBreak := false
  dbgFault := false
  watchMsgs := []
  longWaits := []
  reqs := []
  nextReq := 0
  chans := []
  poison := []
  poisonWrites := []
  ueReports := []
  bistRun := []
  capMode := []
  orphans := []
  capHot := []
  paging := []
  alcs := []
  invals := []
  nextInval := 0
  granules := []
  descOwner := []
  tables := []
  ports := []
  alertPairs := []
  alertCount := 0
  colOps := []
  colSeq := []
  colFailed := []
  colEarly := []
  colTurn := []
  setWrites := []
  escTimes := []
  resetsDue := []
  descs := []
  descPos := []
  descBad := []
  installs := []
  ringEntries := []
  exiting := []
  exited := []
  chipStart := 0
  phases := []
  phaseDone := []
  phaseHeld := []
  phaseSum := []
  phaseWall := []
  phaseOwn := []
  phaseClose := none
  snpSets := []
  snpJobs := []
  red64 := false
  recRead := 0
  recDiffers := false
  descFirst := []
  standby := true
  mgmtHere := true
  railsDue := true
  thermTrip := false
  kiln := []
  kilnE := 0
  kilnLast := 255
  loanLast := 255
  proof := []
  junction := []
  stableWins := []
  resetsWait := []
  abortsDue := []
  regionLate := []
  fwLate := []
  starterOk := false
  strapRound := 0
  booted := false
  flash := []
  mgmtMem := []
  flashCmd := none
  flashHeld := false
  recErase := none
  badFrame := false
  achainOut := none
  pci := []
  msixTable := []
  msixSent := []
  completions := []
  sbReply := none
  ibiByte := 0
  mboxes := []
  hmbData := []
  obsPipe := []
  obsPins := 0
  obsCount := 0
  obsToggle := false
  trigIn := []
  matchRun := 0
  trigConds := 0
  trigRegs := TrigRegs.reset
  trigRise := 0
  trigLeft := 0
  traceOn := false
  tracePost := none
  tapReset := false
  boundary := 0
  lastSwitch := 0

/-- The machine right after reset: no command waits, nothing is written, every register reads its reset value. -/
def State.reset : State where
  pending := []
  mem := []
  csr := []
  hw := Hw.reset

end Sys2Proof.Machine
end

