-- ==== Sys2Proof/Machine/Ops.lean ====
section
/-! DEFINITION. The named operations over memory and registers. A command works on a `Work`: the machine as it was, read only, with the
bytes and the register words the command has written so far on top (newest first); `Work.commit` writes them back. -/

namespace Sys2Proof.Machine

/-- What a command works on. -/
structure Work where
  mem : List Host.Cell
  csr : SMap Word
  wr : List (Nat × Byte)
  cw : List (Nat × Word)
  hw : Hw
deriving DecidableEq

/-- The last value written to a key in a log kept newest first. -/
def lastWrite {α : Type} : List (Nat × α) → Nat → Option α
  | [], _ => none
  | (j, v) :: m, k => if j = k then some v else lastWrite m k

/-! ### Memory as data: canonical lists of cells -/

/-- What a byte that nothing has written reads as (log entry 2). -/
def memDefault : Byte := 0

/-- Read one byte. -/
def Mem.read (m : List Host.Cell) (a : Nat) : Byte := SMap.get memDefault m a

/-- Write one byte, keeping the canonical form. -/
def Mem.write (m : List Host.Cell) (a : Nat) (v : Byte) : List Host.Cell := SMap.set memDefault m a v

/-- Write a log of bytes, oldest last. -/
def Mem.writeAll (m : List Host.Cell) : List (Nat × Byte) → List Host.Cell
  | [] => m
  | (a, v) :: l => Mem.write (Mem.writeAll m l) a v

/-- The canonical form of memory: addresses strictly rising, no entry equal to what an unlisted address reads as. -/
def Mem.wf (m : List Host.Cell) : Bool := SMap.canonical (fun _ => memDefault) m

/-! ### The register file as data -/

/-- Read one register word. -/
def Csr.read (m : SMap Word) (a : Nat) : Word := SMap.get (csrReset a) m a

/-- Write one register word, keeping the canonical form. -/
def Csr.write (m : SMap Word) (a : Nat) (v : Word) : SMap Word := SMap.set (csrReset a) m a v

/-- Write a log of words, oldest last. -/
def Csr.writeAll (m : SMap Word) : List (Nat × Word) → SMap Word
  | [] => m
  | (a, v) :: l => Csr.write (Csr.writeAll m l) a v

/-- The canonical form of the register file. -/
def Csr.wf (m : SMap Word) : Bool := SMap.canonical csrReset m

/-! ### Working on a command -/

/-- Begin a command. -/
def Work.start (s : State) : Work := { mem := s.mem, csr := s.csr, wr := [], cw := [], hw := s.hw }

/-- End a command: the queue stays as it was, the writes go to memory and to the register file. -/
def Work.commit (s : State) (w : Work) : State :=
  { pending := s.pending, mem := Mem.writeAll s.mem w.wr, csr := Csr.writeAll s.csr w.cw, hw := w.hw }

/-- Does the always-on plane run: the standby input is good and MGMT is present (R571, R657)? Nothing else runs without it. -/
def State.powered (s : State) : Bool := s.hw.standby && s.hw.mgmtHere

/-- Run a command that acts whether or not the always-on plane runs. -/
def runAlways (s : State) (f : Work → Work) : Host.Outcome State Fault Refusal := .next (Work.commit s (f (Work.start s)))

/-- Run a command; without the always-on plane nothing happens (R571, R657). -/
def run (s : State) (f : Work → Work) : Host.Outcome State Fault Refusal :=
  runAlways s fun w => if s.powered then f w else w

/-- Apply `f` when `b` holds; otherwise nothing happens (log entry 1). -/
def Work.when (b : Bool) (w : Work) (f : Work → Work) : Work := if b then f w else w

/-- Fold a function over a list of items. -/
def Work.forEach {α : Type} (w : Work) (l : List α) (f : Work → α → Work) : Work := l.foldl f w

/-! ### Bytes of memory -/

/-- The range of unknown bytes that holds an address. -/
def wildAt : List Wild → Nat → Option Wild
  | [], _ => none
  | x :: xs, a => if decide (x.lo ≤ a) && decide (a < x.hi) then some x else wildAt xs a

/-- Take one address out of the ranges of unknown bytes. -/
def wildSplit (l : List Wild) (a : Nat) : List Wild :=
  l.flatMap fun x =>
    if decide (x.lo ≤ a) && decide (a < x.hi) then
      (if x.lo < a then [{ x with hi := a }] else []) ++ (if a + 1 < x.hi then [{ x with lo := a + 1 }] else [])
    else [x]

/-- Read one byte. -/
def Work.rdB (w : Work) (a : Nat) : Byte :=
  match wildAt w.hw.wild a with
  | some x => Config.freeByte x.draw a
  | none => (lastWrite w.wr a).getD (Mem.read w.mem a)

/-- Write one byte. -/
def Work.wrB (w : Work) (a : Nat) (v : Byte) : Work :=
  { w with wr := (a, v) :: w.wr, hw := { w.hw with wild := wildSplit w.hw.wild a } }

/-- Make the bytes from `lo` up to `hi` unknown: free values of a fresh draw. -/
def Work.makeWild (w : Work) (lo hi : Nat) : Work :=
  let listed := (w.mem.map Prod.fst ++ w.wr.map Prod.fst).filter (fun a => decide (lo ≤ a) && decide (a < hi))
  { w with
    wr := listed.map (fun a => (a, memDefault)) ++ w.wr
    hw := { w.hw with wild := ⟨lo, hi, w.hw.draws⟩ :: w.hw.wild.filter (fun x => !(decide (lo ≤ x.lo) && decide (x.hi ≤ hi))), draws := w.hw.draws + 1 } }

/-- Read `n` bytes from an address upward. -/
def Work.rdBytes (w : Work) (a n : Nat) : List Byte := (List.range n).map (fun i => w.rdB (a + i))

/-- Write bytes from an address upward. -/
def Work.wrBytes (w : Work) (a : Nat) : List Byte → Work
  | [] => w
  | v :: vs => (w.wrB a v).wrBytes (a + 1) vs

/-- A little-endian number from bytes (R9). -/
def leNat : List Byte → Nat
  | [] => 0
  | v :: vs => v.toNat + 256 * leNat vs

/-- The `n` little-endian bytes of a number (R9). -/
def leBytes : Nat → Nat → List Byte
  | 0, _ => []
  | n + 1, v => BitVec.ofNat 8 v :: leBytes n (v / 256)

/-- Read a little-endian number of `n` bytes. -/
def Work.rdLE (w : Work) (a n : Nat) : Nat := leNat (w.rdBytes a n)

/-- Write a little-endian number of `n` bytes. -/
def Work.wrLE (w : Work) (a n v : Nat) : Work := w.wrBytes a (leBytes n v)

/-! ### Register words -/

/-- The 32-bit register word at a word address. -/
def Work.r32 (w : Work) (a : Nat) : Word := (lastWrite w.cw a).getD (Csr.read w.csr a)

/-- Set a register word. -/
def Work.w32 (w : Work) (a : Nat) (v : Word) : Work := { w with cw := (a, v) :: w.cw }

/-- A 64-bit register: the low half lies at the lower offset. -/
def Work.r64 (w : Work) (a : Nat) : DWord := w.r32 (a + 4) ++ w.r32 a

/-- Set a 64-bit register. -/
def Work.w64 (w : Work) (a : Nat) (v : DWord) : Work :=
  (w.w32 a (v.truncate 32)).w32 (a + 4) (BitVec.ofNat 32 (v.toNat >>> 32))

/-- A field of a number. -/
def bits (v lsb width : Nat) : Nat := (v >>> lsb) % 2 ^ width

/-- A number with a field replaced. -/
def setBits (v lsb width x : Nat) : Nat :=
  (v % 2 ^ lsb) + (x % 2 ^ width) * 2 ^ lsb + (v >>> (lsb + width)) * 2 ^ (lsb + width)

/-- A register field. -/
def Work.fld (w : Work) (a : Nat) (f : Fld) : Nat :=
  if f.lsb + f.width ≤ 32 then bits (w.r32 a).toNat f.lsb f.width
  else if 32 ≤ f.lsb then bits (w.r32 (a + 4)).toNat (f.lsb - 32) f.width
  else bits (w.r64 a).toNat f.lsb f.width

/-- Is a one-bit field set? -/
def Work.flag (w : Work) (a : Nat) (f : Fld) : Bool := decide (w.fld a f = 1)

/-- Set a register field. -/
def Work.setFld (w : Work) (a : Nat) (f : Fld) (x : Nat) : Work :=
  if f.lsb + f.width ≤ 32 then w.w32 a (BitVec.ofNat 32 (setBits (w.r32 a).toNat f.lsb f.width x))
  else if 32 ≤ f.lsb then w.w32 (a + 4) (BitVec.ofNat 32 (setBits (w.r32 (a + 4)).toNat (f.lsb - 32) f.width x))
  else w.w64 a (BitVec.ofNat 64 (setBits (w.r64 a).toNat f.lsb f.width x))

/-- Set or clear a one-bit field. -/
def Work.setFlag (w : Work) (a : Nat) (f : Fld) (b : Bool) : Work := w.setFld a f (if b then 1 else 0)

/-! ### Sparse parts of the state -/

/-- One core slot. -/
def Work.core (w : Work) (c : Nat) : Core := SMap.get Core.reset w.hw.cores c

/-- Replace a core slot. -/
def Work.setCore (w : Work) (c : Nat) (k : Core) : Work :=
  { w with hw := { w.hw with cores := SMap.set Core.reset w.hw.cores c k } }

/-- Change a core slot. -/
def Work.updCore (w : Work) (c : Nat) (f : Core → Core) : Work := w.setCore c (f (w.core c))

/-- A fresh draw number for a free value. -/
def Work.draw (w : Work) : Nat × Work := (w.hw.draws, { w with hw := { w.hw with draws := w.hw.draws + 1 } })

/-- The region of a core slot. -/
def coreRegion (c : Nat) : Nat := c / 17

/-- The slot number of a core within its region. -/
def coreSlot (c : Nat) : Nat := c % 17

/-- The global logical core number of a logical slot (R17). -/
def coreGlobal (c : Nat) : Nat := coreRegion c * 16 + coreSlot c

/-- The core slot of a global logical core number. -/
def globalSlot (g : Nat) : Nat := g / 16 * 17 + g % 16

/-- The DPA of a core's scratchpad (R40). A spare that is not swapped in has no scratchpad range: its slot names unbacked addresses. -/
def spmBase (c : Nat) : Nat :=
  if coreSlot c < 16 then 0x100000000000 + coreGlobal c * 0x1000000
  else 0x100100000000 + coreRegion c * 0x1000000

/-- The DPA of an offset into a core's scratchpad, taken modulo 2²⁴. -/
def spmAt (c off : Nat) : Nat := spmBase c + off % 0x1000000

/-- Read bytes of a core's scratchpad, wrapping at 16 MiB. -/
def Work.spmBytes (w : Work) (c off n : Nat) : List Byte := (List.range n).map (fun i => w.rdB (spmAt c (off + i)))

/-- Read a little-endian number from a core's scratchpad. -/
def Work.spmLE (w : Work) (c off n : Nat) : Nat := leNat (w.spmBytes c off n)

/-- Write bytes of a core's scratchpad, wrapping at 16 MiB. -/
def Work.spmWrite (w : Work) (c off : Nat) : List Byte → Work
  | [] => w
  | v :: vs => (w.wrB (spmAt c off) v).spmWrite c (off + 1) vs

/-- An engine of a core. -/
def Core.engine (k : Core) (e : Nat) : Engine := SMap.get Engine.idle k.engines e

/-- Replace an engine of a core. -/
def Core.setEngine (k : Core) (e : Nat) (x : Engine) : Core := { k with engines := SMap.set Engine.idle k.engines e x }

/-- A hand-over link of a core. -/
def Core.link (k : Core) (i : Nat) : Link := SMap.get Link.reset k.links i

/-- Replace a hand-over link of a core. -/
def Core.setLink (k : Core) (i : Nat) (x : Link) : Core := { k with links := SMap.set Link.reset k.links i x }

/-- A general register: g0 reads as zero (R74). -/
def Core.g (k : Core) (i : Nat) : DWord := if i = 0 then 0 else SMap.get 0 k.regs i

/-- Write a general register: writes to g0 are discarded (R74). -/
def Core.setG (k : Core) (i : Nat) (v : DWord) : Core :=
  if i = 0 then k else { k with regs := SMap.set 0 k.regs i v }

end Sys2Proof.Machine
end

