-- ==== Sys2Proof/Machine/Flags.lean ====
section
/-! DEFINITION. Counters, sticky status bits, the clamp counters (R63–R71) and the fault records (R526–R533). -/

namespace Sys2Proof.Machine

/-! ### Counters -/

/-- Are the counters of a die frozen (R646)? -/
def Work.frozen (w : Work) (d : Nat) : Bool := w.flag (Reg.DBG_CNT_CTRL d) Fld.DBG_CNT_CTRL_FREEZE

/-- Does a counter lie in one of the blocks that R646 freezes: MTX_, VEC_, STR_, SYN_, MEM_CH_, PGE_, COL_, LNK_, RTE_, SCH_? -/
def freezes (a : Nat) : Bool :=
  let d := csrDie a
  let off := (a - 0x3F0000000000) % 0x100000000
  let top := off / 0x1000000
  if d < 16 then
    (decide (top < 17) && decide (0x10000 ≤ off % 0x1000000)) || (decide (top = 0x20) && decide (0x1000 ≤ off % 0x1000000)) ||
      decide (top = 0x21)
  else if d < 24 then decide (top < 3)
  else decide (d = 28) && decide (top = 1)

/-- Add to a 64-bit counter, modulo 2⁶⁴; on a frozen die a counter that R646 names does not advance. -/
def Work.bump (w : Work) (a n : Nat) : Work :=
  if (w.frozen (csrDie a) && freezes a) || decide (n = 0) then w else w.w64 a (w.r64 a + BitVec.ofNat 64 n)

/-- Add to a 64-bit error count, which a freeze does not stop. -/
def Work.bumpErr (w : Work) (a n : Nat) : Work := w.w64 a (w.r64 a + BitVec.ofNat 64 n)

/-- Add to a field that saturates at its largest value. -/
def Work.satAdd (w : Work) (a : Nat) (f : Fld) (n : Nat) : Work := w.setFld a f (min (w.fld a f + n) (2 ^ f.width - 1))

/-- A whole 32-bit register as a field. -/
def word32 : Fld := ⟨0, 32⟩

/-! ### Clamps -/

/-- Which of the rules of R64 and R65 changed a field (DBG_CLAMP_LAST_INFO.RULE). -/
inductive ClampRule where
  | range | encoding | align | joined
deriving DecidableEq, Repr

/-- The code of a clamp rule. -/
def ClampRule.code : ClampRule → Nat
  | .range => 0 | .encoding => 1 | .align => 2 | .joined => 3

/-- Where a clamped value came from (R68): a context, the host or firmware with none, or a link header. -/
inductive ClampBy where
  | program (ctx : Nat)
  | host
  | firmware
  | link (port : Nat) (ctx : Option Nat)
deriving DecidableEq, Repr

/-- The context a clamp is counted to, if any. -/
def ClampBy.ctx : ClampBy → Option Nat
  | .program x => some x
  | .link _ x => x
  | _ => none

/-- DBG_CLAMP_LAST_INFO.SOURCE. -/
def ClampBy.source : ClampBy → Nat
  | .host => 0 | .firmware => 1 | .program _ => 2 | .link _ _ => 3

/-- The port of a link header, zero otherwise. -/
def ClampBy.port : ClampBy → Nat
  | .link p _ => p
  | _ => 0

/-- Count one clamped field (R67–R69): the counter of its context, source or port, and the capture while it is armed. `addr` is the DPA
of the register or structure word, `word` the word index, `lsb` the field's position. -/
def Work.clamp (w : Work) (who : ClampBy) (addr word lsb : Nat) (rule : ClampRule) : Work :=
  let cnt := match who.ctx with
    | some x => Reg.DBG_CLAMP_CNT x
    | none => match who with
      | .link p _ => Reg.DBG_CLAMP_LINK p
      | _ => Reg.DBG_CLAMP_NOCTX
  let w := w.satAdd cnt word32 1
  if w.flag Reg.DBG_CLAMP_STAT Fld.DBG_CLAMP_STAT_LAST_VALID then w
  else
    let info := who.ctx.getD 0 + (if who.ctx.isSome then 1 else 0) * 2 ^ 10 + who.source * 2 ^ 11
      + (who.port / 2) * 2 ^ 14 + lsb % 32 * 2 ^ 16 + rule.code * 2 ^ 21 + (who.port % 2) * 2 ^ 23 + word % 256 * 2 ^ 24
    ((w.w64 Reg.DBG_CLAMP_LAST_ADDR (BitVec.ofNat 64 addr)).w32 Reg.DBG_CLAMP_LAST_INFO (BitVec.ofNat 32 info)).setFlag
      Reg.DBG_CLAMP_STAT Fld.DBG_CLAMP_STAT_LAST_VALID true

/-- The legal encoding nearest in value, the lower of two equally near (R64). -/
def nearestOf (codes : List Nat) (x : Nat) : Nat :=
  codes.foldl (fun best c => if max c x - min c x < max best x - min best x then c else best) (codes.headD 0)

/-- A value with the first rule that changed it, if one did (R64). -/
def Legal.apply : Legal → Nat → Nat × Option ClampRule
  | .any, v => (v, none)
  | .range lo hi, v => if v < lo then (lo, some .range) else if hi < v then (hi, some .range) else (v, none)
  | .align n, v => if v % n = 0 then (v, none) else (v / n * n, some .align)
  | .rangeAlign lo hi n, v =>
    let u := min (max v lo) hi
    let a := max (u / n * n) lo
    (a, if u ≠ v then some .range else if a ≠ u then some .align else none)
  | .take a b t, v => if decide (a ≤ v) && decide (v ≤ b) then (t, some .encoding) else (v, none)
  | .codes l, v => if l.contains v then (v, none) else (nearestOf l v, some .encoding)

/-! ### Fault records -/

/-- A fault as a unit reports it (R529, R531). `level`: 0 cell, 1 block, 2 region, 3 chip. -/
structure FaultInfo where
  kind : Nat
  level : Nat
  lasting : Bool
  ctx : Option Nat
  die : Nat
  unit : Nat
  core : Nat
  gen : Nat
  tag : Nat
  addr : Option (Nat × Bool)
  detail : Nat
deriving DecidableEq, Repr

/-- Free fault records (R531). -/
def Work.freeRecords (w : Work) : Nat :=
  256 - (((w.r32 Reg.ERR_REC_HEAD) - (w.r32 Reg.ERR_REC_TAIL)).toNat)

/-- Word 0 of a fault record (R557). -/
def FaultInfo.word0 (f : FaultInfo) (withdrawn : Bool) : Nat :=
  f.kind % 256 + f.level % 4 * 2 ^ 8 + (if f.lasting then 1 else 0) * 2 ^ 10 + (if f.ctx.isSome then 1 else 0) * 2 ^ 11
    + (f.ctx.getD 0) % 1024 * 2 ^ 12 + f.die % 32 * 2 ^ 22 + f.unit % 16 * 2 ^ 27 + (if withdrawn then 1 else 0) * 2 ^ 31
    + f.core % 256 * 2 ^ 32 + f.gen % 256 * 2 ^ 40 + f.tag % 65536 * 2 ^ 48

/-- Word 1 of a fault record: the address of the access and what kind it is. -/
def FaultInfo.word1 (f : FaultInfo) : Nat :=
  match f.addr with
  | some (a, cva) => a % 2 ^ 48 + 2 ^ 62 + (if cva then 1 else 0) * 2 ^ 63
  | none => 0

/-- Does a fault repeat the last record written, within 1 ms (R532)? -/
def Work.repeatsLast (w : Work) (f : FaultInfo) : Bool :=
  let head := (w.r32 Reg.ERR_REC_HEAD).toNat
  if head = 0 then false
  else
    let e := (head - 1) % 256
    let last := (w.r64 (Reg.ERR_REC e 0)).toNat
    let now := f.word0 false
    let same (l n : Nat) : Bool := decide (bits last l n = bits now l n)
    same 0 8 && same 11 11 && same 22 5 && same 32 8 && same 48 16 &&
      decide (w.hw.uptime - (w.r64 (Reg.ERR_REC e 2)).toNat ≤ 200000)

/-- Raise interrupt vector v on both host ports (R625). -/
def Work.raiseVector (w : Work) (v : Nat) : Work :=
  { w with hw := { w.hw with msixPend := SMap.set false (SMap.set false w.hw.msixPend v true) (256 + v) true } }

/-- Raise an in-band interrupt of the sideband with mandatory data byte `byte`; while one awaits acknowledgement, the event is merged into
it (R633). -/
def Work.raiseIbi (w : Work) (byte : Nat) : Work :=
  if w.flag (Reg.MGT_SB_CFG 1) Fld.MGT_SB_CFG_MODE && w.flag (Reg.MGT_SB_CFG 1) Fld.MGT_SB_CFG_IBI_EN &&
      !w.flag (Reg.MGT_SB_STAT 1) Fld.MGT_SB_STAT_IBI_PEND then
    let w := w.setFlag (Reg.MGT_SB_STAT 1) Fld.MGT_SB_STAT_IBI_PEND true
    { w with hw := { w.hw with ibiByte := byte } }
  else w

/-- ERR_CHIP.STATE: 0 in service, 1 recovering, 2 out of service (R557). -/
def Work.chipState (w : Work) : Nat := w.fld Reg.ERR_CHIP Fld.ERR_CHIP_STATE

/-- ERR_CHIP.STATE takes a value, with the in-band interrupt of a change (R633). -/
def Work.setChipState (w : Work) (x : Nat) : Work :=
  if w.chipState = x then w else (w.setFld Reg.ERR_CHIP Fld.ERR_CHIP_STATE x).raiseIbi 2

/-- Do the ROOT-derived domains run (R560, R569), and is the chip not out of service (R552)? -/
def Work.clocked (w : Work) : Bool := decide (w.fld Reg.CLK_STATUS Fld.CLK_STATUS_DOM_SRC < 2) && decide (w.chipState ≠ 2)

/-- Write a fault's record under R532, with the events that a lasting record raises. -/
def Work.record (w : Work) (f : FaultInfo) (withdrawn : Bool) : Work :=
  if !f.lasting && !w.flag Reg.ERR_CTRL Fld.ERR_CTRL_LOG_TRANSIENT then w
  else if w.repeatsLast f then
    let e := ((w.r32 Reg.ERR_REC_HEAD).toNat - 1) % 256
    w.satAdd (Reg.ERR_REC e 3) Fld.ERR_REC_3_DUP 1
  else if decide (w.freeRecords = 0) || (!f.lasting && decide (w.freeRecords ≤ 32)) then
    w.satAdd Reg.ERR_REC_LOST word32 1
  else
    let n := (w.r32 Reg.ERR_REC_HEAD).toNat
    let e := n % 256
    let w := (((w.w64 (Reg.ERR_REC e 0) (BitVec.ofNat 64 (f.word0 withdrawn))).w64 (Reg.ERR_REC e 1) (BitVec.ofNat 64 f.word1)).w64
      (Reg.ERR_REC e 2) (BitVec.ofNat 64 w.hw.uptime)).w64 (Reg.ERR_REC e 3) (BitVec.ofNat 64 (n + f.detail % 2 ^ 24 * 2 ^ 32))
    let w := w.w32 Reg.ERR_REC_HEAD (BitVec.ofNat 32 (n + 1))
    if f.lasting || decide (f.kind = 0x22) then
      let w := w.raiseVector 0
      let w := if f.lasting then w.raiseIbi 1 else w
      { w with hw := { w.hw with fwEvents := w.hw.fwEvents + 1, dbgFault := w.hw.dbgFault || f.lasting } }
    else w

/-- Count a fault on its die: ERR_TRANSIENT or ERR_LASTING (R527, R557). -/
def Work.countFault (w : Work) (f : FaultInfo) : Work :=
  if f.lasting then w.bumpErr (Reg.ERR_LASTING f.die) 1 else w.bumpErr (Reg.ERR_TRANSIENT f.die) 1

/-- Does a fault withdraw the context it names (R530)? -/
def Work.faultWithdraws (w : Work) (f : FaultInfo) : Bool :=
  f.ctx.isSome && f.lasting && decide (bits (w.r64 Reg.ERR_POLICY).toNat f.kind 1 = 1)

/-- Count a transient fault: its unit's count, the die's count and, when logged, a record (R527). -/
def Work.transientCount (w : Work) (f : FaultInfo) (stat : Nat) (cnt : Fld) : Work :=
  let f := { f with lasting := false }
  ((w.satAdd stat cnt 1).countFault f).record f false

/-- A transient fault: its unit's TRANSIENT bit and the counts (R527). -/
def Work.transient (w : Work) (f : FaultInfo) (stat : Nat) (bit cnt : Fld) : Work :=
  (w.setFlag stat bit true).transientCount f stat cnt

end Sys2Proof.Machine
end

