-- ==== Sys2Proof/Machine/Operands.lean ====
section
/-! DEFINITION. The operand forms of commands: the header (R94), address generators (R95–R97), the engine formats (R98–R104), and the
clamping of every command field when the engine issues the command (R63–R65; log entry 6). -/

namespace Sys2Proof.Machine

/-! ### Fields of a command -/

/-- Word i of a command. -/
def cmdWord (c : CmdBits) (i : Nat) : Nat := (c.toNat >>> (32 * i)) % 2 ^ 32

/-- A field of a command word. -/
def cmdFld (c : CmdBits) (i lsb width : Nat) : Nat := bits (cmdWord c i) lsb width

/-- A command with a field of one word replaced. -/
def cmdSet (c : CmdBits) (i lsb width v : Nat) : CmdBits := BitVec.ofNat 512 (setBits c.toNat (32 * i + lsb) width v)

def cmdOpcode (c : CmdBits) : Nat := cmdFld c 0 0 6
def cmdSig (c : CmdBits) : Bool := decide (cmdFld c 0 7 1 = 1)
def cmdInLink (c : CmdBits) : Nat := cmdFld c 0 8 4
def cmdInEn (c : CmdBits) : Bool := decide (cmdFld c 0 12 1 = 1)
def cmdOutLink (c : CmdBits) : Nat := cmdFld c 0 13 4
def cmdOutEn (c : CmdBits) : Bool := decide (cmdFld c 0 17 1 = 1)
def cmdSigIdx (c : CmdBits) : Nat := cmdFld c 0 18 10
def cmdTag (c : CmdBits) : Nat := cmdFld c 1 0 16
def cmdRepeat (c : CmdBits) : Nat := cmdFld c 1 16 16
def cmdDepCount (c : CmdBits) : Nat := cmdFld c 2 0 16
def cmdDepEng (c : CmdBits) : Nat := cmdFld c 2 16 3
def cmdDepEn (c : CmdBits) : Bool := decide (cmdFld c 2 19 1 = 1)

/-- A count has reached a 16-bit value (R84). -/
def hasReached (count v : Nat) : Bool := decide ((count + 65536 - v % 65536) % 65536 < 32768)

/-! ### Address generators -/

/-- An address generator: base, half-relative mark, the four bounds minus 1 and the four signed strides in crumbs (R95). -/
structure AG where
  base : Nat
  half : Bool
  bounds : List Nat
  strides : List Int
deriving DecidableEq, Repr

/-- A two's-complement number of `n` bits. -/
def signed (n v : Nat) : Int := if v % 2 ^ n < 2 ^ (n - 1) then (v % 2 ^ n : Nat) else ((v % 2 ^ n : Nat) : Int) - (2 ^ n : Nat)

/-- The address generator in five consecutive words (R95). -/
def AG.ofWords (w : Nat → Nat) (i : Nat) : AG where
  base := bits (w i) 0 24 / 32 * 32
  half := decide (bits (w i) 24 1 = 1)
  bounds := [1, 2, 3, 4].map (fun j => bits (w (i + j)) 0 12)
  strides := [1, 2, 3, 4].map (fun j => signed 20 (bits (w (i + j)) 12 20))

/-- The address generator of a command at word i. -/
def cmdAG (c : CmdBits) (i : Nat) : AG := AG.ofWords (cmdWord c) i

/-- Units per repeat (R96). -/
def AG.count (a : AG) : Nat := a.bounds.foldl (fun n b => n * (b + 1)) 1

/-- Offset in crumbs of unit n, loop 0 varying fastest (R96). -/
def agCrumbs : List Nat → List Int → Nat → Int
  | b :: bs, s :: ss, n => ((n % (b + 1) : Nat) : Int) * s + agCrumbs bs ss (n / (b + 1))
  | _, _, _ => 0

/-- The scratchpad address of unit n; an exhausted nest starts again. `rstep` is the signed repeat step in units of 256 bytes, `rep` the
repeat counted from 0, `half` the base of the current half (R96, R97). -/
def AG.unit (a : AG) (rstep : Int) (rep half n : Nat) : Nat :=
  (((a.base : Int) + (if a.half then (half : Int) else 0) + 256 * rep * rstep
    + 32 * agCrumbs a.bounds a.strides (n % a.count)) % (2 ^ 24 : Int)).toNat

/-- RSTEP_1 of W15. -/
def cmdRstep1 (c : CmdBits) : Int := signed 16 (cmdFld c 15 0 16)

/-- RSTEP_2 of W15. -/
def cmdRstep2 (c : CmdBits) : Int := signed 16 (cmdFld c 15 16 16)

/-! ### Clamping a command at its issue -/

/-- A command under clamping: the work so far and the command's bits. -/
structure Clamping where
  work : Work
  cmd : CmdBits
  who : ClampBy
  src : Option Nat

/-- Clamp one field of a command and count the clamp (R67, R69). -/
def Clamping.field (k : Clamping) (i lsb width : Nat) (f : Nat → Nat × Option ClampRule) : Clamping :=
  match f (cmdFld k.cmd i lsb width) with
  | (_, none) => k
  | (v, some rule) =>
    { k with
      cmd := cmdSet k.cmd i lsb width v
      work := k.work.clamp k.who (match k.src with | some a => a + 4 * i | none => 0) i lsb rule }

/-- A field that takes a value, counted when that changes it. -/
def takes (v : Nat) (rule : ClampRule) (x : Nat) : Nat × Option ClampRule := if x = v then (x, none) else (v, some rule)

/-- An opcode takes the nearest assigned one (R94). -/
def assigned (codes : List Nat) (x : Nat) : Nat × Option ClampRule :=
  if codes.contains x then (x, none) else (nearestOf codes x, some .encoding)

/-- The opcodes each engine assigns (R98, R102–R104). -/
def opcodesOf (e : Nat) : List Nat :=
  if e = 0 then [0, 1, 2, 3, 4, 8] else if e = 1 then [0, 1] else if e = 4 then [0, 1, 2] else [0, 1, 2, 3, 4, 8]

/-- The base of an address generator is aligned down to a crumb (R95). -/
def Clamping.ag (k : Clamping) (i : Nat) : Clamping := k.field i 0 24 (Legal.align 32).apply

/-- The header (R94). -/
def Clamping.header (k : Clamping) (e : Nat) : Clamping :=
  (((((k.field 0 0 6 (assigned (opcodesOf e))).field 0 8 4 (Legal.range 0 14).apply).field 0 13 4 (Legal.range 0 14).apply).field
    1 16 16 (Legal.range 1 65535).apply).field 2 16 3 (Legal.range 0 4).apply)

/-- IN_EN takes 0 (R101, R103, R104, R108). -/
def Clamping.noIn (k : Clamping) : Clamping := k.field 0 12 1 (takes 0 .joined)

/-- OUT_EN takes 0. -/
def Clamping.noOut (k : Clamping) : Clamping := k.field 0 17 1 (takes 0 .joined)

/-- REPEAT takes 1. -/
def Clamping.once (k : Clamping) : Clamping := k.field 1 16 16 (takes 1 .joined)

/-- An MTX command (R98–R101, R165, R166, R174, R185). -/
def Clamping.mtx (k : Clamping) : Clamping :=
  let k := k.noOut
  let op := cmdOpcode k.cmd
  if op = 1 then
    ((k.field 3 0 4 (Legal.take 11 15 10).apply).field 4 0 24 (fun v => if cmdFld k.cmd 3 22 1 = 1 then (Legal.align 8).apply v else (v, none))).ag 5 |>.ag 10
  else if op = 2 then
    (((k.field 3 0 4 (fun v => if v ≤ 1 then (v, none) else (1, some .encoding))).field 3 4 7 (Legal.range 0 15).apply).field
      3 22 1 (takes 0 .joined)).ag 5 |>.ag 10
  else if op = 3 ∨ op = 4 then k.noIn.once
  else if op = 8 then
    ((k.noIn.once.field 3 0 4 (Legal.take 11 15 10).apply).field 4 0 16 (Legal.range 1 65535).apply).field 4 16 4 (Legal.range 1 8).apply
  else k

/-- A VEC command (R102). -/
def Clamping.vec (k : Clamping) : Clamping :=
  if cmdOpcode k.cmd = 1 then ((k.field 3 0 24 (Legal.align 32).apply).ag 5).ag 10 else k

/-- A stream command (R103). -/
def Clamping.str (k : Clamping) : Clamping :=
  let op := cmdOpcode k.cmd
  if op = 1 ∨ op = 3 then k.noIn.ag 10
  else if op = 2 ∨ op = 4 ∨ op = 8 then k.noOut.ag 10
  else k

/-- A SYN command (R104, R254, R258). -/
def Clamping.syn (k : Clamping) : Clamping :=
  let op := cmdOpcode k.cmd
  let k := k.once.noIn.noOut
  if op = 1 then k.field 3 16 4 (Legal.take 8 15 7).apply
  else if op = 2 then k.field 3 16 4 (Legal.take 7 15 6).apply
  else k

/-- Links that the command's engine neither writes nor reads (R108). -/
def Clamping.links (k : Clamping) (c e : Nat) : Clamping :=
  let prod := k.work.fld (Reg.CORE_LINK_CFG c (cmdOutLink k.cmd)) Fld.CORE_LINK_CFG_PROD_ENG
  let cons := k.work.fld (Reg.CORE_LINK_CFG c (cmdInLink k.cmd)) Fld.CORE_LINK_CFG_CONS_ENG
  let k := if prod = e then k else k.noOut
  if cons = e then k else k.noIn

/-- Clamp every field of the command that engine `e` of core `c` issues. -/
def clampCmd (w : Work) (c e : Nat) (q : QEntry) : Work × CmdBits :=
  let who := match q.ctx with | some x => ClampBy.program x | none => ClampBy.firmware
  let k : Clamping := ⟨w, q.cmd, who, q.src⟩
  let k := k.header e
  let k := if e = 0 then k.mtx else if e = 1 then k.vec else if e = 4 then k.syn else k.str
  let k := k.links c e
  (k.work, k.cmd)

end Sys2Proof.Machine
end

