-- ==== Sys2Proof/Machine/RegWrite.lean ====
section
/-! DEFINITION. A register write at the die's CSR logic (R13, R16, R46, R56–R59, R63–R65): alignment, byte enables, whole-word registers, the
access code and the clamp of every field, and the joined constraints that the register maps name. -/

namespace Sys2Proof.Machine

/-! ### Which units answer -/

/-- Are the rails of both supply dies on? -/
def Work.railsOn (w : Work) : Bool := w.flag (Reg.PWR_SD_STATUS 0) Fld.PWR_SD_STATUS_RAILS_ON && w.flag (Reg.PWR_SD_STATUS 1) Fld.PWR_SD_STATUS_RAILS_ON

/-- Does a DPA lie in the always-on plane as R632 lists it: MGT_, ERR_ and DBG_ of every die, CLK_, BOOT_, the Kiln's PWR_, SD0 and SD1? -/
def isAlwaysOn (a : Nat) : Bool :=
  let d := csrDie a
  let top := (a - 0x3F0000000000) % 0x100000000 / 0x1000000
  isCsr a && (decide (30 ≤ d) || decide (top = 0x2F) || decide (top = 0x30) ||
    (decide (d = 28 ∨ d = 29) && decide (top = 0x04 ∨ top = 0x38)) || (decide (d = 28) && decide (top = 0x05 ∨ top = 0x06)))

/-- Are the registers beyond the always-on plane out of reach: the rails are off, the chip is out of service, or the clocks are halted (R552, R569,
R583)? -/
def Work.diesHeld (w : Work) : Bool := !w.railsOn || !w.clocked

/-- Is a region disabled (R551)? -/
def Work.regionDisabled (w : Work) (r : Nat) : Bool := w.flag (Reg.ERR_ESC_REGION r) Fld.ERR_ESC_REGION_DISABLED

/-- The physical core that serves a slot (R118). -/
def Work.physOf (w : Work) (c : Nat) : Nat :=
  let sp := SMap.get 0 w.hw.spareIn (coreRegion c)
  if sp = 0 then coreSlot c
  else if coreSlot c + 1 = sp then 16
  else if coreSlot c = 16 then sp - 1
  else coreSlot c

/-- Escalation index of the physical core that serves a slot: 17 × region + physical core (R557). -/
def Work.physIx (w : Work) (c : Nat) : Nat := 17 * coreRegion c + w.physOf c

/-- Is a core slot disabled (R550, R551)? -/
def Work.coreDisabled (w : Work) (c : Nat) : Bool :=
  w.regionDisabled (coreRegion c) || w.flag (Reg.ERR_ESC_CORE (w.physIx c)) Fld.ERR_ESC_CORE_DISABLED

/-- Is a core in self-test? -/
def Core.testing (k : Core) : Bool := match k.test with | .running _ => true | _ => false

/-- How the block at a CSR address answers (R46, R547): as usual, as a block held in reset, or as a disabled one. -/
inductive Answers where
  | usual | asReset | asDisabled
deriving DecidableEq, Repr

/-- How the block at a CSR address answers now. -/
def Work.answers (w : Work) (a : Nat) : Answers :=
  let d := csrDie a
  let off := (a - 0x3F0000000000) % 0x100000000
  let top := off / 0x1000000
  if w.diesHeld && !isAlwaysOn a && !(decide (d = 28 ∨ d = 29) && decide (off < 0x100)) then .asReset
  else if 16 ≤ d then .usual
  else if top < 17 then
    let c := 17 * d + top
    if w.coreDisabled c && decide (4 ≤ off % 0x1000000 ∧ off % 0x1000000 < 8) then .usual
    else if w.coreDisabled c then .asDisabled
    else if (w.core c).testing && decide (0x10000 ≤ off % 0x1000000) then .asReset
    else .usual
  else if decide (top < 0x2F) && w.regionDisabled d then .asDisabled
  else .usual

/-- Does the block at a CSR address take writes? -/
def Work.regTakes (w : Work) (a : Nat) : Bool := decide (w.answers a = .usual)

/-! ### Fields of a write -/

/-- A field as a write leaves it: what was written, the value taken, and the first rule that changed it. -/
structure FieldVal where
  row : FieldRow
  written : Nat
  value : Nat
  rule : Option ClampRule
deriving DecidableEq, Repr

/-- The value of the field at bit `lsb`. -/
def fieldAt (vs : List FieldVal) (lsb : Nat) : Nat :=
  match vs.find? (fun v => decide (v.row.lsb = lsb)) with
  | some v => v.value
  | none => 0

/-- A joined constraint: the field at bit `lsb` takes a value (R65). -/
def joinSet (vs : List FieldVal) (lsb x : Nat) : List FieldVal :=
  vs.map fun v => if v.row.lsb = lsb ∧ v.value ≠ x then { v with value := x, rule := v.rule.or (some .joined) } else v

/-- A joined constraint: at most. -/
def joinMax (vs : List FieldVal) (lsb hi : Nat) : List FieldVal := joinSet vs lsb (min (fieldAt vs lsb) hi)

/-- A joined constraint: at least. -/
def joinMin (vs : List FieldVal) (lsb lo : Nat) : List FieldVal := joinSet vs lsb (max (fieldAt vs lsb) lo)

/-- A field that takes another value under a rule of R64 that is not the same for every die. -/
def fieldTakes (vs : List FieldVal) (lsb x : Nat) (rule : ClampRule) : List FieldVal :=
  vs.map fun v => if v.row.lsb = lsb ∧ v.value ≠ x then { v with value := x, rule := v.rule.or (some rule) } else v

/-- The legal values of DBG_MUX_SEL.SEL on die d (R641). -/
def muxCodes (d : Nat) : List Nat :=
  (if d < 16 then List.range 0x11 ++ (List.range 0x11).map (0x20 + ·) ++ (List.range 0x41).map (0x40 + ·)
    else if d < 24 then [0, 1] else if d < 28 then [0, 1, 2, 3] else if d = 28 then [0, 1] else [0]) ++ [0xFE, 0xFF]

/-- The joined constraints of the register maps, by register (R65), and the legal values that depend on the die. -/
def joined (w : Work) (h : RegHit) (vs : List FieldVal) : List FieldVal :=
  let n := h.row.name
  if n = "CORE_LINK_CFG_k" then
    let base := fieldAt vs 0
    if base + 512 * fieldAt vs 24 > 2 ^ 24 then joinSet vs 24 (max 1 ((2 ^ 24 - base) / 512)) else vs
  else if n = "MEM_REF_CFG" then joinMax vs 24 (fieldAt vs 16)
  else if n = "MEM_SCHED_CFG" then joinMax vs 18 (fieldAt vs 12 - 1)
  else if n = "MEM_TIMING_2" then joinMin vs 16 (fieldAt vs 8)
  else if n = "CAP_SCHED_CFG" then joinMax vs 18 (fieldAt vs 12 - 1)
  else if n = "CAP_CTRL" then
    joinMax (joinMin vs 8 8) 8 (if fieldAt vs 0 = 0 then 16 else if fieldAt vs 0 = 1 then 24 else 36)
  else if n = "SCH_CTX_x_SPM" then joinMax vs 8 (256 - fieldAt vs 0)
  else if n = "RTE_PART" then
    let lens := (w.r32 (h.addr - 0x4)).toNat % 65536
    joinSet vs 16 ([0, 1, 2, 3].foldl (fun acc k => acc + min (bits (fieldAt vs 16) (4 * k) 4) (bits lens (4 * k) 4) * 16 ^ k) 0)
  else if n = "PWR_BUDGET" then joinMin vs 16 (fieldAt vs 0)
  else if n = "SNP_RANGE_i_SRC" then
    let pages := (w.r32 (h.addr - 4)).toNat % 2 ^ 24
    joinMax vs 16 (0xC0000000 - pages)
  else if n = "DBG_MUX_SEL" then
    let x := fieldAt vs 0
    if (muxCodes (csrDie h.addr)).contains x then vs else fieldTakes vs 0 (nearestOf (muxCodes (csrDie h.addr)) x) .encoding
  else if n = "ALC_RESERVE_BASE" then
    let lo := 2 ^ 14 * csrDie h.addr
    fieldTakes vs 21 (min (max (fieldAt vs 21) lo) (lo + 2 ^ 14 - 1)) .range
  else vs

/-- Bits of a register that a set of enabled bytes covers. -/
def byteMask : Nat → List Bool → Nat
  | _, [] => 0
  | i, b :: bs => (if b then 0xFF * 2 ^ (8 * i) else 0) + byteMask (i + 1) bs

/-- The fields of a register after a write of `data` under `mask` to old contents `old` (R13, R59, R63). -/
def writeFields (rows : List FieldRow) (old data mask : Nat) : List FieldVal :=
  rows.map fun f =>
    let m := bits mask f.lsb f.width
    let o := bits old f.lsb f.width
    let d := bits data f.lsb f.width
    match f.acc with
    | .rw =>
      if m = 0 then ⟨f, o, o, none⟩
      else
        let x := (o &&& (2 ^ f.width - 1 - m)) ||| (d &&& m)
        let r := f.legal.apply x
        ⟨f, x, r.1, r.2⟩
    | .w1c => ⟨f, o, o &&& (2 ^ f.width - 1 - (d &&& m)), none⟩
    | .w1s => ⟨f, o, o ||| (d &&& m), none⟩
    | _ => ⟨f, o, o, none⟩

/-- Put field values into a register's contents. -/
def packFields (old : Nat) (vs : List FieldVal) : Nat :=
  vs.foldl (fun acc v => setBits acc v.row.lsb v.row.width v.value) old

/-- Write-only fields are clamped too; their clamp is counted, their value acts and is not stored. -/
def clampWo (rows : List FieldRow) (data : Nat) : List FieldVal :=
  (rows.filter (fun f => decide (f.acc = .wo))).map fun f =>
    let x := bits data f.lsb f.width
    let r := f.legal.apply x
    ⟨f, x, r.1, r.2⟩

/-- Count the clamps of a register write (R67, R69). -/
def Work.countClamps (w : Work) (who : ClampBy) (addr : Nat) (vs : List FieldVal) : Work :=
  w.forEach vs fun w v =>
    match v.rule with
    | some r => if v.value = v.written then w else w.clamp who (addr + v.row.lsb / 32 * 4) 0 v.row.lsb r
    | none => w

/-- A write to the write-only fields of a register: the clamped contents, with the clamps counted (R63, R67). -/
def Work.woWrite (w : Work) (who : ClampBy) (addr data : Nat) : Nat × Work :=
  match regAt addr with
  | some h =>
    let vs := clampWo h.row.fields data
    (packFields 0 vs, w.countClamps who h.addr vs)
  | none => (data, w)

/-- Does an issued command that has not completed name link k of its core (R109)? -/
def Core.namesLink (k : Core) (i : Nat) : Bool :=
  k.engines.any fun e => e.2.running.any fun r =>
    (cmdInEn r.cmd && decide (cmdInLink r.cmd = i)) || (cmdOutEn r.cmd && decide (cmdOutLink r.cmd = i))

/-- Is link i idle (R109)? -/
def Core.linkIdle (k : Core) (i : Nat) : Bool := !(k.link i).full0 && !(k.link i).full1 && !k.namesLink i

/-- A configuration written to link i takes effect when the link is idle (R109). -/
def Work.applyLinkCfg (w : Work) (c i : Nat) : Work :=
  let k := w.core c
  match (k.link i).pending with
  | some v =>
    if k.linkIdle i then (w.setCore c (k.setLink i { k.link i with pending := none })).w64 (Reg.CORE_LINK_CFG c i) v else w
  | none => w

/-- A write to CORE_LINK_CFG_k is held until the link is idle (R109). -/
def Work.writeLinkCfg (w : Work) (addr v : Nat) : Work :=
  let d := csrDie addr
  let off := (addr - 0x3F0000000000) % 0x100000000
  let c := 17 * d + off / 0x1000000
  let i := (off % 0x1000000 - 0x300) / 8
  let k := w.core c
  (w.setCore c (k.setLink i { k.link i with pending := some (BitVec.ofNat 64 v) })).applyLinkCfg c i

/-- Store into one register, with byte enables. -/
def Work.storeReg (w : Work) (who : ClampBy) (h : RegHit) (enabled : List Bool) (data : Nat) : Work :=
  let old := if h.row.size = 8 then (w.r64 h.addr).toNat else (w.r32 h.addr).toNat
  let vs := joined w h (writeFields h.row.fields old data (byteMask 0 enabled))
  let w := w.countClamps who h.addr vs
  let v := packFields old vs
  if h.row.name = "CORE_LINK_CFG_k" then w.writeLinkCfg h.addr v
  else if v = old then w
  else if h.row.size = 8 then w.w64 h.addr (BitVec.ofNat 64 v) else w.w32 h.addr (BitVec.ofNat 32 v)

/-- One register as an access of `n` bytes at `a` with byte enables reaches it: its enabled bytes and their data. -/
structure RegPart where
  hit : RegHit
  enabled : List Bool
  data : Nat
deriving DecidableEq, Repr

/-- The registers that an aligned access reaches (R56, R57), lowest first. -/
def regParts (a n : Nat) (be : Nat) (data : Nat) : List RegPart :=
  let part (h : RegHit) : RegPart :=
    { hit := h
      enabled := (List.range h.row.size).map fun i =>
        let p := h.addr + i
        decide (a ≤ p) && decide (p < a + n) && decide (bits be (p - a) 1 = 1)
      data := if a ≤ h.addr then data >>> (8 * (h.addr - a)) else data <<< (8 * (a - h.addr)) }
  match regAt a, (if n = 8 then regAt (a + 4) else none) with
  | some h, some h' => if h.addr = h'.addr then [part h] else [part h, part h']
  | some h, none => [part h]
  | none, some h' => [part h']
  | none, none => []

/-- A whole-word register takes only a write of its own width, or of its whole pair, with every byte set (R59). -/
def RegPart.takesWrite (p : RegPart) (n be : Nat) : Bool :=
  if p.hit.row.ww then
    if p.hit.row.size = 8 then decide (n = 8) && decide (be % 256 = 255)
    else (decide (n = 4) && decide (be % 16 = 15)) || (decide (n = 8) && decide (be % 256 = 255))
  else p.enabled.any id

/-- The context that a master's access acts for (R68, R256). -/
def Work.placedCtx (w : Work) (c : Nat) : Option Nat :=
  if w.flag (Reg.CORE_CTX c) Fld.CORE_CTX_VALID then some (w.fld (Reg.CORE_CTX c) Fld.CORE_CTX_CTX) else none

/-- Whom the clamps of a master's register writes are counted to (R68). -/
def Work.clampBy (w : Work) : Master → ClampBy
  | .host _ => .host
  | .firmware _ => .firmware
  | .sideband => .host
  | .cell c _ => match w.placedCtx c.val with | some x => .program x | none => .firmware
  | .remote _ (some x) => .program x.val
  | .remote _ none => .host

/-- Store the parts of an access that take it, where the block takes writes now (R46). -/
def Work.storeParts (w : Work) (m : Master) (n be : Nat) (ps : List RegPart) : Work :=
  w.forEach ps fun w p =>
    if p.takesWrite n be && decide (w.answers p.hit.addr = .usual) then w.storeReg (w.clampBy m) p.hit p.enabled p.data else w

/-- A write of a register that has no behaviour of its own: aligned down to its width, performed byte by byte (R56–R59). -/
def Work.regWrite (w : Work) (m : Master) (addr : Nat) (wd : AccWidth) (be : Nat) (data : Nat) : Work :=
  let n := wd.bytes
  let a := addr / n * n
  w.storeParts m n be (regParts a n be data)

end Sys2Proof.Machine
end

