-- ==== Sys2Proof/Machine/Net.lean ====
section
/-! DEFINITION. Packets and where they go (R435–R443, R455–R472, R485–R488): the target of a node ID, the port a packet leaves by, what a fence,
a failed port or a TX-1 partner makes of it. -/

namespace Sys2Proof.Machine

/-! ### Packets (R435–R439) -/

/-- Flits that a packet of `len` payload bytes takes (R435). -/
def flitsOf (len : Nat) : Nat := (32 + len + 125) / 126

/-- Flits of a packet. -/
def Pkt.flits (p : Pkt) : Nat := flitsOf p.data.length

/-- OP of an ATOMIC or a WATCH: 0 REGISTER, 1 ACCEPTED, 2 FULL, 3 WAKE, 4 ABSENT, 5 CANCEL. -/
def Pkt.op (p : Pkt) : Nat := bits p.w5 16 4

/-- Target address of a request. -/
def Pkt.addr (p : Pkt) : Nat := p.w4 % 2 ^ 32 + bits p.w5 0 16 * 2 ^ 32

/-- RLEN of an RD. -/
def Pkt.rlen (p : Pkt) : Nat := bits p.w6 0 13

/-- STATUS of a RESP or ACK. -/
def Pkt.status (p : Pkt) : Nat := bits p.w4 0 4

/-- Is a packet one that R464 answers: RD, WR, ATOMIC or WATCH REGISTER? -/
def Pkt.isRequest (p : Pkt) : Bool := decide (p.ptype = 1 ∨ p.ptype = 2 ∨ p.ptype = 3) || (decide (p.ptype = 4) && decide (p.op = 0))

/-- Is a packet a collective one, which R462 keeps on its axis? -/
def Pkt.isCollective (p : Pkt) : Bool := decide (7 ≤ p.ptype ∧ p.ptype ≤ 9)

/-- A packet with nothing but a type, a channel, a destination and a source. -/
def Pkt.blank (ptype vc dst src : Nat) : Pkt where
  ptype := ptype
  vc := vc
  poison := false
  gen := 0
  dst := dst
  src := src
  ctx := none
  core := 0
  master := 0
  tag := 0
  esc := false
  dl := false
  circ := none
  w4 := 0
  w5 := 0
  w6 := 0
  w7 := 0
  data := []

/-- The RESP or ACK to a request, sent from node `here` (R437, R438). -/
def Pkt.answer (p : Pkt) (here status : Nat) (data : List Byte) : Pkt :=
  { Pkt.blank (if p.ptype = 2 then 6 else 5) p.vc p.src here with
    gen := p.gen, ctx := p.ctx, core := p.core, master := p.master, tag := p.tag, w4 := status, data := data }

/-! ### Ports -/

/-- The port of link die p. -/
def Work.port (w : Work) (p : Nat) : Port := SMap.get Port.reset w.hw.ports p

/-- Change a port. -/
def Work.updPort (w : Work) (p : Nat) (f : Port → Port) : Work :=
  { w with hw := { w.hw with ports := SMap.set Port.reset w.hw.ports p (f (w.port p)) } }

/-- STATE of a port (R445). -/
def Work.linkState (w : Work) (p : Nat) : Nat := w.fld (Reg.LNK_STATUS p) Fld.LNK_STATUS_STATE

/-- Is the partner of a port a TX-1 (R452)? -/
def Work.tx1 (w : Work) (p : Nat) : Bool :=
  w.flag (Reg.LNK_PARTNER p) Fld.LNK_PARTNER_VALID && decide (w.fld (Reg.LNK_PARTNER p) Fld.LNK_PARTNER_GEN = 1)

/-- The effective fence mode of a port: 0 OPEN, 1 LOGICAL, 2 ELECTRICAL (R485). -/
def Work.fenceMode (w : Work) (p : Nat) : Nat :=
  let cfg := Reg.FEN_PORT_CFG p
  let st := Reg.FEN_STATUS p
  max (w.fld cfg Fld.FEN_PORT_CFG_MODE)
    (max (if w.flag st Fld.FEN_STATUS_ALERTED then w.fld cfg Fld.FEN_PORT_CFG_ALERT_MODE else 0)
      (if w.flag st Fld.FEN_STATUS_LATCHED then 2 else 0))

/-! ### Coordinates (R455–R461) -/

/-- The chip's own logical node ID (R34; RTE_SELF of LD0). -/
def Work.selfNode (w : Work) : Nat := w.fld (Reg.RTE_SELF 0) Fld.RTE_SELF_LOGICAL

/-- The chip's physical coordinate. -/
def Work.selfPhys (w : Work) : Nat := w.fld (Reg.RTE_SELF 0) Fld.RTE_SELF_PHYS

/-- The field of axis a in a coordinate. -/
def coord (v a : Nat) : Nat := v / 16 ^ a % 16

/-- The physical coordinate that a logical node ID names (R457). -/
def Work.nodeTarget (w : Work) (node : Nat) : Nat :=
  let hit (i : Nat) : Bool :=
    w.flag (Reg.RTE_SUB 0 i) Fld.RTE_SUB_VALID && decide (w.fld (Reg.RTE_SUB 0 i) Fld.RTE_SUB_LOGICAL = node)
  match (List.range 64).find? hit with
  | some i => w.fld (Reg.RTE_SUB 0 i) Fld.RTE_SUB_PHYS
  | none =>
    let f (a : Nat) : Nat := coord (w.r64 (Reg.RTE_MAP 0 a)).toNat (coord node a) * 16 ^ a
    f 0 + f 1 + f 2 + f 3

/-- Chips of the machine on axis a. -/
def Work.axisLen (w : Work) (a : Nat) : Nat := coord (w.fld (Reg.RTE_MACH 0) Fld.RTE_MACH_LEN_M1) a + 1

/-- Does the partition box wrap on axis a (R460)? -/
def Work.axisWraps (w : Work) (a : Nat) : Bool :=
  decide (bits (w.fld (Reg.RTE_MACH 0) Fld.RTE_MACH_RING) a 1 = 1) &&
    decide (coord (w.fld (Reg.RTE_PART 0) Fld.RTE_PART_LEN_M1) a + 1 = w.axisLen a)

/-- The port that a packet for physical coordinate `t` leaves by (R461); none at the target itself. -/
def Work.dimPort (w : Work) (t : Nat) : Option Nat :=
  let c := w.selfPhys
  match (List.range 4).find? (fun a => decide (coord t a ≠ coord c a)) with
  | none => none
  | some a =>
    let m := w.axisLen a
    let lo := coord (w.fld (Reg.RTE_PART 0) Fld.RTE_PART_LO) a
    let d (x y : Nat) : Nat := (x + 16 * m - y) % m
    let plus := if w.axisWraps a then decide (2 * d (coord t a) (coord c a) ≤ m)
      else decide (d (coord c a) lo < d (coord t a) lo)
    some (if plus then 2 * a else 2 * a + 1)

/-- Does a packet that leaves by port p cross its axis's dateline (R465)? -/
def Work.crossesDateline (w : Work) (p : Nat) : Bool :=
  let a := p / 2
  w.axisWraps a && decide (coord w.selfPhys a = if p % 2 = 0 then w.axisLen a - 1 else 0)

/-! ### Placing a packet -/

/-- What becomes of a packet: delivered to this chip, in a port's transmit queue, discarded, refused with a STATUS, or (a REGISTER for a TX-1
partner) answered FULL by the port. -/
inductive Placed where
  | delivered
  | queued
  | dropped
  | refused (status : Nat)
  | full
deriving DecidableEq, Repr

/-- Put a packet into the transmit queue of port p, under the fence, the port's state and the partner (R451, R452, R465, R486). -/
def Work.sendOut (w : Work) (arr : Option Nat) (unit p : Nat) (prio : Option Nat) (pkt : Pkt) : Work × Placed :=
  let mode := w.fenceMode p
  if decide (mode ≠ 0) && !(decide (pkt.ptype = 11) && decide (mode = 1)) then
    if pkt.isRequest then (w.bump (Reg.FEN_REFUSED p) 1, .refused 6) else (w.bump (Reg.FEN_DROP_OUT p) 1, .dropped)
  else if w.linkState p = 9 ∨ w.linkState p = 0 then
    if pkt.isRequest then (w, .refused 5) else (w.bump (Reg.LNK_DROPS p) 1, .dropped)
  else if decide (pkt.ptype = 4) && decide (pkt.op = 0) && w.tx1 p then (w, .full)
  else if (pkt.isCollective || decide (pkt.ptype = 4)) && w.tx1 p then
    ((w.bump (Reg.LNK_TX_UNSUP p) 1).setFlag (Reg.LNK_ERR_STAT p) Fld.LNK_ERR_STAT_UNSUP true, .dropped)
  else
    let same := match arr with | some q => decide (q / 2 = p / 2) && pkt.dl | none => false
    let pkt := { pkt with dl := same || w.crossesDateline p }
    let input := match arr with | some q => 32 + q | none => unit
    (w.updPort p fun k => { k with tx := k.tx ++ [⟨pkt, input, prio, false⟩] }, .queued)

/-- Record a routing error in the arriving port's die, or in LD0 for an injected packet (R458, R464, R470). -/
def Work.routeError (w : Work) (arr : Option Nat) (pkt : Pkt) (kind : Nat) (bit : Fld) : Work :=
  let d := arr.getD 0
  (w.setFlag (Reg.RTE_ERR_STAT d) bit true).w32 (Reg.RTE_ERR_INFO d)
    (BitVec.ofNat 32 (pkt.dst % 65536 + arr.getD 8 * 65536 + pkt.vc * 2 ^ 20 + kind * 2 ^ 23))

/-- A packet that cannot be sent on (R464). -/
def Work.noRoute (w : Work) (arr : Option Nat) (pkt : Pkt) : Work × Placed :=
  let w := (w.routeError arr pkt 2 Fld.RTE_ERR_STAT_NOROUTE).bump (Reg.RTE_NOROUTE (arr.getD 0)) 1
  (w, if pkt.isRequest then .refused 5 else .dropped)

/-- A packet that reaches its target, or the end of its circuit, without being delivered (R458, R470). -/
def Work.misdeliver (w : Work) (arr : Option Nat) (pkt : Pkt) : Work × Placed :=
  let r := w.noRoute arr pkt
  (r.1.routeError arr pkt 0 Fld.RTE_ERR_STAT_MISDELIVER, r.2)

/-- Route under R461, with the detours of R472; `circuit` joins one. -/
def Work.routeDim (w : Work) (arr : Option Nat) (unit : Nat) (pkt : Pkt) (circuit : Work → Nat → Pkt → Work × Placed) : Work × Placed :=
  match w.dimPort (w.nodeTarget pkt.dst) with
  | none => w.misdeliver arr pkt
  | some p =>
    let detour := Reg.RTE_DETOUR 0 p
    if (decide (w.fenceMode p = 2) || decide (w.linkState p = 9)) && w.flag detour Fld.RTE_DETOUR_VALID then
      circuit (w.bump (Reg.RTE_DETOURED p) 1) (w.fld detour Fld.RTE_DETOUR_CIRC) pkt
    else w.sendOut arr unit p none pkt

/-- Route by a circuit entry (R470). An entry that is invalid or ends the circuit hands over to R461, where a detour is taken no second time. -/
def Work.routeEntry (w : Work) (arr : Option Nat) (unit entry : Nat) (pkt : Pkt)
    (dim : Work → Pkt → Work × Placed) : Work × Placed :=
  let out := w.fld entry Fld.RTE_CIRC_OUT
  if !w.flag entry Fld.RTE_CIRC_VALID then
    dim (w.routeError arr pkt 1 Fld.RTE_ERR_STAT_CIRC_INVALID) { pkt with circ := none }
  else if out < 8 then
    let prio := if w.flag entry Fld.RTE_CIRC_PRIO then some (w.fld entry Fld.RTE_CIRC_SHARE) else none
    w.sendOut arr unit out prio { pkt with circ := some (w.fld entry Fld.RTE_CIRC_OUT_CIRC) }
  else if out = 8 then dim w { pkt with circ := none }
  else if pkt.dst = w.selfNode then (w, .delivered)
  else w.misdeliver arr pkt

/-- The circuit that an injected packet joins (R471). -/
def Work.injCircuit (w : Work) (pkt : Pkt) : Option Nat :=
  let hit (i : Nat) : Bool :=
    let e := Reg.RTE_INJ 0 i
    w.flag e Fld.RTE_INJ_VALID && decide (w.fld e Fld.RTE_INJ_DST = pkt.dst) && decide (bits (w.fld e Fld.RTE_INJ_VCMASK) pkt.vc 1 = 1)
  ((List.range 64).find? hit).map fun i => w.fld (Reg.RTE_INJ 0 i) Fld.RTE_INJ_CIRC

/-- Route a packet that is not for this chip. -/
def Work.routeOn (w : Work) (arr : Option Nat) (unit : Nat) (pkt : Pkt) : Work × Placed :=
  let last (w : Work) (p : Pkt) : Work × Placed := w.routeDim arr unit p (fun w _ p => w.noRoute arr p)
  let join (w : Work) (c : Nat) (p : Pkt) : Work × Placed := w.routeEntry arr unit (Reg.RTE_JOIN 0 c) p last
  let dim (w : Work) (p : Pkt) : Work × Placed := w.routeDim arr unit p join
  match arr, pkt.circ with
  | some q, some c => w.routeEntry arr unit (Reg.RTE_CIRC q c) pkt dim
  | some _, none => dim w pkt
  | none, _ =>
    match w.injCircuit pkt with
    | some c => w.routeEntry arr unit (Reg.RTE_JOIN 0 c) { pkt with circ := some c } dim
    | none => dim w pkt

/-- Where a packet goes that arrived at port `arr`, or that die `unit` of this chip injects (R458, R461–R463, R470, R490). -/
def Work.place (w : Work) (arr : Option Nat) (unit : Nat) (pkt : Pkt) : Work × Placed :=
  if pkt.ptype = 11 then (w, .delivered)
  else if pkt.dst = w.selfNode then (w, .delivered)
  else match arr with
    | some q => if pkt.isCollective then
        if w.flag (Reg.RTE_CTRL 0) Fld.RTE_CTRL_EN then w.sendOut arr unit (if q % 2 = 0 then q + 1 else q - 1) none pkt
        else w.noRoute arr pkt
      else if w.flag (Reg.RTE_CTRL 0) Fld.RTE_CTRL_EN then w.routeOn arr unit pkt else w.noRoute arr pkt
    | none => if w.flag (Reg.RTE_CTRL 0) Fld.RTE_CTRL_EN then w.routeOn none unit pkt else w.noRoute none pkt

/-- Send a packet from a die of this chip, with nobody waiting for a refusal. -/
def Work.inject (w : Work) (unit : Nat) (pkt : Pkt) : Work := (w.place none unit pkt).1

/-- The RESP or ACK that a die of this chip sends for a request of another chip. -/
def Work.injectAnswer (w : Work) (unit : Nat) (req : Pkt) (status : Nat) (data : List Byte) : Work :=
  w.inject unit (req.answer w.selfNode status data)

/-- The FULL that a port sends for a REGISTER bound for a TX-1 partner (R452). -/
def Pkt.fullFor (p : Pkt) (here : Nat) : Pkt :=
  { p with ptype := 4, dst := p.src, src := here, w5 := setBits p.w5 16 4 2, data := [], dl := false, circ := none, esc := false }

/-! ### Sync words and SYN commands (R34, R249–R258) -/

/-- A sync word: object `i` of core slot `c`, doorbell word `n` of HD0, interrupt word `v` of hub die `h` (R249, R623, R624). -/
inductive SyncWord where
  | obj (c i : Nat)
  | db (n : Nat)
  | iw (h v : Nat)
deriving DecidableEq, Repr

/-- The sync word at a DPA, and whether the DPA is its add alias. -/
def syncWordAt (a : Nat) : Option (SyncWord × Bool) :=
  let d := csrDie a
  let off := (a - 0x3F0000000000) % 0x100000000
  let sub := off % 0x1000000
  if !isCsr a then none
  else if d < 16 then
    if off / 0x1000000 < 17 ∧ 0x48000 ≤ sub ∧ sub < 0x4C000 then
      some (.obj (17 * d + off / 0x1000000) ((sub - 0x48000) / 8 % 1024), decide (0x4A000 ≤ sub))
    else none
  else if d = 28 ∧ 0x20000 ≤ off ∧ off < 0x24000 then some (.db ((off - 0x20000) / 8 % 1024), decide (0x22000 ≤ off))
  else if (d = 28 ∨ d = 29) ∧ 0x10010 ≤ off ∧ off < 0x10800 then some (.iw (d - 28) ((off - 0x10000) / 8), false)
  else if (d = 28 ∨ d = 29) ∧ 0x11010 ≤ off ∧ off < 0x11800 then some (.iw (d - 28) ((off - 0x11000) / 8), true)
  else none

/-- A global address as node and CVA (R34). -/
def gNode (g : Nat) : Nat := bits g 48 16
def gCva (g : Nat) : Nat := g % 2 ^ 48

/-- The DPA that a CVA of the direct window names (R33). -/
def directDpa (cva : Nat) : Option Nat := if bits cva 46 2 = 3 then some (cva % 2 ^ 46) else none

def synSidx (c : CmdBits) : Nat := cmdFld c 3 0 10
def synRemote (c : CmdBits) : Bool := decide (cmdFld c 3 10 1 = 1)
def synOpCode (c : CmdBits) : Nat := cmdFld c 3 16 4
def synGaddr (c : CmdBits) : Nat := cmdWord c 4 + cmdWord c 5 * 2 ^ 32
def synOperand (c : CmdBits) : DWord := BitVec.ofNat 64 (cmdWord c 6 + cmdWord c 7 * 2 ^ 32)
def synCompare (c : CmdBits) : DWord := BitVec.ofNat 64 (cmdWord c 8 + cmdWord c 9 * 2 ^ 32)

/-! ### Watch messages (R258–R266) -/

/-- The WATCH packet of a message: CORE is always the waiter's core. -/
def Work.watchPkt (w : Work) (here node core target gen : Nat) (ctx : Option Nat) (kind : WatchKind) : Pkt :=
  let base : Pkt := { Pkt.blank 4 1 node w.selfNode with
    gen := gen, ctx := ctx, master := 3, w4 := target % 2 ^ 32, w5 := bits target 32 16 }
  match kind with
  | .register op operand compare =>
    { base with core := coreGlobal here, w5 := base.w5 + op % 16 * 2 ^ 20, data := leBytes 8 operand.toNat ++ leBytes 8 compare.toNat }
  | .accepted => { base with core := core, w5 := base.w5 + 1 * 2 ^ 16 }
  | .full => { base with core := core, w5 := base.w5 + 2 * 2 ^ 16 }
  | .wake v => { base with core := core, w5 := base.w5 + 3 * 2 ^ 16, data := leBytes 8 v.toNat }
  | .absent => { base with core := core, w5 := base.w5 + 4 * 2 ^ 16 }
  | .cancel => { base with core := coreGlobal here, w5 := base.w5 + 5 * 2 ^ 16 }

/-- A watch message on its way to a core of this chip. -/
def Work.watchHere (w : Work) (m : WatchMsg) : Work := { w with hw := { w.hw with watchMsgs := w.hw.watchMsgs ++ [m] } }

/-- Send a watch message from die `die` (for core slot `here`) to global core `core` of a node, and what became of it. -/
def Work.sendWatchFrom (w : Work) (die here node core target gen : Nat) (ctx : Option Nat) (kind : WatchKind) : Work × Placed :=
  if node = w.selfNode then (w.watchHere ⟨node, coreGlobal here, globalSlot core, target, gen, ctx, kind⟩, .delivered)
  else
    let r := w.place none die (w.watchPkt here node core target gen ctx kind)
    match r.2 with
    | .full => (r.1.watchHere ⟨node, core, here, target, gen, ctx, .full⟩, .full)
    | _ => r

/-- Send a watch message from core slot `c` to a core of this chip, or of another. -/
def Work.sendWatch (w : Work) (c node core target gen : Nat) (ctx : Option Nat) (kind : WatchKind) : Work :=
  (w.sendWatchFrom (coreRegion c) c node core target gen ctx kind).1

/-! ### The receive buffer -/

/-- A packet leaves the receive buffer: its flits return as credit (R433). -/
def Work.rxFree (w : Work) (p : Nat) (vc flits : Nat) : Work :=
  let a := Reg.LNK_VC_CRED p vc
  (w.setFld a Fld.LNK_VC_CRED_RX_USED (w.fld a Fld.LNK_VC_CRED_RX_USED - flits)).updPort p fun k =>
    { k with freed := SMap.set 0 k.freed vc ((SMap.get 0 k.freed vc + flits) % 65536) }

/-- The oldest packet of a virtual channel in a port's receive buffer (R436). -/
def Work.rxHead (w : Work) (p vc : Nat) : Option RxPkt := (w.port p).rx.find? fun r => decide (r.pkt.vc = vc)

/-- Take the first entry that a test accepts out of a list. -/
def dropFirst {α : Type} (f : α → Bool) : List α → List α
  | [] => []
  | x :: xs => if f x then xs else x :: dropFirst f xs

/-- Take the oldest packet of a virtual channel out of a port's receive buffer. -/
def Work.rxTake (w : Work) (p vc flits : Nat) : Work :=
  (w.updPort p fun k => { k with rx := dropFirst (fun r => decide (r.pkt.vc = vc)) k.rx }).rxFree p vc flits

end Sys2Proof.Machine
end

