-- ==== Sys2Proof/Machine/Fault.lean ====
section
/-! DEFINITION. Faults and what handling them does (R526–R535, R540–R544, R549, R550): requests that become orphans, collective operations ended
for a lane, core resets, context aborts, the unit action of each fault kind. -/

namespace Sys2Proof.Machine

/-- STATE of a context: 0 FREE, 1 IDLE, 2 ACTIVE, 3 WITHDRAWN (R361). -/
def Work.ctxState (w : Work) (x : Nat) : Nat := w.fld (Reg.SCH_CTX_CTRL x) Fld.SCH_CTX_CTRL_STATE

/-- Is a context live (R364)? -/
def Work.ctxLive (w : Work) (x : Nat) : Bool := decide (w.ctxState x ≠ 0)

/-- The core slot of a global core, as the scheduler numbers cores. -/
def Work.isPlaced (w : Work) (x : Nat) : Bool := (List.range 256).any fun g => decide (w.placedCtx (globalSlot g) = some x)

/-! ### Requests and orphans -/

/-- The core slot of a request's master, for the cells of a core. -/
def ReqFrom.core? : ReqFrom → Option Nat
  | .ctl c => some c
  | .str c _ => some c
  | .syn c => some c
  | _ => none

/-- Make orphans of the outstanding requests of the masters that `f` picks (R544). -/
def Work.orphan (w : Work) (f : ReqFrom → Bool) : Work :=
  let gone := w.hw.reqs.filter fun e => f e.2.src
  { w with hw := { w.hw with
      reqs := w.hw.reqs.filter fun e => !f e.2.src
      orphans := gone.foldl (fun m e => if e.2.stage = .replied then m else SMap.put m e.1 e.2) w.hw.orphans } }

/-! ### Register blocks -/

/-- Set every register word from `lo` up to `hi`, but those that `keep` names, to its reset value (R15). -/
def Work.resetBlock (w : Work) (lo hi : Nat) (keep : Nat → Bool) : Work :=
  let inside (a : Nat) : Bool := decide (lo ≤ a) && decide (a < hi) && !keep a
  let listed := (w.csr.map Prod.fst ++ w.cw.map Prod.fst).filter inside
  w.forEach listed fun w a => w.w32 a (csrReset a)

/-! ### Collective operations (R413, R416) -/

/-- The number of a lane and set in colSeq and colFailed. -/
def colKey (axis set lane : Nat) : Nat := 65536 * axis + 256 * set + lane

/-- Record an error of an operation in a die's COL_ERR registers (R413–R418). -/
def Work.colError (w : Work) (die set ctx lane kind wait seq step tag : Nat) (bit : Fld) : Work :=
  ((w.setFlag (Reg.COL_ERR_STAT die) bit true).w32 (Reg.COL_ERR_INFO die)
      (BitVec.ofNat 32 (set % 256 + ctx % 1024 * 2 ^ 8 + lane % 256 * 2 ^ 18 + kind % 8 * 2 ^ 26 + wait % 8 * 2 ^ 29))).w32
    (Reg.COL_ERR_INFO2 die) (BitVec.ofNat 32 (seq % 256 + step % 32 * 2 ^ 8 + tag % 65536 * 2 ^ 16))

/-- End an operation: its granules are freed, no further credit is granted, later pieces are discarded (R413). -/
def Work.colDrop (w : Work) (o : ColOp) : Work :=
  { w with hw := { w.hw with
      colOps := w.hw.colOps.filter fun x => decide (x ≠ o)
      colFailed := colKey o.axis o.set o.lane :: w.hw.colFailed.filter fun k => decide (k ≠ colKey o.axis o.set o.lane) } }

/-- The fault of a collective operation, as link die `die` reports it. -/
def colFault (w : Work) (die kind axis set ctx lane tag : Nat) : FaultInfo where
  kind := kind
  level := 3
  lasting := true
  ctx := some ctx
  die := 16 + die
  unit := 10
  core := lane
  gen := w.hw.genChip
  tag := tag
  addr := none
  detail := set + axis * 256

/-- End every operation of a lane because its core is reset (R416): the work, and the faults. -/
def Work.colLaneReset (w : Work) (lane : Nat) : Work × List FaultInfo :=
  let ops := w.hw.colOps.filter fun o => decide (o.lane = lane)
  let w := w.forEach ops fun w o =>
    let w := w.forEach [2 * o.axis, 2 * o.axis + 1] fun w d =>
      w.colError d o.set o.ctx o.lane 4 0 o.seq o.step o.tag Fld.COL_ERR_STAT_LANE_RESET
    w.colDrop o
  (w, ops.map fun o => colFault w (2 * o.axis) 0x1A o.axis o.set o.ctx o.lane o.tag)

/-! ### Escalation (R549–R551) -/

/-- Whole seconds since the standby input was applied. -/
def Work.seconds (w : Work) : Nat := w.hw.uptime / 200000000

/-- Counted resets of a unit within the last `minutes`. -/
def Work.escCount (w : Work) (u minutes : Nat) : Nat :=
  ((SMap.get [] w.hw.escTimes u).filter fun t => decide (w.seconds < t + 60 * minutes)).length

/-- Count a reset of unit `u`, whose escalation register is at `a`. -/
def Work.escAdd (w : Work) (u a minutes : Nat) : Work :=
  let w := { w with hw := { w.hw with escTimes := SMap.set [] w.hw.escTimes u (w.seconds :: SMap.get [] w.hw.escTimes u) } }
  (w.setFld a Fld.ERR_ESC_CORE_LAST_S w.seconds).setFld a Fld.ERR_ESC_CORE_COUNT (min (w.escCount u minutes) 15)

/-- Is a physical core disabled? -/
def Work.physDisabled (w : Work) (r p : Nat) : Bool := w.flag (Reg.ERR_ESC_CORE (17 * r + p)) Fld.ERR_ESC_CORE_DISABLED

/-- Swap the spare of a region in for logical slot `slot` (R117, R118): the scratchpad is another core's, with other contents. -/
def Work.swapSpare (w : Work) (r slot : Nat) : Work :=
  let c := 17 * r + slot
  let w := { w with hw := { w.hw with spareIn := SMap.set 0 w.hw.spareIn r (slot + 1) } }
  w.makeWild (spmBase c) (spmBase c + 2 ^ 24)

/-- Disable a physical core (R550): the spare takes its slot where it can. -/
def Work.withdrawPhys (w : Work) (r p : Nat) : Work :=
  let w := w.setFlag (Reg.ERR_ESC_CORE (17 * r + p)) Fld.ERR_ESC_CORE_DISABLED true
  if decide (p < 16) && decide (SMap.get 0 w.hw.spareIn r = 0) && !w.physDisabled r 16 then w.swapSpare r p else w

/-- Disable a region (R551). -/
def Work.withdrawRegion (w : Work) (r : Nat) : Work := w.setFlag (Reg.ERR_ESC_REGION r) Fld.ERR_ESC_REGION_DISABLED true

/-! ### Core self-test (R545–R547) -/

/-- Is a granule of a core held through ALLOC_SPM? -/
def Work.granuleHeld (w : Work) (g n : Nat) : Bool := decide (SMap.get 0 w.hw.granules (256 * g + n) ≠ 0)

/-- Does the presence entry of granule n of core g name a live context? -/
def Work.granuleLive (w : Work) (g n : Nat) : Bool :=
  let e := Reg.SCH_PRES g n
  w.flag e Fld.SCH_PRES_VALID && w.ctxLive (w.fld e Fld.SCH_PRES_OWNER)

/-- The Kiln forces a core into Proof at level 1 (R574, R579): `why` as `Hw.proof` has it. -/
def Work.proofForce (w : Work) (c why : Nat) : Work :=
  let p := Reg.MTX_PROOF_CTRL c
  let w := ((w.setFlag p Fld.MTX_PROOF_CTRL_FORCE true).setFld p Fld.MTX_PROOF_CTRL_LEVEL 1).setFld p Fld.MTX_PROOF_CTRL_FMT
    (w.fld Reg.PWR_PROOF_CFG Fld.PWR_PROOF_CFG_FMT)
  let a := Reg.PWR_RG_CAP (coreRegion c) (coreSlot c)
  let w := (w.setFld a Fld.PWR_RG_CAP_CAP 8).setFlag a Fld.PWR_RG_CAP_FORCED true
  { w with hw := { w.hw with proof := SMap.set 0 w.hw.proof c (max why (SMap.get 0 w.hw.proof c)) } }

/-- A self-test starts on an idle core (R546, R547, R580): it writes patterns into the granules that hold nobody's data. -/
def Work.selfTestStart (w : Work) (c : Nat) : Work :=
  let w := (w.updCore c fun k => { k with test := .running false }).proofForce c 1
  let kept := if coreSlot c < 16 then
      (List.range 256).filter fun n => w.granuleHeld (coreGlobal c) n || w.granuleLive (coreGlobal c) n
    else []
  let w := if kept.isEmpty then w.makeWild (spmBase c) (spmBase c + 2 ^ 24)
    else w.forEach (List.range 256) fun w n =>
      if kept.contains n then w else w.makeWild (spmAt c (65536 * n)) (spmAt c (65536 * n) + 65536)
  w.forEach (List.range 1024) fun w i => if w.r64 (Reg.SYN_OBJ c i) = 0 then w else w.w64 (Reg.SYN_OBJ c i) 0

/-! ### Core resets (R119, R190, R266, R540) -/

/-- The CANCEL that a reset of a waiting sync cell sends for an accepted watch (R264, R266). -/
def Work.cancelWatch (w : Work) (c : Nat) : Work :=
  match ((w.core c).engine 4).running.getLast? with
  | some r =>
    if (w.core c).syn.mode = .accepted then
      let g := synGaddr r.cmd
      let holder := match (directDpa (gCva g)).bind syncWordAt with | some (.obj d _, _) => coreGlobal d | _ => 0
      w.sendWatch c (gNode g) holder (gCva g) (SMap.get 0 w.hw.genCore c) r.ctx .cancel
    else w
  | none => w

/-- Take the context off a core without saving it: CORE_CTX, the scheduler's entry, and the presence entries that name it. -/
def Work.unplace (w : Work) (c : Nat) : Work :=
  let g := coreGlobal c
  match w.placedCtx c with
  | some x =>
    let w := w.forEach (List.range 256) fun w n =>
      let e := Reg.SCH_PRES g n
      if w.flag e Fld.SCH_PRES_VALID && decide (w.fld e Fld.SCH_PRES_OWNER = x) then w.w32 e 0 else w
    let s := Reg.SCH_CORE g
    (((w.w32 (Reg.CORE_CTX c) 0).setFld s Fld.SCH_CORE_CTX 0).setFlag s Fld.SCH_CORE_VALID false).setFlag s Fld.SCH_CORE_PENDING false
  | none => w

/-- Reset the seven cells of a core (R540, R543): the work, the context that lost its state, and the faults of ended operations. A self-test of the
physical core goes on. -/
def Work.resetCells (w : Work) (c : Nat) : Work × Option Nat × List FaultInfo :=
  let w := w.cancelWatch c
  let placed := w.placedCtx c
  let w := w.orphan fun s => decide (s.core? = some c)
  let (w, faults) := if coreSlot c < 16 then w.colLaneReset (coreGlobal c) else (w, [])
  let w := w.unplace c
  let w := w.setCore c { Core.reset with test := (w.core c).test }
  let w := w.resetBlock (coreWindow c) (coreWindow c + 0x50000) (fun a => decide (a = Reg.CORE_ID c))
  ({ w with hw := { w.hw with
      genCore := SMap.set 0 w.hw.genCore c ((SMap.get 0 w.hw.genCore c + 1) % 256)
      seeds := SMap.set Seed.reset w.hw.seeds c Seed.reset
      exiting := SMap.del w.hw.exiting c
      cycleStart := SMap.set 0 w.hw.cycleStart c (w.hw.rootEighths / 8) } }, placed, faults)

/-! ### Handling -/

/-- What handling a fault leaves to do: a fault to handle, a context to abort, a core to reset (naming the context that a record already
names), a region or the chip to reset. -/
inductive Todo where
  | fault (f : FaultInfo)
  | abort (x : Nat)
  | core (c : Nat) (cause : ResetCause) (named : Option Nat)
  | due (n : Nat)
deriving DecidableEq, Repr

/-- The record of a context that loses its state by a reset of core c (R533). -/
def Work.resetLoss (w : Work) (c x level : Nat) : FaultInfo where
  kind := 0x16
  level := level
  lasting := true
  ctx := some x
  die := coreRegion c
  unit := 13
  core := coreGlobal c
  gen := SMap.get 0 w.hw.genCore c
  tag := 0
  addr := none
  detail := 0

/-- Must a reset of core c wait: an orphan of its masters still holds the tag that the reset would advance to (R544)? -/
def Work.tagHeld (w : Work) (c : Nat) : Bool :=
  w.hw.orphans.any fun e => decide (e.2.src.core? = some c) && decide (e.2.gen = (SMap.get 0 w.hw.genCore c + 1) % 256)

/-- Reset a core, and what follows from it (R530, R533, R545, R549); one whose next tag an orphan holds waits (R544). -/
def Work.coreResetStep (w : Work) (c : Nat) (cause : ResetCause) (named : Option Nat) : Work × List Todo :=
  if w.tagHeld c then ({ w with hw := { w.hw with resetsWait := w.hw.resetsWait ++ [⟨c, cause, named⟩] } }, []) else
  let (w, placed, faults) := w.resetCells c
  let loss := match placed with
    | some x => if named = some x then [] else [Todo.fault (w.resetLoss c x 1)]
    | none => []
  let aborts := match placed, cause with
    | some x, .fault => [Todo.abort x]
    | _, _ => []
  let more := faults.map Todo.fault ++ loss ++ aborts
  match cause with
  | .fault =>
    let p := w.physIx c
    let w := w.escAdd p (Reg.ERR_ESC_CORE p) 10
    if w.escCount p 10 < 3 then (w.selfTestStart c, more) else (w.withdrawPhys (coreRegion c) (w.physOf c), more)
  | _ => (w, more)

/-- A context's launch is abandoned, and its gang stops forming (R363, R376, R534). -/
def Work.abandon (w : Work) (x : Nat) : Work :=
  let w := w.setFld (Reg.SCH_CTX_CTRL x) Fld.SCH_CTX_CTRL_STATE 3
  let w := { w with hw := { w.hw with ringEntries := SMap.del w.hw.ringEntries x } }
  let st := Reg.SCH_STATUS
  if w.flag st Fld.SCH_STATUS_FORMING && decide (w.fld st Fld.SCH_STATUS_GANG_CTX = x) then
    (w.forEach (List.range 256) fun w g => w.setFlag (Reg.SCH_CORE g) Fld.SCH_CORE_RESERVED false).setFlag st Fld.SCH_STATUS_FORMING false
  else w

/-- Abort a context (R534): WITHDRAWN, its launch abandoned, its cores reset. Without clocks the scheduler cannot act, and the abort stays
outstanding (R556). -/
def Work.abortStep (w : Work) (x : Nat) : Work × List Todo :=
  if w.ctxState x = 0 then (w, [])
  else if !w.clocked then
    (if x ∈ w.hw.abortsDue then w else { w with hw := { w.hw with abortsDue := w.hw.abortsDue ++ [x] } }, [])
  else
    let w := w.abandon x
    (w, ((List.range 256).filter fun g => decide (w.placedCtx (globalSlot g) = some x)).map fun g =>
      Todo.core (globalSlot g) .abort (some x))

/-- The unit action of a fault kind (R529, R530). -/
def Work.unitAction (w : Work) (f : FaultInfo) : List Todo :=
  let auto := w.flag Reg.ERR_CTRL Fld.ERR_CTRL_AUTO_CHIP
  if !f.lasting then []
  else if f.kind ∈ [0x06, 0x07, 0x08, 0x09, 0x0A, 0x0C] then
    [.core (if f.die < 16 then globalSlot f.core else 0) .fault f.ctx]
  else if f.kind = 0x13 ∨ f.kind = 0x15 then [.due (64 + f.die)]
  else if (f.kind = 0x23 ∨ f.kind = 0x25) ∧ auto then [.due 16]
  else if f.kind = 0x17 ∧ auto ∧ w.regionDisabled f.die then [.due 16]
  else []

/-- Order a reset of a region or of the chip, once. -/
def Work.orderReset (w : Work) (n : Nat) : Work :=
  if w.hw.resetsDue.any fun m => decide (m % 32 = n % 32) then w else { w with hw := { w.hw with resetsDue := w.hw.resetsDue ++ [n] } }

/-- One thing to do. -/
def Work.todo (w : Work) : Todo → Work × List Todo
  | .fault f =>
    let withdraws := w.faultWithdraws f
    let act := w.unitAction f
    ((w.countFault f).record f (withdraws || (f.ctx.isSome && act.any fun t => match t with | .core _ _ _ => true | _ => false)),
      act ++ (match withdraws, f.ctx with | true, some x => [.abort x] | _, _ => []))
  | .abort x => w.abortStep x
  | .core c cause named => w.coreResetStep c cause named
  | .due n => (w.orderReset n, [])

/-- Do what is to do, and what follows from it; `fuel` is more than any chain of resets and aborts on one chip takes. -/
def Work.settle : Nat → List Todo → Work → Work
  | 0, _, w => w
  | _ + 1, [], w => w
  | fuel + 1, t :: ts, w =>
    let r := w.todo t
    Work.settle fuel (r.2 ++ ts) r.1

/-- Steps that suffice: each core is reset once, each of its operations ends once. -/
def settleFuel : Nat := 16384

/-- Report a fault: count it, record it, and carry out the action of its kind (R529, R530). -/
def Work.fault (w : Work) (f : FaultInfo) : Work := w.settle settleFuel [.fault f]

/-- Abort a context (R534). -/
def Work.abortCtx (w : Work) (x : Nat) : Work := w.settle settleFuel [.abort x]

/-- Reset a core (R540). -/
def Work.resetCore (w : Work) (c : Nat) (cause : ResetCause) : Work := w.settle settleFuel [.core c cause none]

/-- A fault found by a cell of core slot `c`, naming the context placed there or the one its command carries (R529). -/
def Work.cellFault (w : Work) (c kind unit tag : Nat) (ctx : Option Nat) (addr : Option (Nat × Bool)) (detail : Nat) : Work :=
  w.fault { kind := kind, level := 1, lasting := true, ctx := ctx, die := coreRegion c, unit := unit, core := coreGlobal c,
            gen := SMap.get 0 w.hw.genCore c, tag := tag, addr := addr, detail := detail }

/-- A transient fault found by a cell of core slot `c` (R527). -/
def Work.cellTransient (w : Work) (c kind unit tag : Nat) (ctx : Option Nat) (stat : Nat) (bit cnt : Fld) (detail : Nat) : Work :=
  w.transient { kind := kind, level := 1, lasting := false, ctx := ctx, die := coreRegion c, unit := unit, core := coreGlobal c,
                gen := SMap.get 0 w.hw.genCore c, tag := tag, addr := none, detail := detail } stat bit cnt

end Sys2Proof.Machine
end

