-- ==== Sys2Proof/Machine/Req.lean ====
section
/-! DEFINITION. Where addresses and dies lie (R20–R24, R37–R40), and the outstanding requests of the masters (R47, R274, R279). -/

namespace Sys2Proof.Machine

/-! ### The panel (R20, R22, R24) -/

/-- The compute die that an edge die faces; a compute die faces itself (R20, R330). -/
def facingRegion (d : Nat) : Nat :=
  if d < 16 then d else [3, 0, 1, 13, 2, 14, 7, 4, 3, 11, 12, 8, 0, 15, 15, 12].getD (d - 16) 0

/-- The side of its compute die that an edge die lies on: 1 north, 2 east, 3 south, 4 west. -/
def edgeSide (d : Nat) : Nat := [2, 4, 1, 3, 1, 3, 2, 4, 1, 2, 3, 4, 1, 3, 2, 4].getD (d - 16) 0

/-- The input of a stacked channel of region r that a request from die d arrives at: 0 the region port, else the side of the Ixmel port at
the end of the row-first path (R24, R275). -/
def arrivalInput (d r : Nat) : Nat :=
  let e := facingRegion d
  if e = r then (if d < 16 then 0 else edgeSide d)
  else if e / 4 < r / 4 then 1 else if r / 4 < e / 4 then 3 else if e % 4 < r % 4 then 4 else 2

/-- What a DPA names (R37). -/
inductive DpaKind where
  | stacked (r : Nat)
  | capacity (p : Nat)
  | scratchpad (c : Nat)
  | csr
  | unbacked
deriving DecidableEq, Repr

/-- What a DPA names by the map alone (R37–R40). -/
def dpaKind (a : Nat) : DpaKind :=
  if a < 0x8000000000 then .stacked (a / 2 ^ 35)
  else if 0x20000000000 ≤ a ∧ a < 0x40000000000 then .capacity ((a - 0x20000000000) / 2 ^ 37)
  else if 0x100000000000 ≤ a ∧ a < 0x100100000000 then .scratchpad (globalSlot ((a - 0x100000000000) / 2 ^ 24))
  else if isCsr a then .csr
  else .unbacked

/-- Is capacity port p marked failed? -/
def Work.capFailed (w : Work) (p : Nat) : Bool := decide (bits (w.fld (Reg.CAP_STATUS (p / 4)) Fld.CAP_STATUS_FAILED) (p % 4) 1 = 1)

/-- Is the memory at offset `a` of capacity port p backed (R39, R310, R327)? -/
def Work.capBacked (w : Work) (p a : Nat) : Bool :=
  decide (SMap.get 0 w.hw.capMode (p / 4) ≠ 0) &&
    decide (a < w.fld (Reg.CAP_PORT_INFO (p / 4) (p % 4)) Fld.CAP_PORT_INFO_USABLE * 2 ^ 29)

/-- What a DPA names now: ranges of disabled regions and of unpopulated or disabled ports are unbacked (R39, R299, R310). -/
def Work.target (w : Work) (a : Nat) : DpaKind :=
  match dpaKind a with
  | .stacked r => if w.regionDisabled r then .unbacked else .stacked r
  | .capacity p =>
    if decide (SMap.get 0 w.hw.capMode (p / 4) ≠ 0) && w.capFailed p then .capacity p
    else if w.capBacked p ((a - 0x20000000000) % 2 ^ 37) then .capacity p else .unbacked
  | k => k

/-! ### Requests -/

/-- A request by its number. -/
def Work.req? (w : Work) (i : Nat) : Option Req := SMap.find? w.hw.reqs i

/-- Store a request. -/
def Work.setReq (w : Work) (i : Nat) (r : Req) : Work := { w with hw := { w.hw with reqs := SMap.put w.hw.reqs i r } }

/-- Remove a request. -/
def Work.dropReq (w : Work) (i : Nat) : Work := { w with hw := { w.hw with reqs := SMap.del w.hw.reqs i } }

/-- Change a request, if it is still outstanding. -/
def Work.updReq (w : Work) (i : Nat) (f : Req → Req) : Work :=
  match w.req? i with
  | some r => w.setReq i (f r)
  | none => w

/-- The die of a request's master. -/
def ReqFrom.die : ReqFrom → Nat
  | .ctl c => coreRegion c
  | .str c _ => coreRegion c
  | .syn c => coreRegion c
  | .host p _ => 28 + p
  | .link d _ _ _ _ _ => 16 + d
  | .unit d _ => d

/-- Place in the turn of R276: by global core number, then CTL, STA, STB, SYN. -/
def ReqFrom.turn : ReqFrom → Nat
  | .ctl c => 8 * coreSlot c
  | .str c s => 8 * coreSlot c + 1 + s
  | .syn c => 8 * coreSlot c + 3
  | .host p _ => 200 + p
  | .link d _ _ _ _ _ => 210 + d
  | .unit d u => 220 + 16 * d + u

/-- Operations of region r's pool in use: the outstanding requests of its own masters and its orphans (R279, R544). -/
def Work.poolUsed (w : Work) (r : Nat) : Nat :=
  (w.hw.reqs.filter fun e => e.2.src.core?.isSome && decide (e.2.src.die = r) && decide (e.2.bad ≠ .timeout)).length +
    (w.hw.orphans.filter fun e => decide (e.2.src.die = r)).length

/-- Refresh MEM_POOL_STAT.HIGH. -/
def Work.poolHigh (w : Work) (r : Nat) : Work :=
  let a := Reg.MEM_POOL_STAT r
  w.setFld a Fld.MEM_POOL_STAT_HIGH (max (w.fld a Fld.MEM_POOL_STAT_HIGH) (w.poolUsed r))

/-- Add a request, and its number. -/
def Work.addReq (w : Work) (q : Req) : Nat × Work :=
  let n := w.hw.nextReq
  let w := { w with hw := { w.hw with nextReq := n + 1, reqs := SMap.put w.hw.reqs n q } }
  (n, match q.src.core? with | some c => w.poolHigh (coreRegion c) | none => w)

/-- A request as a master makes it, before translation. -/
def Req.make (src : ReqFrom) (op : ReqOp) (ctx : Option Nat) (node addr now tag gen : Nat) : Req where
  src := src
  op := op
  ctx := ctx
  node := node
  addr := addr
  isDpa := false
  dpa := 0
  stage := .translate
  at_ := now
  tag := tag
  rep := 0
  off := 0
  gen := gen
  data := []
  value := 0
  bad := .ok

/-- Is a request a write? -/
def ReqOp.isWrite : ReqOp → Bool
  | .write _ => true
  | .read _ => false
  | .sync k _ _ => match k with | .atomic _ => true | _ => false

/-- Bytes a request covers. -/
def ReqOp.len : ReqOp → Nat
  | .read n => n
  | .write d => d.length
  | .sync _ _ _ => 8

/-- PGE_FAULT_INFO.MASTER of a request (R359). -/
def ReqFrom.pgeMaster : ReqFrom → Nat
  | .ctl _ => 0 | .str _ s => 1 + s | .syn _ => 3 | .link _ _ _ _ _ _ => 4 | .host _ _ => 5
  | .unit _ u => if u = 13 then 9 else if u = 8 then 10 else if u = 16 then 7 else 4

/-- STATUS of a RESP or ACK (R439). -/
def ReqBad.status : ReqBad → Nat
  | .ok => 0 | .poison _ => 1 | .xlate kind _ => 2 + min kind 2 | .nopath => 5 | .timeout => 5 | .nonsync => 0

/-- What a STATUS says to the requester; FENCED ends a request as NOPATH does (R255, R464). -/
def badOfStatus (s : Nat) : ReqBad :=
  match s with
  | 0 => .ok | 1 => .poison 0 | 2 => .xlate 0 0 | 3 => .xlate 1 0 | 4 => .xlate 2 0 | _ => .nopath

/-- The RESP or ACK to a request of another chip, sent by the link die that received it (R438). -/
def Work.answerRemote (w : Work) (q : Req) (die node tag vc core master : Nat) (bad : ReqBad) : Work :=
  let ptype := match q.op with | .read _ => 1 | .write _ => 2 | .sync _ _ _ => 3
  let req : Pkt := { Pkt.blank ptype vc w.selfNode node with gen := q.gen, ctx := q.ctx, core := core, master := master, tag := tag }
  let data := match q.op with
    | .read n => if bad = .ok then (List.range n).map (fun i => SMap.get 0 q.data i) else []
    | .write _ => []
    | .sync _ _ _ => if bad.status = 0 then leBytes 8 q.value.toNat else []
  w.injectAnswer (16 + die) req bad.status data

/-- The completion of a host's read (R618, R620): EP marks a poisoned response, Completer Abort a request that timed out. A write is posted. -/
def Work.answerHost (w : Work) (q : Req) (port tag : Nat) (bad : ReqBad) : Work :=
  match q.op with
  | .read n =>
    let data := if bad = .timeout then [] else (List.range n).map fun i => SMap.get 0 q.data i
    let poisoned := match bad with | .poison _ => true | _ => false
    { (w.bumpErr (Reg.HUB_TX_BYTES port) data.length) with
      hw := { w.hw with completions := SMap.put w.hw.completions (1024 * port + tag % 1024) ⟨decide (bad = .timeout), poisoned, data⟩ } }
  | _ => w

/-- Answer a request: a request of another chip by a packet, a host's by a completion, a unit's own sync write by forgetting it. -/
def Work.answer (w : Work) (i : Nat) (bad : ReqBad) : Work :=
  match w.req? i with
  | some q =>
    let bad := if q.bad = .ok then bad else q.bad
    match q.src with
    | .unit _ u => if u = 16 then w.setReq i { q with stage := .replied, bad := bad } else w.dropReq i
    | .host port tag => (w.dropReq i).answerHost q port tag bad
    | .link die node tag vc core master => (w.dropReq i).answerRemote q die node tag vc core master bad
    | _ => w.setReq i { q with stage := .replied, bad := bad }
  | none => w

/-- The packet of a request to another chip (R437, R474): the channel of its master, its number as the tag. -/
def Work.reqPkt (w : Work) (i : Nat) (q : Req) : Pkt :=
  let sync := match q.op with | .sync _ _ _ => true | _ => false
  let vc := if sync then 1 else match q.src with | .unit _ _ => 6 | _ => 4
  let ptype := match q.op with | .read _ => 1 | .write _ => 2 | .sync _ _ _ => 3
  let op := match q.op with | .sync (.atomic k) _ _ => k | _ => 0
  { Pkt.blank ptype vc q.node w.selfNode with
    gen := q.gen, ctx := q.ctx, core := match q.src.core? with | some c => coreGlobal c | none => 0
    master := q.src.pgeMaster, tag := i % 65536, w4 := q.addr % 2 ^ 32, w5 := bits q.addr 32 16 + op * 2 ^ 16
    w6 := match q.op with | .read n => n | _ => 0
    data := match q.op with
      | .read _ => []
      | .write d => d.map fun b => b.getD 0
      | .sync _ o p => leBytes 8 o.toNat ++ leBytes 8 p.toNat }

/-- Hand a request for another chip to the routing unit; one that cannot be sent on is answered at once (R464). -/
def Work.launch (w : Work) (i : Nat) : Work :=
  match w.req? i with
  | some q =>
    let r := (w.setReq i { q with stage := .remote true }).place none q.src.die (w.reqPkt i q)
    match r.2 with
    | .refused s => r.1.answer i (badOfStatus s)
    | _ => r.1
  | none => w

/-- A byte of read data. -/
def Req.byte (q : Req) (i : Nat) : Byte := SMap.get 0 q.data i

/-- The little-endian number of the first `n` bytes read. -/
def Req.number (q : Req) (n : Nat) : Nat := leNat ((List.range n).map q.byte)

/-- The level of a fault found by a master: cells belong to the block level, link and host units to the chip level. -/
def ReqFrom.level : ReqFrom → Nat
  | .ctl _ => 1 | .str _ _ => 1 | .syn _ => 1 | _ => 3

/-- UNIT code of a master (R557). -/
def ReqFrom.unitCode : ReqFrom → Nat
  | .ctl _ => 0 | .str _ s => 3 + s | .syn _ => 5 | .host _ _ => 12 | .link _ _ _ _ _ _ => 9 | .unit _ u => u

/-- A lasting fault of a request, as its master records it (R529, R532). -/
def Work.reqFault (w : Work) (q : Req) (kind detail : Nat) : Work :=
  w.fault { kind := kind, level := q.src.level, lasting := true, ctx := q.ctx, die := q.src.die, unit := q.src.unitCode,
            core := match q.src.core? with | some c => coreGlobal c | none => 0, gen := q.gen, tag := q.tag,
            addr := some (if q.isDpa then (q.dpa, false) else (q.addr % 2 ^ 48, true)), detail := detail }

/-- The fault kind of a failed request. -/
def ReqBad.kind : ReqBad → Nat
  | .ok => 0 | .xlate _ _ => 0x02 | .poison _ => 0x03 | .nopath => 0x04 | .timeout => 0x05 | .nonsync => 0x0B

end Sys2Proof.Machine
end

