-- ==== Sys2Proof/Machine/Chan.lean ====
section
/-! DEFINITION. The memory channels (R272–R299, R311–R323): placement of an address, admission, the reorder queue, one access with its check
bits. A stacked channel is 64 × region + channel; channel c of capacity port p is 1024 + 8 p + c. -/

namespace Sys2Proof.Machine

/-- Is a channel number one of a capacity port? -/
def chIsCap (ch : Nat) : Bool := decide (1024 ≤ ch)
/-- Region of a stacked channel. -/
def chRegion (ch : Nat) : Nat := ch / 64
/-- Port of a capacity channel. -/
def chPort (ch : Nat) : Nat := (ch - 1024) / 8
/-- Capacity-port die of a capacity channel. -/
def chDie (ch : Nat) : Nat := chPort ch / 4

/-- The organisation in force on a capacity-port die: TYPE, and whether check bits are stored inline (R306, R312, R327). -/
def Work.capType (w : Work) (d : Nat) : Nat := (SMap.get 0 w.hw.capMode d - 1) % 4
def Work.capInline (w : Work) (d : Nat) : Bool := decide (w.capType d ≠ 2) && decide ((SMap.get 0 w.hw.capMode d - 1) / 4 % 2 = 1)

/-- Does a channel keep check bits (R312, R313)? -/
def Work.chHasEcc (w : Work) (ch : Nat) : Bool := !chIsCap ch || decide (w.capType (chDie ch) = 2) || w.capInline (chDie ch)

/-- Region and channel, or port and channel, of a backed memory DPA (R273, R311). -/
def Work.chanOf (w : Work) (a : Nat) : Nat :=
  match dpaKind a with
  | .stacked r => 64 * r + (bits a 8 6 ^^^ bits a 22 6)
  | .capacity p => 1024 + 8 * p + (if w.capType (p / 4) = 2 then 0 else bits a 6 3)
  | _ => 0

/-- Bank and row of an address at its channel (R273, R311). -/
def Work.bankRow (w : Work) (a : Nat) : Nat × Nat :=
  match dpaKind a with
  | .capacity p =>
    let o := (a - 0x20000000000) % 2 ^ 37
    let b := if w.capType (p / 4) = 2 then o else 64 * (o / 512) + o % 64
    (bits b 11 4 ^^^ bits b 15 4, b / 32768)
  | _ =>
    let o := a % 2 ^ 35
    ((bits o 14 3 ^^^ bits o 28 3) * 4 + bits o 17 2, o / 2 ^ 22)

/-- The region offset of a burst, by channel and by its place in ascending row, bank and column (R273, R297). -/
def scrubOffset (c n : Nat) : Nat :=
  let row := n / 1024
  let bank := n / 32 % 32
  let col := n % 32
  row * 2 ^ 22 + col / 4 * 2 ^ 19 + bank % 4 * 2 ^ 17 + (bank / 4 ^^^ bits row 6 3) * 2 ^ 14 + (c ^^^ bits row 0 6) * 2 ^ 8 + col % 4 * 64

/-! ### Channel registers -/

def chSched (ch : Nat) : Nat := if chIsCap ch then Reg.CAP_SCHED_CFG (chDie ch) else Reg.MEM_SCHED_CFG (chRegion ch)
def chErrStat (ch : Nat) : Nat := if chIsCap ch then Reg.CAP_ERR_STAT (chDie ch) else Reg.MEM_ERR_STAT (chRegion ch)
def Work.ageLimit (w : Work) (ch : Nat) : Nat := w.fld (chSched ch) Fld.MEM_SCHED_CFG_AGE_LIMIT
def Work.wrHigh (w : Work) (ch : Nat) : Nat := w.fld (chSched ch) Fld.MEM_SCHED_CFG_WR_HIGH
def Work.wrLow (w : Work) (ch : Nat) : Nat := w.fld (chSched ch) Fld.MEM_SCHED_CFG_WR_LOW
def Work.hotLimit (w : Work) (ch : Nat) : Nat := w.fld (chSched ch) Fld.MEM_SCHED_CFG_HOT_LIMIT

/-- Entries of a channel's reorder queue (R272, R314). -/
def Work.chDepth (w : Work) (ch : Nat) : Nat := if chIsCap ch && decide (w.capType (chDie ch) ≠ 2) then 32 else 64

/-- The channel's clock: MEMIF cycles, which count as CORE cycles do, or CAPCLK cycles of 50 MHz × RATE (R306; log entry 5). -/
def Work.chNow (w : Work) (ch : Nat) : Nat :=
  if chIsCap ch then w.hw.uptime * ((SMap.get 0 w.hw.capMode (chDie ch) - 1) / 8) / 4 else w.hw.rootEighths / 8

/-- Is a channel, or the port it belongs to, marked failed (R298, R323)? -/
def Work.chFailed (w : Work) (ch : Nat) : Bool :=
  if chIsCap ch then w.capFailed (chPort ch) else decide (bits (w.r64 (Reg.MEM_CH_FAIL (chRegion ch))).toNat (ch % 64) 1 = 1)

/-- Is a channel under self-test (R300)? -/
def Work.chTesting (w : Work) (ch : Nat) : Bool :=
  !chIsCap ch && decide (0 < SMap.get 0 w.hw.bistRun (chRegion ch)) &&
    decide (w.fld (Reg.MEM_BIST_STAT (chRegion ch)) Fld.MEM_BIST_STAT_CHAN = ch % 64)

/-- Does a channel serve: a stacked channel once its stack is trained, a capacity channel once its port is (R303, R324)? -/
def Work.chServes (w : Work) (ch : Nat) : Bool :=
  !w.chTesting ch && decide (w.fld Reg.CLK_STATUS Fld.CLK_STATUS_DOM_SRC = 0) &&
    (if chIsCap ch then w.chFailed ch || decide (bits (w.fld (Reg.CAP_STATUS (chDie ch)) Fld.CAP_STATUS_TRAINED) (chPort ch % 4) 1 = 1)
     else w.flag (Reg.MEM_STATUS (chRegion ch)) Fld.MEM_STATUS_TRAINED)

/-- A channel's state. -/
def Work.chan (w : Work) (ch : Nat) : Chan := SMap.get Chan.reset w.hw.chans ch

/-- Change a channel's state. -/
def Work.updChan (w : Work) (ch : Nat) (f : Chan → Chan) : Work :=
  { w with hw := { w.hw with chans := SMap.set Chan.reset w.hw.chans ch (f (w.chan ch)) } }

/-! ### Accesses -/

/-- First and last crumb of an access. -/
def Access.crumbs (a : Access) : Nat × Nat := (a.lo / 32, (a.lo + a.len - 1) / 32)

/-- Do two accesses touch a crumb in common? -/
def Access.meets (a b : Access) : Bool := decide (a.crumbs.1 ≤ b.crumbs.2) && decide (b.crumbs.1 ≤ a.crumbs.2)

/-- Does an access cover every byte of the crumbs it touches, each byte enabled? -/
def Access.wholeCrumbs (a : Access) : Bool :=
  decide (a.lo % 32 = 0) && decide ((a.lo + a.len) % 32 = 0) && (match a.wr with | some d => d.all Option.isSome | none => true)

/-- Does a queue hold `limit` entries for a crumb that an access touches (R289)? -/
def Access.hot (a : Access) (q : List Access) (limit : Nat) : Bool :=
  (List.range (a.crumbs.2 + 1 - a.crumbs.1)).any fun i =>
    let k := a.crumbs.1 + i
    decide (limit ≤ (q.filter fun x => decide (x.crumbs.1 ≤ k) && decide (k ≤ x.crumbs.2)).length)

/-- Note that one access of a request has completed (R274). -/
def Work.accessDone (w : Work) (a : Access) (bad : ReqBad) : Work :=
  match a.req with
  | none => w
  | some i =>
    match w.req? i with
    | none => w
    | some q =>
      let q := { q with bad := if q.bad = ReqBad.ok then bad else q.bad }
      match q.stage with
      | .memory (n + 1) => if n = 0 then (w.setReq i q).answer i .ok else w.setReq i { q with stage := .memory n }
      | _ => w

/-- Put the bytes an access read into its request. -/
def Work.accessData (w : Work) (a : Access) (bytes : List Byte) : Work :=
  match a.req with
  | none => w
  | some i => w.updReq i fun q =>
    { q with data := (bytes.foldl (fun (st : SMap Byte × Nat) b => (SMap.set 0 st.1 st.2 b, st.2 + 1)) (q.data, a.off)).1 }

/-- Does a crumb hold a poison codeword (R295)? -/
def Work.poisoned (w : Work) (crumb : Nat) : Bool := SMap.get false w.hw.poison crumb

/-- Write a poison codeword to a crumb, or clear it. -/
def Work.setPoison (w : Work) (crumb : Nat) (b : Bool) : Work :=
  { w with hw := { w.hw with poison := SMap.set false w.hw.poison crumb b } }

/-- The paging unit that a channel's findings go to (R321, R356). -/
def chPagingRegion (ch : Nat) : Nat := if chIsCap ch then facingRegion (24 + chDie ch) else chRegion ch

/-- Report an uncorrectable burst to the paging unit (R295, R297, R356). -/
def Work.reportUe (w : Work) (ch dpa : Nat) (c0 c1 scrub : Bool) : Work :=
  let r := chPagingRegion ch
  { w with hw := { w.hw with ueReports := SMap.set [] w.hw.ueReports r (SMap.get [] w.hw.ueReports r ++ [⟨dpa / 64 * 64, c0, c1, scrub⟩]) } }

/-- Record the last error of a channel in its INFO and ADDR registers (R305, R328). KIND 0 uncorrectable read, 1 poisoned read, 2 command
parity or port, 3 self-test or training, 4 poison write. -/
def Work.chErrInfo (w : Work) (ch kind dpa : Nat) (ctx : Option Nat) : Work :=
  let c := ctx.getD 0 * 2 ^ 16 + (if ctx.isSome then 1 else 0) * 2 ^ 26
  if chIsCap ch then
    let v := chPort ch % 4 + kind * 4 + ch % 8 * 32 + c
    (w.w32 (Reg.CAP_ERR_INFO (chDie ch)) (BitVec.ofNat 32 v)).w64 (Reg.CAP_ERR_ADDR (chDie ch)) (BitVec.ofNat 64 (dpa / 32 * 32))
  else
    let v := ch % 64 + kind * 2 ^ 8 + (w.bankRow dpa).1 * 2 ^ 11 + c
    (w.w32 (Reg.MEM_ERR_INFO (chRegion ch)) (BitVec.ofNat 32 v)).w64 (Reg.MEM_ERR_ADDR (chRegion ch)) (BitVec.ofNat 64 (dpa / 32 * 32))

/-- Count a transient error of a channel, on its unit and its die (R527). -/
def Work.chTransientCount (w : Work) (ch : Nat) : Work :=
  let die := if chIsCap ch then 24 + chDie ch else chRegion ch
  w.transientCount { kind := if chIsCap ch then 0x18 else 0x10, level := if chIsCap ch then 3 else 2, lasting := false, ctx := none,
                     die := die, unit := if chIsCap ch then 11 else 7, core := 0, gen := 0, tag := 0, addr := none,
                     detail := if chIsCap ch then chPort ch else ch % 64 }
    (chErrStat ch) Fld.MEM_ERR_STAT_TRANSIENT_CNT

/-- A transient error of a channel: its status bit and the counts (R527). -/
def Work.chTransient (w : Work) (ch : Nat) (bit : Fld) : Work := (w.setFlag (chErrStat ch) bit true).chTransientCount ch

/-- Mark a stacked channel failed and report it to the region level (R298, R302). -/
def Work.failChannel (w : Work) (ch : Nat) : Work :=
  let a := Reg.MEM_CH_FAIL (chRegion ch)
  let w := w.w64 a (w.r64 a ||| (1#64 <<< (ch % 64)))
  w.fault { kind := 0x10, level := 2, lasting := true, ctx := none, die := chRegion ch, unit := 7, core := 0, gen := 0, tag := 0,
            addr := none, detail := ch % 64 }

/-- Count a channel's bytes, crumbs moved and activates, and keep its open rows (R284, R305, R328). -/
def Work.chanCount (w : Work) (ch : Nat) (a : Access) (crumbActivate : Bool) : Work :=
  let n := if a.req.isSome then a.len else 0
  let moved := a.crumbs.2 + 1 - a.crumbs.1
  let (bank, row) := w.bankRow a.lo
  let opens := decide (SMap.get 0 (w.chan ch).rows bank ≠ row + 1)
  let turns := decide ((w.chan ch).wrote ≠ a.wr.isSome)
  let w := w.updChan ch fun k =>
    { k with rows := SMap.set 0 k.rows bank (if crumbActivate && opens then 0 else row + 1), wrote := a.wr.isSome }
  if chIsCap ch then
    let d := chDie ch
    let q := chPort ch % 4
    let w := w.bump (if a.wr.isSome then Reg.CAP_P_WR d q else Reg.CAP_P_RD d q) n
    w.bump (Reg.CAP_P_BUSY d q) 4
  else
    let r := chRegion ch
    let c := ch % 64
    let w := w.bump (if a.wr.isSome then Reg.MEM_CH_WR r c else Reg.MEM_CH_RD r c) n
    let w := w.bump (Reg.MEM_CH_BUSY r c) moved
    let w := w.bump (Reg.MEM_CH_ACT r c) (if opens then 1 else 0)
    w.bump (Reg.MEM_CH_TURN r c) (if turns then w.fld (Reg.MEM_TIMING_1 r) (if a.wr.isSome then Fld.MEM_TIMING_1_TRTW else Fld.MEM_TIMING_1_TWTR) else 0)

/-- Write the enabled bytes of an access. -/
def Work.putBytes (w : Work) (lo : Nat) : List (Option Byte) → Work
  | [] => w
  | some v :: l => (w.wrB lo v).putBytes (lo + 1) l
  | none :: l => w.putBytes (lo + 1) l

/-- The crumbs of an access. -/
def Access.crumbList (a : Access) : List Nat := (List.range (a.crumbs.2 + 1 - a.crumbs.1)).map (a.crumbs.1 + ·)

/-- The enabled bytes that an access writes into crumb k, with their addresses; does it write the whole crumb? -/
def Access.wholeCrumb (a : Access) (k : Nat) : Bool :=
  match a.wr with
  | some d => (List.range 32).all fun i =>
    decide (a.lo ≤ 32 * k + i) && (match d[32 * k + i - a.lo]? with | some (some _) => true | _ => false)
  | none => false

/-- The bytes of a write that fall in crumb k. -/
def Access.crumbBytes (a : Access) (k : Nat) : List (Nat × Byte) :=
  match a.wr with
  | some d => (List.range d.length).filterMap fun i =>
    match d[i]? with
    | some (some v) => if (a.lo + i) / 32 = k then some (a.lo + i, v) else none
    | _ => none
  | none => []

/-- Handle a crumb whose second read also failed: poison codeword, status, report (R283, R295). -/
def Work.lastingUe (w : Work) (ch crumb : Nat) (ctx : Option Nat) : Work :=
  let w := w.setFlag (chErrStat ch) Fld.MEM_ERR_STAT_UE_LASTING true
  let w := (w.setPoison crumb true).chErrInfo ch 0 (32 * crumb) ctx
  w.reportUe ch (32 * crumb) (decide (crumb % 2 = 0)) (decide (crumb % 2 = 1)) false

/-- The effect of an error event on a read of crumb k: the work, and whether the data is good (R294, R295, R297). A scrub read makes no
second read of its own (R356). -/
def Work.readCheck (w : Work) (ch k : Nat) (a : Access) (ecc : EccEvent) : Work × Bool :=
  let scrub := a.req.isNone
  match ecc with
  | .corrected =>
    let w := w.setFlag (chErrStat ch) Fld.MEM_ERR_STAT_CE true
    let w := w.satAdd (if chIsCap ch then Reg.CAP_P_CE (chDie ch) (chPort ch % 4) else Reg.MEM_CH_CE (chRegion ch) (ch % 64)) word32 1
    (w, true)
  | .transient =>
    if scrub then (w.reportUe ch (32 * k) (decide (k % 2 = 0)) (decide (k % 2 = 1)) true, true)
    else (w.chTransient ch Fld.MEM_ERR_STAT_UE_TRANSIENT, true)
  | .lasting =>
    if scrub then (w.reportUe ch (32 * k) (decide (k % 2 = 0)) (decide (k % 2 = 1)) true, false) else (w.lastingUe ch k a.ctx, false)
  | _ => (w, true)

/-- Did the packet of an access carry POISON (R437)? -/
def Work.writesPoison (w : Work) (a : Access) : Bool := match a.req with | some i => w.hw.poisonWrites.contains i | none => false

/-- Perform the write of crumb k (R283, R296, R316, R437): whether the master's answer is good. -/
def Work.writeCrumb (w : Work) (ch k : Nat) (a : Access) (ecc : EccEvent) : Work × Bool :=
  let put (w : Work) : Work := (a.crumbBytes k).foldl (fun w e => w.wrB e.1 e.2) w
  if w.writesPoison a && w.chHasEcc ch && !(a.crumbBytes k).isEmpty then (w.setPoison k true, true)
  else if a.wholeCrumb k then (put (w.setPoison k false), true)
  else if (a.crumbBytes k).isEmpty then (w, true)
  else if !w.chHasEcc ch then (put w, true)
  else if w.poisoned k then
    ((w.setFlag (chErrStat ch) Fld.MEM_ERR_STAT_POISON_WRITE true).chErrInfo ch 4 (32 * k) a.ctx, true)
  else
    let (w, good) := w.readCheck ch k a ecc
    if good then (put w, true) else (w.setFlag (chErrStat ch) Fld.MEM_ERR_STAT_POISON_WRITE true, false)

/-- A read returns its bytes, poisoned where crumbs `bad` are: their data is undefined, free bytes (R296, R618; log entry 3). -/
def Work.accessRead (w : Work) (a : Access) (bad : List Nat) : Work :=
  match bad with
  | [] => (w.accessData a (w.rdBytes a.lo a.len)).accessDone a .ok
  | k :: _ =>
    let (d, w) := w.draw
    let byte (x : Nat) : Byte := if bad.contains (x / 32) then Config.freeByte d x else w.rdB x
    (w.accessData a ((List.range a.len).map fun j => byte (a.lo + j))).accessDone a (.poison (32 * k))

/-- Perform one access on the DRAM (R283, R294–R299). `ecc` is what the check bits of crumb `which` show. -/
def Work.performDram (w : Work) (ch : Nat) (a : Access) (which : Nat) (ecc : EccEvent) : Work :=
  let w := w.chanCount ch a (!chIsCap ch && w.flag (Reg.MEM_CTRL (chRegion ch)) Fld.MEM_CTRL_CRUMB_ACT && decide (a.crumbs.1 = a.crumbs.2))
  let event (k : Nat) : EccEvent :=
    if w.chHasEcc ch && decide (k % 2 = which) then ecc else .clean
  match a.wr with
  | some _ =>
    let (w, good) := a.crumbList.foldl (fun (st : Work × Bool) k =>
      let r := st.1.writeCrumb ch k a (event k)
      (r.1, st.2 && r.2)) (w, true)
    if a.wholeCrumbs then w else w.accessDone a (if good then .ok else .poison a.lo)
  | none =>
    let (w, bad) := a.crumbList.foldl (fun (st : Work × List Nat) k =>
      let w := st.1
      if w.poisoned k then
        (if a.req.isSome then w.chErrInfo ch 1 (32 * k) a.ctx else w, st.2 ++ [k])
      else
        let r := w.readCheck ch k a (event k)
        (r.1, if r.2 then st.2 else st.2 ++ [k])) (w, [])
    w.accessRead a bad

/-- Complete an access at a failed channel or port: a read is poisoned, a write discarded, and the error names the context (R299, R323). -/
def Work.performFailed (w : Work) (a : Access) : Work :=
  if a.wr.isNone then w.accessRead a a.crumbList
  else if a.wholeCrumbs then w else w.accessDone a (.poison a.lo)

/-- Perform one access, command parity first (R298). -/
def Work.performAccess (w : Work) (ch : Nat) (a : Access) (which : Nat) (ecc : EccEvent) : Work :=
  if w.chFailed ch then w.performFailed a
  else if chIsCap ch then w.performDram ch a which ecc
  else match ecc with
    | .cmdTransient => (w.chTransient ch Fld.MEM_ERR_STAT_CMD_TRANSIENT).performDram ch a which .clean
    | .cmdLasting =>
      let w := (w.setFlag (chErrStat ch) Fld.MEM_ERR_STAT_CMD_LASTING true).chErrInfo ch 2 a.lo a.ctx
      (w.failChannel ch).performFailed a
    | e => w.performDram ch a which e

/-! ### The reorder queue (R280–R283) -/

/-- Entries that no earlier entry of the same crumb holds back (R281), with their places. -/
def Chan.ready (k : Chan) : List (Nat × Access) :=
  (k.queue.zipIdx).filterMap fun p =>
    if (k.queue.take p.2).any (fun x => x.meets p.1) then none else some (p.2, p.1)

/-- The write batch after the tests of R282. -/
def Chan.batchNow (k : Chan) (high low : Nat) (urgentRead : Bool) : Bool :=
  let writes := (k.queue.filter fun a => a.wr.isSome).length
  let reads := k.queue.length - writes
  let b := k.batch && decide (low < writes) && !urgentRead
  b || ((decide (high ≤ writes) || (decide (0 < writes) && decide (reads = 0))) && !urgentRead)

/-- Is an access to an open row? -/
def Work.rowOpen (w : Work) (ch : Nat) (a : Access) : Bool :=
  let p := w.bankRow a.lo
  decide (SMap.get 0 (w.chan ch).rows p.1 = p.2 + 1)

/-- The place in the queue of the access performed next, and the batch state (R280, R282, R297). -/
def Work.nextAccess (w : Work) (ch : Nat) : Option Nat × Bool :=
  let k := w.chan ch
  let now := w.chNow ch
  let urgent (a : Access) : Bool := decide (w.ageLimit ch ≤ now - a.at_)
  let rs := k.ready
  let urgentRead := rs.any fun p => urgent p.2 && p.2.wr.isNone && p.2.req.isSome
  let batch := k.batchNow (w.wrHigh ch) (w.wrLow ch) urgentRead
  let pick (l : List (Nat × Access)) : Option Nat := (l.head?).map Prod.fst
  let mine := rs.filter fun p => decide (p.2.wr.isSome = batch) && p.2.req.isSome
  let other := rs.filter fun p => p.2.req.isSome
  let choice := (pick (rs.filter fun p => urgent p.2)).or <|
    (pick (mine.filter fun p => w.rowOpen ch p.2)).or <| (pick mine).or <| (pick other).or (pick rs)
  (choice, batch)

/-- Perform the next access of a channel. -/
def Work.serveChannel (w : Work) (ch which : Nat) (ecc : EccEvent) : Work :=
  match w.nextAccess ch with
  | (none, _) => w
  | (some i, batch) =>
    match (w.chan ch).queue[i]? with
    | none => w
    | some a => (w.updChan ch fun k => { k with queue := k.queue.eraseIdx i, batch := batch }).performAccess ch a which ecc

/-! ### Admission (R275–R278, R281, R289) -/

/-- Active sources of an input: the distinct masters with a request waiting there, at most 255 (R275; log entry 12). -/
def Chan.asc (k : Chan) (input : Nat) : Nat :=
  min 255 ((k.waiting.filter fun a => decide (a.input = input)).map (fun a => a.master)).dedup.length

/-- The waiting access that the arbiter admits from an input: at the region port by turn of master, elsewhere the oldest; an access to a hot
crumb is passed over (R276, R289). -/
def Chan.candidate (k : Chan) (input limit : Nat) : Option (Nat × Access) :=
  let l := (k.waiting.zipIdx.map fun p => (p.2, p.1)).filter fun p => decide (p.2.input = input) && !p.2.hot k.queue limit
  if input = 0 then
    let m := l.foldl (fun (best : Option Nat) p =>
      let d := (p.2.master + 1024 - k.arb.master - 1) % 1024
      match best with
      | some b => if d < b then some d else best
      | none => some d) none
    l.find? fun p => decide (some ((p.2.master + 1024 - k.arb.master - 1) % 1024) = m)
  else l.head?

/-- The input served next, by deficit round-robin weighted by ASC, and what is left of its turn after one admission (R276). -/
def Chan.arbitrate (k : Chan) (limit : Nat) : Option (Nat × Nat) :=
  if 0 < k.arb.left ∧ (k.candidate k.arb.input limit).isSome then some (k.arb.input, k.arb.left - 1)
  else
    let order := (List.range 32).map fun i => (k.arb.input + 1 + i) % 32
    match order.find? fun i => (k.candidate i limit).isSome with
    | some i => some (i, k.asc i - 1)
    | none => none

/-- Bytes that a read can take whole from queued writes: for each crumb the last entry that touches it writes all of it (R281). -/
def Chan.forwards (k : Chan) (a : Access) : Bool :=
  a.wr.isNone && a.req.isSome && a.crumbList.all fun c =>
    match (k.queue.filter fun x => decide (x.crumbs.1 ≤ c) && decide (c ≤ x.crumbs.2)).getLast? with
    | some x => x.wholeCrumb c
    | none => false

/-- The byte that the last queued write to an address carries. -/
def Chan.forwardByte (k : Chan) (addr : Nat) : Byte :=
  (k.queue.foldl (fun (v : Byte) x =>
    match x.wr with
    | some d => if x.lo ≤ addr then (match d[addr - x.lo]? with | some (some b) => b | _ => v) else v
    | none => v) 0)

/-- Admit one access: it enters the reorder queue, a whole write is accepted and so complete, a read that queued writes cover returns
(R278, R281). -/
def Work.takeAccess (w : Work) (ch i : Nat) (a : Access) (input left : Nat) : Work :=
  let w := w.updChan ch fun k =>
    { k with waiting := k.waiting.eraseIdx i, arb := ⟨input, left, if input = 0 then a.master else k.arb.master⟩ }
  let k := w.chan ch
  if k.forwards a && !(k.queue.any fun x => w.writesPoison x && x.meets a) then
    (w.accessData a ((List.range a.len).map fun j => k.forwardByte (a.lo + j))).accessDone a .ok
  else
    let w := w.updChan ch fun k => { k with queue := k.queue ++ [{ a with at_ := w.chNow ch }] }
    if a.wr.isSome && a.wholeCrumbs then
      w.accessDone a (if w.chFailed ch then .poison a.lo else .ok)
    else w

/-- The admission arbiter admits one request when the queue has a free entry (R276, R278). -/
def Work.admitOne (w : Work) (ch : Nat) : Work :=
  let k := w.chan ch
  if decide (w.chDepth ch ≤ k.queue.length) then w
  else match k.arbitrate (w.hotLimit ch) with
    | none => w
    | some (input, left) =>
      match k.candidate input (w.hotLimit ch) with
      | some (i, a) => w.takeAccess ch i a input left
      | none => w

/-- Split a request at DPA `a` into one access for each burst, and hand each to its channel (R274, R314). -/
def Work.toChannels (w : Work) (i : Nat) (q : Req) (a input : Nat) : Work :=
  let n := q.op.len
  let bursts := if n = 0 then 0 else (a + n - 1) / 64 + 1 - a / 64
  let w := w.setReq i { q with dpa := a, stage := if bursts = 0 then .replied else .memory bursts }
  w.forEach (List.range bursts) fun w j =>
    let lo := max a ((a / 64 + j) * 64)
    let hi := min (a + n) ((a / 64 + j + 1) * 64)
    let wr := match q.op with | .write d => some ((d.drop (lo - a)).take (hi - lo)) | _ => none
    let x : Access := ⟨some i, lo, hi - lo, lo - a, wr, q.ctx, q.src.turn, input, 0⟩
    w.updChan (w.chanOf lo) fun k => { k with waiting := k.waiting ++ [x] }

/-! ### Accesses of units inside the chip (log entry 12) -/

/-- Perform the queued accesses of a channel, oldest first, up to the last one that touches `[lo, hi)`. -/
def Work.drainChannel (w : Work) (ch lo hi : Nat) : Work :=
  let probe : Access := ⟨none, lo, hi - lo, 0, none, none, 0, 0, 0⟩
  let q := (w.chan ch).queue
  match (q.zipIdx.filter fun p => p.1.meets probe).getLast? with
  | none => w
  | some p =>
    let w := w.updChan ch fun k => { k with queue := k.queue.drop (p.2 + 1) }
    w.forEach (q.take (p.2 + 1)) fun w a => w.performAccess ch a 0 .clean

/-- Before a unit inside the chip reads or writes memory, the accesses queued before it to the same crumbs are performed (R48). -/
def Work.drain (w : Work) (lo n : Nat) : Work :=
  match dpaKind lo with
  | .scratchpad _ => w
  | .csr => w
  | .unbacked => w
  | _ => w.forEach ((List.range ((lo + n + 63) / 64 - lo / 64)).map fun j => (lo / 64 + j) * 64) fun w b =>
      w.drainChannel (w.chanOf b) (max lo b) (min (lo + n) (b + 64))

/-- A read of memory by a unit inside the chip: zeros where nothing is backed; none where a crumb is poisoned or the channel failed. -/
def Work.unitRead (w : Work) (a n : Nat) : Option (List Byte) × Work :=
  match w.target a with
  | .unbacked => (some (List.replicate n 0), w)
  | .csr => (some (List.replicate n 0), w)
  | .scratchpad _ => (some (w.rdBytes a n), w)
  | _ =>
    let w := w.drain a n
    let crumbs := (List.range ((a + n + 31) / 32 - a / 32)).map (a / 32 + ·)
    if crumbs.any w.poisoned || w.chFailed (w.chanOf a) then (none, w) else (some (w.rdBytes a n), w)

/-- A little-endian number read so. -/
def Work.unitLE (w : Work) (a n : Nat) : Option Nat × Work :=
  let r := w.unitRead a n
  (r.1.map leNat, r.2)

/-- A write of memory by a unit inside the chip: discarded where nothing is backed; a whole crumb replaces a poison codeword (R42, R296). -/
def Work.unitWrite (w : Work) (a : Nat) (bytes : List Byte) : Work :=
  match w.target a with
  | .unbacked => w
  | .csr => w
  | .scratchpad _ => w.wrBytes a bytes
  | _ =>
    if bytes.isEmpty then w
    else
      let w := w.drain a bytes.length
      (List.range ((a + bytes.length + 63) / 64 - a / 64)).foldl (fun w j =>
        let lo := max a ((a / 64 + j) * 64)
        let hi := min (a + bytes.length) ((a / 64 + j + 1) * 64)
        w.performAccess (w.chanOf lo) ⟨none, lo, hi - lo, 0, some (((bytes.drop (lo - a)).take (hi - lo)).map some), none, 0, 0, 0⟩ 0 .clean) w

/-- A little-endian number written so. -/
def Work.unitPut (w : Work) (a n v : Nat) : Work := w.unitWrite a (leBytes n v)

end Sys2Proof.Machine
end

