-- ==== Sys2Proof/Machine/SynOps.lean ====
section
/-! DEFINITION. Operations on sync words and the tests that follow each of them (R250–R262). -/

namespace Sys2Proof.Machine

/-- The new value of an ATOMIC (R254). -/
def atomicOp (op : Nat) (v operand compare : DWord) : DWord :=
  match op with
  | 0 => operand
  | 1 => v + operand
  | 2 => v &&& operand
  | 3 => v ||| operand
  | 4 => v ^^^ operand
  | 5 => if v.toNat < operand.toNat then operand else v
  | 6 => if operand.toNat < v.toNat then operand else v
  | _ => if v = compare then operand else v

/-- The condition of a WAIT (R258). -/
def waitMet (op : Nat) (v operand compare : DWord) : Bool :=
  match op with
  | 0 => decide (v = operand)
  | 1 => decide (v ≠ operand)
  | 2 => decide (operand.toNat ≤ v.toNat)
  | 3 => decide (v.toNat < operand.toNat)
  | 4 => decide (v &&& compare = operand)
  | 5 => decide (v &&& compare ≠ operand)
  | _ => decide ((v - operand).toNat < 2 ^ 63)

/-- Change an engine of a core. -/
def Work.updEngine (w : Work) (c e : Nat) (f : Engine → Engine) : Work :=
  w.updCore c fun k => k.setEngine e (f (k.engine e))

/-- An engine of a core. -/
def Work.engine (w : Work) (c e : Nat) : Engine := (w.core c).engine e

/-- Change the sync cell's own state. -/
def Work.updSyn (w : Work) (c : Nat) (f : Syn → Syn) : Work := w.updCore c fun k => { k with syn := f k.syn }

/-- The oldest command an engine runs. -/
def Engine.first (x : Engine) : Option Running := x.running.head?

/-- The newest command an engine runs: the one that still takes repeats. -/
def Engine.last (x : Engine) : Option Running := x.running.getLast?

/-- Change the newest running command. -/
def Engine.updLast (x : Engine) (f : Running → Running) : Engine :=
  match x.running.getLast? with
  | some r => { x with running := x.running.dropLast ++ [f r] }
  | none => x

/-- Change the oldest running command. -/
def Engine.updFirst (x : Engine) (f : Running → Running) : Engine :=
  match x.running with
  | r :: rs => { x with running := f r :: rs }
  | [] => x

/-- Entries of a watch table that hold a watch. -/
def Work.watchUsed (w : Work) (c : Nat) : Nat :=
  ((List.range 256).filter fun e => w.flag (Reg.SYN_WATCH_CTL c e) Fld.SYN_WATCH_CTL_VALID).length

/-- Refresh SYN_WATCH_STAT: entries in use and their highest number (R270). -/
def Work.watchStat (w : Work) (c : Nat) : Work :=
  let n := w.watchUsed c
  (w.setFld (Reg.SYN_WATCH_STAT c) Fld.SYN_WATCH_STAT_USED n).setFld (Reg.SYN_WATCH_STAT c) Fld.SYN_WATCH_STAT_HIGH
    (max n (w.fld (Reg.SYN_WATCH_STAT c) Fld.SYN_WATCH_STAT_HIGH))

/-- Clear a watch-table entry. -/
def Work.clearWatch (w : Work) (c e : Nat) : Work :=
  ((w.w64 (Reg.SYN_WATCH_CTL c e) 0).w64 (Reg.SYN_WATCH_OPND c e) 0).w64 (Reg.SYN_WATCH_CMP c e) 0

/-- Test every watch on an object after an operation left it at `v`: each met one sends its WAKE and is cleared, in ascending entry
index (R261). -/
def Work.testWatches (w : Work) (c obj : Nat) (v : DWord) : Work :=
  let w := w.forEach (List.range 256) fun w e =>
    let ctl := Reg.SYN_WATCH_CTL c e
    if w.flag ctl Fld.SYN_WATCH_CTL_VALID && decide (w.fld ctl Fld.SYN_WATCH_CTL_OBJ = obj) &&
        waitMet (w.fld ctl Fld.SYN_WATCH_CTL_OP) v (w.r64 (Reg.SYN_WATCH_OPND c e)) (w.r64 (Reg.SYN_WATCH_CMP c e)) then
      let node := w.fld ctl Fld.SYN_WATCH_CTL_NODE
      let core := w.fld ctl Fld.SYN_WATCH_CTL_CORE
      let gen := w.fld ctl Fld.SYN_WATCH_CTL_GEN
      ((w.clearWatch c e).bump (Reg.SYN_WAKES c) 1).sendWatch c node core 0 gen none (.wake v)
    else w
  w.watchStat c

/-- Test the local WAIT of a cell after an operation (R259): once met, it stays met. -/
def Work.testLocalWait (w : Work) (c obj : Nat) (v : DWord) : Work :=
  match (w.engine c 4).last with
  | some r =>
    if decide ((w.core c).syn.mode = .local) && decide (synSidx r.cmd = obj) &&
        waitMet (synOpCode r.cmd) v (synOperand r.cmd) (synCompare r.cmd) then
      w.updEngine c 4 fun x => x.updLast fun r => { r with pos := 1 }
    else w
  | none => w

/-- Set a sync object of the context placed on its core, and make the tests that follow an operation. -/
def Work.synSet (w : Work) (c obj : Nat) (v : DWord) : Work :=
  (((w.w64 (Reg.SYN_OBJ c obj) v).bump (Reg.SYN_OPS c) 1).testLocalWait c obj v).testWatches c obj v

/-- Perform an ATOMIC on a sync object held in the cell: the value before it, and the machine after it (R253, R254). -/
def Work.synAtomic (w : Work) (c obj op : Nat) (operand compare : DWord) : DWord × Work :=
  let v := w.r64 (Reg.SYN_OBJ c obj)
  (v, w.synSet c obj (atomicOp op v operand compare))

/-- A completion add (R90): performed at once, or behind the operations that already wait (R253). -/
def Work.synSignal (w : Work) (c obj : Nat) : Work :=
  if (w.core c).syn.incoming.isEmpty then (w.synAtomic c obj 1 1 0).2
  else w.updSyn c fun y => { y with incoming := y.incoming ++ [⟨obj, .atomic 1, 1, 0, none, .signal⟩] }

end Sys2Proof.Machine
end

