-- ==== Sys2Proof/Machine/Queue.lean ====
section
/-! DEFINITION. Command queues, breaks, repeats, hand-over and completion (R83–R93, R105–R116). -/

namespace Sys2Proof.Machine

/-- May the cells of a core act: clocks run, and the core is neither disabled nor in self-test. -/
def Work.coreUp (w : Work) (c : Nat) : Bool := w.clocked && !w.coreDisabled c && !(w.core c).testing

/-- The context filter of a break (R111, R112). -/
def Work.breakCtx (w : Work) (c : Nat) (q : QEntry) : Bool :=
  !w.flag (Reg.CORE_BRK_CTRL c) Fld.CORE_BRK_CTRL_CTX_EN ||
    decide (q.ctx = some (w.fld (Reg.CORE_BRK_CTRL c) Fld.CORE_BRK_CTRL_CTX))

/-- Does the head command of engine `e` meet the tag break (R112)? -/
def Work.tagMatch (w : Work) (c e : Nat) (q : QEntry) : Bool :=
  let ctl := Reg.CORE_BRK_CTRL c
  let t := w.fld (Reg.CORE_BRK_TAG c) Fld.CORE_BRK_TAG_TAG
  let m := w.fld (Reg.CORE_BRK_TAG c) Fld.CORE_BRK_TAG_MASK
  w.flag ctl Fld.CORE_BRK_CTRL_EN_TAG &&
    (w.flag ctl Fld.CORE_BRK_CTRL_ANY_ENG || decide (w.fld ctl Fld.CORE_BRK_CTRL_ENG = e)) &&
    w.breakCtx c q && decide ((cmdTag q.cmd ^^^ t) &&& m = 0)

/-- A break hit on engine `e` (R113): the status, the held command, the halt. -/
def Work.breakHit (w : Work) (c e tag : Nat) (byCount byTag : Bool) : Work :=
  let ctl := Reg.CORE_BRK_CTRL c
  let st := Reg.CORE_BRK_STAT c
  let w := (w.setFlag ctl Fld.CORE_BRK_CTRL_EN_COUNT false).setFlag ctl Fld.CORE_BRK_CTRL_EN_TAG false
  let w := w.w32 st (BitVec.ofNat 32 (1 + (if byCount then 2 else 0) + (if byTag then 4 else 0) + e * 8 + tag % 65536 * 65536))
  let w := w.updEngine c e fun x => match x.queue with
    | q :: qs => { x with queue := { q with held := true } :: qs }
    | [] => x
  let w := w.updCore c fun k => { k with halt := .brk }
  { w with hw := { w.hw with dbgBreak := true } }

/-- BRK halts the core as a hit does, with HIT set and no cause (R113). -/
def Work.brkHit (w : Work) (c : Nat) : Work :=
  let ctl := Reg.CORE_BRK_CTRL c
  let w := (w.setFlag ctl Fld.CORE_BRK_CTRL_EN_COUNT false).setFlag ctl Fld.CORE_BRK_CTRL_EN_TAG false
  let w := (w.w32 (Reg.CORE_BRK_STAT c) 1).updCore c fun k => { k with halt := .brk }
  { w with hw := { w.hw with dbgBreak := true } }

/-- A command becomes the head of its queue: it is counted and tested (R111, R112, R115). -/
def Work.headArrives (w : Work) (c e : Nat) : Work :=
  match (w.engine c e).queue with
  | [] => w
  | q :: _ =>
    let ctl := Reg.CORE_BRK_CTRL c
    let counts := w.flag ctl Fld.CORE_BRK_CTRL_EN_COUNT && decide (w.fld ctl Fld.CORE_BRK_CTRL_ENG = e) && w.breakCtx c q
    let seen := w.r32 (Reg.CORE_BRK_SEEN c) + 1
    let byCount := counts && decide (seen = w.r32 (Reg.CORE_BRK_COUNT c))
    let byTag := w.tagMatch c e q
    let w := if counts then w.w32 (Reg.CORE_BRK_SEEN c) seen else w
    if byCount || byTag then w.breakHit c e (cmdTag q.cmd) byCount byTag else w

/-- Arm the breaks that a write to CORE_BRK_CTRL enabled: the count starts at zero and the commands already at the head are counted and
tested, all at once (R111, R112, R115). -/
def Work.armBreaks (w : Work) (c : Nat) (count tag : Bool) : Work :=
  let w := if count then w.w32 (Reg.CORE_BRK_SEEN c) 0 else w
  let heads := (List.range 5).filterMap fun e => ((w.engine c e).queue.head?).map fun q => (e, q)
  let ctl := Reg.CORE_BRK_CTRL c
  let counted := heads.filter fun h => count && decide (w.fld ctl Fld.CORE_BRK_CTRL_ENG = h.1) && w.breakCtx c h.2
  let w := if counted.isEmpty then w else w.w32 (Reg.CORE_BRK_SEEN c) 1
  let byCount (h : Nat × QEntry) : Bool :=
    decide (h ∈ counted) && decide (w.r32 (Reg.CORE_BRK_COUNT c) = 1)
  let byTag (h : Nat × QEntry) : Bool := tag && w.tagMatch c h.1 h.2
  let hits := heads.filter fun h => byCount h || byTag h
  match hits with
  | [] => w
  | h :: rest =>
    let w := w.breakHit c h.1 (cmdTag h.2.cmd) (byCount h) (byTag h)
    w.forEach rest fun w h => w.updEngine c h.1 fun x => match x.queue with
      | q :: qs => { x with queue := { q with held := true } :: qs }
      | [] => x

/-- Append a command to an engine's queue (R83). -/
def Work.push (w : Work) (c e : Nat) (cmd : CmdBits) (src : Option Nat) : Work :=
  let was := (w.engine c e).queue
  let ctx := w.placedCtx c
  let w := w.updEngine c e fun x => { x with queue := x.queue ++ [⟨cmd, src, ctx, false⟩] }
  let w := w.updCore c fun k => { k with boundary := false }
  if was.isEmpty then w.headArrives c e else w

/-- Is an engine's queue full (R72)? -/
def Engine.queueFull (x : Engine) : Bool := decide (64 ≤ x.queue.length)

/-- DONE of an engine (R90). -/
def Work.doneCount (w : Work) (c e : Nat) : Nat := w.fld (Reg.CORE_QCNT c e) Fld.CORE_QCNT_DONE

/-- Is the dependency of a command met (R84, R94)? An engine number above 4 takes 4 (R64). -/
def Work.depMet (w : Work) (c : Nat) (cmd : CmdBits) : Bool :=
  !cmdDepEn cmd || hasReached (w.doneCount c (min (cmdDepEng cmd) 4)) (cmdDepCount cmd)

/-- A command as it is issued, its fields clamped. -/
def Running.fresh (cmd : CmdBits) (ctx : Option Nat) : Running where
  cmd := cmd
  src := none
  ctx := ctx
  ready := true
  started := 0
  pos := 0
  inHeld := []
  outHeld := []
  bankHeld := []
  segs := []
  words := []
  first := 0
  stopped := false
  refetch := false

/-- Mark one half of a link full or empty. -/
def Work.markHalf (w : Work) (c link half : Nat) (full : Bool) : Work :=
  w.updCore c fun k =>
    let l := k.link link
    k.setLink link (if half = 0 then { l with full0 := full } else { l with full1 := full })

/-- A half of a link. -/
def Link.isFull (l : Link) (half : Nat) : Bool := if half = 0 then l.full0 else l.full1

/-- Take the halves that a starting repeat of engine `e` needs (R106). -/
def Work.takeHalves (w : Work) (c e : Nat) (r : Running) : Work :=
  let i := cmdInLink r.cmd
  let o := cmdOutLink r.cmd
  let w := if cmdInEn r.cmd then
      let h := ((w.core c).link i).cons
      (w.updCore c fun k => k.setLink i { k.link i with cons := 1 - h }).updEngine c e fun x =>
        x.updLast fun r => { r with inHeld := r.inHeld ++ [h] }
    else w
  if cmdOutEn r.cmd then
    let h := ((w.core c).link o).prod
    (w.updCore c fun k => k.setLink o { k.link o with prod := 1 - h }).updEngine c e fun x =>
      x.updLast fun r => { r with outHeld := r.outHeld ++ [h] }
  else w

/-- Are the halves a starting repeat needs available (R106)? -/
def Work.halvesReady (w : Work) (c : Nat) (r : Running) : Bool :=
  let l := (w.core c).link (cmdInLink r.cmd)
  let o := (w.core c).link (cmdOutLink r.cmd)
  (!cmdInEn r.cmd || l.isFull l.cons) && (!cmdOutEn r.cmd || !o.isFull o.prod)

/-- Base of a half of a link in its core's scratchpad (R105). -/
def Work.halfBase (w : Work) (c link half : Nat) : Nat :=
  let a := Reg.CORE_LINK_CFG c link
  (w.fld a Fld.CORE_LINK_CFG_BASE + half * 256 * w.fld a Fld.CORE_LINK_CFG_HALF_UNITS) % 2 ^ 24

/-- Complete the oldest command that an engine runs (R90): DONE, DONE_TAG, and the completion add when SIG is set. -/
def Work.complete (w : Work) (c e : Nat) : Work :=
  match (w.engine c e).first with
  | none => w
  | some r =>
    let cnt := Reg.CORE_QCNT c e
    let w := w.updEngine c e fun x => { x with running := x.running.drop 1 }
    let w := w.setFld cnt Fld.CORE_QCNT_DONE (w.fld cnt Fld.CORE_QCNT_DONE + 1)
    let w := w.setFld (Reg.CORE_QTAG c e) Fld.CORE_QTAG_DONE_TAG (cmdTag r.cmd)
    if cmdSig r.cmd then w.synSignal c (cmdSigIdx r.cmd) else w

/-- Halt a core as CORE_RUN.HALT does (R114): a core already halted stays as it is. -/
def Work.haltCore (w : Work) (c : Nat) : Work :=
  if (w.core c).halt = .none then w.updCore c fun k => { k with halt := .run } else w

/-- End a halt (R114). -/
def Work.resumeCore (w : Work) (c : Nat) : Work :=
  if (w.core c).halt = .none then w
  else
    let w := w.w32 (Reg.CORE_BRK_STAT c) 0
    w.updCore c fun k =>
      { k with
        halt := .none
        engines := k.engines.map fun e => (e.1, { e.2 with queue := e.2.queue.map fun q => { q with held := false } }) }

end Sys2Proof.Machine
end

