-- ==== Sys2Proof/Machine/Ctx.lean ====
section
/-! DEFINITION. The context table and the save area (R361, R364, R369–R371). -/

namespace Sys2Proof.Machine

/-- Does CORE_MASK include global core g? -/
def Work.ctxMask (w : Work) (x g : Nat) : Bool := decide (bits (w.r64 (Reg.SCH_CTX_MASK x (g / 64))).toNat (g % 64) 1 = 1)

/-- Save slot number of global core g: the cores of CORE_MASK below it (R369). -/
def Work.ctxSlot (w : Work) (x g : Nat) : Nat := ((List.range g).filter fun i => w.ctxMask x i).length

/-- First granule and granules of the working set (R370). -/
def Work.wsFirst (w : Work) (x : Nat) : Nat := w.fld (Reg.SCH_CTX_SPM x) Fld.SCH_CTX_SPM_WS_FIRST
def Work.wsCount (w : Work) (x : Nat) : Nat := w.fld (Reg.SCH_CTX_SPM x) Fld.SCH_CTX_SPM_WS_COUNT

/-- DPA of the save slot of context x for global core g (R369). -/
def Work.slotBase (w : Work) (x g : Nat) : Nat :=
  w.fld (Reg.SCH_CTX_SAVE x) Fld.SCH_CTX_SAVE_BASE * 2 ^ 14 + w.ctxSlot x g * (16384 + 65536 * w.wsCount x)

/-- DPA of a context's saved sync object for core slot c, if the context is live and has a save slot there (R256, R369). -/
def Work.savedObj (w : Work) (x c obj : Nat) : Option Nat :=
  if w.ctxLive x && decide (coreSlot c < 16) && w.ctxMask x (coreGlobal c) then some (w.slotBase x (coreGlobal c) + 0x2000 + 8 * obj)
  else none

end Sys2Proof.Machine
end

