-- ==== Sys2Proof/Machine/Sync.lean ====
section
/-! DEFINITION. Operations on sync words from outside the cell that holds them (R249–R257, R260, R269, R623–R625): where a sync word lies, the
incoming queue, one operation with its return. -/

namespace Sys2Proof.Machine

/-- Set the pending bit of an interrupt vector. -/
def Work.pendVector (w : Work) (h v : Nat) : Work :=
  { w with hw := { w.hw with msixPend := SMap.set false w.hw.msixPend (256 * h + v) true } }

/-- An operation on a doorbell or interrupt word: the value before it (R623–R625). A write of an interrupt word sets its pending bit. -/
def Work.hubOp (w : Work) (word : SyncWord) (kind : SynKind) (operand compare : DWord) : DWord × Work :=
  match word with
  | .obj _ _ => (0, w)
  | .db n =>
    let v := w.r64 (Reg.HUB_DB 0 n)
    (v, match kind with | .atomic op => w.w64 (Reg.HUB_DB 0 n) (atomicOp op v operand compare) | _ => w)
  | .iw h i =>
    let v := w.r64 (Reg.HUB_IW h i)
    (v, match kind with | .atomic op => (w.w64 (Reg.HUB_IW h i) (atomicOp op v operand compare)).pendVector h i | _ => w)

/-- A value that the spec does not give: a free value (log entry 3). -/
def Work.freeValue (w : Work) : DWord × Work :=
  let (d, w) := w.draw
  (Config.freeWord d 1 ++ Config.freeWord d 0, w)

/-- The value that a return carries: that of a poisoned one is undefined (R269, R618). -/
def Work.returned (w : Work) (v : DWord) (poison : Bool) : DWord × Work := if poison then w.freeValue else (v, w)

/-- Give a request its return: the value, and for a read the bytes it asked for. -/
def Work.synAnswer (w : Work) (i : Nat) (v : DWord) (bad : ReqBad) : Work :=
  let (v, w) := w.returned v (match bad with | .poison _ => true | _ => false)
  (w.updReq i fun q =>
    let n := match q.op with | .read n => n | _ => 0
    { q with
      value := v
      data := (List.range n).foldl (fun m j => SMap.set 0 m j (BitVec.ofNat 8 (v.toNat >>> (8 * ((q.dpa + j) % 8))))) q.data }).answer i bad

/-- Is a free entry of a watch table left, and which? -/
def Work.freeWatch (w : Work) (c : Nat) : Option Nat :=
  (List.range 256).find? fun e => !w.flag (Reg.SYN_WATCH_CTL c e) Fld.SYN_WATCH_CTL_VALID

/-- Fill a watch-table entry (R260). -/
def Work.fillWatch (w : Work) (c e obj op node core gen : Nat) (operand compare : DWord) : Work :=
  let ctl := obj % 1024 + op % 16 * 2 ^ 10 + 2 ^ 15 + node % 65536 * 2 ^ 16 + core % 256 * 2 ^ 32 + gen % 256 * 2 ^ 40
  (((w.w64 (Reg.SYN_WATCH_CTL c e) (BitVec.ofNat 64 ctl)).w64 (Reg.SYN_WATCH_OPND c e) operand).w64 (Reg.SYN_WATCH_CMP c e)
    compare).watchStat c

/-- Answer a registration whose condition was tested on value `v` (R260): WAKE, ACCEPTED with an entry, or FULL. `table`: the context is placed. -/
def Work.register (w : Work) (c obj op node core gen : Nat) (operand compare v : DWord) (table : Bool) : Work :=
  if waitMet op v operand compare then (w.bump (Reg.SYN_WAKES c) 1).sendWatch c node core 0 gen none (.wake v)
  else match (if table then w.freeWatch c else none) with
    | some e => (w.fillWatch c e obj op node core gen operand compare).sendWatch c node core 0 gen none .accepted
    | none => w.sendWatch c node core 0 gen none .full

/-- The result of the cell's own ATOMIC (R255): the command may complete. -/
def Work.synResult (w : Work) (c tag : Nat) (v : DWord) (poison : Bool) : Work :=
  let (v, w) := w.returned v poison
  let w := (w.w64 (Reg.SYN_RESULT c) v).w32 (Reg.SYN_RESULT_TAG c) (BitVec.ofNat 32 (tag % 65536 + (if poison then 65536 else 0)))
  w.updEngine c 4 fun x => x.updFirst fun r => { r with pos := 1 }

/-- Tag of the command that the sync cell runs, zero if none. -/
def Work.synTag (w : Work) (c : Nat) : Nat := match (w.engine c 4).first with | some r => cmdTag r.cmd | none => 0

/-- A WAIT whose REGISTER was refused does not complete (R255): the fault is the core's. -/
def Work.watchRefused (w : Work) (c status : Nat) : Work :=
  match (w.engine c 4).last with
  | some r =>
    let w := w.updEngine c 4 fun x => x.updLast fun r => { r with stopped := true }
    w.cellFault c (badOfStatus status).kind 5 (cmdTag r.cmd) r.ctx (some (gCva (synGaddr r.cmd), true)) 0
  | none => w

/-- A REGISTER whose access ends in a fault is answered with its status (R255, R256), by die `die`. -/
def Work.watchRefuse (w : Work) (die node core gen : Nat) (ctx : Option Nat) (status : Nat) : Work :=
  if node ≠ w.selfNode then
    w.injectAnswer die { Pkt.blank 4 1 w.selfNode node with gen := gen, ctx := ctx, core := core, master := 3 } status []
  else if (w.core (globalSlot core)).syn.mode = .sent ∧ SMap.get 0 w.hw.genCore (globalSlot core) = gen then
    w.watchRefused (globalSlot core) status
  else w.bumpErr Reg.ERR_LATE_DROP 1

/-- What follows an operation that left value `v` readable: its return to whoever asked (R255, R260). -/
def Work.synReturn (w : Work) (c : Nat) (op : SynOp) (v : DWord) (bad : ReqBad) (table : Bool) : Work :=
  match op.source with
  | .own => w.synResult c (w.synTag c) v (decide (bad ≠ .ok))
  | .req i => w.synAnswer i v bad
  | .watch node core gen => match op.kind with
    | .register k =>
      if bad = .ok then w.register c op.obj k node core gen op.operand op.compare v table
      else w.watchRefuse (coreRegion c) node core gen op.ctx bad.status
    | _ => w
  | _ => w

/-- A lasting error of a sync object: the operation changes nothing (R269). -/
def Work.objLasting (w : Work) (c : Nat) (op : SynOp) : Work :=
  let tag := match op.source with | .own => w.synTag c | _ => 0
  let w := w.setFlag (Reg.SYN_ERR_STAT c) Fld.SYN_ERR_STAT_OBJ_LASTING true
  let w := w.w32 (Reg.SYN_ERR_INFO c) (BitVec.ofNat 32 (tag + op.obj * 65536))
  w.cellFault c 0x0A 5 tag (op.ctx.or (w.placedCtx c)) none 0

/-- One operation on the objects held in the cell (R253–R256, R269). -/
def Work.cellPerform (w : Work) (c : Nat) (op : SynOp) (check : ReadCheck) : Work :=
  let obj := Reg.SYN_OBJ c op.obj
  let w := if check = .transient then
      w.cellTransient c 0x0A 5 0 op.ctx (Reg.SYN_ERR_STAT c) Fld.SYN_ERR_STAT_OBJ_TRANSIENT Fld.SYN_ERR_STAT_TRANSIENT_CNT 0
    else w
  let table := (w.placedCtx c).isSome
  if check = .lasting then
    (w.synReturn c op 0 (match op.kind with | .register _ => .ok | _ => .poison obj) table).objLasting c op
  else
    let v := w.r64 obj
    let w := match op.kind with
      | .atomic k => w.synSet c op.obj (atomicOp k v op.operand op.compare)
      | _ => w.bump (Reg.SYN_OPS c) 1
    w.synReturn c op v .ok table

/-- One operation on the saved image of a context that is not placed on the core (R256, R378). -/
def Work.savedPerform (w : Work) (c x : Nat) (op : SynOp) : Work :=
  match w.savedObj x c op.obj with
  | none => w.synReturn c op 0 (.xlate 1 0) false
  | some a =>
    let (r, w) := w.unitLE a 8
    match r with
    | none => w.synReturn c op 0 (.poison a) false
    | some n =>
      let v := BitVec.ofNat 64 n
      let w := match op.kind with
        | .atomic k => w.unitPut a 8 (atomicOp k v op.operand op.compare).toNat
        | _ => w
      w.synReturn c op v .ok false

/-- Perform one operation at a sync cell (R256): on the objects in the cell, or on a saved image. -/
def Work.synPerform (w : Work) (c : Nat) (op : SynOp) (check : ReadCheck) : Work :=
  let placed := w.placedCtx c
  match op.source, op.ctx with
  | .own, _ => w.cellPerform c op check
  | .signal, _ => w.cellPerform c op check
  | _, none =>
    let w := if placed.isSome then w else w.setFlag (Reg.SYN_ERR_STAT c) Fld.SYN_ERR_STAT_NOCTX true
    w.cellPerform c op check
  | _, some x => if placed = some x then w.cellPerform c op check else w.savedPerform c x op

/-! ### Arrival -/

/-- What a request asks of the sync word at its address; nothing for a write of another width than 64 bits (R251). -/
def Req.synOp (q : Req) (alias_ : Bool) : Option (SynKind × DWord × DWord) :=
  match q.op with
  | .sync k o p => some (k, o, p)
  | .read _ => some (.read, 0, 0)
  | .write d =>
    if decide (d.length = 8) && d.all Option.isSome && decide (q.dpa % 8 = 0) then
      some (.atomic (if alias_ then 1 else 0), BitVec.ofNat 64 (leNat (d.map fun b => b.getD 0)), 0)
    else none

/-- Hand a request to the sync word it names (R252, R253): into the cell's queue while an entry is free, else it waits before the cell. -/
def Work.syncArrive (w : Work) (i : Nat) (q : Req) (word : SyncWord) (alias_ : Bool) : Work :=
  match q.synOp alias_ with
  | none => w.answer i .ok
  | some (k, o, p) =>
    match word with
    | .obj c obj =>
      let w := w.setReq i { q with stage := .atSync }
      if decide ((w.core c).syn.incoming.length < 64) then
        w.updSyn c fun y => { y with incoming := y.incoming ++ [⟨obj, k, o, p, q.ctx, .req i⟩] }
      else w
    | _ =>
      let r := w.hubOp word k o p
      r.2.synAnswer i r.1 .ok

/-- Is a request already in a cell's incoming queue? -/
def Syn.holds (y : Syn) (i : Nat) : Bool := y.incoming.any fun o => decide (o.source = .req i)

/-- Let the oldest request that waits before cell c into its queue. -/
def Work.syncPull (w : Work) (c : Nat) : Work :=
  let waits (e : Nat × Req) : Bool :=
    decide (e.2.stage = .atSync) && !(w.core c).syn.holds e.1 &&
      (match syncWordAt e.2.dpa with | some (.obj d _, _) => decide (d = c) | _ => false)
  match List.find? waits w.hw.reqs with
  | some (i, q) =>
    match syncWordAt q.dpa with
    | some (word, alias_) => w.syncArrive i q word alias_
    | none => w
  | none => w

/-- A sync write of a unit: an add to the sync word at a global address (R353, R366, R368). The unit acts for no context (R256). -/
def Work.unitSignal (w : Work) (die code gaddr : Nat) (addend : DWord) : Work :=
  let mk (dpa : Nat) (isDpa : Bool) (stage : ReqStage) : Req :=
    { Req.make (.unit die code) (.sync (.atomic 1) addend 0) none (gNode gaddr) (gCva gaddr) w.hw.uptime 0 0 with
      isDpa := isDpa, dpa := dpa, stage := stage }
  if gaddr = 0 then w
  else if gNode gaddr ≠ w.selfNode then
    let r := w.addReq (mk 0 false (.remote false))
    r.2.launch r.1
  else match (directDpa (gCva gaddr)).bind syncWordAt with
    | some (word, alias_) =>
      let (i, w) := w.addReq (mk (gCva gaddr % 2 ^ 46) true .atSync)
      match w.req? i with
      | some q => w.syncArrive i q word alias_
      | none => w
    | none => w

end Sys2Proof.Machine
end

