-- ==== Sys2Proof/Machine/Pge.lean ====
section
/-! DEFINITION. Page tables, translation and the moves of pages (R329–R350, R356–R358): the entries and frame records in memory, the walk, the
translation buffer, shootdowns, the migration engine, hints, uncorrectable findings. -/

namespace Sys2Proof.Machine

/-! ### Entries (R332–R335) -/

def leafV (e : Nat) : Bool := decide (bits e 0 1 = 1)
def leafTier (e : Nat) : Nat := bits e 2 1
/-- SHADOW_V takes 0 when TIER is 1 (R334). -/
def leafShadowV (e : Nat) : Bool := decide (bits e 3 1 = 1) && decide (leafTier e = 0)
def leafPin (e : Nat) : Bool := decide (bits e 4 1 = 1)
def leafPoisoned (e : Nat) : Bool := decide (bits e 5 1 = 1)
def leafMigrating (e : Nat) : Bool := decide (bits e 6 1 = 1)
/-- FRAME and SHADOW are aligned down to a multiple of 32 in a slab leaf (R334). -/
def leafFrame (slab : Bool) (e : Nat) : Nat := if slab then bits e 9 25 / 32 * 32 else bits e 9 25
def leafShadow (slab : Bool) (e : Nat) : Nat := if slab then bits e 34 25 / 32 * 32 else bits e 34 25

/-- DPA of a frame of a tier (R335). -/
def frameDpa (tier f : Nat) : Nat := if tier = 0 then 65536 * f else 0x20000000000 + 65536 * f

/-- A leaf entry from its parts. -/
def leafOf (tier frame : Nat) (pin : Bool) : Nat := 3 + tier * 4 + (if pin then 16 else 0) + frame * 2 ^ 9

/-- First page, and pages, of the leaf that holds a page. -/
def LeafId.pages (l : LeafId) : Nat := if l.slab then 32 else 1
/-- Does a leaf hold a page of a context? -/
def LeafId.holds (l : LeafId) (ctx page : Nat) : Bool := decide (l.ctx = ctx) && decide (l.page ≤ page) && decide (page < l.page + l.pages)

/-- The root array entry's address (R332). -/
def Work.rootEntry (w : Work) (r ctx : Nat) : Nat := w.fld (Reg.PGE_ROOT_BASE r) Fld.PGE_ROOT_BASE_BASE * 2 ^ 13 + 8 * ctx

/-- What a walk finds: a leaf and where its entry lies, or a fault of R338. -/
inductive Walk where
  | leaf (id : LeafId) (at_ entry : Nat)
  | fault (kind level : Nat)
deriving DecidableEq, Repr

/-- Count the clamps of an entry that a walk reads (R63, R334): LEAF at the levels that fix it, SHADOW_V with TIER 1, the alignment of FRAME
and SHADOW in a slab leaf. -/
def Work.entryClamps (w : Work) (ctx at_ e level : Nat) : Work :=
  let hit (w : Work) (b : Bool) (word lsb : Nat) (rule : ClampRule) : Work :=
    if b then w.clamp (.program ctx) (at_ + 4 * word) word lsb rule else w
  let slab := decide (level = 3) && decide (bits e 1 1 = 1)
  let w := hit w ((decide (level ≤ 2) && decide (bits e 1 1 = 1)) || (decide (level = 4) && decide (bits e 1 1 = 0))) 0 1 .encoding
  if level = 4 ∨ slab then
    let w := hit w (decide (bits e 3 1 = 1) && decide (leafTier e = 1)) 0 3 .joined
    let w := hit w (slab && decide (bits e 9 5 ≠ 0)) 0 9 .align
    hit w (slab && decide (bits e 34 5 ≠ 0)) 1 2 .align
  else w

/-- Walk one level down (R333, R334, R338). `level` 1 root table, 2 directory, 3 slab table, 4 page table. `count`: clamps are counted. -/
def Work.walkFrom (w : Work) (count : Bool) (ctx page table : Nat) : Nat → Nat → Walk × Work
  | 0, _ => (.fault 0 4, w)
  | n + 1, level =>
    let idx := if level = 4 then page % 32 else (page / 32 / 512 ^ (3 - level)) % 512
    let (e, w) := w.unitLE (table + 8 * idx) 8
    match e with
    | none => (.fault 2 level, w)
    | some e =>
      let w := if count && leafV e then w.entryClamps ctx (table + 8 * idx) e level else w
      if !leafV e then (.fault 0 level, w)
      else if level = 4 then (.leaf ⟨ctx, page, false⟩ (table + 8 * idx) e, w)
      else if level = 3 ∧ bits e 1 1 = 1 then (.leaf ⟨ctx, page / 32 * 32, true⟩ (table + 8 * idx) e, w)
      else w.walkFrom count ctx page (bits e 8 38 * 256) n (level + 1)

/-- Walk the tables of a context for a page, from the root array as region r sees it (R337). -/
def Work.walkCount (w : Work) (count : Bool) (r ctx page : Nat) : Walk × Work :=
  let (e, w) := w.unitLE (w.rootEntry r ctx) 8
  match e with
  | none => (.fault 2 0, w)
  | some e =>
    let w := if count && decide (bits e 0 1 = 1) && decide (bits e 3 2 = 3) then
        w.clamp (.program ctx) (w.rootEntry r ctx) 0 3 .encoding else w
    if bits e 0 1 = 0 then (.fault 0 0, w) else w.walkFrom count ctx page (bits e 12 34 * 4096) 4 1

/-- The same without the counts: what a unit that has read the entries before finds. -/
def Work.walk (w : Work) (r ctx page : Nat) : Walk × Work := w.walkCount false r ctx page

/-- The policy fields of a context's root array entry: MIG_EN, HINT_EN, PLACE, PREF; zeros when it cannot be read. -/
def Work.policy (w : Work) (r ctx : Nat) : Nat := ((w.unitLE (w.rootEntry r ctx) 8).1).getD 0

/-- The region that a promotion goes to (R343). -/
def placeRegion (policy here page : Nat) : Nat :=
  match bits policy 3 2 with
  | 0 => here
  | 1 => page / 32 % 16 ^^^ page / 512 % 16
  | _ => bits policy 8 4

/-- The DPA that a page leaf or slab leaf gives a CVA. -/
def leafDpa (id : LeafId) (e cva : Nat) : Nat := frameDpa (leafTier e) (leafFrame id.slab e) + (cva - id.page * 65536)

/-! ### Frame records (R355) -/

/-- The allocator that owns a capacity port, and the port's place in its reserve (R330). -/
def portOwner (p : Nat) : Nat := facingRegion (24 + p / 4)

/-- Ports that an allocator owns. -/
def ownedPorts (r : Nat) : List Nat := (List.range 16).filter fun p => decide (portOwner p = r)

/-- Bytes of the frame records of an allocator (R355). -/
def recordBytes (r : Nat) : Nat := 2 ^ 22 + (ownedPorts r).length * 2 ^ 24

/-- Base of an allocator's reserve. -/
def Work.reserveBase (w : Work) (r : Nat) : Nat := w.fld (Reg.ALC_RESERVE_BASE r) Fld.ALC_RESERVE_BASE_BASE * 2 ^ 21
/-- Bytes of an allocator's reserve. -/
def Work.reserveBytes (w : Work) (r : Nat) : Nat := w.fld (Reg.ALC_RESERVE_SLABS r) Fld.ALC_RESERVE_SLABS_SLABS * 2 ^ 21
/-- Is the reserve too small for the records and the log (R355)? -/
def Work.reserveShort (w : Work) (r : Nat) : Bool := decide (w.reserveBytes r < recordBytes r + 65536)
/-- Does an allocator work? -/
def Work.alcOn (w : Work) (r : Nat) : Bool := w.flag (Reg.ALC_CTRL r) Fld.ALC_CTRL_EN && !w.regionDisabled r

/-- The allocator that owns a frame. -/
def frameOwner (tier f : Nat) : Nat := if tier = 0 then f / 524288 % 16 else portOwner (f / 2097152 % 16)

/-- DPA of a frame's record. -/
def Work.recordDpa (w : Work) (tier f : Nat) : Nat :=
  let r := frameOwner tier f
  if tier = 0 then w.reserveBase r + 8 * (f % 524288)
  else w.reserveBase r + 2 ^ 22 + (f / 2097152 % 4) * 2 ^ 24 + 8 * (f % 2097152)

/-- Does a frame lie in its owner's reserve? -/
def Work.inReserve (w : Work) (tier f : Nat) : Bool :=
  let r := frameOwner tier f
  decide (tier = 0) && decide (w.reserveBase r ≤ 65536 * f) && decide (65536 * f < w.reserveBase r + w.reserveBytes r)

/-- A frame's record: STATE, CTX and page. A frame of a reserve has STATE 3. -/
def Work.record? (w : Work) (tier f : Nat) : Nat × Nat × Nat :=
  if w.inReserve tier f then (3, 0, 0)
  else
    let e := ((w.unitLE (w.recordDpa tier f) 8).1).getD 0
    (bits e 0 3, bits e 3 10, bits e 13 32)

/-- Write a frame's record. -/
def Work.setRecord (w : Work) (tier f state ctx page : Nat) : Work :=
  w.unitPut (w.recordDpa tier f) 8 (state + ctx % 1024 * 8 + page % 2 ^ 32 * 2 ^ 13)

/-- Is there memory behind a frame that an allocator may hand out? -/
def Work.frameExists (w : Work) (tier f : Nat) : Bool :=
  if tier = 0 then decide (f < 8388608) && !w.regionDisabled (f / 524288)
  else decide (f < 33554432) && w.capBacked (f / 2097152) (f % 2097152 * 65536) && !w.capFailed (f / 2097152)

/-- Is a frame free (R355)? -/
def Work.frameFree (w : Work) (tier f : Nat) : Bool :=
  w.frameExists tier f && w.alcOn (frameOwner tier f) && !w.reserveShort (frameOwner tier f) && decide ((w.record? tier f).1 = 0)

/-- Are the frames of a page or slab leaf from `f` on free: a slab needs 32 that start at a multiple of 32 (R354)? -/
def Work.framesFree (w : Work) (tier f : Nat) (slab : Bool) : Bool :=
  if slab then decide (f % 32 = 0) && (List.range 32).all fun i => w.frameFree tier (f + i) else w.frameFree tier f

/-- Write the records of a leaf's frames: frame i holds page i. -/
def Work.setRecords (w : Work) (tier f : Nat) (slab : Bool) (state ctx page : Nat) : Work :=
  w.forEach (List.range (if slab then 32 else 1)) fun w i => w.setRecord tier (f + i) state ctx (page + i)

/-- The listed frame records of an allocator, as (place in the record area, STATE, CTX, page): those whose first byte is not zero. -/
def Work.listedRecords (w : Work) (r : Nat) : List (Nat × Nat × Nat × Nat) :=
  let base := w.reserveBase r
  let lies (a : Nat) : Bool := decide (base ≤ a) && decide (a < base + recordBytes r) && decide (a % 8 = 0)
  let places := ((w.mem.map Prod.fst).filter lies) ++ ((w.wr.map Prod.fst).filter fun a => lies a && decide (Mem.read w.mem a = memDefault)).dedup
  places.filterMap fun a =>
    let e := w.rdLE a 8
    if bits e 0 3 = 0 then none else some ((a - base) / 8, bits e 0 3, bits e 3 10, bits e 13 32)

/-- The frame of a place in an allocator's record area: tier and frame number. -/
def recordFrame (r i : Nat) : Nat × Nat :=
  if i < 524288 then (0, 524288 * r + i) else (1, (ownedPorts r).headD 0 * 2097152 + (i - 524288))

/-- Frames of an allocator's stack, or of its capacity ports, that are free now (R360). -/
def Work.freeStacked (w : Work) (r : Nat) : Nat :=
  if !w.alcOn r then 0
  else 524288 - (w.reserveBytes r / 65536) - ((w.listedRecords r).filter fun e => decide (e.1 < 524288) && !w.inReserve 0 (524288 * r + e.1)).length
def Work.freeCapacity (w : Work) (r : Nat) : Nat :=
  if !w.alcOn r then 0
  else
    let usable := (ownedPorts r).foldl (fun n p =>
      n + (if w.capBacked p 0 && !w.capFailed p then w.fld (Reg.CAP_PORT_INFO (p / 4) (p % 4)) Fld.CAP_PORT_INFO_USABLE * 8192 else 0)) 0
    usable - ((w.listedRecords r).filter fun e => decide (524288 ≤ e.1) && w.frameExists 1 (recordFrame r e.1).2).length

/-- Slab frames of a region's stack with all 32 frames free (R346). -/
def Work.freeSlabs (w : Work) (r : Nat) : Nat :=
  16384 - w.reserveBytes r / 2 ^ 21 -
    (((w.listedRecords r).filter fun e => decide (e.1 < 524288) && !w.inReserve 0 (524288 * r + e.1)).map fun e => e.1 / 32).dedup.length

/-- Is some frame, or aligned run of 32, of a region's stack free? -/
def Work.stackHasFree (w : Work) (r : Nat) (slab : Bool) : Bool :=
  w.alcOn r && !w.reserveShort r && !w.regionDisabled r && decide (0 < (if slab then w.freeSlabs r else w.freeStacked r))

/-- Free frames, or aligned runs of 32, of one capacity port. -/
def Work.portFree (w : Work) (p : Nat) (slab : Bool) : Nat :=
  let r := portOwner p
  let k := p % 4
  if !w.alcOn r || w.reserveShort r || !w.capBacked p 0 || w.capFailed p then 0
  else
    let usable := w.fld (Reg.CAP_PORT_INFO (p / 4) (p % 4)) Fld.CAP_PORT_INFO_USABLE * 8192
    let used := ((w.listedRecords r).filterMap fun e =>
      let o := e.1 - 524288 - 2097152 * k
      if 524288 + 2097152 * k ≤ e.1 ∧ o < usable then some o else none)
    if slab then usable / 32 - (used.map (· / 32)).dedup.length else usable - used.length

/-- Count a retired frame, and report when the region's limit is passed (R358). -/
def Work.retireFrame (w : Work) (tier f : Nat) : Work :=
  let r := frameOwner tier f
  let n := ((w.listedRecords r).filter fun e => decide (e.2.1 = 4)).length + 1
  let w := w.setRecord tier f 4 0 0
  if w.fld (Reg.ALC_POLICY r) Fld.ALC_POLICY_RETIRE_LIMIT < n then
    (w.setFlag (Reg.ALC_ERR_STAT r) Fld.ALC_ERR_STAT_RETIRE_LIMIT true).fault
      { kind := 0x14, level := 2, lasting := true, ctx := none, die := r, unit := 8, core := 0, gen := 0, tag := 0, addr := none, detail := 0 }
  else w

/-- Return the frames of a leaf, or retire them (R342, R354). -/
def Work.releaseFrames (w : Work) (tier f : Nat) (slab retire : Bool) : Work :=
  w.forEach (List.range (if slab then 32 else 1)) fun w i =>
    if retire then w.retireFrame tier (f + i) else w.setRecord tier (f + i) 0 0 0

/-! ### The paging units -/

/-- A region's paging unit. -/
def Work.pge (w : Work) (r : Nat) : Paging := SMap.get Paging.reset w.hw.paging r

/-- Change a paging unit. -/
def Work.updPge (w : Work) (r : Nat) (f : Paging → Paging) : Work :=
  { w with hw := { w.hw with paging := SMap.set Paging.reset w.hw.paging r (f (w.pge r)) } }

/-- Does the translation part of a paging unit work? It stays in service in a disabled region (R551). -/
def Work.pgeUp (w : Work) (_r : Nat) : Bool := w.clocked

/-- Do the migration engine and the error part of a paging unit work? -/
def Work.engineUp (w : Work) (r : Nat) : Bool := w.clocked && !w.regionDisabled r

/-- The paging unit that serves a request (R330). -/
def Req.pge (q : Req) : Nat := facingRegion q.src.die

/-- Page of a request's CVA. -/
def Req.page (q : Req) : Nat := q.addr / 65536

/-- The buffered leaf for a page. -/
def Paging.lookup (p : Paging) (ctx page : Nat) : Option TbEntry := p.tb.find? fun t => t.id.holds ctx page

/-- Put a leaf into the buffer; in a full buffer it replaces entry `victim`, which the unit chooses (R337). -/
def Paging.fill (p : Paging) (t : TbEntry) (victim : Nat) : Paging :=
  let l := p.tb.filter fun x => decide (x.id ≠ t.id)
  { p with tb := if l.length < 4096 then l ++ [t] else l.set (victim % 4096) t }

/-- Record a translation fault (R338). -/
def Work.pgeFault (w : Work) (r ctx cva kind level master core : Nat) (write : Bool) : Work :=
  let st := Reg.PGE_FAULT_STAT r
  let w := w.satAdd st Fld.PGE_FAULT_STAT_COUNT 1
  if w.flag st Fld.PGE_FAULT_STAT_VALID then w
  else
    let info := ctx % 1024 + kind * 2 ^ 10 + (if write then 1 else 0) * 2 ^ 12 + master * 2 ^ 13 + core % 256 * 2 ^ 17 + level * 2 ^ 25
    ((w.setFlag st Fld.PGE_FAULT_STAT_VALID true).w32 (Reg.PGE_FAULT_INFO r) (BitVec.ofNat 32 info)).w64 (Reg.PGE_FAULT_CVA r)
      (BitVec.ofNat 64 (cva % 2 ^ 48))

/-- End a request with a translation fault. -/
def Work.xlateFault (w : Work) (i : Nat) (q : Req) (kind level : Nat) : Work :=
  let core := match q.src.core? with | some c => coreGlobal c | none => 0
  (w.pgeFault q.pge (q.ctx.getD 0) q.addr kind level q.src.pgeMaster core q.op.isWrite).answer i (.xlate kind level)

/-- Is a page covered by an invalidation in progress? -/
def Work.underInval (w : Work) (ctx page : Nat) : Bool :=
  w.hw.invals.any fun e => decide (e.2.ctx = ctx) && decide (e.2.lo ≤ page) && decide (page < e.2.hi)

/-- Queue a move, if its leaf is not queued; `full` happens when the queue holds 256 entries (R349). -/
def Work.queueMove (w : Work) (r : Nat) (m : MigEntry) (full : Work → Work) : Work :=
  let p := w.pge r
  if p.queue.any (fun x => decide (x.id = m.id)) || (match p.move with | some x => decide (x.entry.id = m.id) | none => false) then w
  else if 256 ≤ p.queue.length then full w
  else w.updPge r fun p => { p with queue := p.queue ++ [m] }

/-- Count a demand request to a capacity leaf, and queue its promotion at the threshold (R345). A full table gives up the entry with the
lowest count. -/
def Work.countAccess (w : Work) (r : Nat) (id : LeafId) (leaf : Nat) : Work :=
  let p := w.pge r
  let n := (match p.access.find? fun a => decide (a.id = id) with | some a => a.count | none => 0) + 1
  let rest := p.access.filter fun a => decide (a.id ≠ id)
  let low := rest.foldl (fun m a => min m a.count) (rest.headD ⟨id, 0⟩).count
  let kept := if rest.length < 1024 then rest else rest.eraseIdx (rest.findIdx fun a => decide (a.count = low))
  if w.fld (Reg.PGE_POLICY r) Fld.PGE_POLICY_PROMOTE_THRESH ≤ n then
    let w := w.updPge r fun p => { p with access := rest }
    let pol := w.policy r id.ctx
    if bits pol 1 1 = 1 ∧ !leafPin leaf then
      w.queueMove r ⟨id, BitVec.ofNat 64 leaf, true, placeRegion pol r id.page⟩ fun w => w.bump (Reg.PGE_MIG_FAIL r) 1
    else w
  else w.updPge r fun p => { p with access := kept ++ [⟨id, n⟩] }

/-- A translated request goes to memory; an unbacked address completes at once with an unbacked-access error, and no page holds a sync word
(R42, R257). -/
def Work.memRoute (w : Work) (i : Nat) (q : Req) (dpa : Nat) : Work :=
  let q := { q with dpa := dpa }
  match q.op with
  | .sync _ _ _ => (w.setReq i q).answer i .nonsync
  | _ => match w.target dpa with
    | .stacked r => w.toChannels i q dpa (arrivalInput q.src.die r)
    | .capacity _ => w.toChannels i q dpa 0
    | _ => ((w.setReq i q).reqFault { q with isDpa := true } 0x01 0).answer i .ok

/-- The pairs of address and byte that a write changes. -/
def writePairs (a : Nat) (data : List (Option Byte)) : List (Nat × Byte) :=
  data.zipIdx.filterMap fun p => p.1.map fun b => (a + p.2, b)

/-- An access of a request to the scratchpad of core slot c; during the core's self-test it is held (R40, R547). -/
def Work.spmRoute (w : Work) (c i : Nat) (q : Req) (dpa : Nat) : Work :=
  if (w.core c).testing then w.setReq i { q with dpa := dpa, stage := .atPort }
  else match q.op with
  | .read n => (w.setReq i { q with dpa := dpa, data := (w.rdBytes dpa n).zipIdx.foldl (fun m b => SMap.set 0 m b.2 b.1) [] }).answer i .ok
  | .write d => ((w.setReq i { q with dpa := dpa }).forEach (writePairs dpa d) fun w p => w.wrB p.1 p.2).answer i .ok
  | .sync _ _ _ => w.memRoute i q dpa

/-- A request to a DPA that is not a register goes to memory or to a scratchpad (R37–R42). -/
def Work.dpaRoute (w : Work) (i : Nat) (q : Req) (dpa : Nat) : Work :=
  match w.target dpa with
  | .scratchpad c => w.spmRoute c i q dpa
  | _ => w.memRoute i q dpa

/-- The accesses held at the port of core slot c are performed in arrival order (R547). -/
def Work.openPort (w : Work) (c : Nat) : Work :=
  w.forEach (w.hw.reqs.filter fun e => decide (e.2.stage = .atPort) && decide (dpaKind e.2.dpa = .scratchpad c)) fun w e =>
    w.spmRoute c e.1 e.2 e.2.dpa

/-- A request goes on through a leaf (R339, R341, R345): a write through a clean copy first waits for SHADOW_V to be cleared. -/
def Work.throughLeaf (w : Work) (i : Nat) (q : Req) (id : LeafId) (leaf : Nat) : Work :=
  if q.op.isWrite && leafShadowV leaf then w.setReq i { q with stage := .held }
  else
    let w := if leafTier leaf = 1 then w.countAccess q.pge id leaf else w
    w.memRoute i q (leafDpa id leaf q.addr)

/-- Does an older request of the same master, to a crumb in common, still wait for its translation (R48)? -/
def Work.behind (w : Work) (i : Nat) (q : Req) : Bool :=
  w.hw.reqs.any fun e =>
    decide (e.1 < i) && decide (e.2.src = q.src) && decide (e.2.ctx = q.ctx) && decide (e.2.node = q.node) &&
      (match e.2.stage with | .translate => true | .walk => true | .held => true | _ => false) &&
      decide (e.2.addr / 32 ≤ (q.addr + q.op.len - 1) / 32) && decide (q.addr / 32 ≤ (e.2.addr + e.2.op.len - 1) / 32)

/-- Walks in flight: misses to one page of a context share one (R337). -/
def Work.walks (w : Work) (r : Nat) : List (Option Nat × Nat) :=
  ((w.hw.reqs.filter fun e => decide (e.2.stage = .walk) && decide (e.2.pge = r)).map fun e => (e.2.ctx, e.2.page)).dedup

/-- The paging unit takes up a request: a hit goes on, a miss starts or joins a walk, a dead context faults (R337, R338). -/
def execTranslate (req : Nat) (s : State) : Host.Outcome State Fault Refusal :=
  run s fun w =>
    match w.req? req with
    | none => w
    | some q =>
      if q.stage ≠ .translate ∨ !w.pgeUp q.pge ∨ w.behind req q then w
      else match q.ctx with
        | none => w.xlateFault req q 1 0
        | some x =>
          if !w.ctxLive x then w.xlateFault req q 1 0
          else match (w.pge q.pge).lookup x q.page with
            | some t => (w.bump (Reg.PGE_TB_HIT q.pge) 1).throughLeaf req q t.id t.leaf.toNat
            | none =>
              let ws := w.walks q.pge
              if ws.length < 64 ∨ (q.ctx, q.page) ∈ ws then
                (w.bump (Reg.PGE_TB_MISS q.pge) 1).setReq req { q with stage := .walk }
              else w

/-- Requests that wait for the walk of a page. -/
def Work.walkers (w : Work) (r : Nat) (ctx : Option Nat) (page : Nat) : List (Nat × Req) :=
  w.hw.reqs.filter fun e => decide (e.2.stage = .walk) && decide (e.2.pge = r) && decide (e.2.ctx = ctx) && decide (e.2.page = page)

/-- Raise the use count of the slab frame of a stacked leaf (R346). -/
def Work.useLeaf (w : Work) (id : LeafId) (leaf : Nat) : Work :=
  let f := leafFrame id.slab leaf
  if leafTier leaf = 0 ∧ f < 8388608 then
    w.updPge (f / 524288) fun p => { p with use := SMap.set 0 p.use (f / 32) (min 255 (SMap.get 0 p.use (f / 32) + 1)) }
  else w

/-- A walk ends (R337, R338, R342): all requests that share it go on, wait for a move, or fault. A walk of a page under a shootdown waits for
its end (log entry 14). `victim` is the entry that a full buffer gives up. -/
def execPageWalkDone (req : Nat) (victim : Fin 4096) (s : State) : Host.Outcome State Fault Refusal :=
  run s fun w =>
    match w.req? req with
    | none => w
    | some q =>
      let r := q.pge
      let x := q.ctx.getD 0
      if q.stage ≠ .walk ∨ !w.pgeUp r ∨ w.underInval x q.page then w
      else
        let l := w.walkers r q.ctx q.page
        let (res, w) := w.walkCount true r x q.page
        match res with
        | .fault kind level => w.forEach l fun w e => w.xlateFault e.1 e.2 kind level
        | .leaf id _ e =>
          if leafMigrating e then w.forEach l fun w p => w.setReq p.1 { p.2 with stage := .held }
          else
            let w := (w.updPge r fun p => p.fill ⟨id, BitVec.ofNat 64 e⟩ victim).useLeaf id e
            w.forEach l fun w p => w.throughLeaf p.1 p.2 id e

/-- SHADOW_V of a leaf is cleared for the write that waits on it (R339): the shadow frame goes back, the write goes on; a leaf that has
changed is dropped from the buffer and walked again. -/
def execShadowClear (req : Nat) (s : State) : Host.Outcome State Fault Refusal :=
  run s fun w =>
    match w.req? req with
    | none => w
    | some q =>
      let r := q.pge
      let x := q.ctx.getD 0
      match (w.pge r).lookup x q.page with
      | none => if q.stage = .held ∧ w.pgeUp r ∧ !w.underInval x q.page then w.setReq req { q with stage := .translate } else w
      | some t =>
        if q.stage ≠ .held ∨ !w.pgeUp r ∨ !q.op.isWrite then w
        else
          let old := t.leaf.toNat
          let again (w : Work) : Work :=
            (w.updPge r fun p => { p with tb := p.tb.filter fun y => decide (y.id ≠ t.id) }).setReq req { q with stage := .walk }
          let (res, w) := w.walk r x q.page
          match res with
          | .fault _ _ => again w
          | .leaf id at_ e =>
            if id = t.id ∧ leafTier e = 0 ∧ !leafMigrating e ∧ leafFrame id.slab e = leafFrame id.slab old then
              let e' := setBits e 3 1 0
              let w := if leafShadowV e then (w.unitPut at_ 8 e').releaseFrames 1 (leafShadow id.slab e) id.slab false else w
              let w := w.updPge r fun p => { p with tb := p.tb.map fun y => if y.id = id then { y with leaf := BitVec.ofNat 64 e' } else y }
              w.throughLeaf req { q with stage := .translate } id e'
            else again w

/-! ### Shootdowns (R340) -/

/-- Start an invalidation, and its number. -/
def Work.startInval (w : Work) (ctx lo hi : Nat) (purpose : InvalFor) : Nat × Work :=
  let n := w.hw.nextInval
  (n, { w with hw := { w.hw with nextInval := n + 1, invals := SMap.put w.hw.invals n ⟨ctx, lo, hi, [], purpose⟩ } })

/-- Has every request that region r translated in a range been accepted at its destination? -/
def Work.drainedIn (w : Work) (r : Nat) (v : Inval) : Bool :=
  !w.hw.reqs.any fun e =>
    decide (e.2.pge = r) && !e.2.isDpa && decide (e.2.ctx = some v.ctx) && decide (v.lo ≤ e.2.page) && decide (e.2.page < v.hi) &&
      (match e.2.stage with | .memory _ => true | _ => false) &&
      w.hw.chans.any fun k => k.2.waiting.any fun a => decide (a.req = some e.1)

/-- An invalidation reaches a paging unit, which drops the leaves it covers and acknowledges once it is drained (R340). -/
def execShootdown (region : RegionIx) (inval : Nat) (s : State) : Host.Outcome State Fault Refusal :=
  run s fun w =>
    let r := region.val
    match SMap.find? w.hw.invals inval with
    | none => w
    | some v =>
      if !w.pgeUp r || v.acks.contains r then w
      else
        let w := w.updPge r fun p => { p with tb := p.tb.filter fun t =>
          !(decide (t.id.ctx = v.ctx) && decide (t.id.page < v.hi) && decide (v.lo < t.id.page + t.id.pages)) }
        if w.drainedIn r v then
          { w with hw := { w.hw with invals := SMap.put w.hw.invals inval { v with acks := v.acks ++ [r] } } }
        else w

/-- Have all paging units acknowledged (R340)? -/
def allAcked (v : Inval) : Bool := (List.range 16).all fun r => v.acks.contains r

/-- A write of PGE_INVAL starts an invalidation (R340, R359). -/
def Work.pgeInval (w : Work) (v : Nat) (req : Option Nat) : Work :=
  let all := decide (bits v 10 1 = 1)
  let lo := if all then 0 else bits v 16 32
  let hi := if all then 2 ^ 32 else lo + bits v 48 16 + 1
  (w.startInval (bits v 0 10) lo hi (.write req)).2

/-- PGE_INVAL is written (R340). -/
def execPgeInval (region : RegionIx) (value : DWord) (s : State) : Host.Outcome State Fault Refusal :=
  run s fun w => Work.when (w.regTakes (Reg.PGE_INVAL region)) w fun w => w.pgeInval value.toNat none

/-! ### The migration engine (R342–R347) -/

/-- The log area of a region's reserve takes new contents of a form that the spec does not give (R342, R355; log entry 15). -/
def Work.touchLog (w : Work) (r : Nat) : Work :=
  let a := w.reserveBase r + recordBytes r
  w.makeWild a (a + 65536)

/-- Start a move: mark the leaf, write the log record, send the shootdown (steps 1 to 3 of R342). -/
def Work.startMove (w : Work) (r : Nat) (m : MigEntry) (at_ entry : Nat) (dest : Option Nat) (evict : Bool) : Work :=
  let w := w.unitPut at_ 8 (setBits entry 6 1 1)
  let w := match dest with
    | some f => w.setRecords (if m.promote then 0 else 1) f m.id.slab 1 m.id.ctx m.id.page
    | none => w
  let (n, w) := (w.touchLog r).startInval m.id.ctx m.id.page (m.id.page + m.id.pages) (.move r)
  w.updPge r fun p => { p with move := some ⟨m, dest, n, false, evict⟩ }

/-- The leaves of a region's stack that R346 may demote, with their frames. -/
def Work.demotable (w : Work) (r : Nat) : List (Nat × LeafId × Nat × Nat) :=
  (w.listedRecords r).filterMap fun e =>
    if 524288 ≤ e.1 ∨ e.2.1 ≠ 1 then none
    else match (w.walk r e.2.2.1 e.2.2.2).1 with
      | .leaf id a l =>
        if leafTier l = 0 ∧ !leafPin l ∧ !leafMigrating l ∧ bits (w.policy r id.ctx) 1 1 = 1 then some (524288 * r + e.1, id, a, l) else none
      | .fault _ _ => none

/-- The capacity port that a demotion takes its frame from: the lowest of PORTS with one free (R344; log entry 16). -/
def Work.demotePort (w : Work) (r : Nat) (slab : Bool) : Option Nat :=
  (List.range 16).find? fun p =>
    decide (bits (w.fld (Reg.PGE_EVICT_CFG r) Fld.PGE_EVICT_CFG_PORTS) p 1 = 1) && decide (0 < w.portFree p slab)

/-- Begin the demotion of a leaf: with a clean copy it needs no frame, else frame `dest` of the port in turn (R344, R347). -/
def Work.beginDemotion (w : Work) (r : Nat) (m : MigEntry) (at_ entry dest : Nat) (evict : Bool) : Work :=
  if leafShadowV entry then w.startMove r m at_ entry none evict
  else match w.demotePort r m.id.slab with
    | none => w.bump (Reg.PGE_MIG_FAIL r) 1
    | some p =>
      if dest / 2097152 = p ∧ w.framesFree 1 dest m.id.slab then w.startMove r m at_ entry (some dest) evict else w

/-- The engine takes the next queued leaf (R342). `dest` is the free frame that the allocator supplies; a leaf that has changed is given up;
a promotion without a frame waits for a demotion, or is dropped when there is none. -/
def execMigrationMove (region : RegionIx) (dest : Nat) (s : State) : Host.Outcome State Fault Refusal :=
  run s fun w =>
    let r := region.val
    let p := w.pge r
    if !w.engineUp r || !w.flag (Reg.PGE_CTRL r) Fld.PGE_CTRL_MIG_EN || p.move.isSome then w
    else match p.queue with
      | [] => w
      | m :: rest =>
        let gone := w.updPge r fun p => { p with queue := rest }
        let (res, w') := gone.walk r m.id.ctx m.id.page
        match res with
        | .fault _ _ => w'
        | .leaf id a e =>
          if id ≠ m.id ∨ BitVec.ofNat 64 e ≠ m.leaf ∨ leafMigrating e then w'
          else if m.promote then
            if leafTier e = 0 then w'
            else if w'.stackHasFree m.target m.id.slab then
              if dest / 524288 = m.target ∧ w'.framesFree 0 dest m.id.slab then w'.startMove r m a e (some dest) false else w
            else if (w'.demotable m.target).isEmpty then w'.bump (Reg.PGE_MIG_FAIL r) 1
            else w
          else if leafTier e = 1 then w'
          else
            let t := w'.beginDemotion r m a e dest false
            if (t.pge r).move.isNone && !leafShadowV e && (w'.demotePort r m.id.slab).isSome then w else t

/-- The engine demotes the stacked leaf with the lowest use count, ahead of its queue (R346). `frame` is a frame of the leaf that it chooses
among equals, `dest` the capacity frame it takes. -/
def execDemoteStart (region : RegionIx) (frame dest : Nat) (s : State) : Host.Outcome State Fault Refusal :=
  run s fun w =>
    let r := region.val
    let p := w.pge r
    let l := w.demotable r
    let use (f : Nat) : Nat := SMap.get 0 p.use (f / 32)
    let low := l.foldl (fun n e => min n (use e.1)) 255
    let wanted := decide (w.freeSlabs r < w.fld (Reg.PGE_EVICT_CFG r) Fld.PGE_EVICT_CFG_FREE_LOW) ||
      (List.range 16).any fun q => match (w.pge q).queue with
        | m :: _ => m.promote && decide (m.target = r) && !w.stackHasFree r m.id.slab
        | [] => false
    if !w.engineUp r || !w.flag (Reg.PGE_CTRL r) Fld.PGE_CTRL_MIG_EN || p.move.isSome || !wanted then w
    else match l.find? fun e => decide (e.1 = frame) && decide (use frame = low) with
      | none => w
      | some (_, id, a, e) => w.beginDemotion r ⟨id, BitVec.ofNat 64 e, false, r⟩ a e dest true

/-- Copy one frame, crumb by crumb; a poisoned or unreadable crumb is copied as a poison codeword (R342). -/
def Work.copyFrames (w : Work) (src dst frames : Nat) : Work :=
  w.forEach (List.range (frames * 2048)) fun w k =>
    let (b, w) := w.unitRead (src + 32 * k) 32
    match b with
    | some bytes => w.unitWrite (dst + 32 * k) bytes
    | none => w.setPoison ((dst + 32 * k) / 32) true

/-- Requests that wait on a leaf go on: they are translated anew. -/
def Work.wakeHeld (w : Work) (id : LeafId) : Work :=
  { w with hw := { w.hw with reqs := w.hw.reqs.map fun e =>
      (e.1, if e.2.stage = .held ∧ id.holds (e.2.ctx.getD 1024) e.2.page then { e.2 with stage := .translate } else e.2) } }

/-- A move's copy ends: the new leaf is written and the old frames are returned (steps 4 to 6 of R342, R344). -/
def execMigrationCopyDone (region : RegionIx) (s : State) : Host.Outcome State Fault Refusal :=
  run s fun w =>
    let r := region.val
    match (w.pge r).move with
    | none => w
    | some v =>
      if !w.engineUp r || !v.free then w
      else
        let m := v.entry
        let slab := m.id.slab
        let n := m.id.pages
        let (res, w) := w.walk r m.id.ctx m.id.page
        match res with
        | .fault _ _ =>
          let w := match v.dest with | some d => w.releaseFrames (if m.promote then 0 else 1) d slab false | none => w
          (w.updPge r fun p => { p with move := none }).touchLog r
        | .leaf _ a e =>
          let f := leafFrame slab e
          let w := match v.dest with
            | none =>
              let w := w.unitPut a 8 (setBits (setBits (setBits (setBits (setBits e 6 1 0) 9 25 (leafShadow slab e)) 34 25 0) 3 1 0) 2 1 1)
              (w.setRecords 1 (leafShadow slab e) slab 1 m.id.ctx m.id.page).releaseFrames 0 f slab (leafPoisoned e)
            | some d =>
              let w := (w.copyFrames (frameDpa (leafTier e) f) (frameDpa (if m.promote then 0 else 1) d) n).bump
                (Reg.PGE_COPY_BYTES r) (65536 * n)
              if m.promote then
                let w := w.unitPut a 8 (setBits (setBits (setBits (setBits (setBits e 6 1 0) 9 25 d) 34 25 f) 3 1 1) 2 1 0)
                w.setRecords 1 f slab 2 m.id.ctx m.id.page
              else
                let w := w.unitPut a 8 (setBits (setBits (setBits (setBits e 6 1 0) 9 25 d) 3 1 0) 2 1 1)
                w.releaseFrames 0 f slab (leafPoisoned e)
          let w := w.bump (if m.promote then Reg.PGE_PROMOTED r else Reg.PGE_DEMOTED r) 1
          ((w.updPge r fun p => { p with move := none }).touchLog r).wakeHeld m.id

/-- The counts of a region's paging unit are halved (R345, R346). -/
def execEpochHalve (region : RegionIx) (s : State) : Host.Outcome State Fault Refusal :=
  run s fun w =>
    if !w.engineUp region then w
    else w.updPge region fun p =>
      { p with
        access := p.access.map fun a => { a with count := a.count / 2 }
        use := (p.use.map fun e => (e.1, e.2 / 2)).filter fun e => decide (e.2 ≠ 0) }

/-! ### Hints (R348, R349) -/

/-- A region's engine examines a hint and forwards each of its slabs to the slab's target region (R348). -/
def execHintReceive (region : RegionIx) (s : State) : Host.Outcome State Fault Refusal :=
  run s fun w =>
    let r := region.val
    match (w.pge r).hints with
    | [] => w
    | h :: rest =>
      if !w.engineUp r then w
      else
        let w := w.updPge r fun p => { p with hints := rest }
        let pol := w.policy r h.ctx
        w.forEach (List.range h.count) fun w i =>
          let slab := h.slab + i
          let t := placeRegion pol r (32 * slab)
          w.updPge t fun p => { p with slabs := p.slabs ++ [⟨h.ctx, slab, 1, h.release⟩] }

/-- The mapped leaves of a slab. -/
def Work.slabLeaves (w : Work) (r ctx slab : Nat) : List (LeafId × Nat) :=
  ((List.range 32).filterMap fun i =>
    match (w.walk r ctx (32 * slab + i)).1 with
    | .leaf id _ e => if id.slab ∧ i ≠ 0 then none else some (id, e)
    | .fault _ _ => none)

/-- A forwarded slab is acted on (R348): promotions for PREPAGE, use counts and demotions for RELEASE. -/
def execHintSlab (region : RegionIx) (s : State) : Host.Outcome State Fault Refusal :=
  run s fun w =>
    let r := region.val
    match (w.pge r).slabs with
    | [] => w
    | h :: rest =>
      if !w.engineUp r then w
      else
        let w := w.updPge r fun p => { p with slabs := rest }
        let pol := w.policy r h.ctx
        let l := w.slabLeaves r h.ctx h.slab
        if !w.flag (Reg.PGE_CTRL r) Fld.PGE_CTRL_MIG_EN ∨ bits pol 0 1 = 0 ∨ bits pol 1 1 = 0 ∨ bits pol 2 1 = 0 ∨ l.isEmpty then
          w.bump (Reg.PGE_HINT_SKIP r) 1
        else
          w.forEach l fun w p =>
            let (id, e) := p
            let drop (w : Work) : Work := w.bump (Reg.PGE_HINT_DROP r) 1
            if h.release then
              if leafTier e = 1 then w
              else
                let f := leafFrame id.slab e
                let w := w.updPge (f / 524288) fun p => { p with use := SMap.set 0 p.use (f / 32) 0 }
                if w.flag (Reg.PGE_POLICY r) Fld.PGE_POLICY_RELEASE_NOW && !leafPin e then w.queueMove r ⟨id, BitVec.ofNat 64 e, false, r⟩ drop else w
            else if leafTier e = 1 ∧ !leafPin e then w.queueMove r ⟨id, BitVec.ofNat 64 e, true, r⟩ drop
            else w

/-! ### Findings (R356–R358) -/

/-- Capture a finding: its address, the action taken and whose leaf it met. -/
def Work.pgeFinding (w : Work) (r : Nat) (u : UeReport) (action : Nat) (ctx : Option Nat) (bit : Fld) : Work :=
  let info := ctx.getD 0 + (if ctx.isSome then 1 else 0) * 2 ^ 10 + action * 2 ^ 11 + (if u.scrub then 0 else 1) * 2 ^ 14
  ((w.setFlag (Reg.PGE_ERR_STAT r) bit true).w32 (Reg.PGE_ERR_INFO r) (BitVec.ofNat 32 info)).w64 (Reg.PGE_ERR_ADDR r) (BitVec.ofNat 64 u.dpa)

/-- Poison the failing crumbs of a burst. -/
def Work.poisonBurst (w : Work) (u : UeReport) : Work :=
  let w := if u.crumb0 then w.setPoison (u.dpa / 32) true else w
  if u.crumb1 then w.setPoison (u.dpa / 32 + 1) true else w

/-- Step 6 of R356: the crumbs are poisoned and the leaf is marked. -/
def Work.poisonLeaf (w : Work) (r : Nat) (u : UeReport) (ctx : Option Nat) (leaf : Option (Nat × Nat)) : Work :=
  let w := w.poisonBurst u
  let w := match leaf with | some (a, e) => w.unitPut a 8 (setBits e 5 1 1) | none => w
  (w.pgeFinding r u 3 ctx Fld.PGE_ERR_STAT_POISONED).fault
    { kind := 0x12, level := 2, lasting := true, ctx := ctx, die := r, unit := 8, core := 0, gen := 0, tag := 0, addr := some (u.dpa, false),
      detail := 0 }

/-- The paging unit handles the oldest finding reported to it (R356). `reread` is the outcome of the second read of a scrub finding, `shadow`
whether the burst of the clean copy reads well. -/
def execPgeUeReport (region : RegionIx) (reread : ReadCheck) (shadow : Bool) (s : State) : Host.Outcome State Fault Refusal :=
  run s fun w =>
    let r := region.val
    match SMap.get [] w.hw.ueReports r with
    | [] => w
    | u :: rest =>
      if !w.engineUp r then w
      else
        let w := { w with hw := { w.hw with ueReports := SMap.set [] w.hw.ueReports r rest } }
        let tier := if u.dpa < 0x20000000000 then 0 else 1
        let f := if tier = 0 then u.dpa / 65536 else (u.dpa - 0x20000000000) / 65536
        if u.scrub && decide (reread ≠ .lasting) then
          (w.pgeFinding r u 0 none Fld.PGE_ERR_STAT_SCRUB_TRANSIENT).transientCount
            { kind := 0x12, level := 2, lasting := false, ctx := none, die := r, unit := 8, core := 0, gen := 0, tag := 0, addr := none,
              detail := 0 } (Reg.PGE_ERR_STAT r) Fld.PGE_ERR_STAT_TRANSIENT_CNT
        else if !w.alcOn (frameOwner tier f) || w.reserveShort (frameOwner tier f) then w.poisonLeaf r u none none
        else
          let (st, ctx, page) := w.record? tier f
          if st = 0 then (w.retireFrame tier f).pgeFinding r u 4 none Fld.PGE_ERR_STAT_RETIRED
          else if st = 3 then
            ((w.poisonBurst u).pgeFinding r u 5 none Fld.PGE_ERR_STAT_RESERVE_UE).fault
              { kind := 0x13, level := 2, lasting := true, ctx := none, die := r, unit := 8, core := 0, gen := 0, tag := 0,
                addr := some (u.dpa, false), detail := 0 }
          else if st = 4 then w.poisonLeaf r u none none
          else
            let (res, w) := w.walk r ctx page
            match res with
            | .fault _ _ => w.poisonLeaf r u none none
            | .leaf id a e =>
              let off := u.dpa % (if id.slab then 2 ^ 21 else 65536)
              if st = 2 then
                let w := w.unitPut a 8 (setBits e 3 1 0)
                (w.releaseFrames 1 (leafShadow id.slab e) id.slab false).retireFrame tier f |>.pgeFinding r u 2 (some ctx)
                  Fld.PGE_ERR_STAT_SHADOW_DROPPED
              else if leafShadowV e && w.flag (Reg.PGE_CTRL r) Fld.PGE_CTRL_RESTORE_EN then
                let (b, w) := w.unitRead (frameDpa 1 (leafShadow id.slab e) + off) 64
                match b with
                | some bytes =>
                  if shadow then (w.unitWrite u.dpa bytes).pgeFinding r u 1 (some ctx) Fld.PGE_ERR_STAT_RESTORED
                  else w.poisonLeaf r u (some ctx) (some (a, e))
                | none => w.poisonLeaf r u (some ctx) (some (a, e))
              else w.poisonLeaf r u (some ctx) (some (a, e))

end Sys2Proof.Machine
end

