-- ==== Sys2Proof/Machine/Alc.lean ====
section
/-! DEFINITION. The allocators (R351–R355) and the end of shootdowns. Where the spec leaves open which free frame, granule, index or table place
an allocator takes, the command carries the choice and the model checks that it is a free one (log entry 18). -/

namespace Sys2Proof.Machine

/-! ### Command records (R351, R352) -/

def AlcRec.word (a : AlcRec) (i lsb width : Nat) : Nat := bits a.body.toNat (32 * i + lsb) width
def AlcRec.op (a : AlcRec) : Nat := a.word 0 0 4
def AlcRec.ctx (a : AlcRec) : Nat := a.word 0 16 10
def AlcRec.pin (a : AlcRec) : Bool := decide (a.word 0 26 1 = 1)
def AlcRec.zero (a : AlcRec) : Bool := decide (a.word 0 27 1 = 1)
def AlcRec.tier (a : AlcRec) : Nat := a.word 0 28 2
def AlcRec.count (a : AlcRec) : Nat := a.word 1 0 16
def AlcRec.ports (a : AlcRec) : Nat := a.word 1 16 16
def AlcRec.arg (a : AlcRec) : Nat := bits a.body.toNat 64 64
def AlcRec.sig (a : AlcRec) : Nat := bits a.body.toNat 192 64
/-- First page of a MAP, UNMAP or QUERY: ARG as a CVA. -/
def AlcRec.page (a : AlcRec) : Nat := a.arg % 2 ^ 48 / 65536

/-- Clamp one field of a record. -/
def clampRec (who : ClampBy) (dpa word lsb width : Nat) (f : Nat → Nat × Option ClampRule) (st : Work × Nat) : Work × Nat :=
  match f (bits st.2 (32 * word + lsb) width) with
  | (_, none) => st
  | (v, some rule) => (st.1.clamp who (dpa + 4 * word) word lsb rule, setBits st.2 (32 * word + lsb) width v)

/-- A count cut so that it is at most `room`. -/
def atMost (room x : Nat) : Nat × Option ClampRule := if x ≤ room then (x, none) else (room, some .joined)

/-- Clamp a record as it is read: OP, COUNT, the alignment of ARG, then the joined limits of COUNT (R352). -/
def Work.clampRecord (w : Work) (who : ClampBy) (dpa rec : Nat) : Work × Nat :=
  let st := clampRec who dpa 0 0 4 (Legal.take 10 15 9).apply (w, rec)
  let st := clampRec who dpa 1 0 16 (Legal.range 1 65535).apply st
  let op := bits st.2 0 4
  let st := if op = 1 ∨ op = 3 then clampRec who dpa 2 0 64 (Legal.align 65536).apply st
    else if op = 2 then clampRec who dpa 2 0 64 (Legal.align (2 ^ 21)).apply st
    else st
  let arg := bits st.2 64 64
  if op = 1 then clampRec who dpa 1 0 16 (atMost ((0xC00000000000 - arg) / 65536)) st
  else if op = 2 then clampRec who dpa 1 0 16 (atMost ((0xC00000000000 - arg) / 2 ^ 21)) st
  else if op = 4 then clampRec who dpa 1 0 16 (atMost 256) st
  else if op = 5 then clampRec who dpa 1 0 16 (atMost (256 - bits arg 8 24 / 65536)) st
  else if op = 6 then clampRec who dpa 1 0 16 (atMost 16384) st
  else if op = 7 then clampRec who dpa 1 0 16 (atMost (16384 - arg)) st
  else st

/-- The allocator that performs a record (R331, R351): the home region, the region of the named core, or the receiver. -/
def AlcRec.performer (a : AlcRec) : Nat :=
  if a.op = 4 ∨ a.op = 5 then a.arg % 256 / 16
  else if a.op = 0 ∨ a.op = 6 ∨ a.op = 7 then a.received
  else a.ctx % 16

/-- An allocator. -/
def Work.alc (w : Work) (r : Nat) : Alc := SMap.get Alc.reset w.hw.alcs r

/-- Change an allocator. -/
def Work.updAlc (w : Work) (r : Nat) (f : Alc → Alc) : Work :=
  { w with hw := { w.hw with alcs := SMap.set Alc.reset w.hw.alcs r (f (w.alc r)) } }

/-- Write RESULT and STATUS into a record, and signal (R353). -/
def Work.recordDone (w : Work) (r : Nat) (a : AlcRec) (status result : Nat) : Work :=
  ((w.unitPut (a.dpa + 16) 8 result).unitPut (a.dpa + 1) 1 status).unitSignal r 8 a.sig 1

/-- Complete the first record of an allocator. -/
def Work.alcDone (w : Work) (r : Nat) (a : AlcRec) (status result : Nat) : Work :=
  ((w.updAlc r fun x => { x with queue := x.queue.drop 1, waiting := false }).bump (Reg.ALC_CMDS r) 1).recordDone r a status result

/-- A record's DPA is written to ALC_SUBMIT of region r (R351): it is read, clamped, forwarded and queued, or turned away. -/
def Work.alcSubmit (w : Work) (m : Master) (r value : Nat) : Work :=
  let who := w.clampBy m
  let (v, w) := w.woWrite who (Reg.ALC_SUBMIT r) value
  let dpa := bits v 0 46
  let (e, w) := w.unitLE dpa 32
  match e with
  | none => w
  | some rec =>
    let (w, rec) := w.clampRecord who dpa rec
    let a : AlcRec := ⟨dpa, r, BitVec.ofNat 256 rec⟩
    let p := a.performer
    if w.alcOn p && decide ((w.alc p).queue.length < 64) then w.updAlc p fun x => { x with queue := x.queue ++ [a] }
    else (w.setFlag (Reg.ALC_ERR_STAT p) Fld.ALC_ERR_STAT_REJECTED true).recordDone p a 5 0

/-- ALC_SUBMIT is written (R351). -/
def execAlcSubmit (master : Master) (region : RegionIx) (value : DWord) (s : State) : Host.Outcome State Fault Refusal :=
  run s fun w => Work.when (w.regTakes (Reg.ALC_SUBMIT region)) w fun w => w.alcSubmit master region value.toNat

/-- Perform the first record of an allocator if its operation is `op` (R351, R352). -/
def Work.alcRun (w : Work) (r op : Nat) (f : Work → AlcRec → Work) : Work :=
  match (w.alc r).queue with
  | [] => w
  | a :: _ => if w.alcOn r && decide (a.op = op) && !(w.alc r).waiting then f w a else w

/-- NOP (R352). -/
def execAlcNop (region : RegionIx) (s : State) : Host.Outcome State Fault Refusal :=
  run s fun w => w.alcRun region 0 fun w a => w.alcDone region a 1 0

/-! ### The table pool (R354, R355) -/

/-- The table pool of an allocator: first byte and end. -/
def Work.poolRange (w : Work) (r : Nat) : Nat × Nat :=
  (w.reserveBase r + recordBytes r + 65536, w.reserveBase r + w.reserveBytes r)

/-- Kind of the table in the 4 KiB block at `b`: a whole 4 KiB table, or 256-byte page tables, and how many. -/
def Work.blockTables (w : Work) (b : Nat) : Bool × Nat :=
  (decide (0 < SMap.get 0 w.hw.tables (b / 256)) && decide (SMap.get 0 w.hw.tables (b / 256) ≤ 1024),
   ((List.range 16).filter fun i => decide (0 < SMap.get 0 w.hw.tables (b / 256 + i))).length)

/-- May a table of 4 KiB, or of 256 bytes, lie at a DPA? -/
def Work.tableFits (w : Work) (r a : Nat) (small : Bool) : Bool :=
  let p := w.poolRange r
  let t := w.blockTables (a / 4096 * 4096)
  decide (p.1 ≤ a) && decide (a + (if small then 256 else 4096) ≤ p.2) &&
    (if small then decide (a % 256 = 0) && !t.1 && decide (SMap.get 0 w.hw.tables (a / 256) = 0)
     else decide (a % 4096 = 0) && decide (t.2 = 0))

/-- Is there a place for another table? -/
def Work.tableRoom (w : Work) (r : Nat) (small : Bool) : Bool :=
  let p := w.poolRange r
  let mine := w.hw.tables.filter fun e => decide (p.1 ≤ 256 * e.1) && decide (256 * e.1 < p.2)
  let blocks := (mine.map fun e => e.1 / 16).dedup
  decide (blocks.length < p.2 / 4096 - (p.1 + 4095) / 4096) ||
    (small && blocks.any fun b => !(w.blockTables (4096 * b)).1 && decide ((w.blockTables (4096 * b)).2 < 16))

/-- How far a MAP got: the choices left, the frames taken so far, or an end. -/
inductive Mapping where
  | going (choices : List Nat) (taken : List (Nat × Nat))
  | nomem
  | badChoice
deriving DecidableEq, Repr

/-- Build a missing table at the place chosen, all its entries empty. -/
def Work.makeTable (w : Work) (r ctx : Nat) (small : Bool) (choices : List Nat) : Option (Nat × List Nat) × Work :=
  match choices with
  | c :: rest =>
    if w.tableFits r c small then
      let w := w.unitWrite c (List.replicate (if small then 256 else 4096) 0)
      (some (c, rest), { w with hw := { w.hw with
        tables := SMap.set 0 w.hw.tables (c / 256) (1 + ctx + (if small then 1024 else 0)) } })
    else (none, w)
  | [] => (none, w)

/-- Give entry `at_` of a table a next table when it has none: the entry's place one level down. `idx` the index there. -/
def Work.tableBelow (w : Work) (r ctx at_ idx : Nat) (small root : Bool) (choices : List Nat) : Mapping × Nat × Work :=
  let e := ((w.unitLE at_ 8).1).getD 0
  let next := if root then bits e 12 34 * 4096 else bits e 8 38 * 256
  if leafV e then (.going choices [], next + 8 * idx, w)
  else if !w.tableRoom r small then (.nomem, 0, w)
  else match w.makeTable r ctx small choices with
    | (none, w) => (.badChoice, 0, w)
    | (some (t, rest), w) =>
      let e' := if root then e % 4096 / 2 * 2 + 1 + t else t + 1
      (.going rest [], t + 8 * idx, w.unitPut at_ 8 e')

/-- The place of the leaf entry of a page or slab, with the missing tables built (R333, R354). -/
def Work.leafPlace (w : Work) (r ctx page : Nat) (slab : Bool) (choices : List Nat) : Mapping × Nat × Work :=
  let down (st : Mapping × Nat × Work) (idx : Nat) (small root : Bool) : Mapping × Nat × Work :=
    match st with
    | (.going c _, a, w) => w.tableBelow r ctx a idx small root c
    | x => x
  let st := down (.going choices [], w.rootEntry r ctx, w) (page / 2 ^ 23 % 512) false true
  let st := down st (page / 2 ^ 14 % 512) false false
  let st := down st (page / 32 % 512) false false
  if slab then st else down st (page % 32) true false

/-! ### MAP (R353, R354) -/

/-- Where a leaf's frames come from: a region's stack or a capacity port, given the frames taken already; none when nothing is free. -/
def Work.mapSource (w : Work) (a : AlcRec) (page : Nat) (slab : Bool) (taken : List (Nat × Nat)) : Option (Nat × Nat) :=
  let stack (r : Nat) : Option (Nat × Nat) :=
    let used := (taken.filter fun t => decide (t.1 = 0) && decide (t.2 / 524288 = r)).length
    if used < (if w.stackHasFree r slab then (if slab then w.freeSlabs r else w.freeStacked r) else 0) then some (0, r) else none
  let cap : Option (Nat × Nat) :=
    ((List.range 16).find? fun p =>
      decide (bits a.ports p 1 = 1) &&
        decide ((taken.filter fun t => decide (t.1 = 1) && decide (t.2 / 2097152 = p)).length < w.portFree p slab)).map fun p => (1, p)
  match a.tier with
  | 0 => stack a.received
  | 1 => stack (placeRegion (w.policy (a.ctx % 16) a.ctx) a.received page)
  | 2 => cap
  | _ => (stack a.received).or cap

/-- Map one leaf: its tables, its frames, the zero fill, the records, the entry. -/
def Work.mapLeaf (w : Work) (r : Nat) (a : AlcRec) (page : Nat) (slab : Bool) (choices : List Nat) (taken : List (Nat × Nat)) :
    Mapping × Work :=
  match w.leafPlace r a.ctx page slab choices with
  | (.going rest _, at_, w) =>
    match w.mapSource a page slab taken with
    | none => (.nomem, w)
    | some (tier, src) =>
      match rest with
      | [] => (.badChoice, w)
      | f :: rest =>
        let from_ := decide ((if tier = 0 then f / 524288 else f / 2097152) = src)
        if from_ && w.framesFree tier f slab && !taken.contains (tier, f) then
          let n := if slab then 32 else 1
          let w := if a.zero then
              w.forEach (List.range (n * 1024)) fun w k => w.unitWrite (frameDpa tier f + 64 * k) (List.replicate 64 0)
            else w
          let w := (w.setRecords tier f slab 1 a.ctx page).unitPut at_ 8 (leafOf tier f a.pin)
          (.going rest (taken ++ [(tier, f)]), w)
        else (.badChoice, w)
  | (m, _, w) => (m, w)

/-- Is any page of a range mapped? -/
def Work.anyMapped (w : Work) (r ctx page n : Nat) : Bool :=
  (List.range n).any fun i => match (w.walk r ctx (page + i)).1 with | .leaf _ _ _ => true | .fault _ _ => false

/-- A MAP of pages or slabs: MAPPED and NOMEM change nothing but the record (R353). -/
def Work.doMap (w : Work) (r : Nat) (a : AlcRec) (slab : Bool) (choices : List Nat) : Work :=
  let unit := if slab then 32 else 1
  if w.reserveShort r then w.alcDone r a 2 0
  else if w.anyMapped r a.ctx a.page (a.count * unit) then w.alcDone r a 3 0
  else
    let (m, w') := (List.range a.count).foldl (fun (st : Mapping × Work) i =>
      match st with
      | (.going c t, w) => w.mapLeaf r a (a.page + i * unit) slab c t
      | x => x) (.going choices [], w)
    match m with
    | .going _ taken => w'.alcDone r a 1 ((taken.headD (0, 0)).2)
    | .nomem => w.alcDone r a 2 0
    | .badChoice => w

/-- MAP_PAGES (R354). `choices`: for each leaf in order the places of the tables it misses, then its frame. -/
def execMapPages (region : RegionIx) (choices : List Nat) (s : State) : Host.Outcome State Fault Refusal :=
  run s fun w => w.alcRun region 1 fun w a => w.doMap region a false choices

/-- MAP_SLABS (R354). -/
def execMapSlabs (region : RegionIx) (choices : List Nat) (s : State) : Host.Outcome State Fault Refusal :=
  run s fun w => w.alcRun region 2 fun w a => w.doMap region a true choices

/-! ### UNMAP (R354) -/

/-- The leaves that map pages of a range: their names, places and entries, each once. -/
def Work.leavesIn (w : Work) (r ctx page n : Nat) : List (LeafId × Nat × Nat) :=
  ((List.range n).filterMap fun i => match (w.walk r ctx (page + i)).1 with
    | .leaf id a e => some (id, a, e)
    | .fault _ _ => none).dedup

/-- The valid entries of a table, as (index, entry). -/
def Work.validEntries (w : Work) (table n : Nat) : List (Nat × Nat) :=
  (List.range n).filterMap fun i =>
    let e := ((w.unitLE (table + 8 * i) 8).1).getD 0
    if leafV e then some (i, e) else none

/-- All leaves of a context. -/
def Work.ctxLeaves (w : Work) (r ctx : Nat) : List (LeafId × Nat × Nat) :=
  let root := ((w.unitLE (w.rootEntry r ctx) 8).1).getD 0
  if !leafV root then []
  else (w.validEntries (bits root 12 34 * 4096) 384).flatMap fun e1 =>
    (w.validEntries (bits e1.2 8 38 * 256) 512).flatMap fun e2 =>
      let slabs := bits e2.2 8 38 * 256
      (w.validEntries slabs 512).flatMap fun e3 =>
        let page := ((e1.1 * 512 + e2.1) * 512 + e3.1) * 32
        if bits e3.2 1 1 = 1 then [(⟨ctx, page, true⟩, slabs + 8 * e3.1, e3.2)]
        else (w.validEntries (bits e3.2 8 38 * 256) 32).map fun e4 => (⟨ctx, page + e4.1, false⟩, bits e3.2 8 38 * 256 + 8 * e4.1, e4.2)

/-- The leaves that a record removes: those that lie wholly in its range, or all of its context's. -/
def Work.unmapLeaves (w : Work) (r : Nat) (a : AlcRec) : List (LeafId × Nat × Nat) :=
  if a.op = 8 then w.ctxLeaves r a.ctx
  else (w.leavesIn r a.ctx a.page a.count).filter fun l => decide (a.page ≤ l.1.page) && decide (l.1.page + l.1.pages ≤ a.page + a.count)

/-- Begin an UNMAP: wait while a leaf migrates, then send the shootdown (R354). -/
def Work.beginUnmap (w : Work) (r : Nat) (a : AlcRec) : Work :=
  if (w.unmapLeaves r a).any fun l => leafMigrating l.2.2 then w
  else
    let (lo, hi) := if a.op = 8 then (0, 2 ^ 32) else (a.page, a.page + a.count)
    ((w.startInval a.ctx lo hi (.unmap r)).2).updAlc r fun x => { x with waiting := true }

/-- UNMAP begins (R354). -/
def execUnmap (region : RegionIx) (s : State) : Host.Outcome State Fault Refusal :=
  run s fun w => w.alcRun region 3 fun w a => w.beginUnmap region a

/-- UNMAP_CTX begins (R354). -/
def execUnmapCtx (region : RegionIx) (s : State) : Host.Outcome State Fault Refusal :=
  run s fun w => w.alcRun region 8 fun w a => w.beginUnmap region a

/-- Remove a leaf: its entry, its frames and its clean copy. -/
def Work.removeLeaf (w : Work) (l : LeafId × Nat × Nat) : Work :=
  let (id, a, e) := l
  let w := (w.unitPut a 8 0).releaseFrames (leafTier e) (leafFrame id.slab e) id.slab (leafPoisoned e)
  if leafShadowV e then w.releaseFrames 1 (leafShadow id.slab e) id.slab false else w

/-- Give up all that a context holds beside its leaves (R352, R354): tables, granules, indices, queued moves, V of its root entry. -/
def Work.dropCtx (w : Work) (r x : Nat) : Work :=
  let w := w.unitPut (w.rootEntry r x) 8 (setBits (((w.unitLE (w.rootEntry r x) 8).1).getD 0) 0 1 0)
  { w with hw := { w.hw with
    tables := w.hw.tables.filter fun e => decide ((e.2 - 1) % 1024 ≠ x)
    granules := w.hw.granules.filter fun e => decide (e.2 ≠ x + 1)
    descOwner := w.hw.descOwner.filter fun e => decide (e.2 ≠ x + 1)
    paging := w.hw.paging.map fun e => (e.1, { e.2 with queue := e.2.queue.filter fun m => decide (m.id.ctx ≠ x) }) } }

/-- An UNMAP ends once its shootdown is acknowledged (R353, R354). -/
def Work.finishUnmap (w : Work) (r : Nat) : Work :=
  match (w.alc r).queue with
  | [] => w
  | a :: _ =>
    let l := w.unmapLeaves r a
    let part := a.op ≠ 8 ∧ (w.leavesIn r a.ctx a.page a.count).length ≠ l.length
    let w := w.forEach l fun w x => w.removeLeaf x
    let w := if a.op = 8 then w.dropCtx r a.ctx else w
    w.alcDone r a (if part then 4 else 1) l.length

/-- All paging units have acknowledged an invalidation: the change it was for goes on (R340). -/
def execShootdownAck (inval : Nat) (s : State) : Host.Outcome State Fault Refusal :=
  run s fun w =>
    match SMap.find? w.hw.invals inval with
    | none => w
    | some v =>
      if !allAcked v then w
      else
        let w := { w with hw := { w.hw with invals := SMap.del w.hw.invals inval } }
        match v.purpose with
        | .write (some i) => w.answer i .ok
        | .write none => w
        | .move r => w.updPge r fun p => { p with move := p.move.map fun m => if m.inval = inval then { m with free := true } else m }
        | .unmap r => if (w.alc r).waiting then w.finishUnmap r else w

/-! ### Scratchpad granules and descriptor indices (R352, R370) -/

/-- Is granule n of global core g free for ALLOC_SPM (R370)? -/
def Work.granuleFree (w : Work) (g n : Nat) : Bool :=
  decide (SMap.get 0 w.hw.granules (256 * g + n) = 0) &&
    !(List.range 1024).any fun x => w.ctxLive x && w.ctxMask x g && decide (w.wsFirst x ≤ n) && decide (n < w.wsFirst x + w.wsCount x)

/-- Is there a run of `n` free places among the first `size`? -/
def hasRun (size n : Nat) (free : Nat → Bool) : Bool := (List.range (size + 1 - n)).any fun s => (List.range n).all fun i => free (s + i)

/-- ALLOC_SPM (R352): `start` is the first granule that the allocator chooses. -/
def execAllocSpm (region : RegionIx) (start : Fin 256) (s : State) : Host.Outcome State Fault Refusal :=
  run s fun w => w.alcRun region 4 fun w a =>
    let g := a.arg % 256
    if !hasRun 256 a.count (w.granuleFree g) then w.alcDone region a 2 0
    else if start.val + a.count ≤ 256 ∧ (List.range a.count).all (fun i => w.granuleFree g (start.val + i)) then
      let m := (List.range a.count).foldl (fun m i => SMap.set 0 m (256 * g + start.val + i) (a.ctx + 1)) w.hw.granules
      { w with hw := { w.hw with granules := m } }.alcDone region a 1 (65536 * start.val)
    else w

/-- FREE_SPM (R352). -/
def execFreeSpm (region : RegionIx) (s : State) : Host.Outcome State Fault Refusal :=
  run s fun w => w.alcRun region 5 fun w a =>
    let first := 256 * (a.arg % 256) + bits a.arg 8 24 / 65536
    if (List.range a.count).all fun i => decide (SMap.get 0 w.hw.granules (first + i) = a.ctx + 1) then
      let m := (List.range a.count).foldl (fun m i => SMap.set 0 m (first + i) 0) w.hw.granules
      { w with hw := { w.hw with granules := m } }.alcDone region a 1 0
    else w.alcDone region a 6 0

/-- ALLOC_DESC (R352): `start` is the first index that the allocator chooses. -/
def execAllocDesc (region : RegionIx) (start : Fin 16384) (s : State) : Host.Outcome State Fault Refusal :=
  run s fun w => w.alcRun region 6 fun w a =>
    let free (i : Nat) : Bool := decide (SMap.get 0 w.hw.descOwner (16384 * region.val + i) = 0)
    if !hasRun 16384 a.count free then w.alcDone region a 2 0
    else if start.val + a.count ≤ 16384 ∧ (List.range a.count).all (fun i => free (start.val + i)) then
      let m := (List.range a.count).foldl (fun m i => SMap.set 0 m (16384 * region.val + start.val + i) (a.ctx + 1)) w.hw.descOwner
      { w with hw := { w.hw with descOwner := m } }.alcDone region a 1 start.val
    else w

/-- FREE_DESC (R352). -/
def execFreeDesc (region : RegionIx) (s : State) : Host.Outcome State Fault Refusal :=
  run s fun w => w.alcRun region 7 fun w a =>
    let first := 16384 * region.val + a.arg
    if a.arg < 16384 ∧ (List.range a.count).all (fun i => decide (SMap.get 0 w.hw.descOwner (first + i) = a.ctx + 1)) then
      let m := (List.range a.count).foldl (fun m i => SMap.set 0 m (first + i) 0) w.hw.descOwner
      { w with hw := { w.hw with descOwner := m } }.alcDone region a 1 0
    else w.alcDone region a 6 0

/-- QUERY (R352): the leaf entry that maps ARG, or zero. -/
def execQuery (region : RegionIx) (s : State) : Host.Outcome State Fault Refusal :=
  run s fun w => w.alcRun region 9 fun w a =>
    match w.walk region a.ctx a.page with
    | (.leaf _ _ e, w) => w.alcDone region a 1 e
    | (.fault _ _, w) => w.alcDone region a 1 0

end Sys2Proof.Machine
end

