-- ==== Sys2Proof/Machine/Lnk.lean ====
section
/-! DEFINITION. The Nopoig ports (R419–R453): flits and their checks, packets taken from flits, replay, credits, training, the choice of the
next packet. -/

namespace Sys2Proof.Machine

/-! ### Flits (R423–R426) -/

/-- One bit of the CRC-16 of R424. -/
def crcBit (crc : Nat) : Nat := if 0x8000 ≤ crc then ((2 * crc) ^^^ 0x8BB7) % 65536 else 2 * crc

/-- One byte, most significant bit first. -/
def crcByte (crc byte : Nat) : Nat :=
  crcBit (crcBit (crcBit (crcBit (crcBit (crcBit (crcBit (crcBit (crc ^^^ (256 * byte)))))))))

/-- The CRC-16 of R424 over bytes in ascending order. -/
def crc16 (bytes : List Nat) : Nat := bytes.foldl crcByte 0xFFFF

/-- Byte i of a flit. -/
def flitByte (f : BitVec 1024) (i : Nat) : Nat := (f.toNat >>> (8 * i)) % 256

/-- The body of a flit. -/
def flitBody (f : BitVec 1024) : List Nat := (List.range 126).map (flitByte f)

/-- Does a flit pass its check as the kind `k` (0 data, 1 link) with sequence number `seq` (R424, R425)? -/
def flitPasses (f : BitVec 1024) (seq k : Nat) : Bool :=
  decide (crc16 (seq % 256 :: seq / 256 % 256 :: k :: flitBody f) = flitByte f 126 + 256 * flitByte f 127)

/-- A field of a link flit: 16 bits from byte i. -/
def flitWord (f : BitVec 1024) (i : Nat) : Nat := flitByte f i + 256 * flitByte f (i + 1)

/-! ### Shares and credits (R432, R433) -/

/-- The share that LNK_RXBUF_CFG gives virtual channel v. -/
def Work.rxShare (w : Work) (p v : Nat) : Nat :=
  let a := if v < 4 then Reg.LNK_RXBUF_CFG_0 p else Reg.LNK_RXBUF_CFG_1 p
  bits (w.r64 a).toNat (16 * (v % 4)) 16

/-- The share of VC7 is clamped where the shares sum to more than the buffer (R432). -/
def Work.clampShares (w : Work) (who : ClampBy) (p : Nat) : Work :=
  let rest := ((List.range 7).map (w.rxShare p)).sum
  let v7 := w.rxShare p 7
  let take := max 66 (min v7 (32768 - rest))
  if take = v7 then w
  else (w.setFld (Reg.LNK_RXBUF_CFG_1 p) Fld.LNK_RXBUF_CFG_1_VC7 take).clamp who (Reg.LNK_RXBUF_CFG_1 p + 4) 0 16 .joined

/-- A training begins (R445, R448). -/
def Work.startTraining (w : Work) (p : Nat) (absent : Bool) : Work :=
  let st := Reg.LNK_STATUS p
  let w := (((w.setFld st Fld.LNK_STATUS_STATE 1).setFld st Fld.LNK_STATUS_ATTEMPTS 1).setFld st Fld.LNK_STATUS_FRESH 0).setFlag st
    Fld.LNK_STATUS_SIGNAL false
  let mine := (List.range 8).map (w.rxShare p)
  w.updPort p fun k => { k with train := { Training.none with absent := absent, begun := w.hw.uptime, mine := mine } }

/-! ### Replay (R428–R431) -/

/-- a − b modulo 65,536. -/
def seqSub (a b : Nat) : Nat := (a + 65536 - b % 65536) % 65536

/-- Sequence number of the next new data flit. -/
def Work.txNext (w : Work) (p : Nat) : Nat := w.fld (Reg.LNK_SEQ p) Fld.LNK_SEQ_TX_NEXT

/-- Sequence number that the receiver expects. -/
def Work.rxExpect (w : Work) (p : Nat) : Nat := w.fld (Reg.LNK_SEQ p) Fld.LNK_SEQ_RX_EXPECT

/-- Sequence number of the oldest unacknowledged flit. -/
def Work.txOldest (w : Work) (p : Nat) : Nat := match (w.port p).replay with | s :: _ => s.seq | [] => w.txNext p

/-- Show the replay buffer's use in LNK_REPLAY. -/
def Work.replayStat (w : Work) (p : Nat) : Work :=
  let n := ((w.port p).replay.map Sent.flits).sum
  let a := Reg.LNK_REPLAY p
  (w.setFld a Fld.LNK_REPLAY_USED n).setFld a Fld.LNK_REPLAY_HIGH (max n (w.fld a Fld.LNK_REPLAY_HIGH))

/-- ACK_SEQ arrives: the packets it covers leave the replay buffer (R428, R429). -/
def Work.takeAck (w : Work) (p ack : Nat) : Work :=
  let oldest := w.txOldest p
  let held := seqSub (w.txNext p) oldest
  let upTo := seqSub (ack + 1) oldest
  if 0 < upTo ∧ upTo ≤ held then
    (w.updPort p fun k =>
      { k with replay := k.replay.filter fun s => decide (upTo < seqSub (s.seq + s.flits) oldest), replayed := false }).replayStat p
  else w

/-- The flits from sequence number `seq` on are sent again: one replay (R431). -/
def Work.replayFrom (w : Work) (p seq : Nat) : Work :=
  let n := seqSub (w.txNext p) seq
  if n = 0 then w else (w.bump (Reg.LNK_REPLAYS p) 1).bump (Reg.LNK_REPLAY_FLITS p) n

/-- A received sequence number brought into the window of unacknowledged flits, and whether it had to be (R430, R449). -/
def Work.clampSeq (w : Work) (p seq : Nat) : Nat × Bool :=
  let oldest := w.txOldest p
  let held := seqSub (w.txNext p) oldest
  let d := seqSub seq oldest
  if d ≤ held then (seq, false)
  else if d - held ≤ 65536 - d then (w.txNext p, true) else (oldest, true)

/-- A received CRED_v: its rise is added to the credit (R433). -/
def Work.takeCredit (w : Work) (p v cred : Nat) : Work :=
  let rise := seqSub cred (SMap.get 0 (w.port p).seen v)
  let a := Reg.LNK_VC_CRED p v
  let w := if rise = 0 then w else w.setFld a Fld.LNK_VC_CRED_CREDIT (min 65535 (w.fld a Fld.LNK_VC_CRED_CREDIT + rise))
  w.updPort p fun k => { k with seen := SMap.set 0 k.seen v (cred % 65536) }

/-- What every link flit carries: acknowledgement and credits. -/
def Work.takeLinkFlit (w : Work) (p ack : Nat) (cred : Nat → Nat) : Work :=
  (w.takeAck p ack).forEach (List.range 8) fun w v => w.takeCredit p v (cred v)

/-! ### Answers for packets that a port gives up (R449, R451) -/

/-- A reply that no request waits for is dropped; it frees the orphan that it answers (R544). -/
def Work.dropReply (w : Work) (f : Nat × Req → Bool) : Work :=
  let w := w.bumpErr Reg.ERR_LATE_DROP 1
  { w with hw := { w.hw with orphans := dropFirst f w.hw.orphans } }

/-- Is a request the one that a RESP or ACK answers (R437, R468)? -/
def Pkt.answers (k : Pkt) (e : Nat × Req) : Bool :=
  decide (e.1 % 65536 = k.tag) && decide (e.2.stage = .remote true) && decide (e.2.src.pgeMaster = k.master) &&
    decide ((match e.2.src.core? with | some c => coreGlobal c | none => 0) = k.core) && decide (e.2.gen = k.gen)

/-- Is a RESP the refusal of the REGISTER that a core's WAIT has sent? -/
def Work.refusesWait (w : Work) (k : Pkt) : Bool :=
  let c := globalSlot k.core
  decide (k.ptype = 5) && decide (k.master = 3) && decide (k.status ≠ 0) && decide ((w.core c).syn.mode = .sent) &&
    decide (SMap.get 0 w.hw.genCore c = k.gen)

/-- A RESP or ACK reaches its requester (R468). -/
def Work.respArrives (w : Work) (k : Pkt) : Work :=
  match List.find? k.answers w.hw.reqs with
  | some (i, q) =>
    let q := { q with
      data := (List.range k.data.length).foldl (fun m j => SMap.set 0 m j (k.data.getD j 0)) q.data
      value := match q.op with | .sync _ _ _ => BitVec.ofNat 64 (leNat (k.data.take 8)) | _ => q.value }
    (w.setReq i q).answer i (badOfStatus k.status)
  | none => if w.refusesWait k then w.watchRefused (globalSlot k.core) k.status else w.dropReply k.answers

/-- Give up packets: each request is answered NOPATH to its source, the others are discarded and counted (R449, R451). -/
def Work.giveUp (w : Work) (p : Nat) (ks : List Pkt) : Work :=
  w.forEach ks fun w k =>
    if k.isRequest then
      if k.src = w.selfNode then w.respArrives (k.answer w.selfNode 5 []) else w.injectAnswer (16 + p) k 5 []
    else w.bump (Reg.LNK_DROPS p) 1

/-- Empty a port's replay buffer and transmit queue (R451). -/
def Work.emptyPort (w : Work) (p : Nat) : Work :=
  let k := w.port p
  let held := k.replay.map Sent.pkt ++ k.tx.map TxPkt.pkt
  ((w.updPort p fun k => { k with replay := [], tx := [] }).replayStat p).giveUp p held

/-- A port is held in DISABLED (R445, R451, R487). -/
def Work.disablePort (w : Work) (p : Nat) : Work :=
  let w := w.setFld (Reg.LNK_STATUS p) Fld.LNK_STATUS_STATE 0
  (w.updPort p fun k => { k with fresh := true }).emptyPort p

/-- A port whose EN is 1 and that no fence silences starts a fresh training (R449, R454, R487). -/
def Work.trainFresh (w : Work) (p : Nat) : Work :=
  if w.flag (Reg.LNK_CTRL p) Fld.LNK_CTRL_EN && decide (w.fenceMode p ≠ 2) then
    (w.updPort p fun k => { k with fresh := true }).startTraining p true
  else w

/-- Record the event that takes a port out of ACTIVE or ends a training (R454). -/
def Work.lnkErrInfo (w : Work) (p kind : Nat) : Work :=
  let attempt := if 6 ≤ kind then w.fld (Reg.LNK_STATUS p) Fld.LNK_STATUS_ATTEMPTS else 0
  w.w32 (Reg.LNK_ERR_INFO p) (BitVec.ofNat 32 (kind + w.rxExpect p * 16 + w.linkState p * 2 ^ 20 + attempt * 2 ^ 24))

/-- An ACTIVE port goes DOWN and starts a training at once (R445, R450). -/
def Work.goDown (w : Work) (p kind : Nat) : Work := (((w.lnkErrInfo p kind).bump (Reg.LNK_DOWNS p) 1)).startTraining p false

/-- An ACTIVE port pauses, since its partner resets (R450). -/
def Work.goPaused (w : Work) (p : Nat) : Work :=
  let w := ((w.lnkErrInfo p 5).bump (Reg.LNK_DOWNS p) 1).setFlag (Reg.LNK_ERR_STAT p) Fld.LNK_ERR_STAT_PARTNER_RESET true
  w.setFld (Reg.LNK_STATUS p) Fld.LNK_STATUS_STATE 7

/-- A transient fault of a port (R431, R450). -/
def Work.lnkTransient (w : Work) (p : Nat) : Work :=
  w.transientCount { kind := 0x19, level := 3, lasting := false, ctx := none, die := 16 + p, unit := 9, core := 0, gen := w.hw.genChip,
                     tag := 0, addr := none, detail := p } (Reg.LNK_ERR_STAT p) Fld.LNK_ERR_STAT_TRANSIENT_CNT

/-- The lasting fault of a port (R446, R451). -/
def Work.lnkFault (w : Work) (p : Nat) : Work :=
  w.fault { kind := 0x19, level := 3, lasting := true, ctx := none, die := 16 + p, unit := 9, core := 0, gen := w.hw.genChip,
            tag := 0, addr := none, detail := p }

/-! ### Packets from flits (R435–R443) -/

/-- Virtual channels that R438 allows a packet type. -/
def vcsOf (ptype : Nat) : List Nat :=
  match ptype with
  | 3 => [0, 1] | 4 => [0, 1] | 5 => [0, 1, 4, 5, 6, 7] | 7 => [2, 3] | 8 => [1] | 9 => [1] | 10 => [7] | 11 => [7]
  | _ => [0, 4, 5, 6, 7]

/-- A header field with its place and the clamp that R66 makes of it. -/
structure HdrClamp where
  word : Nat
  lsb : Nat
  rule : ClampRule
deriving DecidableEq, Repr

/-- A field at most `hi`. -/
def hdrMax (v hi word lsb : Nat) : Nat × List HdrClamp := if v ≤ hi then (v, []) else (hi, [⟨word, lsb, .range⟩])

/-- LEN that R438 and R442 give a packet type, by what the header says. -/
def lenOf (ptype op len : Nat) : Nat :=
  match ptype with
  | 1 => 0
  | 3 => 16
  | 4 => if op = 0 then 16 else if op = 3 then 8 else 0
  | 6 => 0
  | 8 => 0
  | 9 => 0
  | 11 => min len 64
  | _ => min len 4096

/-- Parse a packet from its bytes, with the clamps of R66, R438 and R442. `word i` is header word i. -/
def parsePkt (bytes : List Byte) : Pkt × List HdrClamp :=
  let word (i : Nat) : Nat := leNat ((bytes.drop (4 * i)).take 4)
  let pt0 := bits (word 0) 0 5
  let pt := if pt0 = 0 then 1 else min pt0 11
  let k0 : List HdrClamp := if pt = pt0 then [] else [⟨0, 0, .encoding⟩]
  let vc := nearestOf (vcsOf pt) (bits (word 0) 5 3)
  let k1 : List HdrClamp := if vc = bits (word 0) 5 3 then [] else [⟨0, 5, .joined⟩]
  let (mst, k3) := hdrMax (bits (word 2) 19 4) 10 2 19
  let (op, k4) := if pt = 3 then hdrMax (bits (word 5) 16 4) 7 5 16 else if pt = 4 then hdrMax (bits (word 5) 16 4) 5 5 16
    else (bits (word 5) 16 4, [])
  let (cond, k5) := if pt = 4 ∧ op = 0 then hdrMax (bits (word 5) 20 4) 6 5 20 else (bits (word 5) 20 4, [])
  let len0 := bits (word 0) 8 13
  let len := lenOf pt op len0
  let k2 : List HdrClamp := if len = len0 then [] else [⟨0, 8, if 4096 < len0 then .range else .joined⟩]
  let isColl := decide (7 ≤ pt ∧ pt ≤ 9)
  let (kind, k6) := if isColl then hdrMax (bits (word 5) 0 4) 6 5 0 else (bits (word 5) 0 4, [])
  let (dir, k7) := if isColl then hdrMax (bits (word 5) 4 2) 2 5 4 else (bits (word 5) 4 2, [])
  let rlen0 := bits (word 6) 0 13
  let rlen := if pt = 1 then min (min rlen0 4096) (4096 - word 4 % 4096) else rlen0
  let k8 : List HdrClamp := if rlen = rlen0 then [] else [⟨6, 0, if 4096 < rlen0 then .range else .joined⟩]
  let (st, k9) := if pt = 5 ∨ pt = 6 then hdrMax (bits (word 4) 0 4) 6 4 0 else (bits (word 4) 0 4, [])
  let (fk, k10) := if pt = 11 then hdrMax (bits (word 4) 0 2) 0 4 0 else (bits (word 4) 0 2, [])
  let w4 := if pt = 5 ∨ pt = 6 then st else if pt = 11 then setBits (word 4) 0 2 fk else word 4
  let w5 := setBits (setBits (setBits (setBits (word 5) 16 4 op) 20 4 cond) 0 4 kind) 4 2 dir
  ({ ptype := pt, vc := vc, poison := decide (bits (word 0) 21 1 = 1), gen := bits (word 0) 24 8
     dst := bits (word 1) 0 16, src := bits (word 1) 16 16
     ctx := if bits (word 2) 10 1 = 1 then some (bits (word 2) 0 10) else none
     core := bits (word 2) 11 8, master := mst, tag := bits (word 3) 0 16
     esc := decide (bits (word 3) 16 1 = 1), dl := decide (bits (word 3) 17 1 = 1)
     circ := if bits (word 3) 24 1 = 1 then some (bits (word 3) 18 6) else none
     w4 := w4, w5 := w5, w6 := if pt = 1 then setBits (word 6) 0 13 rlen else word 6, w7 := word 7
     data := (List.range (min len 4096)).map fun i => if i < len0 then bytes.getD (32 + i) 0 else 0 },
   k0 ++ k1 ++ k2 ++ k3 ++ k4 ++ k5 ++ k6 ++ k7 ++ k8 ++ k9 ++ k10)

/-- The last flit of a packet has been accepted: it enters the receive buffer, unless a fence discards it (R436, R486). -/
def Work.pktAccepted (w : Work) (p flits : Nat) (bytes : List Byte) : Work :=
  let (k, clamps) := parsePkt bytes
  let w := w.forEach clamps fun w c => w.clamp (.link p k.ctx) 0 c.word c.lsb c.rule
  let w := w.bump (Reg.LNK_RX_PKTS p) 1
  let used := Reg.LNK_VC_CRED p k.vc
  let w := w.setFld used Fld.LNK_VC_CRED_RX_USED (w.fld used Fld.LNK_VC_CRED_RX_USED + flits)
  if decide (w.fenceMode p ≠ 0) && decide (k.ptype ≠ 11) then (w.bump (Reg.FEN_DROP_IN p) 1).rxFree p k.vc flits
  else w.updPort p fun x => { x with rx := x.rx ++ [⟨k, flits⟩] }

/-- A flit discarded as excess: its space returns as credit (R434, R441). -/
def Work.excessFlit (w : Work) (p vc : Nat) : Work :=
  let w := (w.bump (Reg.LNK_RX_EXCESS p) 1).setFlag (Reg.LNK_ERR_STAT p) Fld.LNK_ERR_STAT_EXCESS true
  w.updPort p fun k => { k with freed := SMap.set 0 k.freed vc ((SMap.get 0 k.freed vc + 1) % 65536) }

/-- Take the body of an accepted data flit with sequence number `seq` (R429, R434–R436, R441). -/
def Work.takeBody (w : Work) (p seq : Nat) (body : List Byte) : Work :=
  let k := w.port p
  if 0 < k.skip then
    let w := (w.excessFlit p k.skipVc).updPort p fun x => { x with skip := x.skip - 1 }
    if k.skip = 1 then w.updPort p fun x => { x with lastAck := seq } else w
  else
    let part := k.part ++ body
    let head := leNat (part.take 4)
    let len := bits head 8 13
    let vc := bits head 5 3
    let claimed := flitsOf len
    let flits := min claimed 33
    let share := k.train.mine.getD vc 0
    if decide (k.partFlits = 0) && decide (share < w.fld (Reg.LNK_VC_CRED p vc) Fld.LNK_VC_CRED_RX_USED + flits) then
      let w := (w.excessFlit p vc).updPort p fun x => { x with skip := claimed - 1, skipVc := vc }
      if claimed = 1 then w.updPort p fun x => { x with lastAck := seq } else w
    else if k.partFlits + 1 < flits then w.updPort p fun x => { x with part := part, partFlits := x.partFlits + 1 }
    else
      let w := w.updPort p fun x => { x with part := [], partFlits := 0, skip := claimed - flits, skipVc := vc }
      let w := w.pktAccepted p flits part
      if claimed = flits then w.updPort p fun x => { x with lastAck := seq } else w

/-- A data flit passes its check (R425, R431). -/
def Work.dataFlit (w : Work) (p : Nat) (body : List Byte) : Work :=
  let seq := w.rxExpect p
  let w := (w.bump (Reg.LNK_RX_FLITS p) 1).setFld (Reg.LNK_SEQ p) Fld.LNK_SEQ_RX_EXPECT (seq + 1)
  let w := if (w.port p).nak then
      (w.setFlag (Reg.LNK_ERR_STAT p) Fld.LNK_ERR_STAT_CRC_TRANSIENT true).lnkTransient p
    else w
  (w.updPort p fun k => { k with nak := false, notices := 0 }).takeBody p seq body

/-- A link flit of LTYPE 0. -/
def Work.idleFlit (w : Work) (p ack : Nat) (cred : Nat → Nat) : Work :=
  (w.takeLinkFlit p ack cred).updPort p fun k => { k with notices := 0 }

/-- A link flit of LTYPE 1: the sender replays from NAK_SEQ (R430). -/
def Work.nakFlit (w : Work) (p ack nak : Nat) (cred : Nat → Nat) : Work :=
  let w := w.idleFlit p ack cred
  let (seq, clamped) := w.clampSeq p nak
  let w := if clamped then w.clamp (.link p none) 0 1 0 .range else w
  w.replayFrom p seq

/-- A link flit of LTYPE 2: the eighth in a row pauses the port (R450). -/
def Work.noticeFlit (w : Work) (p ack : Nat) (cred : Nat → Nat) : Work :=
  let w := (w.takeLinkFlit p ack cred).updPort p fun k => { k with notices := k.notices + 1 }
  if (w.port p).notices < 8 then w else (w.updPort p fun k => { k with notices := 0 }).goPaused p

/-- A bad flit (R425, R430, R431): `replay` says that it is the partner's replay of the flit that a NAK asked for. -/
def Work.badFlit (w : Work) (p : Nat) (replay : Bool) : Work :=
  let w := w.bump (Reg.LNK_CRC_ERR p) 1
  if !(w.port p).nak then w.updPort p fun k => { k with nak := true }
  else if replay then (w.setFlag (Reg.LNK_ERR_STAT p) Fld.LNK_ERR_STAT_REPLAY_LASTING true).goDown p 1
  else w

/-- Is a port ACTIVE, with its clocks running? -/
def Work.portActive (w : Work) (p : Nat) : Bool := w.clocked && decide (w.linkState p = 5)

/-- FLIT_RECEIVE: a flit is checked first as a data flit, then as a link flit (R421, R425). `corrected` counts the symbols that the decoder
corrected, `uncorrectable` marks a codeword it could not correct. -/
def execFlitReceive (port : LinkIx) (flit : BitVec 1024) (corrected : BitVec 16) (uncorrectable replay : Bool) (s : State) :
    Host.Outcome State Fault Refusal :=
  run s fun w => Work.when (w.portActive port) w fun w =>
    let p := port.val
    let w := w.bump (Reg.LNK_FEC_CORR p) corrected.toNat
    let w := if uncorrectable then w.bump (Reg.LNK_FEC_UNCORR p) 1 else w
    let seq := w.rxExpect p
    if uncorrectable then w.badFlit p replay
    else if flitPasses flit seq 0 then w.dataFlit p ((flitBody flit).map (BitVec.ofNat 8))
    else if flitPasses flit seq 1 then
      let lt := flitByte flit 0
      let w := if 2 < lt then w.clamp (.link p none) 0 0 0 .encoding else w
      let cred (v : Nat) : Nat := flitWord flit (8 + 2 * v)
      let ack := flitWord flit 2
      if lt = 0 then w.idleFlit p ack cred else if lt = 1 then w.nakFlit p ack (flitWord flit 4) cred else w.noticeFlit p ack cred
    else w.badFlit p replay

/-- LINK_FLIT: an IDLE link flit that has passed its check (R426). -/
def execLinkFlit (port : LinkIx) (ack : BitVec 16) (credits : BitVec 128) (s : State) : Host.Outcome State Fault Refusal :=
  run s fun w => Work.when (w.portActive port) w fun w => w.idleFlit port ack.toNat fun v => bits credits.toNat (16 * v) 16

/-- NAK_RECEIVE: a NAK link flit that has passed its check (R430). -/
def execNakReceive (port : LinkIx) (ack nak : BitVec 16) (credits : BitVec 128) (s : State) : Host.Outcome State Fault Refusal :=
  run s fun w => Work.when (w.portActive port) w fun w => w.nakFlit port ack.toNat nak.toNat fun v => bits credits.toNat (16 * v) 16

/-- RESET_NOTICE: a link flit of LTYPE 2 that has passed its check (R450). -/
def execResetNotice (port : LinkIx) (ack : BitVec 16) (credits : BitVec 128) (s : State) : Host.Outcome State Fault Refusal :=
  run s fun w => Work.when (w.portActive port) w fun w => w.noticeFlit port ack.toNat fun v => bits credits.toNat (16 * v) 16

/-- ACK_TIMEOUT: ACK_SEQ has not advanced for ACK_TO µs while flits are unacknowledged (R431). -/
def execAckTimeout (port : LinkIx) (s : State) : Host.Outcome State Fault Refusal :=
  run s fun w => Work.when (w.portActive port && !(w.port port).replay.isEmpty) w fun w =>
    let p := port.val
    if (w.port p).replayed then (w.setFlag (Reg.LNK_ERR_STAT p) Fld.LNK_ERR_STAT_ACK_LASTING true).goDown p 2
    else (w.replayFrom p (w.txOldest p)).updPort p fun k => { k with replayed := true }

/-- Discard the packet that is arriving: the receiver expects its first flit again (R444). -/
def Work.dropPart (w : Work) (p : Nat) : Work :=
  let n := (w.port p).partFlits
  (w.setFld (Reg.LNK_SEQ p) Fld.LNK_SEQ_RX_EXPECT (seqSub (w.rxExpect p) n)).updPort p fun k => { k with part := [], partFlits := 0 }

/-- LINK_SILENCE: no flit has passed for 1 ms (R444). -/
def execLinkSilence (port : LinkIx) (s : State) : Host.Outcome State Fault Refusal :=
  run s fun w => Work.when (w.portActive port) w fun w =>
    ((w.setFlag (Reg.LNK_ERR_STAT port) Fld.LNK_ERR_STAT_SILENCE true).dropPart port).goDown port 3

/-! ### Sending (R427, R433, R466, R475–R478) -/

/-- Serve a deficit round-robin: the input taken among those ready (with the flits each would take), and the state after it. -/
def Drr.pick (d : Drr) (ready : List (Nat × Nat)) (quantum : Nat → Nat) : Option (Nat × Drr) :=
  let kept := d.deficit.filter fun e => ready.any fun r => decide (r.1 = e.1)
  let take (k cost have_ : Nat) : Nat × Drr := (k, ⟨k, SMap.set 0 kept k (have_ - cost)⟩)
  match ready.find? fun r => decide (r.1 = d.last) && decide (r.2 ≤ SMap.get 0 kept r.1) with
  | some r => some (take r.1 r.2 (SMap.get 0 kept r.1))
  | none =>
    match (ready.find? fun r => decide (d.last < r.1)).or ready.head? with
    | some r => some (take r.1 r.2 (SMap.get 0 kept r.1 + quantum r.1))
    | none => none

/-- Keep of the packets sent those among the last 4,096 flits of their channel. -/
def trimRecent : List (Nat × Nat × Bool) → SMap Nat → List (Nat × Nat × Bool)
  | [], _ => []
  | e :: l, sums =>
    let n := SMap.get 0 sums e.1
    if n < 4096 then e :: trimRecent l (SMap.set 0 sums e.1 (n + e.2.1)) else trimRecent l sums

/-- Flits of VC `v` among the last 4,096 sent. -/
def vcTaken (v : Nat) : List (Nat × Nat × Bool) → Nat → Nat
  | [], _ => 0
  | e :: l, n => if 4096 ≤ n then 0 else (if e.1 = v then e.2.1 else 0) + vcTaken v l (n + e.2.1)

/-- Inputs with a packet on channel v, ascending, with the flits of the oldest one. -/
def Port.inputsReady (k : Port) (v : Nat) : List (Nat × Nat) :=
  let l := k.tx.filter fun t => decide (t.pkt.vc = v)
  (List.range 40).filterMap fun i => (l.find? fun t => decide (t.input = i)).map fun t => (i, t.pkt.flits)

/-- Active sources of an input on a channel: the distinct requesters of its packets, at most 255 (R478). -/
def Port.asc (k : Port) (v input : Nat) : Nat :=
  let l := (k.tx.filter fun t => decide (t.pkt.vc = v) && decide (t.input = input)).map fun t => (t.pkt.src, t.pkt.core, t.pkt.master)
  min 255 l.dedup.length

/-- The packet that channel v would send next, its input, and the arbiter after it (R476, R477). -/
def Port.nextOf (k : Port) (v : Nat) : Option (TxPkt × Option Drr) :=
  let l := k.tx.filter fun t => decide (t.pkt.vc = v)
  let own := k.recent.filter fun e => decide (e.1 = v)
  let prioFlits := ((own.filter fun e => e.2.2).map fun e => e.2.1).sum
  match l.find? fun t => match t.prio with | some n => decide (prioFlits ≤ n * 256) | none => false with
  | some t => some (t, none)
  | none =>
    match (SMap.get ⟨0, []⟩ k.inputs v).pick (k.inputsReady v) (fun i => 33 * max 1 (k.asc v i)) with
    | some (i, d) => (l.find? fun t => decide (t.input = i)).map fun t => (t, some d)
    | none => none

/-- Has channel v a packet ready whose credit suffices (R433, R466)? -/
def Work.vcReady (w : Work) (p v : Nat) : Option (TxPkt × Option Drr) :=
  match (w.port p).nextOf v with
  | some (t, d) =>
    if t.pkt.flits + (if t.pkt.dl then 0 else 33) ≤ w.fld (Reg.LNK_VC_CRED p v) Fld.LNK_VC_CRED_CREDIT then some (t, d) else none
  | none => none

/-- Weight of a bulk channel. -/
def Work.vcWeight (w : Work) (v : Nat) : Nat := bits (w.r32 (Reg.RTE_ARB 0)).toNat (8 * (v - 3)) 8

/-- Has VC2 taken its cap of the last flits sent (R475)? -/
def Work.vc2Capped (w : Work) (p : Nat) : Bool :=
  decide (w.fld (Reg.RTE_ARB2 0) Fld.RTE_ARB2_VC2_CAP * 256 ≤ vcTaken 2 (w.port p).recent 0)

/-- The channel served next, and the weighted channels' arbiter after it (R475). -/
def Work.nextVc (w : Work) (p : Nat) : Option (Nat × Drr) :=
  let ready (v : Nat) : Bool := (w.vcReady p v).isSome
  let bulk := ([3, 4, 5, 6].filterMap fun v => (w.vcReady p v).map fun r => (v, r.1.pkt.flits))
  let d := (w.port p).weights
  if ready 7 then some (7, d) else if ready 1 then some (1, d) else if ready 0 then some (0, d)
  else if ready 2 && !(w.vc2Capped p && !bulk.isEmpty) then some (2, d)
  else d.pick bulk fun v => 33 * w.vcWeight v

/-- Count the packet that the VC2 cap holds back (R475). -/
def Work.countCapped (w : Work) (p v : Nat) : Work :=
  match w.vcReady p 2 with
  | some (t, _) =>
    if decide (3 ≤ v) && decide (v ≤ 6) && !t.capped then
      (w.bump (Reg.RTE_VC2_CAPPED p) 1).updPort p fun k =>
        { k with tx := k.tx.map fun x => if x = t then { x with capped := true } else x }
    else w
  | none => w

/-- Send the next packet of channel v: its flits enter the replay buffer. -/
def Work.sendVc (w : Work) (p v : Nat) (weights : Drr) : Work :=
  match w.vcReady p v with
  | none => w
  | some (t, d) =>
    let n := t.pkt.flits
    let seq := w.txNext p
    let w := w.countCapped p v
    let w := w.updPort p fun k =>
      { k with
        tx := dropFirst (fun x => decide (x.pkt = t.pkt) && decide (x.input = t.input)) k.tx
        inputs := match d with | some d => SMap.set ⟨0, []⟩ k.inputs v d | none => k.inputs
        weights := weights
        recent := trimRecent ((v, n, t.prio.isSome) :: k.recent) []
        replay := k.replay ++ [⟨seq, n, t.pkt⟩] }
    let cred := Reg.LNK_VC_CRED p v
    let w := w.setFld cred Fld.LNK_VC_CRED_CREDIT (w.fld cred Fld.LNK_VC_CRED_CREDIT - n)
    let w := (w.setFld (Reg.LNK_SEQ p) Fld.LNK_SEQ_TX_NEXT (seq + n)).replayStat p
    let w := (((w.bump (Reg.LNK_TX_FLITS p) n).bump (Reg.LNK_TX_PKTS p) 1).bump (Reg.RTE_OUT_PKTS p) 1).bump (Reg.RTE_VC_FLITS p v) n
    if 32 ≤ t.input then w.bump (Reg.RTE_TRANSIT p) 1 else w

/-- PACKET_SEND: an ACTIVE port sends the next packet, when the replay buffer has room for its flits (R428, R433, R475; log entry 19). -/
def execPacketSend (port : LinkIx) (s : State) : Host.Outcome State Fault Refusal :=
  run s fun w => Work.when (w.portActive port) w fun w =>
    match w.nextVc port with
    | some (v, d) =>
      let held := seqSub (w.txNext port) (w.txOldest port)
      match w.vcReady port v with
      | some (t, _) => if held + t.pkt.flits ≤ 32768 then w.sendVc port v d else w
      | none => w
    | none => w

/-- RESP_ESCAPE: a response that has waited ESC_WAIT cycles for credit moves to VC0 (R467). -/
def execRespEscape (port : LinkIx) (s : State) : Host.Outcome State Fault Refusal :=
  run s fun w => Work.when w.clocked w fun w =>
    let waits (t : TxPkt) : Bool := decide (t.pkt.ptype = 5 ∨ t.pkt.ptype = 6) && decide (t.pkt.vc ≠ 0)
    match (w.port port).tx.find? waits with
    | some t =>
      (w.bump (Reg.RTE_ESCAPED port) 1).updPort port fun k =>
        { k with tx := dropFirst waits k.tx ++ [{ t with pkt := { t.pkt with vc := 0, esc := true } }] }
    | none => w

end Sys2Proof.Machine
end

