-- ==== Sys2Proof/Machine/Fen.lean ====
section
/-! DEFINITION. Saggar fences (R485–R491): effective modes, alerts, and what a failed port raises. -/

namespace Sys2Proof.Machine

/-- The link dies. -/
def linkDies : List Nat := [0, 1, 2, 3, 4, 5, 6, 7]

/-- A port's effective mode was `old` and may have changed (R487): ELECTRICAL disables the port, its end trains it fresh. -/
def Work.fenceChanged (w : Work) (p old : Nat) : Work :=
  let new := w.fenceMode p
  if new = 2 ∧ old ≠ 2 then w.disablePort p
  else if old = 2 ∧ new ≠ 2 then w.trainFresh p
  else w

/-- Every port's effective mode may have changed since `pre`. -/
def Work.fencesChanged (w pre : Work) : Work := w.forEach linkDies fun w p => w.fenceChanged p (pre.fenceMode p)

/-- The fault record of an alert (R489, R529). -/
def Work.alertFault (w : Work) (p id : Nat) : Work :=
  w.fault { kind := 0x22, level := 3, lasting := true, ctx := none, die := 16 + p, unit := 9, core := 0, gen := w.hw.genChip,
            tag := 0, addr := none, detail := id }

/-- The FENCE ALERT that a chip sends on. -/
def fencePkt (here origin id : Nat) (cause : List Byte) : Pkt :=
  { Pkt.blank 11 7 here here with w4 := id % 65536 * 65536, w5 := origin % 65536, data := cause }

/-- Record and apply an alert, and flood it to every port inside the partition but the one it came by (R489). -/
def Work.applyAlert (w : Work) (die origin id : Nat) (cause : List Byte) (arr : Option Nat) : Work :=
  let pre := w
  let w := { w with hw := { w.hw with alertPairs := ((origin, id) :: w.hw.alertPairs).take 8 } }
  let first := leNat (cause.take 8)
  let w := w.forEach linkDies fun w p =>
    ((w.w32 (Reg.FEN_ALERT p) (BitVec.ofNat 32 (id % 65536 + origin * 65536))).w64 (Reg.FEN_ALERT_CAUSE p) (BitVec.ofNat 64 first)).setFlag
      (Reg.FEN_STATUS p) Fld.FEN_STATUS_ALERTED true
  let w := w.fencesChanged pre
  let w := w.forEach linkDies fun w p =>
    if some p = arr ∨ w.flag (Reg.FEN_PORT_CFG p) Fld.FEN_PORT_CFG_BOUNDARY ∨ w.fenceMode p = 2 then w
    else (w.sendOut none (16 + die) p none (fencePkt w.selfNode origin id cause)).1
  w.alertFault die id

/-- An alert that this chip raises (R489). -/
def Work.raiseAlert (w : Work) (die id : Nat) (cause : List Byte) : Work :=
  (w.setFlag (Reg.FEN_ERR_STAT die) Fld.FEN_ERR_STAT_ALERT_LOCAL true).applyAlert die w.selfNode id cause none

/-- End the alert on this chip (R491). -/
def Work.clearAlert (w : Work) : Work :=
  let pre := w
  let w := w.forEach linkDies fun w p =>
    (w.setFlag (Reg.FEN_STATUS p) Fld.FEN_STATUS_ALERTED false).setFlag (Reg.FEN_STATUS p) Fld.FEN_STATUS_LATCHED false
  w.fencesChanged pre

/-- What a write of FEN_CMD does: RAISE before CLEAR (R489, R491). -/
def Work.fenCmd (w : Work) (who : ClampBy) (p value : Nat) : Work :=
  let (v, w) := w.woWrite who (Reg.FEN_CMD p) value
  if bits v 0 1 = 1 then w.raiseAlert p (bits v 16 16) (leBytes 8 (w.r64 (Reg.FEN_ALERT_CAUSE p)).toNat)
  else if bits v 1 1 = 1 then w.clearAlert
  else w

/-- FEN_RAISE: a write of FEN_CMD in a link die with RAISE 1 (R489). -/
def execFenRaise (master : Master) (port : LinkIx) (value : Word) (s : State) : Host.Outcome State Fault Refusal :=
  run s fun w => Work.when (value.getLsbD 0 && w.regTakes (Reg.FEN_CMD port)) w fun w => w.fenCmd (w.clampBy master) port value.toNat

/-- FEN_CLEAR: a write of FEN_CMD with CLEAR 1 (R491). -/
def execFenClear (master : Master) (port : LinkIx) (value : Word) (s : State) : Host.Outcome State Fault Refusal :=
  run s fun w => Work.when (value.getLsbD 1 && w.regTakes (Reg.FEN_CMD port)) w fun w => w.fenCmd (w.clampBy master) port value.toNat

/-- FENCE_ALERT: the oldest FENCE packet of a port is consumed (R489, R490). -/
def execFenceAlert (port : LinkIx) (s : State) : Host.Outcome State Fault Refusal :=
  run s fun w =>
    match w.rxHead port 7 with
    | some r =>
      Work.when (decide (r.pkt.ptype = 11)) w fun w =>
        let p := port.val
        let w := w.rxTake p 7 r.flits
        let origin := bits r.pkt.w5 0 16
        let id := bits r.pkt.w4 16 16
        if w.flag (Reg.FEN_PORT_CFG p) Fld.FEN_PORT_CFG_BOUNDARY then
          (w.bump (Reg.FEN_DROP_IN p) 1).setFlag (Reg.FEN_ERR_STAT p) Fld.FEN_ERR_STAT_OUTSIDE true
        else if (origin, id) ∈ w.hw.alertPairs then w
        else (w.setFlag (Reg.FEN_ERR_STAT p) Fld.FEN_ERR_STAT_ALERT_IN true).applyAlert p origin id r.pkt.data (some p)
    | none => w

/-- FEN_MODE_CHANGE: a write of FEN_PORT_CFG; a new effective mode takes hold (R487). -/
def execFenModeChange (master : Master) (port : LinkIx) (value : Word) (s : State) : Host.Outcome State Fault Refusal :=
  run s fun w =>
    let pre := w
    (w.regWrite master (Reg.FEN_PORT_CFG port) .w32 0xF value.toNat).fenceChanged port (pre.fenceMode port)

/-! ### A port that fails (R451) -/

/-- A port enters FAILED: its queues are given up, its fence is raised where it is configured, the fault goes to the chip level. -/
def Work.failPort (w : Work) (p kind : Nat) : Work :=
  let w := (w.lnkErrInfo p kind).setFlag (Reg.LNK_ERR_STAT p) Fld.LNK_ERR_STAT_PORT_FAIL true
  let w := (w.setFld (Reg.LNK_STATUS p) Fld.LNK_STATUS_STATE 9).emptyPort p
  let w := w.lnkFault p
  if w.flag (Reg.LNK_CTRL p) Fld.LNK_CTRL_FENCE_ON_FAIL then
    let pre := w
    let w := (w.setFlag (Reg.FEN_STATUS p) Fld.FEN_STATUS_LATCHED true).fenceChanged p (pre.fenceMode p)
    let id := 0x8000 + w.hw.alertCount % 0x8000
    ({ w with hw := { w.hw with alertCount := w.hw.alertCount + 1 } }).raiseAlert p id (leBytes 8 0)
  else w

/-- RESET_WAIT_EXPIRE: a PAUSED port has waited RESET_WAIT ms (R445, R451). -/
def execResetWaitExpire (port : LinkIx) (s : State) : Host.Outcome State Fault Refusal :=
  run s fun w => Work.when (w.clocked && decide (w.linkState port = 7)) w fun w => w.failPort port 8

/-! ### Training (R445–R449) -/

/-- A training ends without reaching ACTIVE (R446): ABSENT or FAILED, and a fault of the chip. -/
def Work.endTraining (w : Work) (p : Nat) : Work :=
  let t := (w.port p).train
  if t.absent && !t.passed then
    let w := (w.lnkErrInfo p 6).setFlag (Reg.LNK_ERR_STAT p) Fld.LNK_ERR_STAT_TRAIN_ABSENT true
    (w.setFld (Reg.LNK_STATUS p) Fld.LNK_STATUS_STATE 8).lnkFault p
  else w.failPort p 7

/-- An attempt fails: the next one starts at DETECT, up to sixteen (R445, R446). -/
def Work.attemptFails (w : Work) (p : Nat) : Work :=
  let st := Reg.LNK_STATUS p
  let n := w.fld st Fld.LNK_STATUS_ATTEMPTS
  if n < 16 then
    ((w.setFld st Fld.LNK_STATUS_ATTEMPTS (n + 1)).setFld st Fld.LNK_STATUS_STATE 1).updPort p fun k =>
      { k with train := { k.train with shares := [] } }
  else w.endTraining p

/-- Is a port in a training step? -/
def Work.training (w : Work) (p : Nat) : Bool := w.clocked && decide (1 ≤ w.linkState p ∧ w.linkState p ≤ 4)

/-- TRAIN_STEP_BOUND: a training step has exceeded its bound (R445). -/
def execTrainStepBound (port : LinkIx) (s : State) : Host.Outcome State Fault Refusal :=
  run s fun w => Work.when (w.training port) w fun w => w.attemptFails port

/-- TRAIN_TIMEOUT: 2 s after it began, a training ends (R446). -/
def execTrainTimeout (port : LinkIx) (s : State) : Host.Outcome State Fault Refusal :=
  run s fun w => Work.when (w.training port) w fun w => w.endTraining port

/-- Does a training block pass its checks (R448)? -/
def blockGood (b : BitVec 128) : Bool :=
  decide (b.toNat % 65536 = 0xB38D) && decide (crc16 ((List.range 14).map fun i => b.toNat / 256 ^ i % 256) = b.toNat >>> 112)

/-- Take the fields of the partner's training block (R433, R448). -/
def Work.takeBlock (w : Work) (p : Nat) (b : Nat) : Work :=
  let share0 := bits b 72 16
  let share := max 66 (min share0 32768)
  let w := if share = share0 then w else w.clamp (.link p none) 0 2 8 .range
  let w := (w.setFlag (Reg.LNK_STATUS p) Fld.LNK_STATUS_SIGNAL true).updPort p fun k =>
    { k with train := { k.train with
        shares := SMap.put k.train.shares (bits b 69 3) share
        gen := bits b 22 2
        modes := bits b 24 3
        half := decide (bits b 27 1 = 1)
        fresh := decide (bits b 51 1 = 1)
        resume := bits b 53 16
        partner := bits b 32 19 + bits b 22 2 * 2 ^ 20 } }
  w

/-- TRAINING_BLOCK: a training block of the partner is received (R445, R448). -/
def execTrainingBlock (port : LinkIx) (block : BitVec 128) (s : State) : Host.Outcome State Fault Refusal :=
  run s fun w => Work.when (w.clocked && blockGood block) w fun w =>
    let p := port.val
    if w.training p then w.takeBlock p block.toNat
    else if w.linkState p = 7 then (w.startTraining p false).takeBlock p block.toNat
    else if w.linkState p = 8 then
      ((w.setFlag (Reg.LNK_ERR_STAT p) Fld.LNK_ERR_STAT_PARTNER_SEEN true).startTraining p true).takeBlock p block.toNat
    else w

/-- The mode that both sides choose: the highest that the partner lists and MODE_MAX allows (R447); a TX-1 runs 56G (R452). -/
def Work.chooseMode (w : Work) (p : Nat) : Option Nat :=
  let t := (w.port p).train
  let top := if t.gen = 1 then 0 else w.fld (Reg.LNK_CTRL p) Fld.LNK_CTRL_MODE_MAX
  [2, 1, 0].find? fun m => decide (m ≤ top) && decide (bits t.modes m 1 = 1)

/-- CONFIG ends once all eight shares have come (R433, R447). -/
def Work.configDone (w : Work) (p : Nat) : Work :=
  let t := (w.port p).train
  if (List.range 8).all fun v => (SMap.find? t.shares v).isSome then
    let w := w.w32 (Reg.LNK_PARTNER p) (BitVec.ofNat 32 (t.partner + 2 ^ 22))
    match w.chooseMode p with
    | some m => (w.setFld (Reg.LNK_STATUS p) Fld.LNK_STATUS_MODE m).setFld (Reg.LNK_STATUS p) Fld.LNK_STATUS_STATE 3
    | none => w.attemptFails p
  else w

/-- A fresh training drops what either side held in its replay buffer (R449). -/
def Work.freshDrop (w : Work) (p : Nat) : Work :=
  let held := (w.port p).replay.map Sent.pkt
  let w := (w.w32 (Reg.LNK_SEQ p) 0).updPort p fun k =>
    { k with replay := [], part := [], partFlits := 0, skip := 0, lastAck := 65535, freed := [], seen := [] }
  let w := (w.replayStat p).giveUp p held
  let w := if held.any fun k => !k.isRequest then w.setFlag (Reg.LNK_ERR_STAT p) Fld.LNK_ERR_STAT_FRESH_DROP true else w
  w.setFlag (Reg.LNK_STATUS p) Fld.LNK_STATUS_FRESH true

/-- A training that is not fresh resumes the replay from the partner's RESUME_SEQ (R449). -/
def Work.resumeReplay (w : Work) (p : Nat) : Work :=
  let (seq, clamped) := w.clampSeq p (w.port p).train.resume
  let w := if clamped then w.clamp (.link p none) 0 1 21 .range else w
  w.replayFrom p seq

/-- A training reaches ACTIVE (R433, R445, R449, R450). -/
def Work.goActive (w : Work) (p : Nat) (half : Bool) : Work :=
  let t := (w.port p).train
  let st := Reg.LNK_STATUS p
  let w := w.setFlag st Fld.LNK_STATUS_HALF half
  let w := if half then w.setFlag (Reg.LNK_ERR_STAT p) Fld.LNK_ERR_STAT_HALF true else w
  let w := if (w.port p).fresh || t.fresh then w.freshDrop p else w.resumeReplay p
  let w := w.forEach (List.range 8) fun w v => w.setFld (Reg.LNK_VC_CRED p v) Fld.LNK_VC_CRED_CREDIT (SMap.get 0 t.shares v)
  let w := w.updPort p fun k => { k with fresh := false, nak := false, notices := 0, replayed := false }
  let w := w.setFld st Fld.LNK_STATUS_STATE 5
  if t.absent then w else w.lnkTransient p

/-- ALIGN ends with the lanes that failed it (R447). -/
def Work.alignDone (w : Work) (p fails : Nat) : Work :=
  let w := w.w64 (Reg.LNK_LANE_FAIL p) (BitVec.ofNat 64 fails)
  if fails = 0 then w.goActive p false
  else if w.flag (Reg.LNK_CTRL p) Fld.LNK_CTRL_ALLOW_HALF && (w.port p).train.half &&
      (decide (bits fails 0 24 = 0) || decide (bits fails 24 24 = 0)) then w.goActive p true
  else w.attemptFails p

/-- TRAIN_STEP_DONE: the present training step ends; in ALIGN `fails` names the receive lanes that failed (R445, R447). -/
def execTrainStepDone (port : LinkIx) (fails : BitVec 48) (s : State) : Host.Outcome State Fault Refusal :=
  run s fun w => Work.when w.clocked w fun w =>
    let p := port.val
    let st := Reg.LNK_STATUS p
    match w.linkState p with
    | 1 => (w.setFld st Fld.LNK_STATUS_STATE 2).updPort p fun k => { k with train := { k.train with passed := true } }
    | 2 => w.configDone p
    | 3 => w.setFld st Fld.LNK_STATUS_STATE 4
    | 4 => w.alignDone p fails.toNat
    | _ => w

/-! ### LNK_ registers with an effect (R454) -/

/-- What a write of LNK_CTRL does once it is stored: EN starts a training or disables the port (R454). -/
def Work.lnkCtrlHook (w pre : Work) (p : Nat) : Work :=
  let was := pre.flag (Reg.LNK_CTRL p) Fld.LNK_CTRL_EN
  let now := w.flag (Reg.LNK_CTRL p) Fld.LNK_CTRL_EN
  if now && !was then w.trainFresh p
  else if was && !now then w.disablePort p
  else w

/-- LINK_ENABLE: a write of LNK_CTRL that sets EN (R454). -/
def execLinkEnable (master : Master) (port : LinkIx) (value : Word) (s : State) : Host.Outcome State Fault Refusal :=
  run s fun w => Work.when (value.getLsbD 0) w fun w =>
    (w.regWrite master (Reg.LNK_CTRL port) .w32 0xF value.toNat).lnkCtrlHook w port

/-- LINK_DISABLE: a write of LNK_CTRL that clears EN (R451, R454). -/
def execLinkDisable (master : Master) (port : LinkIx) (value : Word) (s : State) : Host.Outcome State Fault Refusal :=
  run s fun w => Work.when (!value.getLsbD 0) w fun w =>
    (w.regWrite master (Reg.LNK_CTRL port) .w32 0xF value.toNat).lnkCtrlHook w port

/-- What a write of LNK_CMD does (R450, R454, R487). -/
def Work.lnkCmd (w : Work) (who : ClampBy) (p value : Nat) : Work :=
  let st := w.linkState p
  let w := if bits value 0 1 = 1 then
      if decide (st = 8 ∨ st = 9) && w.flag (Reg.LNK_CTRL p) Fld.LNK_CTRL_EN && decide (w.fenceMode p ≠ 2) then
        w.startTraining p (decide (st = 8))
      else w.clamp who (Reg.LNK_CMD p) 0 0 .joined
    else w
  if bits value 1 1 = 1 ∧ st = 5 then w.goDown p 4 else w

/-- LINK_CMD_TRAIN: a write of LNK_CMD with TRAIN 1 (R454). -/
def execLinkCmdTrain (master : Master) (port : LinkIx) (value : Word) (s : State) : Host.Outcome State Fault Refusal :=
  run s fun w => Work.when (value.getLsbD 0 && w.regTakes (Reg.LNK_CMD port)) w fun w => w.lnkCmd (w.clampBy master) port value.toNat

/-- LINK_CMD_DOWN: a write of LNK_CMD with DOWN 1 (R450). -/
def execLinkCmdDown (master : Master) (port : LinkIx) (value : Word) (s : State) : Host.Outcome State Fault Refusal :=
  run s fun w => Work.when (value.getLsbD 1 && w.regTakes (Reg.LNK_CMD port)) w fun w => w.lnkCmd (w.clampBy master) port value.toNat

/-! ### RTE_ registers (R493) -/

/-- Is an offset of the RTE_ block one of a register shared by all link dies? -/
def rteShared (off : Nat) : Bool :=
  decide (off < 0x8 ∨ (0xC ≤ off ∧ off < 0x60) ∨ (0x100 ≤ off ∧ off < 0x800) ∨ (0xA00 ≤ off ∧ off < 0xC00))

/-- Copy the shared registers that a write of `n` bytes at offset `off` of LD0's RTE_ block reached (R493). -/
def Work.rteCopy (w : Work) (off n : Nat) : Work :=
  w.forEach (List.range ((n + 3) / 4)) fun w i =>
    let o := off / 4 * 4 + 4 * i
    if rteShared o then w.forEach [1, 2, 3, 4, 5, 6, 7] fun w p => w.w32 (Reg.RTE_CTRL p + o) (w.r32 (Reg.RTE_CTRL 0 + o)) else w

/-- RTE_SHARED_WRITE: a write to a shared register in LD0 is copied to every link die (R493). -/
def execRteSharedWrite (master : Master) (off : BitVec 12) (width : AccWidth) (enables : BitVec 8) (data : DWord) (s : State) :
    Host.Outcome State Fault Refusal :=
  run s fun w => Work.when (rteShared off.toNat) w fun w =>
    let a := off.toNat / width.bytes * width.bytes
    (w.regWrite master (Reg.RTE_CTRL 0 + a) width enables.toNat data.toNat).rteCopy a width.bytes

end Sys2Proof.Machine
end

