-- ==== Sys2Proof/Machine/Numbers.lean ====
section
/-! DEFINITION. Number formats and rounding (R121–R150): values as exact dyadic numbers, the floating-point and Microscaling layouts, the two
rounding modes, the stochastic-rounding generator, anchored fixed point. -/

namespace Sys2Proof.Machine

/-- A number: NaN, an infinity, or ± m × 2ᵉ; a zero keeps its sign (R127, R128). -/
inductive Num where
  | nan
  | inf (neg : Bool)
  | fin (neg : Bool) (m : Nat) (e : Int)
deriving DecidableEq, Repr

/-- +0. -/
def Num.zero : Num := .fin false 0 0

/-- A floating-point layout (R121). `special`: 0 exponent all ones holds ∞ and NaN; 1 only the all-ones code is NaN (E4M3); 2 neither. -/
structure FpFmt where
  ebits : Nat
  mbits : Nat
  bias : Nat
  special : Nat
deriving DecidableEq, Repr

def fp32 : FpFmt := ⟨8, 23, 127, 0⟩
def bf16 : FpFmt := ⟨8, 7, 127, 0⟩
def fp16 : FpFmt := ⟨5, 10, 15, 0⟩
def e4m3 : FpFmt := ⟨4, 3, 7, 1⟩
def e5m2 : FpFmt := ⟨5, 2, 15, 0⟩
def e3m2 : FpFmt := ⟨3, 2, 3, 2⟩
def e2m3 : FpFmt := ⟨2, 3, 1, 2⟩
def e2m1 : FpFmt := ⟨2, 1, 1, 2⟩

/-- Bits of a format. -/
def FpFmt.width (f : FpFmt) : Nat := 1 + f.ebits + f.mbits

/-- Exponent of the least significant bit of the smallest subnormal. -/
def FpFmt.emin (f : FpFmt) : Int := 1 - (f.bias : Int) - (f.mbits : Int)

/-- The code, without its sign, of the largest finite value. -/
def FpFmt.maxCode (f : FpFmt) : Nat :=
  if f.special = 0 then (2 ^ f.ebits - 1) * 2 ^ f.mbits - 1
  else if f.special = 1 then 2 ^ (f.ebits + f.mbits) - 2
  else 2 ^ (f.ebits + f.mbits) - 1

/-- The canonical NaN of a format (R128). The Microscaling element formats without a NaN are never asked for one. -/
def FpFmt.nanCode (f : FpFmt) : Nat :=
  if f.ebits = 4 ∨ f.ebits = 5 ∧ f.mbits = 2 then 0x7F
  else (2 ^ f.ebits - 1) * 2 ^ f.mbits + 2 ^ (f.mbits - 1)

/-- The value of a code (R121, R126). -/
def FpFmt.decode (f : FpFmt) (v : Nat) : Num :=
  let neg := decide ((v >>> (f.ebits + f.mbits)) % 2 = 1)
  let x := (v >>> f.mbits) % 2 ^ f.ebits
  let m := v % 2 ^ f.mbits
  if f.special = 0 ∧ x = 2 ^ f.ebits - 1 then (if m = 0 then .inf neg else .nan)
  else if f.special = 1 ∧ v % 2 ^ (f.ebits + f.mbits) = 2 ^ (f.ebits + f.mbits) - 1 then .nan
  else if x = 0 then .fin neg m f.emin
  else .fin neg (2 ^ f.mbits + m) (f.emin + (x : Int) - 1)

/-- Number of significant bits. -/
def bitLen (m : Nat) : Nat := if m = 0 then 0 else m.log2 + 1

/-- A rounding mode: nearest even, or stochastic with the random value drawn (R131, R132). -/
inductive Round where
  | rne
  | sr (r : Nat)
deriving DecidableEq, Repr

/-- m ÷ 2ˢ rounded to an integer. -/
def roundShift (mode : Round) (m s : Nat) : Nat :=
  let q := m / 2 ^ s
  let rem := m % 2 ^ s
  match mode with
  | .rne => if 2 * rem > 2 ^ s ∨ (2 * rem = 2 ^ s ∧ q % 2 = 1) then q + 1 else q
  | .sr r => if rem * 65536 / 2 ^ s + r ≥ 65536 then q + 1 else q

/-- m × 2ᵉ rounded to an integer count of 2^q. -/
def roundTo (mode : Round) (m : Nat) (e q : Int) : Nat :=
  if q ≤ e then m * 2 ^ (e - q).toNat else roundShift mode m (q - e).toNat

/-- What a finite value beyond the largest finite one becomes: ±∞, or the largest finite value (R129). -/
def FpFmt.overflow (f : FpFmt) (toMax : Bool) : Nat :=
  if toMax then f.maxCode else (2 ^ f.ebits - 1) * 2 ^ f.mbits

/-- Do finite overflows saturate in a format (R129)? -/
def FpFmt.saturates (f : FpFmt) : Bool := decide (f.ebits + f.mbits < 8)

/-- The code of a number rounded to a format, and whether it overflowed (R129, R138). An infinite input becomes the largest finite value
where the format has no infinity. -/
def FpFmt.encodeOv (f : FpFmt) (mode : Round) : Num → Nat × Bool
  | .nan => (f.nanCode, false)
  | .inf neg => ((if neg then 2 ^ (f.ebits + f.mbits) else 0) + f.overflow (decide (f.special ≠ 0)), false)
  | .fin neg m e =>
    let sign := if neg then 2 ^ (f.ebits + f.mbits) else 0
    if m = 0 then (sign, false)
    else
      let q := max f.emin (e + (bitLen m : Int) - 1 - (f.mbits : Int))
      let code := (q - f.emin).toNat * 2 ^ f.mbits + roundTo mode m e q
      if code > f.maxCode then (sign + f.overflow f.saturates, true) else (sign + code, false)

/-- The code of a number rounded to a format. -/
def FpFmt.encode (f : FpFmt) (mode : Round) (x : Num) : Nat := (f.encodeOv mode x).1

/-! ### Exact arithmetic (R127, R128) -/

/-- A signed magnitude as an integer. -/
def sgn (neg : Bool) (m : Nat) : Int := if neg then -(m : Int) else (m : Int)

/-- An integer × 2ᵉ as a number; `negZero` is the sign a zero takes. -/
def Num.ofInt (negZero : Bool) (i : Int) (e : Int) : Num := if i = 0 then .fin negZero 0 e else .fin (decide (i < 0)) i.natAbs e

/-- Negation. -/
def Num.neg : Num → Num
  | .nan => .nan
  | .inf n => .inf (!n)
  | .fin n m e => .fin (!n) m e

/-- The exact sum. -/
def Num.add : Num → Num → Num
  | .nan, _ => .nan
  | _, .nan => .nan
  | .inf a, .inf b => if a = b then .inf a else .nan
  | .inf a, .fin _ _ _ => .inf a
  | .fin _ _ _, .inf b => .inf b
  | .fin na ma ea, .fin nb mb eb =>
    let e := min ea eb
    Num.ofInt (na && nb) (sgn na ma * 2 ^ (ea - e).toNat + sgn nb mb * 2 ^ (eb - e).toNat) e

/-- The exact product. -/
def Num.mul : Num → Num → Num
  | .nan, _ => .nan
  | _, .nan => .nan
  | .inf a, .inf b => .inf (xor a b)
  | .inf a, .fin n m _ => if m = 0 then .nan else .inf (xor a n)
  | .fin n m _, .inf b => if m = 0 then .nan else .inf (xor n b)
  | .fin na ma ea, .fin nb mb eb => .fin (xor na nb) (ma * mb) (ea + eb)

/-- The exact sum of a list; of one value, that value (R140). -/
def Num.sum : List Num → Num
  | [] => .zero
  | x :: xs => xs.foldl Num.add x

/-- Scale by a power of two. -/
def Num.scale (x : Num) (k : Int) : Num :=
  match x with
  | .fin n m e => .fin n m (e + k)
  | y => y

/-- Is a number a zero? -/
def Num.isZero : Num → Bool
  | .fin _ m _ => decide (m = 0)
  | _ => false

/-- Is a number below another; false with a NaN. -/
def Num.lt : Num → Num → Bool
  | .nan, _ => false
  | _, .nan => false
  | .inf a, .inf b => a && !b
  | .inf a, .fin _ _ _ => a
  | .fin _ _ _, .inf b => !b
  | .fin na ma ea, .fin nb mb eb =>
    let e := min ea eb
    decide (sgn na ma * 2 ^ (ea - e).toNat < sgn nb mb * 2 ^ (eb - e).toNat)

/-- Equality of values: +0 equals −0, a NaN equals nothing. -/
def Num.eqv (x y : Num) : Bool :=
  match x, y with
  | .nan, _ => false
  | _, .nan => false
  | a, b => !a.lt b && !b.lt a

/-- An FP32 word as a number. -/
def numOf (w : Word) : Num := fp32.decode w.toNat

/-- A number rounded to FP32 by RNE. -/
def toFp32 (x : Num) : Word := BitVec.ofNat 32 (fp32.encode .rne x)

/-- One FP32 addition with RNE rounding. -/
def fpAdd (a b : Word) : Word := toFp32 ((numOf a).add (numOf b))

/-- One FP32 product with RNE rounding. -/
def fpMul (a b : Word) : Word := toFp32 ((numOf a).mul (numOf b))

/-- a × b + c with one RNE rounding. -/
def fpFma (a b c : Word) : Word := toFp32 (((numOf a).mul (numOf b)).add (numOf c))

/-! ### Microscaling (R123–R125, R139) -/

/-- A power of two from an E8M0 scale byte; none for the NaN scale (R123). -/
def scaleExp (s : Nat) : Option Int := if s = 255 then none else some ((s : Int) - 127)

/-- An MXINT8 element code as a value (R124). -/
def int8Num (v : Nat) : Num :=
  let i : Int := if v < 128 then (v : Int) else (v : Int) - 256
  Num.ofInt false i (-6)

/-- Floor of log2 of a positive finite magnitude. -/
def floorLog2 (m : Nat) (e : Int) : Int := e + (bitLen m : Int) - 1

/-- The larger magnitude of two finite numbers, as a non-negative number. -/
def maxMag (x y : Num) : Num :=
  match x, y with
  | .fin _ m e, .fin _ m' e' => if (Num.fin false m e).lt (.fin false m' e') then .fin false m' e' else .fin false m e
  | a, _ => a

/-- Is a number NaN or infinite? -/
def Num.isSpecial : Num → Bool
  | .fin _ _ _ => false
  | _ => true

/-- The element formats of Microscaling blocks, with EMAX (R139). -/
inductive MxElem where
  | e4m3 | e5m2 | e3m2 | e2m3 | e2m1 | int8
deriving DecidableEq, Repr

def MxElem.emax : MxElem → Int
  | .e4m3 => 8 | .e5m2 => 15 | .e3m2 => 4 | .e2m3 => 2 | .e2m1 => 2 | .int8 => 0

def MxElem.width : MxElem → Nat
  | .e4m3 => 8 | .e5m2 => 8 | .e3m2 => 6 | .e2m3 => 6 | .e2m1 => 4 | .int8 => 8

/-- The value of an element code before scaling. -/
def MxElem.decode : MxElem → Nat → Num
  | .e4m3 => Machine.e4m3.decode | .e5m2 => Machine.e5m2.decode | .e3m2 => Machine.e3m2.decode
  | .e2m3 => Machine.e2m3.decode | .e2m1 => Machine.e2m1.decode | .int8 => int8Num

/-- An MXINT8 code: m = v × 64 rounded and clamped to ±127 (R124, R139). -/
def int8Code (mode : Round) : Num → Nat × Bool
  | .fin neg m e =>
    let r := roundTo mode m (e + 6) 0
    let q := min r 127
    (if neg then (256 - q) % 256 else q, decide (r > 127))
  | _ => (0, false)

/-- The element code of a value already divided by the block's scale, and whether it saturated. -/
def MxElem.encode (t : MxElem) (mode : Round) (x : Num) : Nat × Bool :=
  match t with
  | .e4m3 => Machine.e4m3.encodeOv mode x | .e5m2 => Machine.e5m2.encodeOv mode x | .e3m2 => Machine.e3m2.encodeOv mode x
  | .e2m3 => Machine.e2m3.encodeOv mode x | .e2m1 => Machine.e2m1.encodeOv mode x | .int8 => int8Code mode x

/-- The value of an element of a block (R123, R125). -/
def mxValue (t : MxElem) (scale code : Nat) : Num :=
  match scaleExp scale with
  | none => .nan
  | some k => (t.decode code).scale k

/-- A block of values as a scale byte and element codes, each value with its own rounding mode; the count of saturated elements (R139). -/
def mxBlock (t : MxElem) (vs : List (Num × Round)) : Nat × List Nat × Nat :=
  if vs.any (fun v => v.1.isSpecial) then (255, vs.map (fun _ => 0), 0)
  else
    match vs.foldl (fun a v => maxMag a v.1) Num.zero with
    | .fin _ m e =>
      if m = 0 then (0, vs.map (fun _ => 0), 0)
      else
        let x := max (-127) (min 127 (floorLog2 m e - t.emax))
        let codes := vs.map fun v => t.encode v.2 (v.1.scale (-x))
        ((x + 127).toNat, codes.map Prod.fst, (codes.filter Prod.snd).length)
    | _ => (255, vs.map (fun _ => 0), 0)

/-! ### The stochastic-rounding generator (R134) -/

/-- One step of the generator. -/
def xorshift (s : BitVec 64) : BitVec 64 :=
  let s := s ^^^ (s <<< 13)
  let s := s ^^^ (s >>> 7)
  s ^^^ (s <<< 17)

/-! ### Anchored fixed point (R145–R148) -/

/-- A value converted into An: the integer, and whether it was clamped or a NaN (R146). -/
def toAnchored (n : Nat) (anchor : Int) : Num → Int × Bool
  | .nan => (0, true)
  | .inf neg => (if neg then -(2 ^ (n - 1) : Nat) else ((2 ^ (n - 1) - 1 : Nat) : Int), true)
  | .fin neg m e =>
    let v := sgn neg (roundTo .rne m (e - anchor) 0)
    let lo : Int := -(2 ^ (n - 1) : Nat)
    let hi : Int := ((2 ^ (n - 1) - 1 : Nat) : Int)
    if v < lo then (lo, true) else if hi < v then (hi, true) else (v, false)

/-- An An value as an exact number (R145, R148). -/
def ofAnchored (anchor : Int) (v : Int) : Num := Num.ofInt false v anchor

/-- The low n bits of an integer in two's complement. -/
def intBits (n : Nat) (v : Int) : Nat := (v % (2 ^ n : Int)).toNat

/-- An n-bit two's-complement code as an integer. -/
def bitsInt (n v : Nat) : Int := if v % 2 ^ n < 2 ^ (n - 1) then (v % 2 ^ n : Nat) else ((v % 2 ^ n : Nat) : Int) - (2 ^ n : Nat)

end Sys2Proof.Machine
end

