-- ==== Sys2Proof/Machine/Mtx.lean ====
section
/-! DEFINITION. The matrix cell (R98–R101, R140–R144, R151–R191): operands, K groups, banks, segments, the activity controller, parity errors. -/

namespace Sys2Proof.Machine

/-! ### Fields of an MTX command (R98) -/

def mtxFmt (c : CmdBits) : Nat := cmdFld c 3 0 4
def mtxRowsA (c : CmdBits) : Nat := cmdFld c 3 4 7 + 1
def mtxColsB (c : CmdBits) : Nat := cmdFld c 3 11 7 + 1
def mtxZero (c : CmdBits) : Bool := decide (cmdFld c 3 18 1 = 1)
def mtxClose (c : CmdBits) : Bool := decide (cmdFld c 3 19 1 = 1)
def mtxSeg (c : CmdBits) : Bool := decide (cmdOpcode c = 1) && decide (cmdFld c 3 22 1 = 1)
def mtxSegCount (c : CmdBits) : Nat := cmdFld c 3 24 8 + 1
def mtxSegTable (c : CmdBits) : Nat := cmdFld c 4 0 24
def mtxLength (c : CmdBits) : Nat := cmdFld c 4 0 16
def mtxLevel (c : CmdBits) : Nat := cmdFld c 4 16 4

/-- Bits of an element of an operand format (R100). -/
def mtxElemBits (fmt : Nat) : Nat :=
  if fmt ≤ 1 then 16 else if fmt ≤ 6 then 8 else if fmt ≤ 8 then 6 else if fmt = 9 then 4 else 32

/-- Units of a K group (R140, R143). -/
def mtxGroupUnits (fmt : Nat) : Nat := if fmt ≤ 1 then 1 else if fmt ≤ 6 then 2 else if fmt ≤ 9 then 4 else 1

/-- The Microscaling element of a format, if it has one. -/
def mtxMx (fmt : Nat) : Option MxElem :=
  if fmt = 4 then some .e4m3 else if fmt = 5 then some .e5m2 else if fmt = 6 then some .int8 else if fmt = 7 then some .e3m2
  else if fmt = 8 then some .e2m3 else if fmt = 9 then some .e2m1 else none

/-- The plain layout of a format. -/
def mtxFp (fmt : Nat) : FpFmt :=
  if fmt = 0 then bf16 else if fmt = 1 then fp16 else if fmt = 2 then e4m3 else if fmt = 3 then e5m2 else fp32

/-- Passes over K (R143). -/
def mtxPasses (fmt : Nat) : Nat := if fmt = 10 then 3 else 1

/-- K: the units that AG A produces (R99). -/
def mtxK (c : CmdBits) : Nat := (cmdAG c 5).count

/-- K groups of one pass (R154). -/
def mtxGroupsPerPass (c : CmdBits) : Nat := (mtxK c + mtxGroupUnits (mtxFmt c) - 1) / mtxGroupUnits (mtxFmt c)

/-- Groups that a repeat sends. -/
def mtxGroups (c : CmdBits) : Nat :=
  if cmdOpcode c = 1 ∨ cmdOpcode c = 2 then mtxGroupsPerPass c * mtxPasses (mtxFmt c)
  else if cmdOpcode c = 3 ∨ cmdOpcode c = 4 then 1 else 0

/-! ### Banks -/

/-- A bank by number. -/
def Mtx.bank (m : Mtx) (b : Nat) : Bank := if b = 0 then m.bank0 else m.bank1

/-- Replace a bank. -/
def Mtx.setBank (m : Mtx) (b : Nat) (x : Bank) : Mtx := if b = 0 then { m with bank0 := x } else { m with bank1 := x }

/-- Element `128 × row + column` of a bank (R160). -/
def Bank.elem (b : Bank) (i : Nat) : Word :=
  match SMap.find? b.elems i with
  | some v => v
  | none => match b.draw with
    | none => 0
    | some d => Config.freeWord d i

/-- Set an element of a bank. -/
def Bank.setElem (b : Bank) (i : Nat) (v : Word) : Bank := { b with elems := SMap.put b.elems i v }

/-- Change the matrix cell of a core. -/
def Work.updMtx (w : Work) (c : Nat) (f : Mtx → Mtx) : Work := w.updCore c fun k => { k with mtx := f k.mtx }

/-- The matrix cell of a core. -/
def Work.mtx (w : Work) (c : Nat) : Mtx := (w.core c).mtx

/-- Close the open bank: the other bank becomes open in the same cycle (R107, R162). -/
def Mtx.close (m : Mtx) (fast : Bool) : Mtx :=
  let b := m.opened
  let m := m.setBank b { m.bank b with state := .closing, fast := fast }
  let o := 1 - b
  let m := m.setBank o { m.bank o with mvpOnly := true }
  { m with opened := o, closed := m.closed ++ [b] }

/-- May a closing bank be marked full: banks on the slow path are sealed in the order they were closed (R159, R166, R173). -/
def Mtx.mayFill (m : Mtx) (b : Nat) : Bool :=
  decide ((m.bank b).state = .closing) &&
    ((m.bank b).fast || decide ((m.closed.filter fun x => decide ((m.bank x).state = .closing)).head? = some b))

/-! ### Operands (R152–R154) -/

/-- A size rounded up to whole crumbs. -/
def crumbUp (n : Nat) : Nat := (n + 31) / 32 * 32

/-- The code of element `i` of a unit at scratchpad offset `a`. -/
def Work.unitElem (w : Work) (c a fmt i : Nat) : Nat :=
  let n := mtxElemBits fmt
  bits (w.spmLE c (a + n * i / 8) 5) (n * i % 8) n

/-- FP32 truncated toward zero to BF16 precision, and the rest rounded to BF16 (R143). -/
def splitFp32 (v : Nat) : Num × Num :=
  let x := fp32.decode v
  if x.isSpecial then (x, .zero)
  else
    let hi := fp32.decode (v / 65536 * 65536)
    (hi, bf16.decode (bf16.encode .rne (x.add hi.neg)))

/-- The value of an element in a pass: high or low part for FP32 (R140, R143). -/
def mtxValue (fmt scale code : Nat) (low : Bool) : Num :=
  match mtxMx fmt with
  | some t => mxValue t scale code
  | none =>
    if fmt = 10 then (if low then (splitFp32 code).2 else (splitFp32 code).1)
    else (mtxFp fmt).decode code

/-- One product of a pass: in passes 1 and 2 a zero low factor makes it +0 (R143). -/
def mtxProduct (pass : Nat) (a b : Num) : Num :=
  if (pass = 1 ∧ a.isZero) ∨ (pass = 2 ∧ b.isZero) then .zero else a.mul b

/-- An operand of a running command: its address generator, repeat step, repeat, half and row or column count. -/
structure Operand where
  ag : AG
  rstep : Int
  rep : Nat
  half : Nat
  count : Nat

/-- The address of unit u of an operand. -/
def Operand.addr (o : Operand) (u : Nat) : Nat := o.ag.unit o.rstep o.rep o.half u

/-- Element i of unit u of an operand, with the scale of its block (R153). -/
def Work.operandElem (w : Work) (c : Nat) (o : Operand) (fmt u i : Nat) (low : Bool) : Num :=
  let prefixAt := o.addr (u / 32 * 32) + 2 ^ 24 - crumbUp o.count
  let scale := if (mtxMx fmt).isSome then w.spmLE c (prefixAt + i) 1 else 0
  mtxValue fmt scale (w.unitElem c (o.addr u) fmt i) low

/-- The base of the half that the running repeat of a command took from its input link (R96, R105). -/
def Work.inHalfBase (w : Work) (c : Nat) (r : Running) : Nat :=
  match r.inHeld.getLast? with
  | some h => w.halfBase c (cmdInLink r.cmd) h
  | none => 0

/-- The base of the half that the running repeat took from its output link. -/
def Work.outHalfBase (w : Work) (c : Nat) (r : Running) : Nat :=
  match r.outHeld.getLast? with
  | some h => w.halfBase c (cmdOutLink r.cmd) h
  | none => 0

/-- Operand A of the running repeat. -/
def Work.operandA (w : Work) (c : Nat) (r : Running) : Operand :=
  ⟨cmdAG r.cmd 5, cmdRstep1 r.cmd, r.started - 1, w.inHalfBase c r, mtxRowsA r.cmd⟩

/-- Operand B of the running repeat, at its own base or at a segment's (R178). -/
def Work.operandB (w : Work) (c : Nat) (r : Running) (base : Option Nat) : Operand :=
  let g := cmdAG r.cmd 10
  ⟨{ g with base := base.getD g.base }, cmdRstep2 r.cmd, r.started - 1, w.inHalfBase c r, mtxColsB r.cmd⟩

/-- Operand B for row i: the command's own, or the segment that covers the row (R176–R178); none for a row no segment covers. -/
def Work.operandBFor (w : Work) (c : Nat) (r : Running) (i : Nat) : Option Operand :=
  if mtxSeg r.cmd then
    match r.segs.find? (fun s => decide (s.row ≤ i) && decide (i < s.row + s.count)) with
    | some s => some (w.operandB c r (some s.base))
    | none => none
  else some (w.operandB c r none)

/-- The exact sum of the products of group n in element (i, j) (R140, R141, R143). -/
def Work.groupSum (w : Work) (c : Nat) (r : Running) (n i j : Nat) (b : Operand) : Num :=
  let fmt := mtxFmt r.cmd
  let pass := if mtxPasses fmt = 3 then n / mtxGroupsPerPass r.cmd + 1 else 0
  let g := mtxGroupUnits fmt
  let u0 := n % mtxGroupsPerPass r.cmd * g
  let units := (List.range (min g (mtxK r.cmd - u0))).map (u0 + ·)
  Num.sum (units.map fun u =>
    mtxProduct pass (w.operandElem c (w.operandA c r) fmt u i (decide (pass = 1))) (w.operandElem c b fmt u j (decide (pass = 2))))

/-- Element (i, j) of the open bank after group n of the running repeat (R140–R142, R163, R177). -/
def Work.groupElem (w : Work) (c : Nat) (r : Running) (n i j : Nat) : Word :=
  let old := ((w.mtx c).bank (w.mtx c).opened).elem (128 * i + j)
  let replaces := mtxZero r.cmd && decide (n = 0)
  match (if i < mtxRowsA r.cmd ∧ j < mtxColsB r.cmd then w.operandBFor c r i else none) with
  | none => if replaces then 0 else old
  | some b =>
    let s := w.groupSum c r n i j b
    toFp32 (if replaces then s else (numOf old).add s)

/-- The elements of a bank that a group can change, with their new values. -/
def Work.groupElems (w : Work) (c : Nat) (r : Running) (n : Nat) : List (Nat × Word) :=
  let all := mtxZero r.cmd && decide (n = 0)
  (List.range (if all then 128 else mtxRowsA r.cmd)).flatMap fun i =>
    (List.range (if all then 128 else mtxColsB r.cmd)).map fun j => (128 * i + j, w.groupElem c r n i j)

/-! ### The command that sends groups -/

/-- Has an issued MTX command sent every group of its last repeat? A PROOF or a NOP sends none. -/
def mtxSentAll (r : Running) : Bool :=
  if cmdOpcode r.cmd = 0 ∨ cmdOpcode r.cmd = 8 then true
  else r.ready && decide (r.started = cmdRepeat r.cmd) && decide (mtxGroups r.cmd ≤ r.pos)

/-- Is forced Proof on (R186)? -/
def Work.proofForced (w : Work) (c : Nat) : Bool := w.flag (Reg.MTX_PROOF_CTRL c) Fld.MTX_PROOF_CTRL_FORCE

/-- The command that may send a group now: issued last, its repeat started, its bank open and empty, no PROOF before it and no forced
Proof (R156, R161, R185, R186). -/
def Work.mtxSender (w : Work) (c : Nat) : Option Running :=
  match (w.engine c 0).last with
  | some r =>
    if w.coreUp c && r.ready && !r.stopped && !r.refetch && decide (0 < r.started) && decide (r.pos < mtxGroups r.cmd) &&
        !w.proofForced c && ((w.engine c 0).running.all fun x => decide (cmdOpcode x.cmd ≠ 8)) &&
        decide (((w.mtx c).bank (w.mtx c).opened).state = .empty)
    then some r else none
  | none => none

/-! ### The activity controller (R180–R187) -/

/-- The issue cap that the Kiln sets for a core (R573). -/
def Work.issueCap (w : Work) (c : Nat) : Nat := w.fld (Reg.PWR_RG_CAP (coreRegion c) (coreSlot c)) Fld.PWR_RG_CAP_CAP

/-- Is a real array group ready, or a repeat between its first array group and its last (item 3 of R182)? -/
def Work.arrayWork (w : Work) (c : Nat) : Bool :=
  (match w.mtxSender c with
    | some r => decide (cmdOpcode r.cmd ≠ 2)
    | none => false) ||
  (match (w.engine c 0).last with
    | some r => decide (cmdOpcode r.cmd = 1) && decide (0 < r.pos) && decide (r.pos < mtxGroups r.cmd)
    | none => false)

/-- The target of the activity level (R182). -/
def Work.mtxTarget (w : Work) (c : Nat) : Nat :=
  let proof := (w.engine c 0).running.find? fun r => decide (cmdOpcode r.cmd = 8)
  min (w.issueCap c) <|
    if w.proofForced c then w.fld (Reg.MTX_PROOF_CTRL c) Fld.MTX_PROOF_CTRL_LEVEL
    else match proof with
      | some r => mtxLevel r.cmd
      | none =>
        if w.arrayWork c then 8
        else if (w.mtx c).holding then (w.mtx c).target
        else match w.mtxSender c with
          | some _ => 1
          | none => 0

/-- The level as it stands: it leaves 0 in the cycle in which the target rises (R181). -/
def Work.mtxLevelNow (w : Work) (c : Nat) : Nat :=
  if (w.mtx c).level = 0 ∧ 0 < w.mtxTarget c then 1 else (w.mtx c).level

/-- One step along the ladder toward a target (R181). -/
def ladderStep (level target : Nat) : Nat :=
  if level < target then (if level = 6 ∧ target ≠ 7 then 8 else level + 1)
  else if target < level then (if level = 8 ∧ target ≠ 7 then 6 else level - 1)
  else level

/-- Keep the level that rose from 0, and the target that item 4 of R182 holds. -/
def Work.settleLevel (w : Work) (c : Nat) : Work :=
  let t := w.mtxTarget c
  let l := w.mtxLevelNow c
  w.updMtx c fun m => { m with level := l, target := t }

/-! ### Groups -/

/-- One group of the running repeat enters (R140–R144, R158–R164, R172). -/
def Work.enterGroup (w : Work) (c : Nat) : Work :=
  match w.mtxSender c with
  | none => w
  | some r =>
    let w := w.settleLevel c
    let n := r.pos
    let mvp := decide (cmdOpcode r.cmd = 2)
    let cells := w.groupElems c r n
    let done := decide (n + 1 = mtxGroups r.cmd)
    let closes := done && mtxClose r.cmd
    let w := w.updMtx c fun m =>
      let b := m.bank m.opened
      let b := cells.foldl (fun b e => b.setElem e.1 e.2) b
      let b := { b with mvpOnly := b.mvpOnly && mvp, lastTag := cmdTag r.cmd }
      let m := m.setBank m.opened b
      let m := { m with lastFmt := mtxFmt r.cmd, lastMvp := mvp, proofSlot := false, holding := m.holding || !mvp }
      if closes then m.close mvp else m
    let opened := (w.mtx c).opened
    let w := w.updEngine c 0 fun x => x.updLast fun r =>
      { r with pos := n + 1, bankHeld := if closes then r.bankHeld ++ [1 - opened] else r.bankHeld }
    w.bump (Reg.MTX_GROUPS c) 1

/-- Enter `n` groups. -/
def Work.enterGroups (w : Work) (c : Nat) : Nat → Work
  | 0 => w
  | n + 1 => (w.enterGroup c).enterGroups c n

/-- Groups that the sending command has left in its repeat, when it has the opcode `op`. -/
def Work.groupsLeft (w : Work) (c op : Nat) : Nat :=
  match w.mtxSender c with
  | some r => if cmdOpcode r.cmd = op then mtxGroups r.cmd - r.pos else 0
  | none => 0

/-- MMA: the groups left of the running repeat enter, in order (R99). -/
def execMma (core : CoreIx) (s : State) : Host.Outcome State Fault Refusal :=
  run s fun w => w.enterGroups core (w.groupsLeft core 1)

/-- MVM: as MMA, on the matrix-vector path (R172). -/
def execMvm (core : CoreIx) (s : State) : Host.Outcome State Fault Refusal :=
  run s fun w => w.enterGroups core (w.groupsLeft core 2)

/-- The command that sends a group now, when it has the opcode `op`. -/
def Work.senderOf (w : Work) (c op : Nat) : Option Running :=
  match w.mtxSender c with
  | some r => if cmdOpcode r.cmd = op then some r else none
  | none => none

/-- ACLR sets all 16,384 elements of the open bank to +0 (R165). -/
def execAclr (core : CoreIx) (s : State) : Host.Outcome State Fault Refusal :=
  run s fun w =>
    match w.senderOf core 3 with
    | none => w
    | some r =>
      let w := w.settleLevel core
      let w := w.updMtx core fun m =>
        let m := m.setBank m.opened { m.bank m.opened with elems := [], draw := none, lastTag := cmdTag r.cmd }
        { m with lastMvp := false, proofSlot := false, holding := true }
      (w.updEngine core 0 fun x => x.updLast fun r => { r with pos := 1 }).bump (Reg.MTX_GROUPS core) 1

/-- ACLOSE closes the open bank and changes no element (R166). -/
def execAclose (core : CoreIx) (s : State) : Host.Outcome State Fault Refusal :=
  run s fun w =>
    match w.senderOf core 4 with
    | none => w
    | some _ =>
      let w := w.settleLevel core
      let b := (w.mtx core).opened
      let w := w.updMtx core fun m =>
        { m.close (m.bank b).mvpOnly with lastMvp := false, proofSlot := false, holding := true }
      (w.updEngine core 0 fun x => x.updLast fun r => { r with pos := 1, bankHeld := [b] }).bump (Reg.MTX_GROUPS core) 1

/-- PROOF: the level moves to LEVEL and is held for LENGTH CORE cycles with Proof groups (R184, R185). The event starts the hold. -/
def execProof (core : CoreIx) (s : State) : Host.Outcome State Fault Refusal :=
  run s fun w =>
    match (w.engine core 0).running.find? (fun r => decide (cmdOpcode r.cmd = 8)) with
    | some r =>
      if w.coreUp core && decide ((w.mtx core).proofLeft = none) && decide (w.mtxLevelNow core = min (mtxLevel r.cmd) (w.issueCap core)) then
        (w.settleLevel core).updMtx core fun m =>
          { m with proofLeft := some (mtxLength r.cmd), lastFmt := mtxFmt r.cmd, proofSlot := true }
      else w
    | none => w

/-- A parity error in an accumulator element (R189). -/
def Work.accParity (w : Work) (c bank row : Nat) : Work :=
  let tag := ((w.mtx c).bank bank).lastTag
  let ctx := w.placedCtx c
  let w := w.setFlag (Reg.MTX_ERR_STAT c) Fld.MTX_ERR_STAT_ACC_LASTING true
  let w := w.w32 (Reg.MTX_ERR_INFO c) (BitVec.ofNat 32 (tag + bank * 2 ^ 16 + row * 2 ^ 17 + 2 ^ 24))
  w.cellFault c 0x07 1 tag ctx none 0

/-- One K group enters the array or the matrix-vector path; `parity` names the row of an accumulator element found bad as the group is
added to it (R156, R189). -/
def execGroupEnter (core : CoreIx) (parity : Option (Fin 128)) (s : State) : Host.Outcome State Fault Refusal :=
  run s fun w =>
    match w.mtxSender core, parity with
    | some _, some row => w.accParity core (w.mtx core).opened row.val
    | _, _ => if w.groupsLeft core 1 + w.groupsLeft core 2 = 0 then w else w.enterGroup core

/-- A closing bank is sealed and marked full (R159, R166, R173). -/
def execBankFull (core : CoreIx) (bank : Fin 2) (s : State) : Host.Outcome State Fault Refusal :=
  run s fun w =>
    if w.coreUp core && (w.mtx core).mayFill bank.val then
      let w := w.updMtx core fun m => m.setBank bank.val { m.bank bank.val with state := .full }
      w.updEngine core 0 fun x =>
        { x with running := x.running.map fun r => { r with bankHeld := r.bankHeld.filter (fun b => decide (b ≠ bank.val)) } }
    else w

/-- The level moves one step toward its target (R181). -/
def execLevelStep (core : CoreIx) (s : State) : Host.Outcome State Fault Refusal :=
  run s fun w =>
    if w.coreUp core then
      let t := w.mtxTarget core
      w.updMtx core fun m => { m with level := ladderStep m.level t, target := t }
    else w

/-- HOLD CORE cycles after real array work stopped, the target falls to the later items of R182. -/
def execRampHoldExpire (core : CoreIx) (s : State) : Host.Outcome State Fault Refusal :=
  run s fun w => if w.arrayWork core then w else w.updMtx core fun m => { m with holding := false }

/-! ### The segment table (R175–R179) -/

/-- One entry of a segment table as read: the segment, its end, the clamps of ROW_FIRST, ROW_COUNT and B_BASE (R175, R176). -/
def segEntry (rows prevEnd w0 w1 : Nat) : Seg × Option ClampRule × Option ClampRule × Option ClampRule :=
  let f0 := bits w0 0 8
  let f1 := min f0 128
  let f2 := min (max f1 prevEnd) rows
  let n0 := bits w0 8 8
  let n1 := min n0 128
  let n2 := min n1 (rows - f2)
  let b0 := bits w1 0 24
  let b1 := b0 / 32 * 32
  (⟨f2, n2, b1⟩,
    if f2 = f0 then none else some (if f1 = f0 then .joined else .range),
    if n2 = n0 then none else some (if n1 = n0 then .joined else .range),
    if b1 = b0 then none else some .align)

/-- Read `n` entries of the segment table at offset `a`: the segments, whether a row field was clamped, the clamps counted. -/
def Work.readSegs (w : Work) (c rows : Nat) (who : ClampBy) : Nat → Nat → Nat → List Seg × Bool × Work
  | 0, _, _ => ([], false, w)
  | n + 1, a, prevEnd =>
    let (s, f, m, b) := segEntry rows prevEnd (w.spmLE c a 4) (w.spmLE c (a + 4) 4)
    let count (w : Work) (r : Option ClampRule) (word lsb : Nat) : Work :=
      match r with | some r => w.clamp who (spmAt c (a + 4 * word)) word lsb r | none => w
    let w := count (count (count w f 0 0) m 0 8) b 1 0
    let (rest, cl, w) := w.readSegs c rows who n (a + 8) (s.row + s.count)
    (s :: rest, f.isSome || m.isSome || cl, w)

/-- The segment table is read: its entries serve every repeat of the command (R175–R179). -/
def execSegTableReadDone (core : CoreIx) (s : State) : Host.Outcome State Fault Refusal :=
  run s fun w =>
    match (w.engine core 0).last with
    | some r =>
      if w.coreUp core && mtxSeg r.cmd && !r.ready && !r.stopped && !r.refetch then
        let who := match r.ctx with | some x => ClampBy.program x | none => .firmware
        let (segs, clamped, w) := w.readSegs core (mtxRowsA r.cmd) who (mtxSegCount r.cmd) (mtxSegTable r.cmd) 0
        let live := segs.filter fun s => decide (0 < s.count)
        let st := live.length + (if clamped then 2 ^ 16 else 0) + (mtxSegCount r.cmd - 1) * 2 ^ 24
        (w.w32 (Reg.MTX_SEG_STAT core) (BitVec.ofNat 32 st)).updEngine core 0 fun x =>
          x.updLast fun r => { r with ready := true, segs := live }
      else w
    | none => w

/-! ### Parity of the feeders (R188) -/

/-- May a word that the running command fetches be found bad: it reads its table, or has groups left to fetch. -/
def mtxFetching (r : Running) : Bool :=
  !r.stopped && !r.refetch && ((mtxSeg r.cmd && !r.ready) ||
    (decide (cmdOpcode r.cmd = 1 ∨ cmdOpcode r.cmd = 2) && decide (0 < r.started) && decide (r.pos < mtxGroups r.cmd)))

/-- A parity error is found: the words are fetched again once, and no group enters meanwhile (R188). -/
def execFeedParityError (core : CoreIx) (s : State) : Host.Outcome State Fault Refusal :=
  run s fun w =>
    match (w.engine core 0).last with
    | some r =>
      if w.coreUp core && mtxFetching r then w.updEngine core 0 fun x => x.updLast fun r => { r with refetch := true } else w
    | none => w

/-- The refetch ends: transient when clean, lasting otherwise (R188). -/
def execFeedRefetchEnd (core : CoreIx) (clean : Bool) (s : State) : Host.Outcome State Fault Refusal :=
  run s fun w =>
    match (w.engine core 0).last with
    | some r =>
      if r.refetch then
        let st := Reg.MTX_ERR_STAT core
        let w := w.updEngine core 0 fun x => x.updLast fun r => { r with refetch := false, stopped := !clean }
        if clean then
          w.cellTransient core 0x06 1 (cmdTag r.cmd) r.ctx st Fld.MTX_ERR_STAT_FEED_TRANSIENT Fld.MTX_ERR_STAT_TRANSIENT_CNT 0
        else
          let w := w.setFlag st Fld.MTX_ERR_STAT_FEED_LASTING true
          let info := (w.r32 (Reg.MTX_ERR_INFO core)).toNat
          let w := w.w32 (Reg.MTX_ERR_INFO core)
            (BitVec.ofNat 32 (setBits (setBits info 0 16 (cmdTag r.cmd)) 24 1 0))
          w.cellFault core 0x06 1 (cmdTag r.cmd) r.ctx none 0
      else w
    | none => w

/-- A write of MTX_PROOF_CTRL (R186): forced Proof acts through the target and the groups that may enter. -/
def execProofCtrlWrite (master : Master) (core : CoreIx) (value : Word) (s : State) : Host.Outcome State Fault Refusal :=
  run s fun w => (w.settleLevel core).regWrite master (Reg.MTX_PROOF_CTRL core) .w32 0xF value.toNat

end Sys2Proof.Machine
end

