-- ==== Sys2Proof/Machine/Kiln.lean ====
section
/-! DEFINITION. The Kiln and heat (R573–R582): caps, the budget, lending, Proof schedules, ceilings. -/

namespace Sys2Proof.Machine

/-! ### Caps (R573, R574) -/

/-- What the Kiln holds for core slot c. -/
def Work.kilnCore (w : Work) (c : Nat) : KilnCore := SMap.get KilnCore.reset w.hw.kiln c

/-- Does the Kiln force a core into Proof? -/
def Work.forced (w : Work) (c : Nat) : Bool := decide (SMap.get 0 w.hw.proof c ≠ 0)

/-- The thermal ceiling of a core's region. -/
def Work.ceil (w : Work) (c : Nat) : Nat := w.fld (Reg.PWR_RG_STATUS (coreRegion c)) Fld.PWR_RG_STATUS_CEIL

/-- The cap of a core (R574, R576, R577). -/
def Work.capOf (w : Work) (c : Nat) : Nat :=
  let k := w.kilnCore c
  if w.forced c then 8 else if k.lent || k.back.isSome then 1 else min (w.ceil c) (k.base + k.loan)

/-- Write a core's cap into its region's power agent. -/
def Work.sendCap (w : Work) (c : Nat) : Work :=
  let k := w.kilnCore c
  let v := w.capOf c + k.base * 2 ^ 4 + k.loan * 2 ^ 8 + (if k.lent then 2 ^ 12 else 0) + (if w.forced c then 2 ^ 13 else 0)
  (w.settleLevel c).w32 (Reg.PWR_RG_CAP (coreRegion c) (coreSlot c)) (BitVec.ofNat 32 v)

/-- Replace what the Kiln holds for a core, and write its cap. -/
def Work.setKiln (w : Work) (c : Nat) (k : KilnCore) : Work :=
  ({ w with hw := { w.hw with kiln := SMap.set KilnCore.reset w.hw.kiln c k } }).sendCap c

/-- The global cores of the distribution: enabled and not forced (R574, R575). -/
def Work.kilnCores (w : Work) : List Nat :=
  (List.range 256).filter fun g => !w.coreDisabled (globalSlot g) && !w.forced (globalSlot g)

/-- Does a global core lend? -/
def Work.lends (w : Work) (g : Nat) : Bool := (w.kilnCore (globalSlot g)).lent

/-- Show the pool and the number of lenders. -/
def Work.setPool (w : Work) (pool : Nat) : Work :=
  (w.setFld Reg.PWR_CAPS Fld.PWR_CAPS_POOL pool).setFld Reg.PWR_CAPS Fld.PWR_CAPS_LENDERS
    (min 255 ((List.range 256).filter w.lends).length)

/-- Units in the pool. -/
def Work.pool (w : Work) : Nat := w.fld Reg.PWR_CAPS Fld.PWR_CAPS_POOL

/-! ### Lending (R576–R578) -/

/-- May a core take a unit of the pool: it is in the distribution, neither lends nor waits for its cap, and lies below min(8, CEIL)? -/
def Work.borrows (w : Work) (g : Nat) : Bool :=
  let c := globalSlot g
  let k := w.kilnCore c
  !w.coreDisabled c && !w.forced c && !k.lent && k.back.isNone && decide (k.base + k.loan < min 8 (w.ceil c))

/-- Give the units of the pool to cores that may borrow, one at a time, in ascending number after the core served last. -/
def Work.giveLoans : Nat → Work → Work
  | 0, w => w
  | n + 1, w =>
    match ((List.range 256).map fun i => (w.hw.loanLast + 1 + i) % 256).find? w.borrows with
    | none => w
    | some g =>
      let c := globalSlot g
      let k := w.kilnCore c
      let w := w.setKiln c { k with loan := k.loan + 1 }
      Work.giveLoans n (({ w with hw := { w.hw with loanLast := g } }).setPool (w.pool - 1))

/-- Lend what the pool holds. -/
def Work.lendPool (w : Work) : Work := w.giveLoans w.pool

/-- Remove the first notice of a core from the Kiln's notices, if it is the one expected. -/
def Work.takeNotice (w : Work) (c : Nat) (last : Bool) : Option Work :=
  let want := 2 * c + (if last then 1 else 0)
  if w.hw.longWaits.find? (fun n => decide (n / 2 = c)) = some want then
    some { w with hw := { w.hw with longWaits := dropFirst (fun n => decide (n = want)) w.hw.longWaits } }
  else none

/-- KILN_LEND: a long-wait notice of a core reaches the Kiln (R576). -/
def execKilnLend (core : CoreIx) (s : State) : Host.Outcome State Fault Refusal :=
  run s fun w =>
    match w.takeNotice core false with
    | none => w
    | some w =>
      let c := core.val
      let k := w.kilnCore c
      Work.when (w.flag Reg.PWR_CTRL Fld.PWR_CTRL_LEND_EN && decide (coreSlot c < 16) && !w.coreDisabled c && !w.forced c && !k.lent &&
          k.back.isNone) w fun w =>
        let w := (w.setKiln c { k with loan := 0, lent := true }).bumpErr Reg.PWR_LOANS 1
        (w.setPool (w.pool + (k.base - 1) + k.loan)).lendPool

/-- Take back units from borrowers, from the highest core down: the cores lowered, and the work. -/
def Work.takeBack (w : Work) (short : Nat) : List Nat × Work :=
  let r := (List.range 256).reverse.foldl (fun (st : Nat × List Nat × Work) g =>
    let (n, low, w) := st
    let k := w.kilnCore (globalSlot g)
    let x := min n k.loan
    if x = 0 then st else (n - x, low ++ [g], w.setKiln (globalSlot g) { k with loan := k.loan - x })) (short, [], w)
  (r.2.1, r.2.2)

/-- Restore a core's cap once every lowered borrower is at or below its new cap (R577). -/
def Work.restoreCap (w : Work) (c : Nat) : Work :=
  let k := w.kilnCore c
  match k.back with
  | some low =>
    if low.all fun g => decide (w.mtxLevelNow (globalSlot g) ≤ w.capOf (globalSlot g)) then w.setKiln c { k with back := none } else w
  | none => w

/-- A lender leaves with its units: what the pool lacks is taken back from the borrowers (R577, R578). -/
def Work.reclaim (w : Work) (c : Nat) : Work :=
  let k := w.kilnCore c
  if k.lent then
    let units := k.base - 1
    let (low, w) := w.takeBack (units - w.pool)
    let w := w.setKiln c { w.kilnCore c with lent := false, back := some low }
    (w.setPool (w.pool - units)).restoreCap c
  else w

/-- KILN_RECLAIM: an end notice of a core reaches the Kiln, or the lowered borrowers report their levels (R577). -/
def execKilnReclaim (core : CoreIx) (s : State) : Host.Outcome State Fault Refusal :=
  run s fun w =>
    match w.takeNotice core true with
    | some w => w.reclaim core
    | none => w.restoreCap core

/-! ### The budget (R575, R578) -/

/-- ⌈16 x ÷ u⌉: the cap units that x watts are, UNIT_W being in sixteenths of a watt. -/
def capUnitsUp (x u : Nat) : Nat := (16 * x + u - 1) / u

/-- The chip cap budget after a period of power p under the target t (R575). -/
def nextBudget (c n p t unit hyst : Nat) : Nat :=
  let c := min (max c n) (8 * n)
  if t < p then max n (c - capUnitsUp (p - t) unit)
  else if p + hyst < t then min (8 * n) (c + min (16 * (t - hyst - p) / unit) 64)
  else c

/-- Each core of the distribution takes its new BASE, and lenders' units make the pool anew (R575, R578). -/
def Work.shareBudget (w : Work) (cores : List Nat) (budget : Nat) : Work :=
  let n := cores.length
  let order := ((List.range 256).map fun i => (w.hw.kilnLast + 1 + i) % 256).filter fun g => cores.contains g
  let extra := order.take (budget % n)
  let w := { w with hw := { w.hw with kilnLast := extra.getLast?.getD w.hw.kilnLast } }
  let w := w.forEach cores fun w g =>
    let c := globalSlot g
    w.setKiln c { w.kilnCore c with base := budget / n + (if extra.contains g then 1 else 0), loan := 0 }
  let gone := (List.range 256).filter fun g => !cores.contains g
  let w := w.forEach gone fun w g => w.setKiln (globalSlot g) { w.kilnCore (globalSlot g) with loan := 0, lent := false, back := none }
  (w.setPool (((cores.filter w.lends).map fun g => (w.kilnCore (globalSlot g)).base - 1).sum)).lendPool

/-- KILN_PERIOD: a Kiln period ends (R575, R578). The operands are what the supply dies measured, SD0 in the low half, and each region's estimate. -/
def execKilnPeriod (power vin iin : Word) (est : BitVec 256) (s : State) : Host.Outcome State Fault Refusal :=
  run s fun w =>
    let w := w.forEach [0, 1] fun w d =>
      ((w.setFld (Reg.PWR_SD_POWER d) Fld.PWR_SD_POWER_W (bits power.toNat (16 * d) 16)).setFld (Reg.PWR_SD_VIN d) Fld.PWR_SD_VIN_MV
        (bits vin.toNat (16 * d) 16)).setFld (Reg.PWR_SD_IIN d) Fld.PWR_SD_IIN_CA (bits iin.toNat (16 * d) 16)
    let w := w.forEach (List.range 16) fun w r => w.setFld (Reg.PWR_RG_EST r) Fld.PWR_RG_EST_W (bits est.toNat (16 * r) 16)
    let p := bits power.toNat 0 16 + bits power.toNat 16 16
    let i := Reg.PWR_INPUT
    let shown := p % 65536
    let w := (w.setFld i Fld.PWR_INPUT_P_W shown).setFld i Fld.PWR_INPUT_HIGH_W (max shown (w.fld i Fld.PWR_INPUT_HIGH_W))
    let sustain := w.fld Reg.PWR_BUDGET Fld.PWR_BUDGET_SUSTAIN_W
    let peak := w.fld Reg.PWR_BUDGET Fld.PWR_BUDGET_PEAK_W
    let cfg := w.fld Reg.PWR_CTL_CFG
    let was := w.flag Reg.PWR_STATUS Fld.PWR_STATUS_RECOVERING
    let w := w.bumpErr Reg.PWR_RECOVER_US (if was then 10 else 0)
    let e := w.hw.kilnE + p - sustain
    let emax := (peak - sustain) * cfg Fld.PWR_CTL_CFG_PEAK_MS * 100
    let recovering := (was || decide (emax ≤ e)) && decide (e ≠ 0)
    let w := { w with hw := { w.hw with kilnE := e } }
    let (d, w) := w.draw
    let w := w.setFld Reg.PWR_EXCESS Fld.PWR_EXCESS_E_MJ (if e / 100 < 65536 then e / 100 else Config.freeNat d 65536)
    let w := w.setFlag Reg.PWR_STATUS Fld.PWR_STATUS_RECOVERING recovering
    let t := if recovering then sustain - cfg Fld.PWR_CTL_CFG_RECOVER_W else peak
    let cores := w.kilnCores
    let n := cores.length
    let old := w.fld Reg.PWR_CAPS Fld.PWR_CAPS_C
    let w := w.bumpErr Reg.PWR_THROT_US (if old < 8 * n then 10 else 0)
    let on := w.flag Reg.PWR_CTRL Fld.PWR_CTRL_EN
    let c := if on then nextBudget old n p t (cfg Fld.PWR_CTL_CFG_UNIT_W) (cfg Fld.PWR_CTL_CFG_HYST_W) else 8 * n
    let floor := on && decide (c = n) && decide (t < p)
    let w := (w.setFld Reg.PWR_CAPS Fld.PWR_CAPS_C c).setFlag Reg.PWR_STATUS Fld.PWR_STATUS_AT_FLOOR floor
    let w := if floor then w.setFlag Reg.PWR_ERR_STAT Fld.PWR_ERR_STAT_FLOOR true else w
    w.shareBudget cores c

/-! ### Proof schedules (R579, R580) -/

/-- Is the reason for a Proof schedule over, so that its level falls: recovery has ended, the region serves, the self-test has ended? -/
def Work.proofOver (w : Work) (c : Nat) : Bool :=
  decide (w.chipState = 0) &&
    (match SMap.get 0 w.hw.proof c with
      | 1 => !(w.core c).testing
      | 2 => (List.range 17).all fun i => !(w.core (17 * coreRegion c + i)).testing
      | _ => true)

/-- PROOF_SCHEDULE_STEP: STEP_US after the last step, the forced level of a core moves along the ladder; from level 1 the core joins the
distribution (R579, R580). -/
def execProofScheduleStep (core : CoreIx) (s : State) : Host.Outcome State Fault Refusal :=
  run s fun w =>
    let c := core.val
    let p := Reg.MTX_PROOF_CTRL c
    let level := max 1 (w.fld p Fld.MTX_PROOF_CTRL_LEVEL)
    Work.when (w.forced c) w fun w =>
      let w := w.settleLevel c
      let setLevel (w : Work) (l : Nat) : Work := (w.setFlag p Fld.MTX_PROOF_CTRL_FORCE true).setFld p Fld.MTX_PROOF_CTRL_LEVEL l
      if w.proofOver c then
        if level ≤ 1 then
          let w := (w.setFlag p Fld.MTX_PROOF_CTRL_FORCE false)
          ({ w with hw := { w.hw with proof := SMap.del w.hw.proof c } }).sendCap c
        else setLevel w (ladderStep level 1)
      else setLevel w (ladderStep level (w.fld Reg.PWR_PROOF_CFG Fld.PWR_PROOF_CFG_HOLD_LEVEL))

/-- The Kiln forces a core that may lend: it leaves the pool with its units first (R578, R579). -/
def Work.proofStart (w : Work) (c why : Nat) : Work :=
  let w := if (w.kilnCore c).lent then (w.reclaim c).setKiln c { w.kilnCore c with lent := false, back := none } else w
  (w.settleLevel c).proofForce c why

/-! ### Heat (R581, R582) -/

/-- The junction reading of a die. -/
def Work.junction (w : Work) (d : Nat) : Nat := SMap.get 0 w.hw.junction d

/-- THERMAL_SAMPLE: a die reports its hottest junction sensor (R581, R582); a supply die shows it in PWR_SD_TEMP. -/
def execThermalSample (die : DieIx) (junction : Byte) (s : State) : Host.Outcome State Fault Refusal :=
  run s fun w =>
    let d := die.val
    let j := junction.toNat
    let th := w.fld Reg.PWR_THERM_CFG
    let hot := th Fld.PWR_THERM_CFG_THROT_J
    let w := { w with hw := { w.hw with junction := SMap.set 0 w.hw.junction d j } }
    if d < 16 then
      let a := Reg.PWR_RG_STATUS d
      let ceil := w.fld a Fld.PWR_RG_STATUS_CEIL
      let stack := w.fld (Reg.MEM_TEMP d) Fld.MEM_TEMP_MAX
      let hotD := th Fld.PWR_THERM_CFG_THROT_D
      let hyst := th Fld.PWR_THERM_CFG_HYST_T
      let next := if hot ≤ j ∨ hotD ≤ stack then ladderStep ceil 1
        else if j + hyst < hot ∧ stack + hyst < hotD then ladderStep ceil 8 else ceil
      let w := w.setFld a Fld.PWR_RG_STATUS_CEIL next
      if next = ceil then w else w.forEach (List.range 16) fun w i => w.sendCap (17 * d + i)
    else if d < 30 then (if hot ≤ j then w.setFlag Reg.PWR_ERR_STAT Fld.PWR_ERR_STAT_EDGE_HOT true else w)
    else w.setFld (Reg.PWR_SD_TEMP (d - 30)) Fld.PWR_SD_TEMP_C j

end Sys2Proof.Machine
end

