-- ==== Sys2Proof/Machine/Clk.lean ====
section
/-! DEFINITION. Clock sources, relock, failover and halt (R558–R572), thermal trips and power-good (R583, R584), standby (R657, R658). -/

namespace Sys2Proof.Machine

/-- The fault of a clock or power event (R529, R568, R569, R583). -/
def clockFault (lasting : Bool) (gen detail : Nat) : FaultInfo where
  kind := 0x26
  level := 3
  lasting := lasting
  ctx := none
  die := 28
  unit := 15
  core := 0
  gen := gen
  tag := 0
  addr := none
  detail := detail

/-- The reference that CLK_STATUS.REF_ACTIVE names. -/
def Work.refActive (w : Work) : Nat := w.fld Reg.CLK_STATUS Fld.CLK_STATUS_REF_ACTIVE

/-- Is a reference stable (R565)? -/
def Work.refStable (w : Work) (i : Nat) : Bool :=
  w.flag Reg.CLK_STATUS (if i = 0 then Fld.CLK_STATUS_A_STABLE else Fld.CLK_STATUS_B_STABLE)

/-- The root PLL locks on a reference at CLK_ROOT.MULT, and the domains run from ROOT (R559, R560). -/
def Work.lock (w : Work) (ref : Nat) : Work :=
  let st := Reg.CLK_STATUS
  let w := ((w.setFld st Fld.CLK_STATUS_REF_ACTIVE ref).setFlag st Fld.CLK_STATUS_LOCKED true).setFld st Fld.CLK_STATUS_DOM_SRC 0
  (w.setFlag st Fld.CLK_STATUS_HALTED false).setFld Reg.CLK_ROOT Fld.CLK_ROOT_ACTIVE_MULT (w.fld Reg.CLK_ROOT Fld.CLK_ROOT_MULT)

/-- The root PLL is not locked, and the domains stop. -/
def Work.stopClocks (w : Work) : Work :=
  let st := Reg.CLK_STATUS
  ((w.setFlag st Fld.CLK_STATUS_LOCKED false).setFld st Fld.CLK_STATUS_DOM_SRC 2).setFld Reg.CLK_ROOT Fld.CLK_ROOT_ACTIVE_MULT 0

/-- The sequence of R562, to its end: every cap at 1 until the levels are at 1 or below, then the lock and the restored caps. -/
def Work.relock (w : Work) (ref : Nat) : Work :=
  let w := w.forEach (w.hw.cores.map Prod.fst) fun w c =>
    (w.settleLevel c).updMtx c fun m => { m with level := min m.level 1, target := min m.target 1 }
  (w.lock ref).bumpErr Reg.CLK_RELOCKS 1

/-- What a write of CLK_CMD does (R562). -/
def Work.clkCmd (w : Work) (who : ClampBy) (value : Nat) : Work :=
  let (v, w) := w.woWrite who Reg.CLK_CMD value
  if bits v 0 1 = 0 then w
  else if w.chipState = 0 then w.relock w.refActive
  else w.clamp who Reg.CLK_CMD 0 0 .joined

/-- CLK_RELOCK: CLK_CMD is written (R562). -/
def execClkRelock (master : Master) (value : Word) (s : State) : Host.Outcome State Fault Refusal :=
  run s fun w => w.clkCmd (w.clampBy master) value.toNat

/-! ### A source that fails (R564–R572) -/

/-- The LPDDR devices have received no refresh: their contents are undefined (R570). -/
def Work.loseCapacity (w : Work) : Work := w.makeWild 0x20000000000 0x40000000000

/-- OBS[15:0] and TRIG_OUT go low (R640). -/
def Work.quietObs (w : Work) : Work :=
  let w := w.setFlag Reg.DBG_TRIG_STAT Fld.DBG_TRIG_STAT_OUT false
  { w with hw := { w.hw with obsPins := 0, trigLeft := 0, trigRise := 0 } }

/-- The chip halts its clocks (R569, R570). -/
def Work.haltClocks (w : Work) : Work :=
  let w := (w.stopClocks.quietObs.setFlag Reg.CLK_STATUS Fld.CLK_STATUS_HALTED true).setFlag Reg.CLK_ERR_STAT Fld.CLK_ERR_STAT_HALT true
  (w.loseCapacity.setChipState 1).fault (clockFault true w.hw.genChip 0)

/-- The chip fails over to the other reference (R568). -/
def Work.failover (w : Work) (ref : Nat) : Work :=
  let w := w.forEach linkDies fun w p => if w.linkState p = 5 then w.goDown p 4 else w
  let w := (w.relock ref).bumpErr Reg.CLK_FAILOVERS 1
  let w := w.setFlag Reg.CLK_ERR_STAT Fld.CLK_ERR_STAT_FAILOVER true
  let f := clockFault false w.hw.genChip 0
  (w.countFault f).record f false

/-- REF_ABSENT: a reference shows no edge for 64 MGMT cycles (R564, R565, R568, R569, R572). -/
def execRefAbsent (ref : Fin 2) (s : State) : Host.Outcome State Fault Refusal :=
  run s fun w =>
    let st := Reg.CLK_STATUS
    let i := ref.val
    let w := (w.setFlag st (if i = 0 then Fld.CLK_STATUS_A_PRESENT else Fld.CLK_STATUS_B_PRESENT) false).setFlag st
      (if i = 0 then Fld.CLK_STATUS_A_STABLE else Fld.CLK_STATUS_B_STABLE) false
    let w := { w with hw := { w.hw with stableWins := SMap.set 0 w.hw.stableWins i 0 } }
    if w.refActive ≠ i ∨ !w.clocked then w
    else if w.chipState = 1 ∧ w.refStable (1 - i) then ((w.stopClocks).orderReset 48)
    else if w.refStable (1 - i) ∧ w.flag Reg.CLK_CTRL Fld.CLK_CTRL_FAILOVER then w.failover (1 - i)
    else w.haltClocks

/-- PLL_LOCK_LOSS: the root PLL stays out of lock for 1 µs (R569). -/
def execPllLockLoss (s : State) : Host.Outcome State Fault Refusal :=
  run s fun w =>
    Work.when (w.clocked && w.flag Reg.CLK_STATUS Fld.CLK_STATUS_LOCKED) w fun w =>
      (w.setFlag Reg.CLK_ERR_STAT Fld.CLK_ERR_STAT_LOCK_LOSS true).haltClocks

/-- REF_STABLE_RETURN: the clocks are halted and a reference is stable; a chip reset follows, which counts (R569). -/
def execRefStableReturn (s : State) : Host.Outcome State Fault Refusal :=
  run s fun w =>
    Work.when (w.flag Reg.CLK_STATUS Fld.CLK_STATUS_HALTED && (w.refStable 0 || w.refStable 1)) w fun w => w.orderReset 16

/-- The judgement of a comparison window from which deviations are in tolerance (R565): A off, B off, crystal suspect, marginal. -/
def judge (a b ab : Bool) : Bool × Bool × Bool × Bool :=
  match a, b, ab with
  | true, true, true => (false, false, false, false)
  | false, true, false => (true, false, false, false)
  | true, false, false => (false, true, false, false)
  | false, false, true => (false, false, true, false)
  | false, false, false => (true, true, false, false)
  | _, _, _ => (false, false, false, true)

/-- CLK_MON_WINDOW: a comparison window ends (R564–R566). `edgesA` and `edgesB`: the reference showed edges throughout; the deviations are in ppm. -/
def execClkMonWindow (edgesA edgesB : Bool) (devA devB devAB : BitVec 16) (s : State) : Host.Outcome State Fault Refusal :=
  run s fun w =>
    let st := Reg.CLK_STATUS
    let er := Reg.CLK_ERR_STAT
    let ok (d : BitVec 16) : Bool := decide (d.toInt.natAbs ≤ 10 * w.fld Reg.CLK_MON_CFG Fld.CLK_MON_CFG_TOL)
    let (aOff, bOff, xtal, marginal) := judge (ok devA) (ok devB) (ok devAB)
    let w := ((w.setFld Reg.CLK_MON_A Fld.CLK_MON_A_DEV devA.toNat).setFld Reg.CLK_MON_B Fld.CLK_MON_B_DEV devB.toNat).setFld Reg.CLK_MON_AB
      Fld.CLK_MON_AB_DEV devAB.toNat
    let w := (((w.setFlag st Fld.CLK_STATUS_A_OFF aOff).setFlag st Fld.CLK_STATUS_B_OFF bOff).setFlag st Fld.CLK_STATUS_XTAL_SUSPECT xtal).setFlag
      st Fld.CLK_STATUS_MARGINAL marginal
    let sticky (w : Work) (f : Fld) (b : Bool) : Work := if b then w.setFlag er f true else w
    let w := sticky (sticky (sticky w Fld.CLK_ERR_STAT_A_OFF_SEEN aOff) Fld.CLK_ERR_STAT_B_OFF_SEEN bOff) Fld.CLK_ERR_STAT_XTAL_SEEN xtal
    let one (w : Work) (i : Nat) (edges off : Bool) (present stable : Fld) : Work :=
      let n := if edges && !off then min 15 (SMap.get 0 w.hw.stableWins i + 1) else 0
      let w := { w with hw := { w.hw with stableWins := SMap.set 0 w.hw.stableWins i n } }
      (if edges then w.setFlag st present true else w).setFlag st stable (decide (w.fld Reg.CLK_MON_CFG Fld.CLK_MON_CFG_STABLE_N ≤ n))
    one (one w 0 edgesA aOff Fld.CLK_STATUS_A_PRESENT Fld.CLK_STATUS_A_STABLE) 1 edgesB bOff Fld.CLK_STATUS_B_PRESENT Fld.CLK_STATUS_B_STABLE

/-- MGMT_ABSENT: MGMT shows no edge for 1 µs; the always-on plane stops in the state it holds (R564, R571). -/
def execMgmtAbsent (s : State) : Host.Outcome State Fault Refusal :=
  run s fun w => { w with hw := { w.hw with mgmtHere := false } }

/-- MGMT_RETURN: MGMT has been present for 1 ms; the plane resumes, records the loss and resets the chip (R571). The forced states have left the
LPDDR devices without refresh. -/
def execMgmtReturn (s : State) : Host.Outcome State Fault Refusal :=
  runAlways s fun w =>
    Work.when (w.hw.standby && !w.hw.mgmtHere) w fun w =>
      let w := { w with hw := { w.hw with mgmtHere := true } }
      let w := (w.setFlag Reg.CLK_ERR_STAT Fld.CLK_ERR_STAT_MGMT_LOSS true).stopClocks
      ((w.loseCapacity).fault (clockFault true w.hw.genChip 0)).orderReset 16

/-! ### Rails (R583, R584, R657–R660) -/

/-- The contents of the stacks, the capacity tier and the scratchpads are lost with the rails (R583). -/
def Work.loseMemory (w : Work) : Work :=
  (((w.makeWild 0 0x8000000000).loseCapacity).makeWild 0x100000000000 0x100200000000)

/-- The supply dies turn off every rail fed from the 48 V input: clocks stop, memory is lost, the host links are down. -/
def Work.railsOff (w : Work) : Work :=
  let w := w.forEach [0, 1] fun w d =>
    (w.setFlag (Reg.PWR_SD_STATUS d) Fld.PWR_SD_STATUS_RAILS_ON false).setFlag (Reg.PWR_SD_STATUS d) Fld.PWR_SD_STATUS_RAILS_OK false
  let w := w.forEach [0, 1] fun w h =>
    ((w.setFld (Reg.HUB_STATUS h) Fld.HUB_STATUS_LTSSM 0).setFld (Reg.HUB_STATUS h) Fld.HUB_STATUS_RATE 0).setFld (Reg.HUB_STATUS h)
      Fld.HUB_STATUS_WIDTH 0
  let w := w.orphan fun s => match s with | .host _ _ => true | _ => false
  w.stopClocks.loseMemory.quietObs

/-- A trip or a loss of power-good (R583, R584, R660): cause 0 junction, 1 DRAM, 2 PGOOD, 3 RAIL. -/
def Work.trip (w : Work) (cause die temp : Nat) (bit : Fld) : Work :=
  let w := (w.railsOff.setFlag Reg.PWR_STATUS Fld.PWR_STATUS_TRIPPED true).setFlag Reg.PWR_ERR_STAT bit true
  let w := w.w32 Reg.PWR_TRIP_INFO (BitVec.ofNat 32 (cause + die * 4 + temp % 256 * 256))
  let w := { w with hw := { w.hw with thermTrip := true, railsDue := false } }
  (w.setChipState 2).fault (clockFault true w.hw.genChip die)

/-- Has a trip or power-good loss turned the rails off? -/
def Work.tripped (w : Work) : Bool := w.flag Reg.PWR_STATUS Fld.PWR_STATUS_TRIPPED

/-- THERMAL_TRIP: a die's junction, or with `dram` a layer of its stack, has read at or over the trip limit (R583). -/
def execThermalTrip (die : DieIx) (dram : Bool) (s : State) : Host.Outcome State Fault Refusal :=
  run s fun w =>
    let d := die.val
    let layer := w.fld (Reg.MEM_TEMP d) Fld.MEM_TEMP_MAX
    if w.tripped || !w.railsOn then w
    else if dram then (if d < 16 ∧ 98 ≤ layer then w.trip 1 d layer Fld.PWR_ERR_STAT_THERM_TRIP else w)
    else if 110 ≤ w.junction d ∧ d < 30 then w.trip 0 d (w.junction d) Fld.PWR_ERR_STAT_THERM_TRIP
    else w

/-- PGOOD_LOSS: power-good of a supply die has been lost for 1 µs (R584): the 48 V input, or the rail groups of `rails` alone. -/
def execPgoodLoss (sd : Fin 2) (input : Bool) (rails : Byte) (s : State) : Host.Outcome State Fault Refusal :=
  run s fun w =>
    let st := Reg.PWR_SD_STATUS sd
    let was := w.railsOn
    let inputWas := w.flag st Fld.PWR_SD_STATUS_PGOOD_IN
    let w := if input then w.setFlag st Fld.PWR_SD_STATUS_PGOOD_IN false else w
    if w.tripped then w
    else if input then
      (if was || inputWas then
        (w.setFld st Fld.PWR_SD_STATUS_RAIL_FAULT rails.toNat).trip 2 (30 + sd.val) (w.junction (30 + sd.val)) Fld.PWR_ERR_STAT_PGOOD_LOSS
      else w)
    else if was then
      (w.setFld st Fld.PWR_SD_STATUS_RAIL_FAULT rails.toNat).trip 3 (30 + sd.val) (w.junction (30 + sd.val)) Fld.PWR_ERR_STAT_RAIL_FAULT
    else w

/-- INPUT_GOOD_RETURN: the 48 V input has been good for 10 ms; after a PGOOD loss the rails power up (R584). -/
def execInputGoodReturn (s : State) : Host.Outcome State Fault Refusal :=
  run s fun w =>
    let w := w.forEach [0, 1] fun w d => w.setFlag (Reg.PWR_SD_STATUS d) Fld.PWR_SD_STATUS_PGOOD_IN true
    if w.tripped && decide (w.fld Reg.PWR_TRIP_INFO Fld.PWR_TRIP_INFO_CAUSE = 2) then { w with hw := { w.hw with railsDue := true } } else w

/-- Does every sensor read below 85 °C (R583)? -/
def Work.cool (w : Work) : Bool :=
  (w.hw.junction.all fun e => decide (e.2 < 85)) && (List.range 16).all fun r => decide (w.fld (Reg.MEM_TEMP r) Fld.MEM_TEMP_MAX < 85)

/-- What a write of PWR_CMD does (R583, R584). -/
def Work.pwrCmd (w : Work) (who : ClampBy) (value : Nat) : Work :=
  let (v, w) := w.woWrite who Reg.PWR_CMD value
  if bits v 0 1 = 1 ∧ w.tripped ∧ w.fld Reg.PWR_TRIP_INFO Fld.PWR_TRIP_INFO_CAUSE ≠ 2 ∧ w.cool then
    { w with hw := { w.hw with railsDue := true } }
  else w

/-- PWR_RESTART: PWR_CMD is written (R583, R584). -/
def execPwrRestart (master : Master) (value : Word) (s : State) : Host.Outcome State Fault Refusal :=
  run s fun w => w.pwrCmd (w.clampBy master) value.toNat

/-- The configuration space of host port h. -/
def Work.pciPort (w : Work) (h : Nat) : PciPort := SMap.get PciPort.reset w.hw.pci h

/-- Replace the configuration space of host port h. -/
def Work.setPci (w : Work) (h : Nat) (p : PciPort) : Work := { w with hw := { w.hw with pci := SMap.set PciPort.reset w.hw.pci h p } }

/-- The host link of hub die h has trained: L0 at the rate and width it reached, no faster than the GEN_MAX in use, or not at all (R613). -/
def Work.linkSet (w : Work) (h : Nat) (l : LinkUp) : Work :=
  let st := Reg.HUB_STATUS h
  let (state, rate, width) := if l.up then (3, max l.rate.val (w.pciPort h).gen, 2 ^ l.width.val) else (0, 0, 0)
  ((w.setFld st Fld.HUB_STATUS_LTSSM state).setFld st Fld.HUB_STATUS_RATE rate).setFld st Fld.HUB_STATUS_WIDTH width

/-- A fundamental reset of host port h, and the training that follows (R615, R620, R622, R635). -/
def Work.linkTrains (w : Work) (h : Nat) (l : LinkUp) : Work :=
  let w := w.setFlag (Reg.HUB_STATUS h) Fld.HUB_STATUS_FAILED false
  (w.setPci h { PciPort.reset with
    gen := w.fld (Reg.HUB_CTRL h) Fld.HUB_CTRL_GEN_MAX, lanes := (w.r64 (Reg.HUB_LANE_MAP h)).toNat }).linkSet h l

/-- RAILS_UP: the last rail is in regulation (R658); a chip reset begins, which counts only after a trip (R549, R583). The host links train. -/
def execRailsUp (link0 link1 : LinkUp) (s : State) : Host.Outcome State Fault Refusal :=
  run s fun w =>
    Work.when (w.hw.railsDue && w.hw.starterOk && !w.railsOn) w fun w =>
      let w := w.forEach [0, 1] fun w d => w.w32 (Reg.PWR_SD_STATUS d) (BitVec.ofNat 32 (setBits (w.r32 (Reg.PWR_SD_STATUS d)).toNat 0 4 7))
      let after := w.tripped
      let w := (w.setFlag Reg.PWR_STATUS Fld.PWR_STATUS_TRIPPED false)
      let w := { w with hw := { w.hw with railsDue := false, thermTrip := false, resetsDue := [] } }
      let w := (w.linkTrains 0 link0).linkTrains 1 link1
      w.orderReset (if after then 16 else 48)

/-- STANDBY_LOSS: the standby input stays below 2.9 V for 10 µs; everything stops (R584, R657). -/
def execStandbyLoss (s : State) : Host.Outcome State Fault Refusal :=
  runAlways s fun w => { w with hw := { w.hw with standby := false } }

/-- STANDBY_GOOD: the standby input rises to 3.0 V after a loss; the always-on plane starts as at power-on. The flash and the fuses keep their
contents, memory does not (R584, R611, R657). -/
def execStandbyGood (s : State) : Host.Outcome State Fault Refusal :=
  runAlways s fun w =>
    Work.when (!w.hw.standby) w fun w =>
      let fuse := w.r32 (Reg.BOOT_FUSE 0)
      let h := w.hw
      let w := w.forEach (w.csr.map Prod.fst ++ w.cw.map Prod.fst) fun w a => w.w32 a (csrReset a)
      let w := w.w32 (Reg.BOOT_FUSE 0) fuse
      ({ w with hw := { Hw.reset with flash := h.flash, draws := h.draws } } : Work).loseMemory

end Sys2Proof.Machine
end

