-- ==== Sys2Proof/Machine/Det.lean ====
section
/-! DEFINITION. Deterministic mode, digests and the recorder of external inputs (R518–R523). -/

namespace Sys2Proof.Machine

/-! ### Deterministic mode (R518–R520) -/

/-- Is deterministic mode in effect? -/
def Work.detOn (w : Work) : Bool := w.flag Reg.DET_STATUS Fld.DET_STATUS_MODE_EFF

/-- The reduction format of an operation on a set of kind `kind` with RED_FMT `red` (R519). -/
def Work.detRedFmt (w : Work) (kind red : Nat) : Nat :=
  if w.detOn && decide (kind ≤ 1) && decide (red = 0 ∨ red = 10) then (if w.hw.red64 then 12 else 11) else red

/-- Is the mode that DET_CTRL asks for another than the one in effect? -/
def Work.detDiffers (w : Work) : Bool :=
  decide (w.flag Reg.DET_CTRL Fld.DET_CTRL_MODE ≠ w.detOn) || decide (w.flag Reg.DET_CTRL Fld.DET_CTRL_RED64 ≠ w.hw.red64)

/-- What a write of DET_CTRL does once it is stored: a change of the mode waits (R518). -/
def Work.detCtrlHook (w : Work) : Work := w.setFlag Reg.DET_STATUS Fld.DET_STATUS_PENDING w.detDiffers

/-- DET_MODE_APPLY: a change that waits takes effect when no context is ACTIVE and no operation is open (R518). -/
def execDetModeApply (s : State) : Host.Outcome State Fault Refusal :=
  run s fun w =>
    let quiet := w.hw.colOps.isEmpty && (List.range 1024).all fun x => decide (w.ctxState x ≠ 2)
    if w.flag Reg.DET_STATUS Fld.DET_STATUS_PENDING && quiet then
      let w := (w.setFlag Reg.DET_STATUS Fld.DET_STATUS_MODE_EFF (w.flag Reg.DET_CTRL Fld.DET_CTRL_MODE)).setFlag Reg.DET_STATUS
        Fld.DET_STATUS_PENDING false
      { w with hw := { w.hw with red64 := w.flag Reg.DET_CTRL Fld.DET_CTRL_RED64 } }
    else w

/-- Set the owner of a persistent descriptor: 1 + a global core, 0 for none (R520). -/
def Work.setOwner (w : Work) (k n : Nat) : Work := { w with hw := { w.hw with descFirst := SMap.set 0 w.hw.descFirst k n } }

/-- May core g reserve positions of descriptor k (R520)? -/
def Work.ownerAllows (w : Work) (k g : Nat) : Bool :=
  !w.detOn || decide (SMap.get 0 w.hw.descFirst k = 0) || decide (SMap.get 0 w.hw.descFirst k = g + 1)

/-! ### Digests (R521) -/

/-- One bit of the CRC-64. -/
def crc64Bit (c : Nat) : Nat := if 2 ^ 63 ≤ c then ((2 * c) ^^^ 0x42F0E1EBA9EA3693) % 2 ^ 64 else 2 * c

/-- One byte of the CRC-64, most significant bit first. -/
def crc64Byte (c byte : Nat) : Nat :=
  crc64Bit (crc64Bit (crc64Bit (crc64Bit (crc64Bit (crc64Bit (crc64Bit (crc64Bit (c ^^^ (byte * 2 ^ 56)))))))))

/-- The CRC-64 of a list of bytes, from 0. -/
def crc64 (bytes : List Byte) : Nat := bytes.foldl (fun c b => crc64Byte c b.toNat) 0

/-- H of one crumb: its address, the bytes written to it, and which of them are enabled. -/
def crumbHash (addr : Nat) (bytes : List (Option Byte)) : Nat :=
  let enables := bytes.zipIdx.foldl (fun n p => if p.1.isSome then n + 2 ^ p.2 else n) 0
  crc64 (leBytes 8 addr ++ leBytes 4 enables ++ bytes.map fun b => b.getD 0)

/-- The crumbs that a list of (address, byte) writes touches, each with its 32 bytes. -/
def crumbsOf (l : List (Nat × Byte)) : List (Nat × List (Option Byte)) :=
  ((l.map fun p => p.1 / 32).dedup).map fun k =>
    (32 * k, (List.range 32).map fun i => (l.find? fun p => decide (p.1 = 32 * k + i)).map Prod.snd)

/-- Are digests kept for a context? -/
def Work.digesting (w : Work) (ctx : Option Nat) : Bool :=
  w.flag Reg.DET_CTRL Fld.DET_CTRL_DIG_EN && decide (ctx = some (w.fld Reg.DET_CTRL Fld.DET_CTRL_CTX))

/-- Add the writes of a context to the digest at register `reg`: memory by CVA, or a scratchpad by offset. -/
def Work.digest (w : Work) (reg : Nat) (ctx : Option Nat) (scratch : Bool) (l : List (Nat × Byte)) : Work :=
  if w.digesting ctx then
    w.forEach (crumbsOf l) fun w p =>
      w.w64 reg (w.r64 reg + BitVec.ofNat 64 (crumbHash (p.1 + (if scratch then 2 ^ 63 else 0)) p.2))
  else w

/-- The digest register of stream cell s of a global core. -/
def digestReg (g s : Nat) : Nat := if s = 0 then Reg.DET_DIG_A g else Reg.DET_DIG_B g

/-- The digests of a context's cores are zeroed when it becomes ACTIVE. -/
def Work.digestStart (w : Work) (x : Nat) (cores : List Nat) : Work :=
  if w.digesting (some x) then
    w.forEach cores fun w g => ((w.w64 (Reg.DET_DIG_A g) 0).w64 (Reg.DET_DIG_B g) 0).w64 (Reg.DET_DIG_C g) 0
  else w

/-! ### External inputs (R522, R523) -/

/-- What a write of DET_REC_CTRL does once it is stored: EN from 0 to 1 starts the count. -/
def Work.recCtrlHook (w pre : Work) : Work :=
  if w.flag Reg.DET_REC_CTRL Fld.DET_REC_CTRL_EN && !pre.flag Reg.DET_REC_CTRL Fld.DET_REC_CTRL_EN then
    { (w.w64 Reg.DET_REC_HEAD 0) with hw := { w.hw with recRead := 0, recDiffers := false } }
  else w

/-- The three words of an entry that are compared, for an input to the recorded context. -/
def Work.recEntry (w : Work) (x kind op dpa : Nat) (data : List Byte) : List Byte :=
  leBytes 8 (dpa % 2 ^ 46 + kind * 2 ^ 48 + op * 2 ^ 52) ++
    leBytes 8 (w.fld (Reg.SCH_CTX_RUN x) Fld.SCH_CTX_RUN_CONS + data.length * 2 ^ 16) ++ leBytes 8 (crc64 data)

/-- An external input to context x becomes visible: it is recorded, or compared with its entry. -/
def Work.externalInput (w : Work) (x kind op dpa : Nat) (data : List Byte) : Work :=
  let ctl := Reg.DET_REC_CTRL
  if !w.flag ctl Fld.DET_REC_CTRL_EN || decide (w.fld ctl Fld.DET_REC_CTRL_CTX ≠ x) then w
  else
    let n := (w.r64 Reg.DET_REC_HEAD).toNat
    let size := 2 ^ w.fld ctl Fld.DET_REC_CTRL_LOG2
    let at_ := w.fld Reg.DET_REC_BASE Fld.DET_REC_BASE_DPA * 2 ^ 16 + 32 * (n % size)
    let entry := w.recEntry x kind op dpa data
    let head (w : Work) : Work := w.w64 Reg.DET_REC_HEAD (BitVec.ofNat 64 (n + 1))
    if !w.flag ctl Fld.DET_REC_CTRL_REPLAY then
      if size ≤ n - w.hw.recRead then
        (w.bumpErr Reg.DET_REC_LOST 1).setFlag Reg.DET_ERR_STAT Fld.DET_ERR_STAT_REC_OVERFLOW true
      else head (w.unitWrite at_ (entry ++ leBytes 8 n))
    else
      let (old, w) := w.unitRead at_ 24
      let w := if old = some entry ∨ w.hw.recDiffers then w
        else
          let w := (w.setFlag Reg.DET_ERR_STAT Fld.DET_ERR_STAT_REPLAY_DIFF true).w64 Reg.DET_REC_DIFF (BitVec.ofNat 64 n)
          { w with hw := { w.hw with recDiffers := true } }
      head w

/-- A host write of memory is an external input when its DPA lies in the input window. -/
def Work.hostInput (w : Work) (dpa : Nat) (data : List Byte) : Work :=
  let lo := w.fld Reg.DET_REC_WIN_LO Fld.DET_REC_WIN_LO_DPA
  let hi := w.fld Reg.DET_REC_WIN_HI Fld.DET_REC_WIN_HI_DPA
  if lo ≤ dpa / 4096 ∧ dpa / 4096 ≤ hi then w.externalInput (w.fld Reg.DET_REC_CTRL Fld.DET_REC_CTRL_CTX) 0 0 dpa data else w

/-- A write of a doorbell word is an external input to the context whose ring it rings. -/
def Work.doorbellInput (w : Work) (n op : Nat) (operand : DWord) : Work :=
  let x := w.fld Reg.DET_REC_CTRL Fld.DET_REC_CTRL_CTX
  if w.fld (Reg.SCH_CTX_RING x) Fld.SCH_CTX_RING_DOORBELL = n then
    w.externalInput x 2 op (Reg.HUB_DB 0 n) (leBytes 8 operand.toNat)
  else w

end Sys2Proof.Machine
end

