-- ==== Sys2Proof/Machine/VecCfg.lean ====
section
/-! DEFINITION. The vector chain's configuration block (R192–R202): its fields, and how each is clamped when the block is read. -/

namespace Sys2Proof.Machine

/-- Words of a structure under clamping: word i lies at `at i`. -/
structure WordsClamp where
  work : Work
  words : List Nat
  who : ClampBy
  at_ : Nat → Nat

/-- Clamp one field of a word and count the clamp (R67, R69). -/
def WordsClamp.field (k : WordsClamp) (i lsb width : Nat) (f : Nat → Nat × Option ClampRule) : WordsClamp :=
  let x := k.words.getD i 0
  match f (bits x lsb width) with
  | (_, none) => k
  | (v, some rule) =>
    { k with words := k.words.set i (setBits x lsb width v), work := k.work.clamp k.who (k.at_ i) i lsb rule }

/-- Do something to each number below `n`. -/
def WordsClamp.each (k : WordsClamp) (n : Nat) (f : WordsClamp → Nat → WordsClamp) : WordsClamp := (List.range n).foldl f k

/-- Word i. -/
def WordsClamp.word (k : WordsClamp) (i : Nat) : Nat := k.words.getD i 0

/-! ### Operands (R194, R197) -/

/-- Elements of a 256-byte unit (R194). -/
def vecUnitElems (fmt : Nat) : Nat :=
  if fmt = 10 ∨ fmt = 11 then 64 else if fmt ≥ 12 then 32 else if fmt ≤ 1 then 128 else if fmt ≤ 6 then 256 else if fmt ≤ 8 then 320 else 512

/-- Bits of an element. -/
def vecElemBits (fmt : Nat) : Nat := if fmt = 11 then 32 else if fmt ≥ 12 then 64 else mtxElemBits fmt

def isMxFmt (fmt : Nat) : Bool := decide (4 ≤ fmt) && decide (fmt ≤ 9)
def isAnchFmt (fmt : Nat) : Bool := decide (11 ≤ fmt)

/-- The words of a configuration block and the command that names it. -/
structure VecCfg where
  cmd : CmdBits
  words : List Nat

def VecCfg.w (g : VecCfg) (i : Nat) : Nat := g.words.getD i 0
def VecCfg.inCount (g : VecCfg) : Nat := bits (g.w 0) 0 2
def VecCfg.outCount (g : VecCfg) : Nat := bits (g.w 0) 2 2
def vecAccin (c : CmdBits) : Bool := decide (cmdFld c 3 27 1 = 1)
def vecStages (c : CmdBits) : Nat := cmdFld c 3 24 3 + 1
def vecCfgAt (c : CmdBits) : Nat := cmdFld c 3 0 24
/-- Format of input i; an accumulator bank is FP32 (R212). -/
def VecCfg.inFmt (g : VecCfg) (i : Nat) : Nat := if i = 0 ∧ vecAccin g.cmd then 10 else bits (g.w 0) (4 + 4 * i) 4
def VecCfg.outFmt (g : VecCfg) (i : Nat) : Nat := bits (g.w 1) (4 * i) 4
def VecCfg.scaleIn (g : VecCfg) : Nat := bits (g.w 2) 0 24
def VecCfg.scaleOut (g : VecCfg) : Nat := bits (g.w 3) 0 24
def VecCfg.key (g : VecCfg) : Nat := g.w 72 + g.w 73 * 2 ^ 32
def VecCfg.counterBase (g : VecCfg) : Nat := g.w 74 + g.w 75 * 2 ^ 32

/-- Address generator of input i. -/
def VecCfg.inAG (g : VecCfg) (i : Nat) : AG := if i = 0 then cmdAG g.cmd 5 else AG.ofWords g.w (4 + 5 * (i - 1))

/-- Address generator of output i. -/
def VecCfg.outAG (g : VecCfg) (i : Nat) : AG := if i = 0 then cmdAG g.cmd 10 else AG.ofWords g.w (19 + 5 * (i - 1))

/-- Repeat step of input i. -/
def VecCfg.inStep (g : VecCfg) (i : Nat) : Int :=
  if i = 0 then cmdRstep1 g.cmd else if i = 1 then signed 16 (bits (g.w 34) 0 16) else if i = 2 then signed 16 (bits (g.w 34) 16 16)
  else signed 16 (bits (g.w 35) 0 16)

/-- Repeat step of output i. -/
def VecCfg.outStep (g : VecCfg) (i : Nat) : Int :=
  if i = 0 then cmdRstep2 g.cmd else if i = 1 then signed 16 (bits (g.w 35) 16 16) else if i = 2 then signed 16 (bits (g.w 36) 0 16)
  else signed 16 (bits (g.w 36) 16 16)

/-! ### Stages (R198) -/

def VecCfg.sType (g : VecCfg) (s : Nat) : Nat := bits (g.w (40 + 4 * s)) 0 4
def VecCfg.sOp (g : VecCfg) (s : Nat) : Nat := bits (g.w (40 + 4 * s)) 4 6
/-- Source A, B or C (0 to 2) of a stage. -/
def VecCfg.sSrc (g : VecCfg) (s k : Nat) : Nat := bits (g.w (40 + 4 * s)) (10 + 3 * k) 3
def VecCfg.sFmt (g : VecCfg) (s : Nat) : Nat := bits (g.w (40 + 4 * s)) 19 4
def VecCfg.sRnd (g : VecCfg) (s : Nat) : Bool := decide (bits (g.w (40 + 4 * s)) 23 1 = 1)
def VecCfg.sMask (g : VecCfg) (s o : Nat) : Bool := decide (bits (g.w (40 + 4 * s)) (24 + o) 1 = 1)
def VecCfg.sSave (g : VecCfg) (s : Nat) : Nat := bits (g.w (40 + 4 * s)) 28 2
def VecCfg.sConstB (g : VecCfg) (s : Nat) : Nat := g.w (41 + 4 * s)
def VecCfg.sConstC (g : VecCfg) (s : Nat) : Nat := g.w (42 + 4 * s)
def VecCfg.sParam (g : VecCfg) (s : Nat) : Nat := g.w (43 + 4 * s)
def VecCfg.sSpanLog (g : VecCfg) (s : Nat) : Nat := bits (g.sParam s) 0 4
def VecCfg.sAnchor (g : VecCfg) (s : Nat) : Int := signed 9 (bits (g.sParam s) 4 9)

/-- The last assigned OP of a stage type (R202). -/
def vecLastOp (t : Nat) : Nat :=
  if t = 1 then 7 else if t = 2 then 12 else if t = 3 then 11 else if t = 4 then 6 else if t = 6 then 2 else if t = 7 then 2 else 0

/-- Which sources (0 A, 1 B, 2 C) a stage reads, by type and operation (R202–R210). -/
def vecReads (t op k : Nat) : Bool :=
  if t = 7 then false
  else if k = 0 then (if t = 6 then decide (op = 1) else true)
  else if k = 1 then
    if t = 1 then true else if t = 3 then decide (op ≠ 9) && decide (op ≠ 10) else if t = 6 then decide (op = 1) else false
  else
    if t = 1 then [0, 1, 5, 6].contains op else if t = 3 then decide (2 ≤ op) && decide (op ≤ 8)
    else if t = 6 then decide (op = 1) else false

/-- The kind of a value in the chain: floating point, A32 or A64 (R201). -/
inductive VKind where
  | fp | a32 | a64
deriving DecidableEq, Repr

/-- The kind of an operand's elements. -/
def vecKind (fmt : Nat) : VKind := if fmt = 11 then .a32 else if fmt ≥ 12 then .a64 else .fp

/-- Kinds as the stages see them: chain value, TAP0, TAP1. -/
structure VKinds where
  chain : VKind
  tap0 : VKind
  tap1 : VKind

/-- The kind a source has at a stage. -/
def VKinds.src (k : VKinds) (g : VecCfg) (s src : Nat) : VKind :=
  if src = 0 then (if s = 0 then vecKind (g.inFmt 0) else k.chain)
  else if src ≤ 4 then vecKind (g.inFmt (src - 1))
  else if src = 6 then k.tap0 else if src = 7 then k.tap1 else .fp

/-- The kind of a stage's result. -/
def VKinds.result (k : VKinds) (g : VecCfg) (s : Nat) : VKind :=
  let t := g.sType s
  let a := k.src g s (g.sSrc s 0)
  if t = 0 then a
  else if t = 1 ∧ g.sOp s = 7 then
    let b := k.src g s (g.sSrc s 1)
    if a = .a32 ∧ b ≠ .a64 ∨ b = .a32 ∧ a ≠ .a64 then .a32 else .a64
  else if t = 4 then a
  else if t = 5 then vecKind (g.sFmt s)
  else if t = 6 ∧ g.sOp s = 2 then .a32
  else if t = 7 ∧ g.sFmt s = 11 then .a32
  else .fp

/-- The kinds after a stage. -/
def VKinds.after (k : VKinds) (g : VecCfg) (s : Nat) : VKinds :=
  let r := k.result g s
  ⟨r, if g.sSave s = 1 then r else k.tap0, if g.sSave s ≥ 2 then r else k.tap1⟩

/-- The kinds that stage s sees. -/
def VecCfg.kindsAt (g : VecCfg) : Nat → VKinds
  | 0 => ⟨vecKind (g.inFmt 0), .fp, .fp⟩
  | s + 1 => (g.kindsAt s).after g s

/-! ### Clamping the block as it is read -/

/-- Formats of the inputs, then of the outputs: unassigned codes take 0xC, a second Microscaling operand takes BF16 (R194, R211). -/
def WordsClamp.vecFmts (k : WordsClamp) (cmd : CmdBits) (word n lsb0 : Nat) (skip0 : Bool) : WordsClamp :=
  let k := k.each n fun k i => if skip0 && decide (i = 0) then k else k.field word (lsb0 + 4 * i) 4 (Legal.take 13 15 12).apply
  let fmt (k : WordsClamp) (i : Nat) : Nat := if skip0 && decide (i = 0) then 10 else bits (k.word word) (lsb0 + 4 * i) 4
  let _ := cmd
  k.each n fun k i =>
    if isMxFmt (fmt k i) && (List.range i).any (fun j => isMxFmt (fmt k j)) then k.field word (lsb0 + 4 * i) 4 (takes 0 .joined) else k

/-- The range of an anchor (R145). -/
def anchorClamp (k : VKind) (v : Nat) : Nat × Option ClampRule :=
  let hi : Int := if k = .a32 then 96 else 64
  let x := signed 9 v
  if x < -149 then (intBits 9 (-149), some .range) else if hi < x then (intBits 9 hi, some .range) else (v, none)

/-- One stage's words (R198–R200, R202, R207, R208). -/
def WordsClamp.vecStage (k : WordsClamp) (cmd : CmdBits) (s : Nat) : WordsClamp :=
  let i := 40 + 4 * s
  let k := k.field i 0 4 (Legal.take 8 15 7).apply
  let t := bits (k.word i) 0 4
  let k := k.field i 4 6 (fun v => if v ≤ vecLastOp t then (v, none) else (vecLastOp t, some .encoding))
  let op := bits (k.word i) 4 6
  let ins := bits (k.word 0) 0 2
  let k := k.each 3 fun k j =>
    if vecReads t op j then
      k.field i (10 + 3 * j) 3 (fun v => if 1 + ins < v ∧ v ≤ 4 then (0, some .joined) else (v, none))
    else k
  let k := if t = 5 ∨ t = 7 then k.field i 19 4 (Legal.take 13 15 12).apply
    else if t = 4 ∧ op = 5 then k.field i 19 4 (fun v => if v < 11 then (11, some .encoding) else if 12 < v then (12, some .encoding) else (v, none))
    else k
  let fmt := bits (k.word i) 19 4
  let k := if t = 5 ∧ ¬ isAnchFmt fmt then k else k.field i 23 1 (takes 0 .joined)
  let outs := bits (k.word 0) 2 2 + 1
  let k := k.field i 24 4 (fun v => if v < 2 ^ outs then (v, none) else (v % 2 ^ outs, some .joined))
  let k := k.field i 28 2 (Legal.take 3 3 2).apply
  let g : VecCfg := ⟨cmd, k.words⟩
  let a := (g.kindsAt s).src g s (g.sSrc s 0)
  if t = 5 then
    if isAnchFmt fmt then k.field (i + 3) 4 9 (anchorClamp (vecKind fmt))
    else if a = .fp then k else k.field (i + 3) 4 9 (anchorClamp a)
  else if t = 4 ∧ op = 5 then k.field (i + 3) 4 9 (anchorClamp (vecKind fmt))
  else k

/-- The whole block: formats, further address generators, the stages the command names (R197). -/
def WordsClamp.vecBlock (k : WordsClamp) (cmd : CmdBits) : WordsClamp :=
  let ins := bits (k.word 0) 0 2
  let outs := bits (k.word 0) 2 2
  let k := k.vecFmts cmd 0 (ins + 1) 4 (vecAccin cmd)
  let k := k.vecFmts cmd 1 (outs + 1) 0 false
  let k := k.each ins fun k i => k.field (4 + 5 * i) 0 24 (Legal.align 32).apply
  let k := k.each outs fun k i => k.field (19 + 5 * i) 0 24 (Legal.align 32).apply
  k.each (vecStages cmd) fun k s => k.vecStage cmd s

end Sys2Proof.Machine
end

