-- ==== Sys2Proof/Machine/Str.lean ====
section
/-! DEFINITION. The descriptor store of a region and how a stream command reads its descriptor (R224–R234, R238, R245). -/

namespace Sys2Proof.Machine

/-! ### The store (R224, R225, R227) -/

/-- The number of a descriptor in the stores. -/
def descKey (r i : Nat) : Nat := 16384 * r + i % 16384

/-- Word i of a stored descriptor. -/
def Work.descWord (w : Work) (k i : Nat) : Nat := bits (SMap.get 0 w.hw.descs k).toNat (32 * i) 32

/-- The position of a stored descriptor. -/
def Work.descPosOf (w : Work) (k : Nat) : Nat := SMap.get 0 w.hw.descPos k

/-- Set the position of a stored descriptor. -/
def Work.setDescPos (w : Work) (k p : Nat) : Work := { w with hw := { w.hw with descPos := SMap.set 0 w.hw.descPos k p } }

/-- Store a descriptor's eight words. -/
def Work.setDesc (w : Work) (k : Nat) (words : List Nat) : Work :=
  let v := BitVec.ofNat 256 ((List.range 8).foldl (fun n i => n + words.getD i 0 % 2 ^ 32 * 2 ^ (32 * i)) 0)
  { w with hw := { w.hw with descs := SMap.set 0 w.hw.descs k v } }

/-- Set which words of a stored descriptor hold a lasting parity error. -/
def Work.setDescBad (w : Work) (k mask : Nat) : Work := { w with hw := { w.hw with descBad := SMap.set 0 w.hw.descBad k mask } }

/-- Clear the reserved bits of an image: they are stored as zero (R225). -/
def descReserved (words : List Nat) : List Nat :=
  let cut (i lsb width : Nat) (l : List Nat) : List Nat := l.set i (setBits (l.getD i 0) lsb width 0)
  cut 7 27 5 (cut 5 24 8 (cut 2 6 14 words))

/-- Clamp the fields of a descriptor image (R64, R65, R227). -/
def WordsClamp.descriptor (k : WordsClamp) : WordsClamp :=
  let k := k.field 2 0 2 (Legal.take 3 3 2).apply
  let k := k.field 2 4 2 (Legal.take 3 3 2).apply
  let k := k.field 3 4 16 (Legal.align 64).apply
  let kind := bits (k.word 2) 0 2
  if kind = 1 then k.field 5 0 24 (Legal.range 1 16777215).apply
  else if kind = 2 then
    let k := k.field 5 0 24 (Legal.align 4).apply
    let unit := 32 * (bits (k.word 3) 20 12 + 1)
    k.field 4 0 32 (fun v => if v % unit = 0 then (v, none) else (v / unit * unit, some .joined))
  else k

/-- Copy one image into the store: clamped as it is copied, its position zero, its parity good (R225, R245). -/
def Work.installOne (w : Work) (who : ClampBy) (c src r index : Nat) : Work :=
  let words := descReserved ((List.range 8).map fun i => w.spmLE c (src + 4 * i) 4)
  let k : WordsClamp := WordsClamp.descriptor ⟨w, words, who, fun i => spmAt c (src + 4 * i)⟩
  let d := descKey r index
  (((k.work.setDesc d k.words).setDescPos d 0).setDescBad d 0).setOwner d 0

/-- A write to STR_INSTALL of core slot c is accepted (R225): its fields are clamped, its copies wait for the earlier installations. -/
def Work.strInstall (w : Work) (m : Master) (c value : Nat) (req : Option Nat) : Work :=
  let a := coreWindow c + 0x30000
  let (v, w) := w.woWrite (w.clampBy m) a value
  let index := bits v 32 14
  let n := bits v 48 10
  let w := if index + n ≤ 16383 then w else w.clamp (w.clampBy m) (a + 4) 0 16 .joined
  { w with hw := { w.hw with installs := w.hw.installs ++ [⟨c, m, bits v 0 24, index, min n (16383 - index) + 1, req⟩] } }

/-- Does an installation of its own hold the later register accesses of a master to a die (R55, R225)? -/
def Work.installHolds (w : Work) (m : Master) (die : Nat) : Bool :=
  w.hw.installs.any fun x => decide (x.master = m) && decide (coreRegion x.core = die)

/-- STR_INSTALL is written. -/
def execStrInstall (master : Master) (core : CoreIx) (value : DWord) (s : State) : Host.Outcome State Fault Refusal :=
  run s fun w =>
    if decide (w.answers (coreWindow core + 0x30000) = .usual) && !w.installHolds master (coreRegion core) then
      w.strInstall master core value.toNat none
    else w

/-- The oldest installation of a region. -/
def Work.installOf (w : Work) (r : Nat) : Option Install := w.hw.installs.find? fun x => decide (coreRegion x.core = r)

/-- The oldest installation of a region ends: its images are in the store, in ascending index, and the write is performed for its master
(R225). -/
def execInstallDone (region : RegionIx) (s : State) : Host.Outcome State Fault Refusal :=
  run s fun w =>
    match w.installOf region with
    | none => w
    | some x =>
      if !w.clocked then w
      else
        let who := w.clampBy x.master
        let w := w.forEach (List.range x.count) fun w i => w.installOne who x.core (x.src + 32 * i) region (x.index + i)
        let w := { w with hw := { w.hw with installs := dropFirst (fun y => decide (y = x)) w.hw.installs } }
        match x.req with
        | some i => w.answer i .ok
        | none => w

/-! ### A command reads its descriptor (R228, R232, R234, R238, R245) -/

def strDesc (c : CmdBits) : Nat := cmdFld c 3 0 14
def strRearm (c : CmdBits) : Bool := decide (cmdFld c 3 14 1 = 1)

/-- A rearm sets the base and the position of a stored descriptor (R234). -/
def Work.rearm (w : Work) (k : Nat) (cmd : CmdBits) : Work :=
  let words := (List.range 8).map (w.descWord k)
  let words := (words.set 0 (cmdWord cmd 4)).set 1 (setBits (words.getD 1 0) 0 16 (cmdFld cmd 5 0 16))
  let bad := SMap.get 0 w.hw.descBad k
  (((w.setDesc k words).setDescPos k 0).setDescBad k (bad - bad % 4)).setOwner k 0

/-- A request of a stream cell ends in an error, or its descriptor cannot be read: STR_ERR_INFO (R245, R246). -/
def Work.strErrInfo (w : Work) (c s : Nat) (cmd : CmdBits) (request : Bool) : Work :=
  w.w32 (Reg.STR_ERR_INFO c) (BitVec.ofNat 32 (cmdTag cmd + s * 2 ^ 16 + (if request then 2 ^ 17 else 0) + strDesc cmd * 2 ^ 18))

/-- The descriptor cannot be read: the command does not run (R245). -/
def Work.descLasting (w : Work) (c s : Nat) (r : Running) : Work :=
  let w := w.updEngine c (2 + s) fun x => x.updLast fun r => { r with stopped := true }
  let w := (w.setFlag (Reg.STR_ERR_STAT c) Fld.STR_ERR_STAT_DESC_LASTING true).strErrInfo c s r.cmd false
  w.cellFault c 0x09 (3 + s) (cmdTag r.cmd) r.ctx none (strDesc r.cmd)

/-- Send the hint of a command to the migration engine of its region (R238). -/
def Work.strHint (w : Work) (c : Nat) (r : Running) (words : List Nat) : Work :=
  let op := bits (words.getD 2 0) 4 2
  let n := bits (words.getD 2 0) 20 12
  match r.ctx with
  | some x => if op ≠ 0 ∧ n ≠ 0 then
      w.updPge (coreRegion c) fun p => { p with hints := p.hints ++ [⟨x, bits (words.getD 7 0) 0 27, n, decide (op = 2)⟩] }
    else w
  | none => w

/-- Is a descriptor persistent (R232)? -/
def persists (words : List Nat) : Bool := decide (bits (words.getD 2 0) 3 1 = 1)

/-- Reserve the positions of a command's repeats on core c (R232, R520): the first one. -/
def Work.reservePos (w : Work) (c k : Nat) (cmd : CmdBits) (words : List Nat) : Nat × Work :=
  if persists words then
    let p := w.descPosOf k
    let w := if SMap.get 0 w.hw.descFirst k = 0 then w.setOwner k (coreGlobal c + 1) else w
    (p, w.setDescPos k ((p + cmdRepeat cmd) % 2 ^ 32))
  else (0, w)

/-- A reservation is refused in deterministic mode: the command does not run (R520). -/
def Work.sharedDesc (w : Work) (c s : Nat) (r : Running) : Work :=
  let w := w.updEngine c (2 + s) fun x => x.updLast fun r => { r with stopped := true }
  let info := coreGlobal c % 256 + strDesc r.cmd * 2 ^ 8 + r.ctx.getD 0 * 2 ^ 22
  let w := (w.setFlag Reg.DET_ERR_STAT Fld.DET_ERR_STAT_SHARED_DESC true).w32 Reg.DET_ERR_INFO (BitVec.ofNat 32 info)
  w.cellFault c 0x0E (3 + s) (cmdTag r.cmd) r.ctx none 0

/-- The command that a stream cell has issued reads its descriptor; `word` is the word that fails when `check` is not clean. -/
def Work.readDesc (w : Work) (c s : Nat) (r : Running) (check : ReadCheck) (word : Nat) : Work :=
  let k := descKey (coreRegion c) (strDesc r.cmd)
  let w := if strRearm r.cmd then w.rearm k r.cmd else w
  let bad := SMap.get 0 w.hw.descBad k
  if check = .lasting ∨ bad ≠ 0 then (w.setDescBad k (if check = .lasting then bad ||| 2 ^ word else bad)).descLasting c s r
  else
    let words := (List.range 8).map (w.descWord k)
    if persists words && !w.ownerAllows k (coreGlobal c) then w.sharedDesc c s r else
    let (p, w) := w.reservePos c k r.cmd words
    let w := w.strHint c r words
    let w := w.updEngine c (2 + s) fun x => x.updLast fun r => { r with ready := true, words := words, first := p }
    if check = .transient then
      w.cellTransient c 0x09 (3 + s) (cmdTag r.cmd) r.ctx (Reg.STR_ERR_STAT c) Fld.STR_ERR_STAT_DESC_TRANSIENT
        Fld.STR_ERR_STAT_TRANSIENT_CNT (k % 16384)
    else w

/-- The issued command of a stream cell that has yet to read its descriptor, if its opcode is `op`. -/
def Work.strUnread (w : Work) (c s op : Nat) : Option Running :=
  match (w.engine c (2 + s)).last with
  | some r => if w.coreUp c && decide (cmdOpcode r.cmd = op) && !r.ready && !r.stopped then some r else none
  | none => none

/-- An issued stream command of opcode `op` begins. -/
def Work.strBegin (w : Work) (c s op : Nat) (check : ReadCheck) (word : Nat) : Work :=
  match w.strUnread c s op with
  | some r => w.readDesc c s r check word
  | none => w

def execStrLoad (core : CoreIx) (str : StrIx) (check : ReadCheck) (word : Fin 8) (s : State) : Host.Outcome State Fault Refusal :=
  run s fun w => w.strBegin core str 1 check word

def execStrStore (core : CoreIx) (str : StrIx) (check : ReadCheck) (word : Fin 8) (s : State) : Host.Outcome State Fault Refusal :=
  run s fun w => w.strBegin core str 2 check word

def execStrGather (core : CoreIx) (str : StrIx) (check : ReadCheck) (word : Fin 8) (s : State) : Host.Outcome State Fault Refusal :=
  run s fun w => w.strBegin core str 3 check word

def execStrScatter (core : CoreIx) (str : StrIx) (check : ReadCheck) (word : Fin 8) (s : State) : Host.Outcome State Fault Refusal :=
  run s fun w => w.strBegin core str 4 check word

/-! ### Where a repeat's bytes lie (R229–R231, R235) -/

/-- A descriptor as a command read it. -/
structure Desc where
  words : List Nat

def Desc.w (d : Desc) (i : Nat) : Nat := d.words.getD i 0
def Desc.base (d : Desc) : Nat := d.w 0 + bits (d.w 1) 0 16 * 2 ^ 32
def Desc.node (d : Desc) : Nat := bits (d.w 1) 16 16
def Desc.kind (d : Desc) : Nat := bits (d.w 2) 0 2
def Desc.isLocal (d : Desc) : Bool := decide (bits (d.w 2) 2 1 = 1)
def Desc.stride (d : Desc) : Nat := bits (d.w 3) 4 16 * 2 ^ bits (d.w 3) 0 4
def Desc.length (d : Desc) : Nat := d.w 4
def Desc.rowBytes (d : Desc) : Nat := bits (d.w 5) 0 24
def Desc.idxBase (d : Desc) : Nat := bits (d.w 5) 0 24
def Desc.mstep (d : Desc) : Int := signed 32 (d.w 6)
/-- Bytes that one index names. -/
def Desc.entry (d : Desc) : Nat := 32 * (bits (d.w 3) 20 12 + 1)

/-- The descriptor that a running stream command read. -/
def Running.desc (r : Running) : Desc := ⟨r.words⟩

/-- Position of repeat `rep` of a command (R232). -/
def Running.position (r : Running) (rep : Nat) : Nat := (r.first + rep) % 2 ^ 32

/-- Memory base at position p (R229). -/
def Desc.at_ (d : Desc) (p : Nat) : Nat := (((d.base : Int) + 64 * (p : Int) * d.mstep) % (2 ^ 48 : Int)).toNat

/-- The run of bytes in memory that byte b of a repeat begins (R229, R230, R235): its CVA, nothing for a skipped entry, and how many bytes
follow in one row or entry. -/
def Work.strRun (w : Work) (c : Nat) (d : Desc) (p b : Nat) : Option Nat × Nat :=
  let mb := d.at_ p
  if d.kind = 0 then (some ((mb + b) % 2 ^ 48), d.length - b)
  else if d.kind = 1 then
    let row := d.rowBytes
    (some ((mb + b / row * d.stride + b % row) % 2 ^ 48), min (row - b % row) (d.length - b))
  else
    let e := d.length / d.entry
    let i := w.spmLE c (d.idxBase + 4 * (p * e + b / d.entry)) 4
    (if i = 0xFFFFFFFF then none else some ((mb + 32 * i + b % d.entry) % 2 ^ 48), d.entry - b % d.entry)

/-- The base of the half that repeat `rep` holds, of the halves `held` that the command has taken and not yet marked (R106, R239). -/
def Work.strHalf (w : Work) (c link : Nat) (r : Running) (held : List Nat) (rep : Nat) : Nat :=
  match held.getLast? with
  | some h => w.halfBase c link (if (r.started - 1 - rep) % 2 = 0 then h else 1 - h)
  | none => 0

/-- Scratchpad offset of byte b of a repeat (R231). -/
def Work.strSpm (w : Work) (c : Nat) (r : Running) (rep b : Nat) : Nat :=
  let half := if cmdOutEn r.cmd then w.strHalf c (cmdOutLink r.cmd) r r.outHeld rep
    else w.strHalf c (cmdInLink r.cmd) r r.inHeld rep
  (cmdAG r.cmd 10).unit (cmdRstep2 r.cmd) rep half (b / 256) + b % 256

/-- The bytes from b on that a repeat takes from the scratchpad. -/
def Work.strTake (w : Work) (c : Nat) (r : Running) (rep b n : Nat) : List Byte :=
  (List.range n).map fun j => w.rdB (spmAt c (w.strSpm c r rep (b + j)))

/-- Write bytes of a repeat into the scratchpad, from byte b on. -/
def Work.strPut (w : Work) (c : Nat) (r : Running) (rep : Nat) : Nat → List Byte → Work
  | _, [] => w
  | b, v :: vs => (w.wrB (spmAt c (w.strSpm c r rep b)) v).strPut c r rep (b + 1) vs

end Sys2Proof.Machine
end

