-- ==== Sys2Proof/Machine/Ctl.lean ====
section
/-! DEFINITION. The control core (R73–R86, R110, R113): fetch, instruction forms, every instruction but the memory loads and stores. -/

namespace Sys2Proof.Machine

/-! ### Instruction forms (R75, R81) -/

def insMajor (i : Nat) : Nat := bits i 0 7
def insD (i : Nat) : Nat := bits i 27 5
def insA (i : Nat) : Nat := bits i 22 5
def insB (i : Nat) : Nat := bits i 17 5
/-- FN of form A. -/
def insFnA (i : Nat) : Nat := bits i 7 10
/-- FN of form B and of form CQ. -/
def insFnB (i : Nat) : Nat := bits i 7 3
/-- IMM12 sign-extended to 64 bits. -/
def insImm12 (i : Nat) : DWord := (BitVec.ofNat 12 (bits i 10 12)).signExtend 64
/-- IMM20 sign-extended to 64 bits. -/
def insImm20 (i : Nat) : DWord := (BitVec.ofNat 20 (bits i 7 20)).signExtend 64
def insCab (i : Nat) : Nat := bits i 10 2
def insGA (i : Nat) : Nat := bits i 12 5
def insWord (i : Nat) : Nat := bits i 17 4
def insEng (i : Nat) : Nat := bits i 17 3
def insInc (i : Nat) : Bool := decide (bits i 20 1 = 1)
def insLsb (i : Nat) : Nat := bits i 21 5
def insWidth (i : Nat) : Nat := bits i 26 5

/-- The instruction word at the program counter. -/
def Work.insn (w : Work) (c : Nat) : Nat := w.spmLE c (w.core c).pc.toNat 4

/-- Does the control core of a core run: a context is placed, the core is up, not halted, and the control core not stalled (R76, R78,
R83, R84, R110, R113, R119), nor past its exit (R367)? -/
def Work.ctlRuns (w : Work) (c : Nat) : Bool :=
  w.flag (Reg.CORE_CTX c) Fld.CORE_CTX_VALID && w.coreUp c && decide ((w.core c).halt = .none) && decide ((w.core c).stall = .none) &&
    (SMap.find? w.hw.exiting c).isNone

/-- Move the program counter, modulo 2²⁴ (R73). -/
def Work.setPc (w : Work) (c : Nat) (pc : BitVec 24) : Work := w.updCore c fun k => { k with pc := pc }

/-- Step the program counter over one instruction. -/
def Work.nextPc (w : Work) (c : Nat) : Work := w.setPc c ((w.core c).pc + 4)

/-- Write a general register. -/
def Work.setG (w : Work) (c i : Nat) (v : DWord) : Work := w.updCore c fun k => k.setG i v

/-- Read a general register. -/
def Work.g (w : Work) (c i : Nat) : DWord := (w.core c).g i

/-- Stall the control core. -/
def Work.setStall (w : Work) (c : Nat) (s : CtlStall) : Work := w.updCore c fun k => { k with stall := s }

/-- Execute the instruction at the program counter when the control core runs and the word is one of `row`'s; otherwise nothing happens
(log entry 1). -/
def Work.ctl (w : Work) (c : Nat) (row : Nat → Bool) (f : Work → Nat → Work) : Work :=
  if w.ctlRuns c && row (w.insn c) then f w (w.insn c) else w

/-- Whom a clamp in a core's own program is counted to (R68). -/
def Work.coreClampBy (w : Work) (c : Nat) : ClampBy :=
  match w.placedCtx c with | some x => .program x | none => .firmware

/-- Count a clamp in the instruction word at the program counter. -/
def Work.clampIns (w : Work) (c lsb : Nat) (rule : ClampRule) : Work :=
  w.clamp (w.coreClampBy c) (spmAt c (w.core c).pc.toNat) 0 lsb rule

/-! ### Integer instructions -/

/-- One for true. -/
def boolWord (b : Bool) : DWord := if b then 1 else 0

/-- The register form (R76). -/
def aluReg (fn : Nat) (a b : DWord) : DWord :=
  match fn with
  | 0 => a + b
  | 1 => a - b
  | 2 => a &&& b
  | 3 => a ||| b
  | 4 => a ^^^ b
  | 5 => a <<< (b.toNat % 64)
  | 6 => a >>> (b.toNat % 64)
  | 7 => a.sshiftRight (b.toNat % 64)
  | 8 => a * b
  | 9 => BitVec.ofInt 64 (a.toInt * b.toInt / (2 ^ 64 : Int))
  | 10 => if a.toInt ≤ b.toInt then a else b
  | 11 => if a.toInt ≤ b.toInt then b else a
  | 12 => boolWord (decide (a.toInt < b.toInt))
  | _ => boolWord (decide (a.toNat < b.toNat))

/-- The immediate form (R76). -/
def aluImm (fn : Nat) (a b : DWord) : DWord :=
  match fn with
  | 0 => a + b
  | 1 => a &&& b
  | 2 => a ||| b
  | 3 => a ^^^ b
  | 4 => a <<< (b.toNat % 64)
  | 5 => a >>> (b.toNat % 64)
  | 6 => a.sshiftRight (b.toNat % 64)
  | _ => boolWord (decide (a.toInt < b.toInt))

/-- Do the operands of a branch compare true (R76)? -/
def branchTaken (fn : Nat) (d a : DWord) : Bool :=
  match fn with
  | 0 => decide (d = a)
  | 1 => decide (d ≠ a)
  | 2 => decide (d.toInt < a.toInt)
  | 3 => decide (a.toInt ≤ d.toInt)
  | 4 => decide (d.toNat < a.toNat)
  | _ => decide (a.toNat ≤ d.toNat)

def isAluReg (i : Nat) : Bool := decide (insMajor i = 0x01) && decide (insFnA i ≤ 13)
def isAluImm (i : Nat) : Bool := decide (insMajor i = 0x02)
def isLhi (i : Nat) : Bool := decide (insMajor i = 0x04)
def isMemLoad (i : Nat) : Bool := decide (insMajor i = 0x08) && decide (insFnB i ≤ 3)
def isMemStore (i : Nat) : Bool := decide (insMajor i = 0x09) && decide (insFnB i ≤ 3)
def isSpmLoad (i : Nat) : Bool := decide (insMajor i = 0x0A) && decide (insFnB i ≤ 3)
def isSpmStore (i : Nat) : Bool := decide (insMajor i = 0x0B) && decide (insFnB i ≤ 3)
def isBranch (i : Nat) : Bool := decide (insMajor i = 0x10) && decide (insFnB i ≤ 5)
def isCall (i : Nat) : Bool := decide (insMajor i = 0x11)
def isJmp (i : Nat) : Bool := decide (insMajor i = 0x12)
def isJmpr (i : Nat) : Bool := decide (insMajor i = 0x13) && decide (insFnB i = 0)
def isSpecial (fn i : Nat) : Bool := decide (insMajor i = 0x20) && decide (insFnA i = fn)
def isQueue (fn i : Nat) : Bool := decide (insMajor i = 0x5B) && decide (insFnB i = fn)

/-- Is an instruction word assigned (R77)? -/
def insAssigned (i : Nat) : Bool :=
  isAluReg i || isAluImm i || isLhi i || isMemLoad i || isMemStore i || isSpmLoad i || isSpmStore i || isBranch i || isCall i || isJmp i ||
    isJmpr i || (decide (insMajor i = 0x20) && decide (insFnA i ≤ 3)) || decide (insMajor i = 0x5B)

/-- The majors of R76. -/
def majorAssigned (i : Nat) : Bool :=
  [0x01, 0x02, 0x04, 0x08, 0x09, 0x0A, 0x0B, 0x10, 0x11, 0x12, 0x13, 0x20, 0x5B].contains (insMajor i)

def execAluReg (core : CoreIx) (s : State) : Host.Outcome State Fault Refusal :=
  run s fun w => w.ctl core isAluReg fun w i =>
    (w.setG core (insD i) (aluReg (insFnA i) (w.g core (insA i)) (w.g core (insB i)))).nextPc core

def execAluImm (core : CoreIx) (s : State) : Host.Outcome State Fault Refusal :=
  run s fun w => w.ctl core isAluImm fun w i =>
    (w.setG core (insD i) (aluImm (insFnB i) (w.g core (insA i)) (insImm12 i))).nextPc core

def execLhi (core : CoreIx) (s : State) : Host.Outcome State Fault Refusal :=
  run s fun w => w.ctl core isLhi fun w i => (w.setG core (insD i) (insImm20 i <<< 12)).nextPc core

/-- Size in bytes of a load or store. -/
def insSize (i : Nat) : Nat := 2 ^ insFnB i

/-- The scratchpad offset of a scratchpad load or store: g[A] + IMM12 modulo 2²⁴, aligned down to the access size (R76). -/
def Work.spmOperand (w : Work) (c i : Nat) : Nat :=
  (w.g c (insA i) + insImm12 i).toNat % 2 ^ 24 / insSize i * insSize i

def execScratchpadLoad (core : CoreIx) (s : State) : Host.Outcome State Fault Refusal :=
  run s fun w => w.ctl core isSpmLoad fun w i =>
    (w.setG core (insD i) (BitVec.ofNat 64 (w.spmLE core (w.spmOperand core i) (insSize i)))).nextPc core

def execScratchpadStore (core : CoreIx) (s : State) : Host.Outcome State Fault Refusal :=
  run s fun w => w.ctl core isSpmStore fun w i =>
    (w.spmWrite core (w.spmOperand core i) (leBytes (insSize i) (w.g core (insD i)).toNat)).nextPc core

/-- PC + 4 × an immediate, modulo 2²⁴. -/
def pcPlus (pc : BitVec 24) (imm : DWord) : BitVec 24 := pc + (imm <<< 2).truncate 24

def execBranch (core : CoreIx) (s : State) : Host.Outcome State Fault Refusal :=
  run s fun w => w.ctl core isBranch fun w i =>
    if branchTaken (insFnB i) (w.g core (insD i)) (w.g core (insA i)) then
      w.setPc core (pcPlus (w.core core).pc (insImm12 i))
    else w.nextPc core

/-- A return address as a general register holds it: the 24-bit program counter, zero-extended. -/
def linkWord (pc : BitVec 24) : DWord := (pc + 4).zeroExtend 64

def execCall (core : CoreIx) (s : State) : Host.Outcome State Fault Refusal :=
  run s fun w => w.ctl core isCall fun w i =>
    let pc := (w.core core).pc
    (w.setG core 1 (linkWord pc)).setPc core (pcPlus pc (insImm20 i))

def execJmp (core : CoreIx) (s : State) : Host.Outcome State Fault Refusal :=
  run s fun w => w.ctl core isJmp fun w i => w.setPc core (pcPlus (w.core core).pc (insImm20 i))

/-- JMPR: the target is taken from g[A] before the link is written (R76, log entry 7). -/
def execJmpr (core : CoreIx) (s : State) : Host.Outcome State Fault Refusal :=
  run s fun w => w.ctl core isJmpr fun w i =>
    let pc := (w.core core).pc
    let target : BitVec 24 := BitVec.ofNat 24 ((w.g core (insA i) + insImm12 i).toNat / 4 * 4)
    (w.setG core (insD i) (linkWord pc)).setPc core target

/-- NOP, and every unassigned word, which is also counted as a clamp with RULE 0b01 (R77). -/
def execCtlNop (core : CoreIx) (s : State) : Host.Outcome State Fault Refusal :=
  run s fun w => w.ctl core (fun i => isSpecial 0 i || !insAssigned i) fun w i =>
    let w := if insAssigned i then w else w.clampIns core (if majorAssigned i then 7 else 0) .encoding
    w.nextPc core

/-! ### Special registers (R79) -/

/-- CORE cycles since power-on. -/
def Work.coreCycles (w : Work) : Nat := w.hw.rootEighths / 8

/-- The generator of a core. -/
def Work.seed (w : Work) (c : Nat) : Seed := SMap.get Seed.reset w.hw.seeds c

/-- Replace the generator of a core. -/
def Work.setSeed (w : Work) (c : Nat) (x : Seed) : Work :=
  { w with hw := { w.hw with seeds := SMap.set Seed.reset w.hw.seeds c x } }

/-- Is the vector chain drained: its queue empty and no issued command outstanding (R136)? -/
def Work.vecDrained (w : Work) (c : Nat) : Bool := (w.engine c 1).queue.isEmpty && (w.engine c 1).running.isEmpty

/-- The value of a special register (R79). -/
def Work.special (w : Work) (c idx : Nat) : DWord :=
  BitVec.ofNat 64 <| match idx with
  | 0 => coreGlobal c
  | 1 => coreRegion c * 256 + w.physOf c
  | 2 => w.fld (Reg.CORE_CTX c) Fld.CORE_CTX_CTX
  | 3 => w.selfNode
  | 4 => w.coreCycles - SMap.get 0 w.hw.cycleStart c
  | 5 => SMap.get 0 w.hw.genCore c
  | 6 => coreWindow c
  | 7 => 0x100000000000 + coreGlobal c * 0x1000000
  | 8 => (w.seed c).state.toNat
  | _ => 0

/-- The generator's state when SEED is written: a zero is replaced, values left over are discarded (R136). -/
def Work.writeSeed (w : Work) (c : Nat) (v : DWord) : Work := w.setSeed c ⟨if v = 0 then Seed.reset.state else v, []⟩

/-- SRD and SWR once nothing holds them. -/
def Work.seedAccess (w : Work) (c i : Nat) : Work :=
  if isSpecial 1 i then (w.setG c (insD i) (w.special c (insB i))).nextPc c
  else (if insB i = 8 then w.writeSeed c (w.g c (insA i)) else w).nextPc c

/-- SRD; of SEED it stalls until the vector chain has drained (R79, R136). -/
def execSrd (core : CoreIx) (s : State) : Host.Outcome State Fault Refusal :=
  run s fun w => w.ctl core (isSpecial 1) fun w i =>
    if insB i = 8 && !w.vecDrained core then w.setStall core .seed else w.seedAccess core i

/-- SWR: only SEED can be written (R79, R136). -/
def execSwr (core : CoreIx) (s : State) : Host.Outcome State Fault Refusal :=
  run s fun w => w.ctl core (isSpecial 2) fun w i =>
    if insB i = 8 && !w.vecDrained core then w.setStall core .seed else w.seedAccess core i

/-- May a stalled control core go on: a halt stops it before its next instruction, not within one (R113, log entry 8). -/
def Work.ctlStalled (w : Work) (c : Nat) (p : CtlStall → Bool) : Bool := w.coreUp c && p (w.core c).stall

def execSeedAccessResume (core : CoreIx) (s : State) : Host.Outcome State Fault Refusal :=
  run s fun w =>
    if w.ctlStalled core (fun x => decide (x = .seed)) && w.vecDrained core then
      (w.setStall core .none).seedAccess core (w.insn core)
    else w

/-! ### Breaks from the program -/

/-- BRK: it completes, and the core halts as at a hit, with no cause (R113). -/
def execBrk (core : CoreIx) (s : State) : Host.Outcome State Fault Refusal :=
  run s fun w => w.ctl core (isSpecial 3) fun w _ => (w.nextPc core).brkHit core

/-! ### Command assembly buffers -/

/-- A CAB of a core. -/
def Work.cab (w : Work) (c n : Nat) : CmdBits := SMap.get 0 (w.core c).cabs n

/-- Replace a CAB of a core. -/
def Work.setCab (w : Work) (c n : Nat) (v : CmdBits) : Work := w.updCore c fun k => { k with cabs := SMap.set 0 k.cabs n v }

def execCwr (core : CoreIx) (s : State) : Host.Outcome State Fault Refusal :=
  run s fun w => w.ctl core (isQueue 0) fun w i =>
    (w.setCab core (insCab i) (cmdSet (w.cab core (insCab i)) (insWord i) 0 32 (w.g core (insGA i)).toNat)).nextPc core

/-- The width of a CWF field: WIDTH is clamped to 31 − LSB (R82). -/
def cwfWidth (i : Nat) : Nat := min (insWidth i) (31 - insLsb i) + 1

def execCwf (core : CoreIx) (s : State) : Host.Outcome State Fault Refusal :=
  run s fun w => w.ctl core (isQueue 1) fun w i =>
    let w := if insWidth i > 31 - insLsb i then w.clampIns core 26 .joined else w
    (w.setCab core (insCab i)
      (cmdSet (w.cab core (insCab i)) (insWord i) (insLsb i) (cwfWidth i) (w.g core (insGA i)).toNat)).nextPc core

/-- The 64 scratchpad bytes at an offset, aligned down to 64 bytes, as a command. -/
def Work.spmCmd (w : Work) (c off : Nat) : CmdBits := BitVec.ofNat 512 (w.spmLE c (off % 2 ^ 24 / 64 * 64) 64)

def execCld (core : CoreIx) (s : State) : Host.Outcome State Fault Refusal :=
  run s fun w => w.ctl core (isQueue 2) fun w i =>
    (w.setCab core (insCab i) (w.spmCmd core (w.g core (insGA i)).toNat)).nextPc core

/-! ### Pushes and waits -/

/-- The engine a queue instruction names: 5 to 7 take 4 (R64, R81). -/
def insEngine (i : Nat) : Nat := min (insEng i) 4

/-- Count the clamp of an engine number above 4. -/
def Work.clampEng (w : Work) (c i : Nat) : Work := if insEng i > 4 then w.clampIns c 17 .range else w

/-- The push of the instruction word `i`, whose queue has a slot (R82, R83). -/
def Work.doPush (w : Work) (c i : Nat) : Work :=
  if insFnB i = 3 then
    let v := w.cab c (insCab i)
    let w := w.push c (insEngine i) v none
    let w := if insInc i then w.setCab c (insCab i) (cmdSet v 1 0 16 (cmdTag v + 1)) else w
    w.nextPc c
  else
    let off := (w.g c (insGA i)).toNat % 2 ^ 24 / 64 * 64
    (w.push c (insEngine i) (w.spmCmd c off) (some (spmAt c off))).nextPc c

/-- Is a store of core c's control core to its own STR_ block not yet performed (R226)? -/
def Work.ownInstall (w : Work) (c : Nat) : Bool :=
  w.hw.installs.any fun x => decide (x.core = c) && (match x.master with | .cell k e => decide (k.val = c ∧ e.val = 0) | _ => false)

/-- Does a push to engine e wait: the queue is full, or an earlier store to the STR_ block is not performed (R83, R226)? -/
def Work.pushWaits (w : Work) (c e : Nat) : Bool := (w.engine c e).queueFull || ((decide (e = 2) || decide (e = 3)) && w.ownInstall c)

/-- CPUSH and CPUSHM: push, or stall while the queue is full (R83). -/
def Work.tryPush (w : Work) (c i : Nat) : Work :=
  let w := w.clampEng c i
  if w.pushWaits c (insEngine i) then w.setStall c (.push (insEngine i)) else w.doPush c i

def execCpush (core : CoreIx) (s : State) : Host.Outcome State Fault Refusal :=
  run s fun w => w.ctl core (isQueue 3) fun w i => w.tryPush core i

def execCpushm (core : CoreIx) (s : State) : Host.Outcome State Fault Refusal :=
  run s fun w => w.ctl core (isQueue 7) fun w i => w.tryPush core i

def execCpushUnstall (core : CoreIx) (s : State) : Host.Outcome State Fault Refusal :=
  run s fun w =>
    let i := w.insn core
    if w.ctlStalled core (fun x => decide (x = .push (insEngine i))) && !w.pushWaits core (insEngine i) then
      (w.setStall core .none).doPush core i
    else w

/-- CQST (R82, R85). -/
def execCqst (core : CoreIx) (s : State) : Host.Outcome State Fault Refusal :=
  run s fun w => w.ctl core (isQueue 4) fun w i =>
    let w := w.clampEng core i
    let e := insEngine i
    let v := (64 - (w.engine core e).queue.length) + w.doneCount core e * 2 ^ 16
      + w.fld (Reg.CORE_QTAG core e) Fld.CORE_QTAG_DONE_TAG * 2 ^ 32
    (w.setG core (insGA i) (BitVec.ofNat 64 v)).nextPc core

/-- CWAIT (R82, R84). -/
def execCwait (core : CoreIx) (s : State) : Host.Outcome State Fault Refusal :=
  run s fun w => w.ctl core (isQueue 5) fun w i =>
    let w := w.clampEng core i
    let e := insEngine i
    let v := (w.g core (insGA i)).toNat % 65536
    if hasReached (w.doneCount core e) v then w.nextPc core else w.setStall core (.wait e v)

def execCwaitRelease (core : CoreIx) (s : State) : Host.Outcome State Fault Refusal :=
  run s fun w =>
    match (w.core core).stall with
    | .wait e v => if w.coreUp core && hasReached (w.doneCount core e) v then (w.setStall core .none).nextPc core else w
    | _ => w

/-- Has every command pushed to a core completed? -/
def Core.drained (k : Core) : Bool := k.engines.all fun e => e.2.queue.isEmpty && e.2.running.isEmpty

/-- Is every link idle and are both banks empty (R110)? -/
def Core.handoverIdle (k : Core) : Bool :=
  (List.range 15).all k.linkIdle && decide (k.mtx.bank0.state = .empty) && decide (k.mtx.bank1.state = .empty)

end Sys2Proof.Machine
end

