-- ==== Sys2Proof/Machine/Trans.lean ====
section
/-! DEFINITION. How far a result of TRANS may lie from the exact one (R204). The exact functions are computed in fixed point with 640 fraction
bits; the value itself is free inside the bound (log entry 9). -/

namespace Sys2Proof.Machine

/-- Fraction bits of the fixed-point numbers of this file. -/
def fxBits : Nat := 640

/-- One, the product and the quotient in fixed point. -/
def fxOne : Int := 2 ^ fxBits
def fxMul (a b : Int) : Int := a * b / fxOne
def fxDiv (a b : Int) : Int := a * fxOne / b

/-- ± m × 2ᵉ in fixed point. -/
def fxOf (neg : Bool) (m : Nat) (e : Int) : Int := sgn neg (m * 2 ^ (e + fxBits).toNat)

/-- Bring a number into −n to n. -/
def fxClamp (n : Nat) (x : Int) : Int := max (-(n * fxOne)) (min (n * fxOne) x)

/-- Steps n − 1 down to 0 of a Horner scheme. -/
def fxHorner (n : Nat) (start : Int) (f : Nat → Int → Int) : Int := (List.range n).reverse.foldl (fun acc k => f k acc) start

/-- eˣ for x from −256 to 256, which FP32 cannot leave without overflow: the series at x ÷ 2¹⁶, squared 16 times. -/
def fxExp (x : Int) : Int :=
  let r := fxClamp 256 x / 2 ^ 16
  let y := fxHorner 80 fxOne fun k acc => fxOne + fxMul r acc / (k + 1)
  (List.range 16).foldl (fun y _ => fxMul y y) y

/-- ln y for y from 1 to 2, by the series of the inverse hyperbolic tangent. -/
def fxLn1 (y : Int) : Int :=
  let z := fxDiv (y - fxOne) (y + fxOne)
  2 * fxMul z (fxHorner 220 0 fun k acc => fxOne / (2 * k + 1) + fxMul (fxMul z z) acc)

def fxLn2 : Int := fxLn1 (2 * fxOne)

/-- ln (m × 2ᵉ) for m above 0. -/
def fxLn (m : Nat) (e : Int) : Int :=
  let l := bitLen m - 1
  (e + l) * fxLn2 + fxLn1 ((m * 2 ^ (fxBits - l) : Nat) : Int)

/-- π, by Machin's formula. -/
def fxPi : Int :=
  let atan (q : Int) : Int := (fxHorner 160 0 fun k acc => fxOne / (2 * k + 1) - acc / (q * q)) / q
  16 * atan 5 - 4 * atan 239

/-- sin x and cos x. -/
def fxSin (x : Int) : Int :=
  let r := x % (2 * fxPi)
  fxMul r (fxHorner 130 fxOne fun k acc => fxOne - fxMul (fxMul r r) acc / ((2 * k + 2) * (2 * k + 3)))
def fxCos (x : Int) : Int :=
  let r := x % (2 * fxPi)
  fxHorner 130 fxOne fun k acc => fxOne - fxMul (fxMul r r) acc / ((2 * k + 1) * (2 * k + 2))

/-- √x for x not negative. -/
def fxSqrt (x : Int) : Int := (Nat.sqrt (x * fxOne).toNat : Nat)

/-- Φ(x), the normal distribution function. -/
def fxPhi (x : Int) : Int :=
  if 20 * fxOne < x then fxOne
  else if x < -(20 * fxOne) then 0
  else
    let q := fxMul x x / 2
    let s := (List.range 900).foldl (fun (p : Int × Int) n => (-(fxMul p.1 q) / (n + 1), p.2 + p.1 / (2 * n + 1))) (x, 0)
    fxOne / 2 + fxDiv s.2 (fxSqrt (2 * fxPi))

/-- The exact result of an operation on ± m × 2ᵉ, m not 0, where R205 names no special result. -/
def transExact (op : Nat) (neg : Bool) (m : Nat) (e : Int) : Int :=
  let x := fxOf neg m e
  let sigmoid : Int := fxDiv fxOne (fxOne + fxExp (-x))
  match op with
  | 0 => fxExp (fxMul (fxClamp 400 x) fxLn2)
  | 1 => fxExp x
  | 2 => fxDiv (fxLn m e) fxLn2
  | 3 => fxLn m e
  | 4 => fxDiv fxOne x
  | 5 => fxDiv fxOne (fxSqrt x)
  | 6 => fxSqrt x
  | 7 => fxDiv (fxExp (2 * x) - fxOne) (fxExp (2 * x) + fxOne)
  | 8 => sigmoid
  | 9 => fxMul x sigmoid
  | 10 => fxMul x (fxPhi x)
  | 11 => fxSin x
  | _ => fxCos x

/-- The largest error of R204's table: units in the last place, and an absolute bound as a power of two. -/
def transBound (op : Nat) (big : Bool) : Nat × Option Nat :=
  match op with
  | 1 => (2, none)
  | 2 => (1, some 23)
  | 3 => (2, some 23)
  | 7 => (2, none)
  | 8 => (2, none)
  | 9 => (3, none)
  | 10 => (3, some 30)
  | 11 => if big then (0, some 20) else (2, some 24)
  | 12 => if big then (0, some 20) else (2, some 24)
  | _ => (1, none)

/-- The bound in fixed point, at an exact result (R204). A little more is allowed than the fixed-point work can have lost. -/
def transError (op : Nat) (big : Bool) (exact : Int) : Nat :=
  let b := transBound op big
  let ulp := max (-149) (floorLog2 exact.natAbs (-fxBits) - 23)
  max (b.1 * 2 ^ (ulp + fxBits).toNat) (match b.2 with | some k => 2 ^ (fxBits - k) | none => 0) + 2 ^ (fxBits - 300)

/-- May TRANS give the FP32 word r where the exact result is `exact`? Beyond the largest finite value RNE gives ∞. -/
def transAllows (exact : Int) (error : Nat) (r : Word) : Bool :=
  match numOf r with
  | .nan => false
  | .inf neg => decide (neg = decide (exact < 0)) && decide ((2 ^ 128 - 2 ^ 103) * 2 ^ fxBits ≤ exact.natAbs + error)
  | .fin neg m e => decide ((fxOf neg m e - exact).natAbs ≤ error)

/-- The result of TRANS for a finite input that is not special: the free value where R204 allows it, else the exact result rounded. -/
def transValue (op : Nat) (w : Word) : Word :=
  match numOf w with
  | .fin neg m e =>
    let exact := transExact op neg m e
    let error := transError op (decide (2 ^ 20 * fxOne < (fxOf false m e))) exact
    if transAllows exact error (Config.trans op w) then Config.trans op w else toFp32 (Num.ofInt neg exact (-fxBits))
  | _ => w

end Sys2Proof.Machine
end

