-- ==== Sys2Proof/Machine/Vec.lean ====
section
/-! DEFINITION. The vector chain at work (R192–R222): stages, reductions, conversions, the walk of one repeat, banks, configuration errors. -/

namespace Sys2Proof.Machine

/-! ### Values in the chain (R201) -/

/-- A value in the chain: an FP32 word, or an anchored integer of 32 or 64 bits. -/
inductive VVal where
  | fp (w : Word)
  | int (n : Nat) (v : Int)
deriving DecidableEq, Repr

/-- A value where a floating-point value is expected: an integer reads with anchor 0 (R201). -/
def VVal.toFp : VVal → Word
  | .fp w => w
  | .int _ v => toFp32 (ofAnchored 0 v)

/-- The exact number of a value, an integer with an anchor. -/
def VVal.num (anchor : Int) : VVal → Num
  | .fp w => numOf w
  | .int _ v => ofAnchored anchor v

/-- A two's-complement integer wrapped to n bits. -/
def wrapInt (n : Nat) (v : Int) : Int := bitsInt n (intBits n v)

/-- Is a word a NaN? -/
def isNaN (w : Word) : Bool := decide (numOf w = .nan)

/-- The canonical FP32 NaN (R128). -/
def nanWord : Word := 0x7FC00000

/-- The sign bit. -/
def signOf (w : Word) : Bool := w.msb

/-- A word with its sign bit set to `b`. -/
def withSign (w : Word) (b : Bool) : Word := (w &&& 0x7FFFFFFF) ||| (if b then 0x80000000 else 0)

/-- Counts of saturations: anchored (R146) and floating (R129). -/
structure Sat where
  anch : Nat
  flt : Nat

def Sat.none : Sat := ⟨0, 0⟩
def Sat.plus (a b : Sat) : Sat := ⟨a.anch + b.anch, a.flt + b.flt⟩
def satA (b : Bool) : Sat := ⟨if b then 1 else 0, 0⟩
def satF (b : Bool) : Sat := ⟨0, if b then 1 else 0⟩

/-- A value as an anchored integer of n bits with an anchor: integers only change width (R146, R201, R208). -/
def VVal.toInt (n : Nat) (anchor : Int) : VVal → Int × Sat
  | .int _ v => (wrapInt n v, .none)
  | .fp w => let r := toAnchored n anchor (numOf w); (r.1, satA r.2)

/-- A number rounded to a plain floating-point format: the code and whether R129 changed it. -/
def vecRound (f : FpFmt) (mode : Round) (x : Num) : Nat × Sat :=
  let r := f.encodeOv mode x
  (r.1, satF (r.2 || (decide (f.special = 1) && (match x with | .inf _ => true | _ => false))))

/-! ### MADD, CMPSEL, TRANS (R203–R206) -/

/-- IADD (R203). -/
def vecIadd (a b : VVal) : VVal × Sat :=
  let n := match a, b with
    | .int n _, .int m _ => max n m
    | .int n _, .fp _ => n
    | .fp _, .int m _ => m
    | .fp _, .fp _ => 64
  let x := a.toInt n 0
  let y := b.toInt n 0
  (.int n (wrapInt n (x.1 + y.1)), x.2.plus y.2)

/-- MADD (R203). -/
def vecMadd (op : Nat) (a b c : VVal) : VVal × Sat :=
  if op = 7 then vecIadd a b
  else
    let x := numOf a.toFp
    let y := numOf b.toFp
    let z := numOf c.toFp
    let r := match op with
      | 0 => (x.mul y).add z
      | 1 => (x.mul y).add z.neg
      | 2 => x.add y
      | 3 => x.add y.neg
      | 4 => x.mul y
      | 5 => x.add (z.mul (y.add x.neg))
      | _ => x.add (z.mul ((y.mul y).add x.neg))
    (.fp (toFp32 r), .none)

/-- min and max of two words; −0 below +0 (R206). -/
def fpMin (a b : Word) : Word :=
  if isNaN a || isNaN b then nanWord
  else if (numOf a).lt (numOf b) then a else if (numOf b).lt (numOf a) then b else if signOf a then a else b

def fpMax (a b : Word) : Word :=
  if isNaN a || isNaN b then nanWord
  else if (numOf a).lt (numOf b) then b else if (numOf b).lt (numOf a) then a else if signOf a then b else a

/-- The ordered comparisons and NE (R206). -/
def vecCompare (op : Nat) (a b : Word) : Bool :=
  let x := numOf a
  let y := numOf b
  match op with
  | 3 => x.lt y
  | 4 => x.lt y || x.eqv y
  | 5 => x.eqv y
  | 6 => !x.eqv y
  | 7 => y.lt x || x.eqv y
  | _ => y.lt x

/-- CMPSEL (R206). -/
def vecCmpsel (op : Nat) (a b c d : Word) : Word :=
  match op with
  | 0 => fpMin a b
  | 1 => fpMax a b
  | 2 => if isNaN a || isNaN b || isNaN c then nanWord else fpMin (fpMax a b) c
  | 9 => withSign a false
  | 10 => withSign a (!signOf a)
  | 11 => withSign a (signOf b)
  | _ => if vecCompare op a b then c else d

/-- The special results of TRANS (R205). -/
def transSpecial (op : Nat) (w : Word) : Option Word :=
  let one : Word := 0x3F800000
  let inf : Word := 0x7F800000
  match numOf w with
  | .nan => some nanWord
  | .inf false =>
    some (if op ≤ 3 ∨ op = 6 ∨ op = 9 ∨ op = 10 then inf else if op = 4 ∨ op = 5 then 0 else if op = 7 ∨ op = 8 then one else nanWord)
  | .inf true =>
    some (if op ≤ 1 ∨ op = 8 then 0 else if op = 7 then withSign one true else if op = 9 ∨ op = 10 ∨ op = 4 then 0x80000000 else nanWord)
  | .fin neg m _ =>
    if m = 0 then
      some (if op = 2 ∨ op = 3 then withSign inf true else if op = 4 ∨ op = 5 then withSign inf neg
        else if op = 0 ∨ op = 1 ∨ op = 12 then one else if op = 8 then 0x3F000000 else w)
    else if neg ∧ (op = 2 ∨ op = 3 ∨ op = 5 ∨ op = 6) then some nanWord
    else none

/-- TRANS: the special results, and otherwise a free value inside the bound that the spec gives (R204, R205; log entry 9). -/
def vecTrans (op : Nat) (w : Word) : Word := (transSpecial op w).getD (transValue op w)

/-! ### RANDOM and INDEX (R209, R210) -/

/-- The 64-bit value of an element (R209). -/
def vecRandZ (key base : Nat) (s c : Nat) : BitVec 64 :=
  let k : BitVec 64 := BitVec.ofNat 64 (key + s)
  let n : BitVec 64 := BitVec.ofNat 64 (base + c)
  let z := k + n * 0x9E3779B97F4A7C15
  let z := (z ^^^ (z >>> 30)) * 0xBF58476D1CE4E5B9
  let z := (z ^^^ (z >>> 27)) * 0x94D049BB133111EB
  z ^^^ (z >>> 31)

/-- RANDOM (R209). -/
def vecRandom (op : Nat) (z : BitVec 64) (a b c : VVal) : VVal :=
  let u : Num := .fin false (z.toNat / 2 ^ 40) (-24)
  match op with
  | 0 => .fp (toFp32 u)
  | 1 => .fp (if u.lt (numOf c.toFp) then fpMul a.toFp b.toFp else 0)
  | _ => .int 32 (bitsInt 32 z.toNat)

/-- INDEX: position plus OFFSET (R210). -/
def vecIndex (fmt p offset : Nat) : VVal :=
  let v : Int := (p : Int) + bitsInt 32 offset
  if fmt = 11 then .int 32 (wrapInt 32 v) else .fp (toFp32 (ofAnchored 0 v))

/-! ### REDUCE (R207) -/

/-- One level of the tree: neighbours are combined, a last one without a partner passes up. -/
def treeLevel {α : Type} (f : α → α → α) : List α → List α
  | a :: b :: l => f a b :: treeLevel f l
  | l => l

/-- The tree over a span: `fuel` levels suffice when it is at least the length. -/
def treeFold {α : Type} (f : α → α → α) : Nat → List α → List α
  | 0, l => l
  | n + 1, l => match l with
    | _ :: _ :: _ => treeFold f n (treeLevel f l)
    | l => l

/-- Position of the first NaN, or of the first maximum by numeric value (R207). -/
def vecArgmax (l : List Word) : Nat :=
  match l.findIdx? isNaN with
  | some i => i
  | none =>
    (l.foldl (fun (st : Nat × Nat × Word) w =>
      let (i, best, bw) := st
      if i = 0 then (1, 0, w) else if (numOf bw).lt (numOf w) then (i + 1, i, w) else (i + 1, best, bw)) (0, 0, 0)).2.1

/-- The result of a REDUCE stage over one span (R207). -/
def vecReduce (g : VecCfg) (s : Nat) (vs : List VVal) : VVal × Sat :=
  let op := g.sOp s
  let ws := vs.map VVal.toFp
  let fold (f : Word → Word → Word) (l : List Word) : VVal := .fp ((treeFold f l.length l).headD 0)
  match op with
  | 0 => (fold fpAdd ws, .none)
  | 1 => (fold fpAdd (ws.map fun w => fpMul w w), .none)
  | 2 => (fold fpMax ws, .none)
  | 3 => (fold fpMin ws, .none)
  | 4 => (fold (fun a b => fpMax (withSign a false) (withSign b false)) ws, .none)
  | 5 =>
    let n := if g.sFmt s = 11 then 32 else 64
    let xs := ws.map fun w => toAnchored n (g.sAnchor s) (numOf w)
    (.int n (wrapInt n (xs.foldl (fun t x => t + x.1) 0)), ⟨(xs.filter Prod.snd).length, 0⟩)
  | _ => (.int 32 (vecArgmax ws : Nat), .none)

/-! ### CONVERT (R208) -/

/-- CONVERT to a plain or anchored format. -/
def vecConvert (fmt : Nat) (anchor : Int) (mode : Round) (a : VVal) : VVal × Sat :=
  if isAnchFmt fmt then
    let n := if fmt = 11 then 32 else 64
    let r := a.toInt n anchor
    (.int n r.1, r.2)
  else
    let f := if fmt = 10 then fp32 else mtxFp fmt
    let r := vecRound f mode (a.num anchor)
    (.fp (toFp32 (f.decode r.1)), r.2)

/-- The element format of a Microscaling code. -/
def vecMx (fmt : Nat) : MxElem := (mtxMx fmt).getD .int8

/-- CONVERT of a block to a Microscaling format: every element reads back as FP32 (R139, R208). -/
def vecConvertMx (fmt : Nat) (vs : List (Num × Round)) : List VVal × Sat :=
  let t := vecMx fmt
  let (scale, codes, n) := mxBlock t vs
  (codes.map fun x => .fp (toFp32 (mxValue t scale x)), ⟨0, n⟩)

/-! ### One element through the stages -/

/-- One element: its ordinals, its inputs, the chain value, the taps, and the random values its SR stages draw, in stage order. -/
structure VElem where
  ord : Nat
  cord : Nat
  ins : List VVal
  chain : VVal
  tap0 : VVal
  tap1 : VVal
  rands : List (Nat × Nat)

/-- A source of a stage (R198, R199). -/
def VElem.src (x : VElem) (s src : Nat) (const : Nat) : VVal :=
  let z : VVal := .fp 0
  if src = 0 then (if s = 0 then x.ins.headD z else x.chain)
  else if src ≤ 4 then x.ins.getD (src - 1) z
  else if src = 5 then .fp (BitVec.ofNat 32 const)
  else if src = 6 then x.tap0 else x.tap1

/-- The rounding mode of an element at a CONVERT stage. -/
def VElem.mode (x : VElem) (s : Nat) : Round :=
  match x.rands.find? (fun r => decide (r.1 = s)) with
  | some r => .sr r.2
  | none => .rne

/-- An element with the result of a stage on the chain, and saved where SAVE says. -/
def VElem.take (x : VElem) (g : VecCfg) (s : Nat) (v : VVal) : VElem :=
  { x with chain := v, tap0 := if g.sSave s = 1 then v else x.tap0, tap1 := if g.sSave s ≥ 2 then v else x.tap1 }

/-- The result of a stage for one element; a Microscaling CONVERT is done block by block instead. -/
def VElem.result (x : VElem) (g : VecCfg) (s : Nat) : VVal × Sat :=
  let a := x.src s (g.sSrc s 0) (g.sConstB s)
  let b := x.src s (g.sSrc s 1) (g.sConstB s)
  let c := x.src s (g.sSrc s 2) (g.sConstC s)
  match g.sType s with
  | 1 => vecMadd (g.sOp s) a b c
  | 2 => (.fp (vecTrans (g.sOp s) a.toFp), .none)
  | 3 => (.fp (vecCmpsel (g.sOp s) a.toFp b.toFp c.toFp (BitVec.ofNat 32 (g.sParam s))), .none)
  | 5 => vecConvert (g.sFmt s) (g.sAnchor s) (x.mode s) a
  | 6 => (vecRandom (g.sOp s) (vecRandZ g.key g.counterBase s x.cord) a b c, .none)
  | 7 =>
    let p := if g.sOp s = 0 then x.ord else if g.sOp s = 1 then x.cord else x.ord % 2 ^ g.sSpanLog s
    (vecIndex (g.sFmt s) p (g.sConstB s), .none)
  | _ => (a, .none)

/-- A stage over a chunk of elements. -/
def vecStage (g : VecCfg) (xs : List VElem) (s : Nat) : List VElem × Sat :=
  if g.sType s = 5 ∧ isMxFmt (g.sFmt s) then
    let vs := xs.map fun x => ((x.src s (g.sSrc s 0) 0).num (g.sAnchor s), x.mode s)
    let r := vecConvertMx (g.sFmt s) vs
    ((xs.zip r.1).map fun p => p.1.take g s p.2, r.2)
  else
    xs.foldr (fun x (acc : List VElem × Sat) =>
      let r := x.result g s
      (x.take g s r.1 :: acc.1, r.2.plus acc.2)) ([], .none)

/-! ### Operands in memory -/

/-- The half an address generator starts from: the command's link where HALFREL is set (R96, R214). -/
def halfOf (ag : AG) (half : Nat) : Nat := if ag.half then half else 0

/-- The scratchpad offset and bit of element x of an operand: its unit, and its place within the unit (R195). -/
def vecPlace (fmt : Nat) (ag : AG) (rstep : Int) (rep half x : Nat) : Nat × Nat :=
  let b := vecElemBits fmt * (x % vecUnitElems fmt)
  (ag.unit rstep rep half (x / vecUnitElems fmt) + b / 8, b % 8)

/-- A value read from its code (R201): formats widen exactly; a NaN keeps its sign. -/
def vecWiden (fmt code scale : Nat) : VVal :=
  if fmt = 11 then .int 32 (bitsInt 32 code) else if fmt ≥ 12 then .int 64 (bitsInt 64 code)
  else if fmt = 10 then .fp (BitVec.ofNat 32 code)
  else if isMxFmt fmt then .fp (toFp32 (mxValue (vecMx fmt) scale code))
  else
    let f := mtxFp fmt
    match f.decode code with
    | .nan => .fp (withSign nanWord (decide ((code >>> (f.ebits + f.mbits)) % 2 = 1)))
    | x => .fp (toFp32 x)

/-- The elements of a repeat (R195). -/
def VecCfg.elems (g : VecCfg) : Nat := (g.inAG 0).count * vecUnitElems (g.inFmt 0)

/-- The scale byte of element x of a Microscaling operand (R211). -/
def vecScaleAt (base rep n x : Nat) : Nat := (base + rep * ((n + 31) / 32) + x / 32) % 2 ^ 24

/-- Read element x of input i of a repeat. -/
def Work.vecIn (w : Work) (c : Nat) (g : VecCfg) (r : Running) (rep bank : Nat) (parity : Option Nat) (i x : Nat) : VVal :=
  let fmt := g.inFmt i
  let ag := g.inAG i
  if i = 0 ∧ vecAccin g.cmd then
    let u := { ag with half := false }.unit 0 0 0 (x / 64) % 65536 / 256 * 256
    let e := u / 4 + x % 64
    .fp (if parity = some e then nanWord else ((w.mtx c).bank bank).elem e)
  else
    let p := vecPlace fmt ag (g.inStep i) rep (w.inHalfBase c r) x
    let n := vecElemBits fmt
    let code := bits (w.spmLE c p.1 9) p.2 n
    let scale := if isMxFmt fmt then w.spmLE c (vecScaleAt g.scaleIn rep g.elems x) 1 else 0
    vecWiden fmt code scale

/-- Write a bit field of scratchpad: the byte range that holds it is read, changed and written. -/
def Work.spmSetBits (w : Work) (c off bit n v : Nat) : Work :=
  let k := (bit + n + 7) / 8
  w.spmWrite c off (leBytes k (setBits (w.spmLE c off k) bit n v))

/-- Write the code of output element x. -/
def Work.vecPut (w : Work) (c : Nat) (g : VecCfg) (r : Running) (rep o x code : Nat) : Work :=
  let fmt := g.outFmt o
  let p := vecPlace fmt (g.outAG o) (g.outStep o) rep (w.outHalfBase c r) x
  let w := w.spmSetBits c p.1 p.2 (vecElemBits fmt) code
  if (fmt = 7 ∨ fmt = 8) ∧ (x + 1) % 320 = 0 then
    w.spmWrite c ((g.outAG o).unit (g.outStep o) rep (w.outHalfBase c r) (x / 320) + 240) (leBytes 16 0)
  else w

/-! ### The walk of a repeat -/

/-- The walk: open spans by stage, elements written by output, values of an open Microscaling block by output. -/
structure VWalk where
  w : Work
  spans : SMap (List VVal)
  done : SMap Nat
  block : SMap (List VVal)
  sat : Sat

/-- Write a Microscaling block: element codes and its scale byte (R139, R211). -/
def VWalk.flush (k : VWalk) (c : Nat) (g : VecCfg) (r : Running) (rep o total : Nat) : VWalk :=
  let vs := SMap.get [] k.block o
  if vs.isEmpty then k
  else
    let x := SMap.get 0 k.done o
    let b := mxBlock (vecMx (g.outFmt o)) (vs.map fun v => (v.num 0, Round.rne))
    let w := (b.2.1.foldl (fun (st : Work × Nat) code => (st.1.vecPut c g r rep o st.2 code, st.2 + 1)) (k.w, x)).1
    let w := w.spmWrite c (vecScaleAt g.scaleOut rep total x) [BitVec.ofNat 8 b.1]
    { k with w := w, done := SMap.set 0 k.done o (x + vs.length), block := SMap.set [] k.block o [], sat := k.sat.plus ⟨0, b.2.2⟩ }

/-- Give one value to an output (R195, R201). `total` is the number of elements the output receives in the repeat. -/
def VWalk.put (k : VWalk) (c : Nat) (g : VecCfg) (r : Running) (rep o total : Nat) (v : VVal) : VWalk :=
  let fmt := g.outFmt o
  if isMxFmt fmt then
    let vs := SMap.get [] k.block o ++ [v]
    let k := { k with block := SMap.set [] k.block o vs }
    if vs.length = 32 then k.flush c g r rep o total else k
  else
    let x := SMap.get 0 k.done o
    let (code, sat) :=
      if isAnchFmt fmt then
        let n := if fmt = 11 then 32 else 64
        let q := v.toInt n 0
        (intBits n q.1, q.2)
      else vecRound (if fmt = 10 then fp32 else mtxFp fmt) .rne (v.num 0)
    { k with w := k.w.vecPut c g r rep o x code, done := SMap.set 0 k.done o (x + 1), sat := k.sat.plus sat }

/-- The stage that feeds an output: the highest-numbered one whose OUT_MASK names it (R200). -/
def VecCfg.feeder (g : VecCfg) (o : Nat) : Option Nat :=
  ((List.range (vecStages g.cmd)).filter fun s => g.sMask s o).getLast?

/-- The outputs that a stage feeds. -/
def VecCfg.feeds (g : VecCfg) (s : Nat) : List Nat := (List.range (g.outCount + 1)).filter fun o => decide (g.feeder o = some s)

/-- The span of a REDUCE stage in a repeat of n elements. -/
def VecCfg.span (g : VecCfg) (s n : Nat) : Nat := if g.sSpanLog s = 15 then n else 2 ^ g.sSpanLog s

/-- One value of each element of a chunk to the outputs of stage s, or to its span. -/
def VWalk.offer (k : VWalk) (c : Nat) (g : VecCfg) (r : Running) (rep n s : Nat) (x : VElem) (v : VVal) : VWalk :=
  if g.sType s = 4 then
    let span := g.span s n
    let vs := SMap.get [] k.spans s ++ [v]
    if (x.ord + 1) % span = 0 ∨ x.ord + 1 = n then
      let q := vecReduce g s vs
      let total := (n + span - 1) / span
      let k := { k with spans := SMap.set [] k.spans s [], sat := k.sat.plus q.2 }
      (g.feeds s).foldl (fun k o => k.put c g r rep o total q.1) k
    else { k with spans := SMap.set [] k.spans s vs }
  else (g.feeds s).foldl (fun k o => k.put c g r rep o n v) k

/-- The results of every stage over a chunk: for each stage the chunk after it. -/
def vecRunStages (g : VecCfg) : Nat → List VElem → List (Nat × List VElem) × Sat
  | 0, _ => ([], .none)
  | n + 1, xs =>
    let s := vecStages g.cmd - (n + 1)
    let r := vecStage g xs s
    let rest := vecRunStages g n r.1
    ((s, r.1) :: rest.1, r.2.plus rest.2)

/-- Draw one 16-bit random value (R134). -/
def Work.drawSr (w : Work) (c : Nat) : Nat × Work :=
  let g := w.seed c
  match g.left with
  | v :: vs => (v, w.setSeed c { g with left := vs })
  | [] =>
    let s := xorshift g.state
    let n := s.toNat
    (n % 65536, w.setSeed c ⟨s, [bits n 16 16, bits n 32 16, bits n 48 16]⟩)

/-- The stages that round stochastically, in order (R135). -/
def VecCfg.srStages (g : VecCfg) : List Nat := (List.range (vecStages g.cmd)).filter fun s => decide (g.sType s = 5) && g.sRnd s

/-- Draw the values of one element. -/
def Work.drawElem (w : Work) (c : Nat) : List Nat → List (Nat × Nat) × Work
  | [] => ([], w)
  | s :: ss =>
    let (v, w) := w.drawSr c
    let (l, w) := w.drawElem c ss
    ((s, v) :: l, w)

/-- Read the elements of a chunk, in ordinal order. -/
def Work.readElems (w : Work) (c : Nat) (g : VecCfg) (r : Running) (rep bank : Nat) (parity : Option Nat) : List Nat → List VElem × Work
  | [] => ([], w)
  | x :: xs =>
    let ins := (List.range (g.inCount + 1)).map (w.vecIn c g r rep bank parity · x)
    let (rands, w) := w.drawElem c g.srStages
    let (l, w) := w.readElems c g r rep bank parity xs
    (⟨x, rep * g.elems + x, ins, .fp 0, .fp 0, .fp 0, rands⟩ :: l, w)

/-- One chunk of elements: read, passed through the stages, offered to the outputs in ordinal order (R193, R215; log entry 10). -/
def VWalk.chunk (k : VWalk) (c : Nat) (g : VecCfg) (r : Running) (rep bank : Nat) (parity : Option Nat) (ords : List Nat) : VWalk :=
  let (xs, w) := k.w.readElems c g r rep bank parity ords
  let (rs, sat) := vecRunStages g (vecStages g.cmd) xs
  let k := { k with w := w, sat := k.sat.plus sat }
  (List.range xs.length).foldl (fun k j =>
    rs.foldl (fun k p => match p.2[j]? with
      | some x => k.offer c g r rep g.elems p.1 x x.chain
      | none => k) k) k

/-- Does a chain work in blocks of 32 elements? -/
def VecCfg.blocks (g : VecCfg) : Bool := (List.range (vecStages g.cmd)).any fun s => decide (g.sType s = 5) && isMxFmt (g.sFmt s)

/-- The chunks of a repeat. -/
def vecChunks (n size : Nat) : List (List Nat) :=
  (List.range ((n + size - 1) / size)).map fun j => (List.range (min size (n - j * size))).map (j * size + ·)

/-- The bits of a last byte that no element received are free values (log entry 3). -/
def VWalk.pad (k : VWalk) (c : Nat) (g : VecCfg) (r : Running) (rep o : Nat) : VWalk :=
  let fmt := g.outFmt o
  let n := SMap.get 0 k.done o
  let used := vecElemBits fmt * (n % vecUnitElems fmt) % 8
  if used = 0 then k
  else
    let p := vecPlace fmt (g.outAG o) (g.outStep o) rep (k.w.outHalfBase c r) n
    let (d, w) := k.w.draw
    { k with w := w.spmSetBits c p.1 used (8 - used) (Config.freeByte d p.1).toNat }

/-- Walk one repeat of a chain. -/
def Work.vecWalk (w : Work) (c : Nat) (g : VecCfg) (r : Running) (rep bank : Nat) (parity : Option Nat) : Work :=
  let n := g.elems
  let k : VWalk := ⟨w, [], [], [], .none⟩
  let k := (vecChunks n (if g.blocks then 32 else 1)).foldl (fun k l => k.chunk c g r rep bank parity l) k
  let outs := List.range (g.outCount + 1)
  let k := outs.foldl (fun k o =>
    match g.feeder o with
    | some s => k.flush c g r rep o (if g.sType s = 4 then (n + g.span s n - 1) / g.span s n else n)
    | none => k) k
  let k := outs.foldl (fun k o => k.pad c g r rep o) k
  let w := k.w.satAdd (Reg.VEC_SAT_ANCHOR c) word32 k.sat.anch
  let w := w.satAdd (Reg.VEC_SAT_FLOAT c) word32 k.sat.flt
  w.bump (Reg.VEC_ELEMS c) n

/-- The configuration of a running command. -/
def Running.vecCfg (r : Running) : VecCfg := ⟨r.cmd, r.words⟩

/-- Has the running repeat of a VEC command walked all its elements? -/
def vecWalked (r : Running) : Bool := decide (0 < r.started) && decide (0 < r.pos)

/-- Has an issued VEC command walked all its repeats (R218)? A NOP walks none. -/
def vecWalkedAll (r : Running) : Bool :=
  decide (cmdOpcode r.cmd = 0) || (r.ready && decide (r.started = cmdRepeat r.cmd) && vecWalked r)

/-- An accumulator element read with a parity error (R189, R213). -/
def Work.vecParity (w : Work) (c bank : Nat) (r : Running) (e : Nat) : Work :=
  let w := w.setFlag (Reg.VEC_ERR_STAT c) Fld.VEC_ERR_STAT_ACC_PARITY true
  let w := w.w32 (Reg.VEC_ERR_INFO c) (BitVec.ofNat 32 (cmdTag r.cmd + 2 ^ 16))
  let tag := ((w.mtx c).bank bank).lastTag
  let w := w.setFlag (Reg.MTX_ERR_STAT c) Fld.MTX_ERR_STAT_ACC_LASTING true
  let w := w.w32 (Reg.MTX_ERR_INFO c) (BitVec.ofNat 32 (tag + bank * 2 ^ 16 + e / 128 * 2 ^ 17 + 2 ^ 24))
  w.cellFault c 0x07 1 tag r.ctx none 0

/-- RUN: the running repeat of the chain walks its operands through its stages (R102, R192–R218). `parity` is an element of the bank read
with a parity error. -/
def execVecRun (core : CoreIx) (parity : Option (Fin 16384)) (s : State) : Host.Outcome State Fault Refusal :=
  run s fun w =>
    match (w.engine core 1).last with
    | some r =>
      if w.coreUp core && decide (cmdOpcode r.cmd = 1) && r.ready && !r.stopped && decide (0 < r.started) && decide (r.pos = 0) then
        let bank := r.bankHeld.getLastD 0
        let bad := if vecAccin r.cmd then parity.map Fin.val else none
        let w := w.vecWalk core r.vecCfg r (r.started - 1) bank bad
        let w := w.updEngine core 1 fun x => x.updLast fun r => { r with pos := r.vecCfg.elems }
        match bad with
        | some e => w.vecParity core bank r e
        | none => w
      else w
    | none => w

/-- The read of the configuration block ends (R197, R219): clean at once, clean when read again, or bad twice. -/
def execVecCfgReadDone (core : CoreIx) (check : ReadCheck) (s : State) : Host.Outcome State Fault Refusal :=
  run s fun w =>
    match (w.engine core 1).last with
    | some r =>
      if w.coreUp core && decide (cmdOpcode r.cmd = 1) && !r.ready && !r.stopped then
        let st := Reg.VEC_ERR_STAT core
        match check with
        | .lasting =>
          let w := w.updEngine core 1 fun x => x.updLast fun r => { r with stopped := true }
          let w := w.setFlag st Fld.VEC_ERR_STAT_CFG_LASTING true
          let w := w.w32 (Reg.VEC_ERR_INFO core) (BitVec.ofNat 32 (cmdTag r.cmd))
          w.cellFault core 0x08 2 (cmdTag r.cmd) r.ctx none 0
        | _ =>
          let base := vecCfgAt r.cmd
          let words := (List.range 80).map fun i => w.spmLE core (base + 4 * i) 4
          let who := match r.ctx with | some x => ClampBy.program x | none => .firmware
          let k : WordsClamp := ⟨w, words, who, fun i => spmAt core (base + 4 * i)⟩
          let k := k.vecBlock r.cmd
          let w := k.work.updEngine core 1 fun x => x.updLast fun r => { r with ready := true, words := k.words }
          if check = .transient then
            w.cellTransient core 0x08 2 (cmdTag r.cmd) r.ctx st Fld.VEC_ERR_STAT_CFG_TRANSIENT Fld.VEC_ERR_STAT_TRANSIENT_CNT 0
          else w
      else w
    | none => w

/-- The last bank read of a repeat returns: the bank becomes empty (R213). -/
def execBankEmpty (core : CoreIx) (s : State) : Host.Outcome State Fault Refusal :=
  run s fun w =>
    match (w.engine core 1).running.find? (fun r => !r.bankHeld.isEmpty) with
    | some r =>
      if w.coreUp core && (decide (1 < r.bankHeld.length) || vecWalked r) then
        let b := r.bankHeld.headD 0
        let w := w.updMtx core fun m => m.setBank b { m.bank b with state := .empty }
        w.updEngine core 1 fun x =>
          { x with running := x.running.map fun q => { q with bankHeld := q.bankHeld.filter (fun y => decide (y ≠ b)) } }
      else w
    | none => w

end Sys2Proof.Machine
end

