-- ==== Sys2Proof/Machine/Coll.lean ====
section
/-! DEFINITION. Collective sets and the arithmetic of collectives (R382–R406): the values of an operation, where its pieces go, conversions,
the store. -/

namespace Sys2Proof.Machine

/-! ### Formats (R389, R402, R403, R405) -/

/-- Bytes of a chunk of e elements (R389). -/
def chunkBytes (fmt e : Nat) : Nat := vecElemBits fmt * e / 8 + (if isMxFmt fmt then e / 32 else 0)

/-- The floating-point format of a code. -/
def colFp (fmt : Nat) : FpFmt := if fmt = 10 then fp32 else mtxFp fmt

/-- Bits of an anchored format. -/
def anchBits (fmt : Nat) : Nat := if fmt = 11 then 32 else 64

/-- One element from one format to another (R402), and whether an anchored conversion clamped or met a NaN. -/
def colConvert (src dst : Nat) (anchor : Int) (code : Nat) : Nat × Bool :=
  if src = dst then (code, false)
  else if isAnchFmt dst then
    if isAnchFmt src then (intBits (anchBits dst) (bitsInt (anchBits src) code), false)
    else
      let r := toAnchored (anchBits dst) anchor ((colFp src).decode code)
      (intBits (anchBits dst) r.1, r.2)
  else
    let x := if isAnchFmt src then ofAnchored anchor (bitsInt (anchBits src) code) else (colFp src).decode code
    ((colFp dst).encode .rne x, false)

/-- The sum of two elements of a reduction format (R403). -/
def colAdd (red a b : Nat) : Nat :=
  if isAnchFmt red then (a + b) % 2 ^ anchBits red else (colFp red).encode .rne (((colFp red).decode a).add ((colFp red).decode b))

/-- Split bytes into n little-endian numbers of k bytes. -/
def splitLE (k : Nat) : Nat → List Byte → List Nat
  | 0, _ => []
  | n + 1, l => leNat (l.take k) :: splitLE k n (l.drop k)

/-- The elements of a chunk or packet in a format without scales. -/
def colElems (fmt : Nat) (bytes : List Byte) : List Nat :=
  let k := vecElemBits fmt / 8
  splitLE k (bytes.length / k) bytes

/-- Elements as bytes. -/
def colBytes (fmt : Nat) (codes : List Nat) : List Byte := codes.flatMap (leBytes (vecElemBits fmt / 8))

/-- Convert a chunk: the bytes, and the conversions that clamped. -/
def colConvertAll (src dst : Nat) (anchor : Int) (bytes : List Byte) : List Byte × Nat :=
  let rs := (colElems src bytes).map (colConvert src dst anchor)
  (colBytes dst (rs.map Prod.fst), (rs.filter Prod.snd).length)

/-- Add two packets of a reduction format. -/
def colAddAll (red : Nat) (a b : List Byte) : List Byte :=
  colBytes red ((colElems red a).zipWith (colAdd red) (colElems red b))

/-- Glaze: widen a chunk of e elements to BF16 (R405). -/
def glaze (fmt e : Nat) (bytes : List Byte) : List Byte :=
  let scales := if isMxFmt fmt then e / 32 else 0
  let body := leNat (bytes.drop scales)
  let n := vecElemBits fmt
  let value (i : Nat) : Num :=
    let code := bits body (n * i) n
    if isMxFmt fmt then mxValue (vecMx fmt) ((bytes.getD (i / 32) 0).toNat) code else (mtxFp fmt).decode code
  colBytes 0 ((List.range e).map fun i => bf16.encode .rne (value i))

/-! ### The values of an operation (R384–R391) -/

/-- Group length L. -/
def ColSet.len (p : ColSet) : Nat := p.lm1 + 1

/-- Does a broadcast run on a line? A group of one chip is neither line nor ring (R392). -/
def ColSet.isLine (p : ColSet) : Bool := !p.wrap && decide (p.lm1 ≠ 0)

/-- Rings used (R391). -/
def ColSet.rings (p : ColSet) : Nat :=
  if p.kind = 3 ∨ p.kind = 5 ∨ p.kind = 6 then 1 else if p.kind = 4 ∧ p.isLine then 1 else if p.dir = 0 then 2 else 1

/-- The ring of repeat rep of a ring kind. -/
def ColSet.ringOf (p : ColSet) (rep : Nat) : Nat :=
  if p.rings = 2 then rep % 2 else if p.dir = 2 ∧ ¬ (p.kind = 4 ∧ p.isLine) then 1 else 0

/-- The number that REPEAT is a multiple of (R391). -/
def ColSet.unit (p : ColSet) : Nat :=
  match p.kind with
  | 0 => p.rings * p.len | 1 => p.rings * p.len | 2 => p.rings | 3 => p.len | 4 => p.rings | _ => 1

/-- Chunks per block K. -/
def ColSet.chunks (p : ColSet) : Nat := p.repeats / p.unit

/-- Result pieces of the whole operation (R391). -/
def ColSet.total (p : ColSet) : Nat :=
  match p.kind with
  | 0 => p.repeats | 1 => p.repeats / p.len | 2 => p.repeats * p.len | 5 => 1 | _ => p.repeats

/-- Does the kind reduce? -/
def ColSet.reduces (p : ColSet) : Bool := decide (p.kind ≤ 1)

/-- Does this member supply data (R388)? -/
def ColSet.supplies (p : ColSet) : Bool := decide (p.kind ≠ 5) && (decide (p.kind ≠ 4) || decide (p.pos = p.root))

/-- Format on the wire and in the store. -/
def ColSet.wireFmt (p : ColSet) : Nat := if p.reduces then p.red else p.src

/-- Packets of a piece (R406). -/
def ColSet.packets (p : ColSet) : Nat := (chunkBytes p.wireFmt p.elems + 4095) / 4096

/-- WEDGE destination of a source position. -/
def ColSet.permAt (p : ColSet) (s : Nat) : Nat := p.perm / 16 ^ s % 16

/-- The position that sends its shard to this chip. -/
def ColSet.permFrom (p : ColSet) : Nat := ((List.range p.len).find? fun s => decide (p.permAt s = p.pos)).getD p.pos

/-- The block of contribution step q (R393). -/
def ColSet.beta (p : ColSet) (ring q : Nat) : Nat := if ring = 0 then (p.pos + 2 * p.len - 1 - q) % p.len else (p.pos + 1 + q) % p.len

/-- The next position on a ring, and the one before. -/
def ColSet.next (p : ColSet) (ring : Nat) : Nat := if ring = 0 then (p.pos + 1) % p.len else (p.pos + p.lm1) % p.len
def ColSet.prev (p : ColSet) (ring : Nat) : Nat := if ring = 0 then (p.pos + p.lm1) % p.len else (p.pos + 1) % p.len

/-- The port, 0 for LD(2a) and 1 for LD(2a + 1), by which a ring leaves this chip (R385, R401), and by which it arrives. -/
def ColSet.sends (p : ColSet) (ring : Nat) : Nat :=
  if ring = 0 then (if p.wrap ∨ p.pos < p.lm1 then 0 else 1) else (if p.wrap ∨ 0 < p.pos then 1 else 0)
def ColSet.arrives (p : ColSet) (ring : Nat) : Nat :=
  if ring = 0 then (if p.wrap ∨ 0 < p.pos then 1 else 0) else (if p.wrap ∨ p.pos < p.lm1 then 0 else 1)

/-- Does a direct piece from position s to position d travel in the plus direction (R398)? -/
def ColSet.goesPlus (p : ColSet) (s d : Nat) : Bool :=
  if p.wrap then
    let f := (d + p.len - s) % p.len
    let b := p.len - f
    decide (f < b) || (decide (f = b) && decide (s % 2 = 0))
  else decide (s < d)

/-- Index of a result piece (R394). -/
def ColSet.resultIndex (p : ColSet) (x : Piece) : Nat :=
  let h := if p.rings = 2 then x.ring else 0
  let k := p.chunks
  match p.kind with
  | 0 => h * p.len * k + x.block * k + x.chunk
  | 2 => h * p.len * k + x.block * k + x.chunk
  | 1 => h * k + x.chunk
  | 3 => x.block * k + x.chunk
  | 4 => if p.rings = 2 then 2 * x.chunk + h else x.chunk
  | _ => x.chunk

/-- Does a piece that arrived go on to the next chip (R395–R399)? -/
def ColSet.forwards (p : ColSet) (x : Piece) : Bool :=
  match p.kind with
  | 0 => decide (x.step < 2 * p.lm1)
  | 1 => decide (x.step < p.lm1)
  | 2 => decide (x.step < p.lm1)
  | 4 => if p.isLine then (if x.ring = 0 then decide (p.pos < p.lm1) else decide (0 < p.pos)) else decide (x.step < p.lm1)
  | _ => false

/-- Does an arriving piece meet a contribution (R395)? -/
def ColSet.meets (p : ColSet) (x : Piece) : Bool := p.reduces && decide (x.step ≤ p.lm1)

/-- A piece that a contribution puts into the store: the port (0 or 1) whose die takes it, whether it waits for an arrival, and the position it
goes to. -/
structure Supply where
  port : Nat
  piece : Piece
  waits : Bool
  dest : Nat
deriving DecidableEq, Repr

/-- What repeat rep of a COLL supplies: pieces for the store, and a chunk written as a result piece at once (R391–R399). -/
def ColSet.supply (p : ColSet) (rep : Nat) : List Supply × Option (Nat × Piece) :=
  let h := p.ringOf rep
  let m := if p.rings = 2 then rep / 2 else rep
  let direct (d j : Nat) : List Supply × Option (Nat × Piece) :=
    if d = p.pos then ([], some (0, ⟨0, 0, p.pos, j⟩))
    else
      let out := if p.goesPlus p.pos d then 0 else 1
      ([⟨out, ⟨out, 1, p.pos, j⟩, false, d⟩], none)
  if p.lm1 = 0 then ([], some (0, ⟨h, 0, 0, m⟩))
  else match p.kind with
    | 2 => ([⟨p.sends h, ⟨h, 1, p.pos, m⟩, false, p.next h⟩], some (p.sends h, ⟨h, 0, p.pos, m⟩))
    | 3 => direct (m % p.len) (m / p.len)
    | 4 =>
      if p.isLine then
        let up : List Supply := if p.pos < p.lm1 then [⟨0, ⟨0, 1, p.root, m⟩, false, p.pos + 1⟩] else []
        let down : List Supply := if 0 < p.pos then [⟨1, ⟨1, 1, p.root, m⟩, false, p.pos - 1⟩] else []
        (up ++ down, some (if p.pos < p.lm1 then 0 else 1, ⟨0, 0, p.root, m⟩))
      else ([⟨p.sends h, ⟨h, 1, p.root, m⟩, false, p.next h⟩], some (p.sends h, ⟨h, 0, p.root, m⟩))
    | 6 => direct (p.permAt p.pos) m
    | _ =>
      let q := m % p.len
      let j := m / p.len
      if q = 0 then ([⟨p.sends h, ⟨h, 1, p.beta h 0, j⟩, false, p.next h⟩], none)
      else ([⟨p.arrives h, ⟨h, q, p.beta h q, j⟩, true, p.pos⟩], none)

/-- A stream of pieces that an operation receives: its number, the port they arrive by, all but the chunk of their names, and the position
that sends them. -/
structure ColStream where
  key : Nat
  port : Nat
  ring : Nat
  step : Nat
  block : Nat
  sender : Nat
deriving DecidableEq, Repr

/-- The streams of pieces that this member receives (R395–R399). -/
def ColSet.streams (p : ColSet) : List ColStream :=
  let rings := if p.rings = 2 then [0, 1] else [p.ringOf 0]
  let ring (h s b : Nat) : ColStream := ⟨32 * h + s, p.arrives h, h, s, b, p.prev h⟩
  let direct (s : Nat) : ColStream :=
    let plus := p.goesPlus s p.pos
    ⟨64 + s, if plus then 1 else 0, if plus then 0 else 1, 1, s, s⟩
  let back (h n : Nat) : Nat := if h = 0 then (p.pos + 2 * p.len - n) % p.len else (p.pos + n) % p.len
  if p.lm1 = 0 then []
  else match p.kind with
    | 0 => rings.flatMap fun h => (List.range (2 * p.lm1)).map fun i =>
        if i < p.lm1 then ring h (i + 1) (p.beta h (i + 1)) else ring h (i + 1) (back h (1 + (i + 1 - p.len)))
    | 1 => rings.flatMap fun h => (List.range p.lm1).map fun i => ring h (i + 1) (p.beta h (i + 1))
    | 2 => rings.flatMap fun h => (List.range p.lm1).map fun i => ring h (i + 1) (back h (i + 1))
    | 3 => ((List.range p.len).filter fun s => decide (s ≠ p.pos)).map direct
    | 4 =>
      if p.pos = p.root then []
      else if p.isLine then
        if p.root < p.pos then [⟨p.pos - p.root, 1, 0, p.pos - p.root, p.root, p.pos - 1⟩]
        else [⟨32 + (p.root - p.pos), 0, 1, p.root - p.pos, p.root, p.pos + 1⟩]
      else rings.map fun h =>
        ring h (if h = 0 then (p.pos + p.len - p.root) % p.len else (p.root + p.len - p.pos) % p.len) p.root
    | 6 => if p.permFrom = p.pos then [] else [direct p.permFrom]
    | _ => []

/-- Children of a position in the barrier tree (R400). -/
def barrierChildren (len p : Nat) : List Nat :=
  (List.range 4).filterMap fun k =>
    if p % 2 ^ (k + 1) = 0 ∧ p + 2 ^ k < len then some (p + 2 ^ k) else none

/-- Parent of a position in the barrier tree. -/
def barrierParent (p : Nat) : Nat :=
  match (List.range 4).find? fun k => decide (p / 2 ^ k % 2 = 1) with
  | some k => p - 2 ^ k
  | none => 0

/-! ### Set entries (R383, R390) -/

/-- The words of a set entry that R383 copies, from the base of the entry. -/
def setOffsets : List Nat := [0, 4, 8, 12, 16, 20]

/-- Is an operation open on a set of an axis? -/
def Work.setOpen (w : Work) (a n : Nat) : Bool := w.hw.colOps.any fun o => decide (o.axis = a) && decide (o.set = n)

/-- A joined constraint of R390: a field of a set entry takes a value. -/
def Work.setTakes (w : Work) (addr : Nat) (f : Fld) (v : Nat) (rule : ClampRule) : Work :=
  if w.fld addr f = v then w else (w.setFld addr f v).clamp .firmware addr 0 f.lsb rule

/-- The PERM entries of a group (R390): within the group, and each value once. -/
def permClamp (lm1 perm : Nat) : List Nat :=
  let start := (List.range (lm1 + 1)).map fun s => min (perm / 16 ^ s % 16) lm1
  (List.range (lm1 + 1)).foldl (fun l s =>
    if (l.take s).contains (l.getD s 0) then l.set s (((List.range (lm1 + 1)).find? fun x => !l.contains x).getD 0) else l) start

/-- The joined constraints 1 to 5 of R390 on the entry of set n in LD(2a). -/
def Work.setConstraints (w : Work) (a n : Nat) : Work :=
  let c0 := Reg.COL_SET_CFG0 (2 * a) n
  let c1 := Reg.COL_SET_CFG1 (2 * a) n
  let pm := Reg.COL_SET_PERM (2 * a) n
  let lm1 := w.fld c0 Fld.COL_SET_CFG0_L_M1
  let w := w.setTakes c0 Fld.COL_SET_CFG0_POS (min (w.fld c0 Fld.COL_SET_CFG0_POS) lm1) .joined
  let w := w.setTakes c0 Fld.COL_SET_CFG0_ROOT (min (w.fld c0 Fld.COL_SET_CFG0_ROOT) lm1) .joined
  let kind := w.fld c0 Fld.COL_SET_CFG0_KIND
  let src := w.fld c1 Fld.COL_SET_CFG1_SRC_FMT
  let dep := w.fld c1 Fld.COL_SET_CFG1_DEP_FMT
  let red := w.fld c1 Fld.COL_SET_CFG1_RED_FMT
  let w := if kind ≤ 1 then
      (w.setTakes c1 Fld.COL_SET_CFG1_SRC_FMT ((Legal.codes [0, 1, 10, 11, 12]).apply src).1 .joined).setTakes c1
        Fld.COL_SET_CFG1_DEP_FMT ((Legal.codes [0, 10, 11, 12]).apply dep).1 .joined
    else if kind ≠ 5 then
      if dep = src ∨ (dep = 0 ∧ 2 ≤ src ∧ src ≤ 9) then w else w.setTakes c1 Fld.COL_SET_CFG1_DEP_FMT src .joined
    else w
  let anch := anchorClamp (if red = 12 ∨ dep = 12 then .a64 else .a32) (w.fld c1 Fld.COL_SET_CFG1_ANCHOR)
  let w := w.setTakes c1 Fld.COL_SET_CFG1_ANCHOR anch.1 .range
  let widest := ([w.fld c1 Fld.COL_SET_CFG1_SRC_FMT, red, w.fld c1 Fld.COL_SET_CFG1_DEP_FMT].map fun f => chunkBytes f 1024).foldl max 1
  let w := w.setTakes c1 Fld.COL_SET_CFG1_CHUNK_M1 (min (w.fld c1 Fld.COL_SET_CFG1_CHUNK_M1) (131072 / widest - 1)) .joined
  let perm := permClamp lm1 (w.r64 pm).toNat
  w.forEach (List.range (lm1 + 1)) fun w s => w.setTakes (pm + s / 8 * 4) ⟨4 * (s % 8), 4⟩ (perm.getD s 0) .joined

/-- The entry of set n takes effect: its constraints are met and it is copied to LD(2a + 1). -/
def Work.setTakesEffect (w : Work) (a n : Nat) : Work :=
  let c0 := Reg.COL_SET_CFG0 (2 * a) n
  let w := if w.flag c0 Fld.COL_SET_CFG0_VALID then w.setConstraints a n else w
  w.forEach setOffsets fun w o => w.w32 (Reg.COL_SET_CFG0 (2 * a + 1) n + o) (w.r32 (c0 + o))

/-- A write `store` to the entry of set n in LD(2a): it takes effect when no lane holds an open operation on the set (R383). -/
def Work.colSetWrite (w : Work) (a n : Nat) (store : Work → Work) : Work :=
  let c0 := Reg.COL_SET_CFG0 (2 * a) n
  let addrs := setOffsets.map (c0 + ·)
  let before := addrs.map w.r32
  let w := w.forEach addrs fun w x => match SMap.find? w.hw.setWrites x with | some v => w.w32 x v | none => w
  let w := store w
  if w.setOpen a n then
    let held := (addrs.zip before).foldl
      (fun m x => if w.r32 x.1 = x.2 then SMap.del m x.1 else SMap.put m x.1 (w.r32 x.1)) w.hw.setWrites
    let w := { w with hw := { w.hw with setWrites := held } }
    w.forEach (addrs.zip before) fun w x => w.w32 x.1 x.2
  else
    let w := w.setTakesEffect a n
    { w with hw := { w.hw with setWrites := addrs.foldl SMap.del w.hw.setWrites } }

/-- The set whose entry in LD(2a) holds a register address that R383 copies: the axis and the set. -/
def setEntryAt (addr : Nat) : Option (Nat × Nat) :=
  let d := csrDie addr
  let off := (addr - 0x3F0000000000) % 0x100000000
  if isCsr addr ∧ 16 ≤ d ∧ d < 24 ∧ d % 2 = 0 ∧ 0x1010000 ≤ off ∧ off < 0x1012000 ∧ off % 32 < 24 then
    some ((d - 16) / 2, (off - 0x1010000) / 32)
  else none

/-- COL_SET_WRITE: a write to the entry of a set in LD(2a). -/
def execColSetWrite (master : Master) (axis : Fin 4) (set : Fin 256) (off : Fin 24) (width : AccWidth) (enables : BitVec 8) (data : DWord)
    (s : State) : Host.Outcome State Fault Refusal :=
  run s fun w =>
    w.colSetWrite axis set fun w =>
      w.regWrite master (Reg.COL_SET_CFG0 (2 * axis.val) set + off.val) width enables.toNat data.toNat

/-- COL_SET_APPLY: a written entry takes effect once no lane holds an open operation on its set. -/
def execColSetApply (axis : Fin 4) (set : Fin 256) (s : State) : Host.Outcome State Fault Refusal :=
  run s fun w =>
    if setOffsets.any (fun o => (SMap.find? w.hw.setWrites (Reg.COL_SET_CFG0 (2 * axis.val) set + o)).isSome) && !w.setOpen axis set then
      w.colSetWrite axis set id
    else w

end Sys2Proof.Machine
end

