-- ==== Sys2Proof/Machine/Col.lean ====
section
/-! DEFINITION. Collective operations (R386–R417): opening, chunks, pieces, credits, barriers, the watchdog. -/

namespace Sys2Proof.Machine

/-! ### Operations and packets -/

/-- The open operation of an axis, set, lane and sequence. -/
def Work.colOp? (w : Work) (axis set lane seq : Nat) : Option ColOp :=
  w.hw.colOps.find? fun o => decide (o.axis = axis) && decide (o.set = set) && decide (o.lane = lane) && decide (o.seq = seq)

/-- Do two values name one operation? -/
def ColOp.same (a b : ColOp) : Bool :=
  decide (a.axis = b.axis) && decide (a.set = b.set) && decide (a.lane = b.lane) && decide (a.seq = b.seq)

/-- Replace an operation. -/
def Work.setColOp (w : Work) (o : ColOp) : Work :=
  { w with hw := { w.hw with colOps := w.hw.colOps.map fun x => if x.same o then o else x } }

/-- Logical node ID of position q of an operation's group (R385; log entry 27). -/
def Work.colNode (w : Work) (o : ColOp) (q : Nat) : Nat :=
  let here := coord w.selfNode o.axis
  w.selfNode - here * 16 ^ o.axis + (here + 16 + q - o.par.pos) % 16 * 16 ^ o.axis

/-- A collective packet of an operation (R437, R439): `p` is 0 for the port of LD(2a), 1 for that of LD(2a + 1). -/
def Work.colPkt (w : Work) (o : ColOp) (ptype vc dest : Nat) (x : Piece) (pkt w7 : Nat) (data : List Byte) : Pkt :=
  { Pkt.blank ptype vc (w.colNode o dest) w.selfNode with
    gen := w.hw.genChip
    ctx := some o.ctx
    core := o.lane
    master := 4
    tag := o.tag
    w4 := o.set + o.lane * 2 ^ 8 + o.seq * 2 ^ 16 + x.step % 32 * 2 ^ 24 + x.ring % 2 * 2 ^ 29
    w5 := o.par.kind + o.par.dir * 2 ^ 4 + o.par.lm1 * 2 ^ 6 + x.block % 16 * 2 ^ 10 + o.par.anchor * 2 ^ 14 + pkt % 32 * 2 ^ 23
    w6 := o.par.repeats + x.chunk % 65536 * 2 ^ 16
    w7 := w7
    data := data }

/-- Send a collective packet by port `port` of the chip (R462, R463). -/
def Work.colSend (w : Work) (port : Nat) (pkt : Pkt) : Work :=
  if w.flag (Reg.RTE_CTRL 0) Fld.RTE_CTRL_EN then (w.sendOut none (16 + port) port none pkt).1 else (w.noRoute none pkt).1

/-- The piece that a collective packet belongs to. -/
def Pkt.piece (k : Pkt) : Piece := ⟨bits k.w4 29 1, bits k.w4 24 5, bits k.w5 10 4, bits k.w6 16 16⟩

/-- Does a packet carry the values of an operation (R414)? -/
def Pkt.agrees (k : Pkt) (o : ColOp) : Bool :=
  decide (bits k.w5 0 4 = o.par.kind) && decide (bits k.w5 4 2 = o.par.dir) && decide (bits k.w5 6 4 = o.par.lm1) &&
    decide (bits k.w6 0 16 = o.par.repeats) && decide (bits k.w5 14 9 = o.par.anchor)

/-! ### The store (R406) -/

/-- Granules that a lane uses in a die, those kept for a piece included. -/
def Work.storeUsed (w : Work) (die lane : Nat) : Nat :=
  ((w.hw.colOps.filter fun o => decide (o.lane = lane)).map fun o =>
    (o.granules.filter fun g => decide (g.die = die)).length + ((o.reserves.filter fun r => decide (r.die = die)).map Reserve.left).sum).sum

/-- Is there room in a die's store for n more granules of a lane: its reservation first, then the shared part? -/
def Work.storeRoom (w : Work) (die lane n : Nat) : Bool :=
  let lanes := (w.hw.colOps.map ColOp.lane ++ [lane]).dedup
  decide ((lanes.map fun l => w.storeUsed die l + (if l = lane then n else 0) - 32).sum ≤ 4096)

/-- Granules in use in a die's store (COL_STORE.USED). -/
def Work.storeGranules (w : Work) (die : Nat) : Nat :=
  (w.hw.colOps.map fun o => (o.granules.filter fun g => decide (g.die = die)).length).sum

/-- Refresh COL_STORE.HIGH. -/
def Work.storeHigh (w : Work) (die : Nat) : Work :=
  let a := Reg.COL_STORE die
  w.setFld a Fld.COL_STORE_HIGH (max (w.fld a Fld.COL_STORE_HIGH) (w.storeGranules die))

/-- Cut bytes into packets of at most 4,096 bytes, numbered from k. -/
def cutPackets : Nat → Nat → List Byte → List (Nat × List Byte)
  | 0, _, _ => []
  | n + 1, k, l => if l.isEmpty then [] else (k, l.take 4096) :: cutPackets n (k + 1) (l.drop 4096)

/-- The granules of a piece. -/
def pieceGranules (die dest : Nat) (x : Piece) (waits : Bool) (bytes : List Byte) : List Granule :=
  (cutPackets 32 0 bytes).map fun p => ⟨die, x, p.1, waits, dest, p.2⟩

/-! ### Results (R394, R402, R405) -/

/-- The add to RSIG that announces a result: a sync write of the die's receive path for the operation's context. -/
def Work.colSignal (w : Work) (o : ColOp) (die : Nat) : Work :=
  let c := globalSlot o.lane
  let a := Reg.SYN_OBJ c o.par.rsig
  let (i, w) := w.addReq { Req.make (.unit (16 + die) 10) (.sync (.atomic 1) 1 0) (some o.ctx) w.selfNode a w.hw.uptime 0 0 with
    isDpa := true, dpa := a, stage := .atSync }
  match w.req? i with
  | some q => w.syncArrive i q (.obj c o.par.rsig) false
  | none => w

/-- Count the anchored conversions of a set at a die that clamped. -/
def Work.colSat (w : Work) (o : ColOp) (die n : Nat) : Work := w.satAdd (Reg.COL_SET_SAT die o.set) word32 n

/-- Write a result piece, given in the format of the wire: converted or widened, then announced. -/
def Work.colDeposit (w : Work) (o : ColOp) (die : Nat) (x : Piece) (bytes : List Byte) : Work × ColOp :=
  let p := o.par
  let from_ := p.wireFmt
  let glazed := !p.reduces && decide (2 ≤ from_) && decide (from_ ≤ 9) && decide (p.dep = 0)
  let (out, sat) := if glazed then (glaze from_ p.elems bytes, 0)
    else if from_ = p.dep ∨ !p.reduces then (bytes, 0) else colConvertAll from_ p.dep (signed 9 p.anchor) bytes
  let at_ := p.base + p.resultIndex x * chunkBytes p.dep p.elems
  let w := (w.spmWrite (globalSlot o.lane) at_ out).bump (Reg.COL_DEPOSITS die) 1
  let w := w.digest (Reg.DET_DIG_C o.lane) (some o.ctx) true (out.zipIdx.map fun b => ((at_ + b.2) % 2 ^ 24, b.1))
  let w := if glazed then w.bump (Reg.COL_GLAZE_ELEMS die) p.elems else w
  ((w.colSat o die sat).colSignal o die, { o with written := o.written + 1 })

/-! ### Barriers (R400) -/

/-- Send a barrier message to another position: down the tree by the plus port, up by the minus port. -/
def Work.barrierSend (w : Work) (o : ColOp) (dest : Nat) (release : Bool) : Work :=
  w.colSend (if o.par.pos < dest then 2 * o.axis else 2 * o.axis + 1)
    (w.colPkt o 9 1 dest ⟨0, 0, 0, 0⟩ 0 (if release then 2 ^ 8 else 0) [])

/-- A position is released: it counts the barrier and releases its children. -/
def Work.barrierRelease (w : Work) (o : ColOp) (die : Nat) : Work × ColOp :=
  let w := w.colSignal o die
  (w.forEach (barrierChildren o.par.len o.par.pos) fun w q => w.barrierSend o q true, { o with written := 1 })

/-- A position arrives once its lane has issued the COLL and every child has arrived. -/
def Work.barrierCheck (w : Work) (o : ColOp) : Work × ColOp :=
  if o.par.kind = 5 ∧ !o.arrived ∧ (barrierChildren o.par.len o.par.pos).all o.children.contains then
    let o := { o with arrived := true }
    if o.par.pos = 0 ∨ o.par.lm1 = 0 then w.barrierRelease o (2 * o.axis)
    else (w.barrierSend o (barrierParent o.par.pos) false, o)
  else (w, o)

/-! ### Credit (R407) -/

/-- Grant credit for the next piece of a stream when the rules allow it: at most one piece of a stream is awaited (log entry 28). -/
def Work.grantOne (w : Work) (o : ColOp) (t : ColStream) : Work × ColOp :=
  let j := SMap.get 0 o.granted t.key
  let x : Piece := ⟨t.ring, t.step, t.block, j⟩
  let die := 2 * o.axis + t.port
  let open_ := decide (j < o.par.chunks) && !o.awaited.any (fun y => decide (y.ring = t.ring ∧ y.step = t.step ∧ y.block = t.block))
  let met := !o.par.meets x || o.granules.any (fun g => decide (g.die = die) && g.waits && decide (g.piece = x))
  let own := decide (o.par.kind ≠ 6) || decide (j < o.accepted)
  let stores := o.par.forwards x && !o.par.meets x
  if open_ && met && own && (!stores || w.storeRoom die o.lane o.par.packets) then
    let o := { o with
      granted := SMap.put o.granted t.key (j + 1)
      awaited := o.awaited ++ [x]
      reserves := if stores then o.reserves ++ [⟨die, x, o.par.packets⟩] else o.reserves }
    ((w.setColOp o).colSend die (w.colPkt o 8 1 t.sender x 0 1 []), o)
  else (w, o)

/-- Grant what an operation may grant now. -/
def Work.grantAll (w : Work) (o : ColOp) : Work :=
  (o.par.streams.foldl (fun (k : Work × ColOp) t => k.1.grantOne k.2 t) (w, o)).1

/-- Has an operation nothing left to do (R411)? -/
def ColOp.finished (o : ColOp) : Bool :=
  decide (o.written = o.par.total) && decide (o.accepted = o.par.repeats) && o.granules.isEmpty && o.reserves.isEmpty

/-- What follows every change of the operations of an axis: credit is granted, finished operations close. -/
def Work.colSettle (w : Work) (axis : Nat) : Work :=
  let w := w.forEach (w.hw.colOps.filter fun o => decide (o.axis = axis)) fun w o => w.grantAll o
  let w := (w.storeHigh (2 * axis)).storeHigh (2 * axis + 1)
  { w with hw := { w.hw with colOps := w.hw.colOps.filter fun o => !o.finished } }

/-! ### Failure (R413–R415) -/

/-- Fault and COL_ERR_STAT bit of an operation that ends as failed: 0 store, 1 watchdog, 2 mismatch. -/
def Work.colFail (w : Work) (o : ColOp) (die kind wait : Nat) : Work :=
  let bit := if kind = 0 then Fld.COL_ERR_STAT_STORE_LASTING else if kind = 1 then Fld.COL_ERR_STAT_WDOG else Fld.COL_ERR_STAT_MISMATCH
  let code := if kind = 0 then 0x1D else if kind = 1 then 0x1A else 0x1B
  let w := (w.colError die o.set o.ctx o.lane kind wait o.seq o.step o.tag bit).colDrop o
  (w.fault (colFault w die code o.axis o.set o.ctx o.lane o.tag)).colSettle o.axis

/-- What an operation waits for (COL_ERR_INFO.WAIT). -/
def ColOp.waitsFor (o : ColOp) : Nat :=
  if o.par.kind = 5 then 4 else if o.accepted < o.par.repeats then 1 else if o.granules.any fun g => !g.waits then 3 else 2

/-- COL_WATCHDOG: an operation has been idle for LIMIT ms at a die. -/
def execColWatchdog (die : LinkIx) (set lane : Fin 256) (s : State) : Host.Outcome State Fault Refusal :=
  run s fun w =>
    match w.hw.colOps.find? fun o => decide (o.axis = die.val / 2) && decide (o.set = set.val) && decide (o.lane = lane.val) with
    | some o => w.colFail o die 1 o.waitsFor
    | none => w

/-! ### Opening (R386, R387, R415) -/

def collSet (c : CmdBits) : Nat := cmdFld c 6 0 8
def collAxis (c : CmdBits) : Nat := cmdFld c 6 8 2
def collGran (c : CmdBits) : Nat := cmdFld c 6 10 8
def collAnchorEn (c : CmdBits) : Bool := decide (cmdFld c 6 18 1 = 1)
def collAnchor (c : CmdBits) : Nat := cmdFld c 6 19 9

/-- The values of the operation that a COLL opens. -/
def Work.colSetOf (w : Work) (cmd : CmdBits) : ColSet :=
  let d := 2 * collAxis cmd
  let c0 := Reg.COL_SET_CFG0 d (collSet cmd)
  let c1 := Reg.COL_SET_CFG1 d (collSet cmd)
  let anchor := if collAnchorEn cmd then collAnchor cmd else w.fld c1 Fld.COL_SET_CFG1_ANCHOR
  { kind := w.fld c0 Fld.COL_SET_CFG0_KIND
    dir := w.fld c0 Fld.COL_SET_CFG0_DIR
    bulk := w.flag c0 Fld.COL_SET_CFG0_CLASS
    lm1 := w.fld c0 Fld.COL_SET_CFG0_L_M1
    pos := w.fld c0 Fld.COL_SET_CFG0_POS
    wrap := w.flag c0 Fld.COL_SET_CFG0_WRAP
    root := w.fld c0 Fld.COL_SET_CFG0_ROOT
    src := w.fld c1 Fld.COL_SET_CFG1_SRC_FMT
    red := w.detRedFmt (w.fld c0 Fld.COL_SET_CFG0_KIND) (w.fld c1 Fld.COL_SET_CFG1_RED_FMT)
    dep := w.fld c1 Fld.COL_SET_CFG1_DEP_FMT
    anchor := anchor
    elems := 1024 * (w.fld c1 Fld.COL_SET_CFG1_CHUNK_M1 + 1)
    base := (w.fld (Reg.COL_SET_CFG2 d (collSet cmd)) Fld.COL_SET_CFG2_RBASE + 65536 * collGran cmd) % 2 ^ 24
    rsig := w.fld (Reg.COL_SET_CFG3 d (collSet cmd)) Fld.COL_SET_CFG3_RSIG
    perm := (w.r64 (Reg.COL_SET_PERM d (collSet cmd))).toNat
    repeats := cmdRepeat cmd }

/-- Clamp the fields of a COLL that depend on its set: the anchor (R386) and REPEAT (item 6 of R390). -/
def clampColl (k : Clamping) (p : ColSet) : Clamping :=
  let k := if collAnchorEn k.cmd then
      k.field 6 19 9 (anchorClamp (if p.red = 12 ∨ p.dep = 12 then .a64 else .a32))
    else k
  if p.kind = 5 then k.field 1 16 16 (takes 1 .joined)
  else k.field 1 16 16 (fun v => if v % p.unit = 0 then (v, none) else (max (v / p.unit * p.unit) p.unit, some .joined))

/-- The position of a node on an operation's axis. -/
def Work.colPosOf (w : Work) (o : ColOp) (node : Nat) : Nat := (coord node o.axis + 32 + o.par.pos - coord w.selfNode o.axis) % 16

/-- A BARRIER or CREDIT message for an open operation. -/
def Work.colMessage (w : Work) (o : ColOp) (port : Nat) (k : Pkt) : Work :=
  if k.ptype = 8 then
    let x := k.piece
    let n := max 1 (bits k.w7 0 8)
    w.setColOp { o with credits := o.credits ++ (List.range n).map fun i => { x with chunk := x.chunk + i } }
  else if !k.agrees o then w.colFail o port 2 0
  else
    let r := if bits k.w7 8 1 = 1 then (if o.written = 0 then w.barrierRelease o port else (w, o))
      else w.barrierCheck { o with children := w.colPosOf o k.src :: o.children }
    r.1.setColOp r.2

/-- Messages that came before the local COLL (R400, R407). -/
def Work.takeEarly (w : Work) (o : ColOp) : Work :=
  let mine (e : EarlyMsg) : Bool :=
    decide (e.axis = o.axis) && decide (bits e.pkt.w4 0 8 = o.set) && decide (bits e.pkt.w4 8 8 = o.lane) && decide (bits e.pkt.w4 16 8 = o.seq)
  let l := w.hw.colEarly.filter mine
  let w := { w with hw := { w.hw with colEarly := w.hw.colEarly.filter fun e => !mine e } }
  w.forEach l fun w e => match w.colOp? o.axis o.set o.lane o.seq with
    | some o => w.colMessage o e.port e.pkt
    | none => w

/-- A COLL that is not performed accepts its chunks and discards them (R415). -/
def Work.colReject (w : Work) (c s : Nat) (r : Running) : Work :=
  let lane := coreGlobal c
  let d := 2 * collAxis r.cmd
  let w := w.updEngine c (2 + s) fun x => x.updLast fun r => { r with ready := true, words := [0] }
  let w := w.colError d (collSet r.cmd) (r.ctx.getD 0) lane 3 0 0 0 (cmdTag r.cmd) Fld.COL_ERR_STAT_REJECT
  w.fault { colFault w d 0x1C (collAxis r.cmd) (collSet r.cmd) 0 lane (cmdTag r.cmd) with ctx := r.ctx }

/-- A COLL opens the next operation of its set in its lane (R387, R411). -/
def Work.colOpen (w : Work) (c s : Nat) (r : Running) : Work :=
  let who := match r.ctx with | some x => ClampBy.program x | none => .firmware
  let k := clampColl ⟨w, r.cmd, who, r.src⟩ (w.colSetOf r.cmd)
  let w := k.work
  let key := colKey (collAxis k.cmd) (collSet k.cmd) (coreGlobal c)
  let seq := SMap.get 0 w.hw.colSeq key
  let o : ColOp :=
    { axis := collAxis k.cmd, set := collSet k.cmd, lane := coreGlobal c, seq := seq, ctx := r.ctx.getD 0, tag := cmdTag k.cmd
      par := w.colSetOf k.cmd, accepted := 0, written := 0, step := 0, granules := [], deposits := [], reserves := [], granted := []
      awaited := [], credits := [], children := [], arrived := false }
  let w := { w with hw := { w.hw with
    colSeq := SMap.set 0 w.hw.colSeq key ((seq + 1) % 256)
    colFailed := w.hw.colFailed.filter fun x => decide (x ≠ key)
    colOps := w.hw.colOps ++ [o] } }
  let w := w.updEngine c (2 + s) fun x => x.updLast fun r => { r with cmd := k.cmd, ready := true, words := [1], first := seq }
  let b := w.barrierCheck o
  ((b.1.setColOp b.2).takeEarly o).colSettle o.axis

/-- STR_COLL: the issued COLL opens an operation of its set, or is rejected. -/
def execStrColl (core : CoreIx) (str : StrIx) (s : State) : Host.Outcome State Fault Refusal :=
  run s fun w =>
    match w.strUnread core str 8 with
    | some r =>
      let d := 2 * collAxis r.cmd
      let c0 := Reg.COL_SET_CFG0 d (collSet r.cmd)
      if w.flag c0 Fld.COL_SET_CFG0_VALID && decide (r.ctx = some (w.fld c0 Fld.COL_SET_CFG0_CTX)) && w.flag (Reg.COL_CTRL d) Fld.COL_CTRL_EN then
        w.colOpen core str r
      else w.colReject core str r
    | none => w

/-! ### Chunks (R388, R402, R407) -/

/-- The chunk of the running repeat is discarded, or there is none to read: the repeat is accepted. -/
def Work.chunkTaken (w : Work) (c s : Nat) : Work := w.updEngine c (2 + s) fun x => x.updLast fun r => { r with pos := 1 }

/-- A granule of the store of die `die` is read: a double-bit error that is clean when read again is transient (R417). -/
def Work.colStoreRead (w : Work) (o : ColOp) (die : Nat) (check : ReadCheck) : Work :=
  if check = .transient then
    w.transient (colFault w die 0x1D o.axis o.set o.ctx o.lane o.tag) (Reg.COL_ERR_STAT die) Fld.COL_ERR_STAT_STORE_TRANSIENT
      Fld.COL_ERR_STAT_TRANSIENT_CNT
  else w

/-- The pieces of a chunk enter the store, or are written at once, out of the store, under `check`; `none` when the store has no room for
them. -/
def Work.colSupply (w : Work) (o : ColOp) (rep : Nat) (bytes : List Byte) (check : ReadCheck) : Option Work :=
  let plan := o.par.supply rep
  let die (n : Nat) : Nat := 2 * o.axis + n
  let first := match plan with | (x :: _, _) => x.port | ([], some d) => d.1 | ([], none) => 0
  let (data, sat) := if o.par.reduces then colConvertAll o.par.src o.par.red (signed 9 o.par.anchor) bytes else (bytes, 0)
  if plan.1.all fun x => w.storeRoom (die x.port) o.lane o.par.packets then
    let o := { o with
      accepted := o.accepted + 1
      step := max o.step 1
      granules := o.granules ++ plan.1.flatMap fun x => pieceGranules (die x.port) x.dest x.piece x.waits data }
    let w := w.colSat o (die first) sat
    match plan.2 with
    | none => some ((w.setColOp o).colSettle o.axis)
    | some d =>
      if check = .lasting then some (w.colFail o (die d.1) 0 0)
      else
        let r := (w.colStoreRead o (die d.1) check).colDeposit o (die d.1) d.2 data
        some ((r.1.setColOp r.2).colSettle o.axis)
  else none

/-- COLL_CHUNK_ACCEPT: the chunk of the running repeat of a COLL is read and taken by a link die. `check` is what the store shows where the chunk
is written out of it at once. -/
def execCollChunkAccept (core : CoreIx) (str : StrIx) (check : ReadCheck) (s : State) : Host.Outcome State Fault Refusal :=
  run s fun w =>
    match (w.engine core (2 + str.val)).last with
    | some r =>
      if w.coreUp core && decide (cmdOpcode r.cmd = 8) && r.ready && !r.stopped && decide (0 < r.started) && decide (r.pos = 0) then
        let rep := r.started - 1
        let set := w.colSetOf r.cmd
        match (if r.words = [0] then none else w.colOp? (collAxis r.cmd) (collSet r.cmd) (coreGlobal core) r.first) with
        | none => (w.bump (Reg.COL_DISCARD (2 * collAxis r.cmd)) (if set.supplies then 1 else 0)).chunkTaken core str
        | some o =>
          if o.par.supplies then
            let n := chunkBytes o.par.src o.par.elems
            match w.colSupply o rep (w.strTake core r rep 0 n) check with
            | some w => (w.bump (Reg.STR_BYTES core str) n).chunkTaken core str
            | none => w
          else ((w.setColOp { o with accepted := o.accepted + 1 }).colSettle o.axis).chunkTaken core str
      else w
    | none => w

/-! ### Pieces (R395–R403, R407, R408) -/

/-- Add a packet to a result piece; the piece is written when its last packet is there. -/
def Work.addDeposit (w : Work) (o : ColOp) (die : Nat) (x : Piece) (pkt : Nat) (data : List Byte) : Work × ColOp :=
  let old := match o.deposits.find? fun d => decide (d.die = die) && decide (d.piece = x) with | some d => d.parts | none => []
  let parts := SMap.put old pkt data
  let rest := o.deposits.filter fun d => !(decide (d.die = die) && decide (d.piece = x))
  if parts.length = o.par.packets then w.colDeposit { o with deposits := rest } die x (parts.flatMap Prod.snd)
  else (w, { o with deposits := rest ++ [⟨die, x, parts⟩] })

/-- Take one granule kept for a piece. -/
def takeReserve (die : Nat) (x : Piece) (l : List Reserve) : List Reserve :=
  (l.map fun r => if r.die = die ∧ r.piece = x then { r with left := r.left - 1 } else r).filter fun r => decide (r.left ≠ 0)

/-- A packet of a piece that this chip awaits: added to its contribution, written, forwarded. -/
def Work.colTake (w : Work) (o : ColOp) (die : Nat) (x : Piece) (pkt : Nat) (data : List Byte) : Work × ColOp :=
  let last := decide (pkt + 1 = o.par.packets)
  let o := { o with step := max o.step x.step, awaited := if last then o.awaited.filter fun y => decide (y ≠ x) else o.awaited }
  let onward : Granule := ⟨die, { x with step := x.step + 1 }, pkt, false, o.par.next x.ring, data⟩
  if o.par.meets x then
    match o.granules.find? fun g => decide (g.die = die) && g.waits && decide (g.piece = x) && decide (g.pkt = pkt) with
    | some g =>
      let sum := colAddAll o.par.red data g.data
      let rest := dropFirst (fun y => decide (y = g)) o.granules
      let o := { o with granules := if o.par.forwards x then rest ++ [{ onward with data := sum }] else rest }
      if x.step = o.par.lm1 then w.addDeposit o die x pkt sum else (w, o)
    | none => (w, o)
  else
    let o := if o.par.forwards x then
        { o with granules := o.granules ++ [onward], reserves := takeReserve die x o.reserves }
      else o
    w.addDeposit o die x pkt data

/-- A collective packet is delivered to this chip. `check` is what the store shows when the packet's contribution is read. -/
def Work.colDelivered (w : Work) (p : Nat) (k : Pkt) (check : ReadCheck) : Work :=
  let x := k.piece
  let pkt := bits k.w5 23 5
  let discard (w : Work) : Work := if pkt = 0 then w.bump (Reg.COL_DISCARD p) 1 else w
  let w := w.bump (Reg.COL_BYTES_IN p) k.data.length
  match w.colOp? (p / 2) (bits k.w4 0 8) (bits k.w4 8 8) (bits k.w4 16 8) with
  | none => discard w
  | some o =>
    if !k.agrees o then w.colFail o p 2 0
    else if o.awaited.contains x then
      let w := if pkt + 1 = o.par.packets then w.bump (Reg.COL_PIECES_IN p) 1 else w
      if o.par.meets x && decide (check = .lasting) then w.colFail o p 0 0
      else
        let w := if o.par.meets x then w.colStoreRead o p check else w
        let r := w.colTake o p x pkt k.data
        (r.1.setColOp r.2).colSettle o.axis
    else discard w

/-- Take the oldest packet of channel v out of port p's receive buffer, when `is` picks it: it is delivered, or passed on (R436, R462). -/
def Work.takeColl (w : Work) (p v : Nat) (is : Pkt → Bool) (deliver : Work → Pkt → Work) : Work :=
  match w.rxHead p v with
  | some r =>
    if is r.pkt && w.clocked then
      let t := (w.rxTake p v r.flits).place (some p) (16 + p) r.pkt
      match t.2 with
      | .delivered => deliver t.1 r.pkt
      | _ => t.1
    else w
  | none => w

/-- COLL_PIECE: a packet of a piece reaches the head of VC2 or VC3. -/
def execCollPiece (port : LinkIx) (bulk : Bool) (check : ReadCheck) (s : State) : Host.Outcome State Fault Refusal :=
  run s fun w => w.takeColl port (if bulk then 3 else 2) (fun k => decide (k.ptype = 7)) fun w k => w.colDelivered port k check

/-- The port (0 or 1) by which an operation's piece leaves. -/
def ColSet.leaves (p : ColSet) (x : Piece) : Nat := if p.kind = 3 ∨ p.kind = 6 then x.ring else p.sends x.ring

/-- Granules that may be sent by die p now: their packets are ready and credit has come (R407). -/
def Work.colReady (w : Work) (p : Nat) (bulk : Bool) : List (ColOp × Granule) :=
  (w.hw.colOps.filter fun o => decide (o.axis = p / 2) && decide (o.par.bulk = bulk)).flatMap fun o =>
    (o.granules.filter fun g => !g.waits && decide (2 * o.axis + o.par.leaves g.piece = p) && o.credits.contains g.piece).map fun g => (o, g)

/-- Is one granule sent before another of its lane and set (R408)? -/
def Granule.before (a b : Granule) : Bool :=
  decide (b.piece.step < a.piece.step) ||
    (decide (a.piece.step = b.piece.step) &&
      (decide (a.piece.chunk < b.piece.chunk) || (decide (a.piece.chunk = b.piece.chunk) && decide (a.pkt < b.pkt))))

/-- The lane and set served next, round-robin after `last`. -/
def nextTurn (last : Nat) (keys : List Nat) : Option Nat :=
  let after := keys.filter fun k => decide (last ≤ k)
  match (if after.isEmpty then keys else after) with
  | [] => none
  | k :: ks => some (ks.foldl min k)

/-- The granule that a port sends next in a class. -/
def Work.colNext (w : Work) (p : Nat) (bulk : Bool) : Option (ColOp × Granule) :=
  let l := w.colReady p bulk
  let key (x : ColOp × Granule) : Nat := 256 * x.1.set + x.1.lane
  let turn := 2 * p + (if bulk then 1 else 0)
  match nextTurn (SMap.get 0 w.hw.colTurn turn) (l.map key) with
  | none => none
  | some k =>
    match l.filter fun x => decide (key x = k) with
    | [] => none
    | x :: xs => some (xs.foldl (fun best y => if y.2.before best.2 then y else best) x)

/-- Read a granule out of the store (R417): a lasting error ends its operation. -/
def Work.colSendNext (w : Work) (p : Nat) (bulk : Bool) (o : ColOp) (g : Granule) (check : ReadCheck) : Work :=
  if check = .lasting then w.colFail o g.die 0 0
  else
    let w := w.colStoreRead o g.die check
    let last := decide (g.pkt + 1 = o.par.packets)
    let o := { o with
      step := max o.step g.piece.step
      granules := dropFirst (fun y => decide (y = g)) o.granules
      credits := if last then dropFirst (fun y => decide (y = g.piece)) o.credits else o.credits }
    let w := { w with hw := { w.hw with
      colTurn := SMap.set 0 w.hw.colTurn (2 * p + (if bulk then 1 else 0)) (256 * o.set + o.lane + 1) } }
    let w := (w.setColOp o).colSend p (w.colPkt o 7 (if bulk then 3 else 2) g.dest g.piece g.pkt 0 g.data)
    let w := w.bump (Reg.COL_BYTES_OUT p) g.data.length
    (if last then w.bump (Reg.COL_PIECES_OUT p) 1 else w).colSettle o.axis

/-- COLL_PIECE_SEND: a port takes its next collective packet, when the one before it has left its queue (R408). -/
def execCollPieceSend (port : LinkIx) (bulk : Bool) (check : ReadCheck) (s : State) : Host.Outcome State Fault Refusal :=
  run s fun w =>
    let v := if bulk then 3 else 2
    if !w.clocked || (w.port port).tx.any (fun t => decide (t.pkt.vc = v) && decide (t.input < 32)) then w
    else match w.colNext port bulk with
      | some (o, g) => w.colSendNext port bulk o g check
      | none => w

/-! ### Messages (R400, R407) -/

/-- A CREDIT or BARRIER message for this chip: for an open operation, for one whose COLL has yet to issue, or for one that has ended. -/
def Work.colMessageIn (w : Work) (p : Nat) (k : Pkt) : Work :=
  let set := bits k.w4 0 8
  let lane := bits k.w4 8 8
  let seq := bits k.w4 16 8
  match w.colOp? (p / 2) set lane seq with
  | some o => (w.colMessage o p k).colSettle (p / 2)
  | none =>
    if (seq + 256 - SMap.get 0 w.hw.colSeq (colKey (p / 2) set lane)) % 256 < 128 then
      { w with hw := { w.hw with colEarly := w.hw.colEarly ++ [⟨p / 2, p, k⟩] } }
    else w

/-- COL_CREDIT: a CREDIT message reaches the head of VC1. -/
def execColCredit (port : LinkIx) (s : State) : Host.Outcome State Fault Refusal :=
  run s fun w => w.takeColl port 1 (fun k => decide (k.ptype = 8)) fun w k => w.colMessageIn port k

/-- BARRIER_ARRIVE: an ARRIVE reaches the head of VC1. -/
def execBarrierArrive (port : LinkIx) (s : State) : Host.Outcome State Fault Refusal :=
  run s fun w => w.takeColl port 1 (fun k => decide (k.ptype = 9) && decide (bits k.w7 8 1 = 0)) fun w k => w.colMessageIn port k

/-- BARRIER_RELEASE: a RELEASE reaches the head of VC1. -/
def execBarrierRelease (port : LinkIx) (s : State) : Host.Outcome State Fault Refusal :=
  run s fun w => w.takeColl port 1 (fun k => decide (k.ptype = 9) && decide (bits k.w7 8 1 = 1)) fun w k => w.colMessageIn port k

end Sys2Proof.Machine
end

