-- ==== Sys2Proof/Machine/Sch.lean ====
section
/-! DEFINITION. Contexts and the scheduler (R361–R381): the context table, work rings and launches, what runs next, the switch. -/

namespace Sys2Proof.Machine

/-! ### Ring entries (R366) -/

/-- The entry of a context's launch. -/
def Work.launchOf (w : Work) (x : Nat) : CmdBits := (SMap.find? w.hw.ringEntries x).getD 0

def ringKind (e : CmdBits) : Nat := cmdFld e 0 0 4
def ringImageBytes (e : CmdBits) : Nat := cmdFld e 1 0 24
def ringImage (e : CmdBits) : Nat := cmdWord e 2 + cmdFld e 3 0 16 * 2 ^ 32
def ringOffset (e : CmdBits) : Nat := cmdFld e 4 0 24
def ringEntryPc (e : CmdBits) : Nat := cmdFld e 5 0 24
def ringParam (e : CmdBits) : Nat := cmdWord e 6 + cmdWord e 7 * 2 ^ 32
def ringSeed (e : CmdBits) : Nat := cmdWord e 8 + cmdWord e 9 * 2 ^ 32
def ringSignal (e : CmdBits) : Nat := cmdWord e 10 + cmdWord e 11 * 2 ^ 32

/-! ### The scheduler's view of cores and contexts -/

/-- Does the scheduler make decisions (SCH_CTRL.EN)? -/
def Work.schOn (w : Work) : Bool := w.clocked && w.flag Reg.SCH_CTRL Fld.SCH_CTRL_EN

def Work.prio (w : Work) (x : Nat) : Nat := w.fld (Reg.SCH_CTX_CTRL x) Fld.SCH_CTX_CTRL_PRIO
def Work.isGang (w : Work) (x : Nat) : Bool := w.flag (Reg.SCH_CTX_CTRL x) Fld.SCH_CTX_CTRL_GANG
def Work.vtime (w : Work) (x : Nat) : Nat := (w.r64 (Reg.SCH_CTX_VT x)).toNat

/-- The number of a context on a core in `exited`. -/
def exitKey (x g : Nat) : Nat := 256 * x + g

/-- Is a context ready on global core g (R372)? -/
def Work.ready (w : Work) (x g : Nat) : Bool :=
  decide (w.ctxState x = 2) && w.ctxMask x g && !w.coreDisabled (globalSlot g) && !w.hw.exited.contains (exitKey x g)

/-- Is granule n of core g held through ALLOC_SPM by another context than x? -/
def Work.heldByOther (w : Work) (x g n : Nat) : Bool :=
  let h := SMap.get 0 w.hw.granules (256 * g + n)
  decide (h ≠ 0) && decide (h ≠ x + 1)

/-- Granules of a context's working set. -/
def Work.wsGranules (w : Work) (x : Nat) : List Nat := (List.range (w.wsCount x)).map (w.wsFirst x + ·)

/-- Does the working set of x on core g include a granule that another context holds (R370)? -/
def Work.wsConflict (w : Work) (x g : Nat) : Bool := (w.wsGranules x).any fun n => w.heldByOther x g n

/-- Does context a go before context b (R372)? -/
def Work.before (w : Work) (a b : Nat) : Bool :=
  decide (w.prio b < w.prio a) ||
    (decide (w.prio a = w.prio b) && (decide (w.vtime a < w.vtime b) || (decide (w.vtime a = w.vtime b) && decide (a < b))))

/-- The first of a list of contexts under R372. -/
def Work.firstOf (w : Work) : List Nat → Option Nat
  | [] => none
  | x :: xs => some (xs.foldl (fun best y => if w.before y best then y else best) x)

/-- The contexts ready on a core. -/
def Work.readyOn (w : Work) (g : Nat) : List Nat := (List.range 1024).filter fun x => w.ready x g

/-- The next context for a core, those in conflict left out (R370, R372). -/
def Work.nextCtx (w : Work) (g : Nat) : Option Nat := w.firstOf ((w.readyOn g).filter fun x => !w.wsConflict x g)

/-- A fault of the scheduler (R370, R375, R379): its registers and its record. -/
def Work.schFault (w : Work) (x g kind code : Nat) (bit : Fld) : Work :=
  let w := (w.setFlag Reg.SCH_ERR_STAT bit true).w32 Reg.SCH_ERR_INFO (BitVec.ofNat 32 (x % 1024 + g % 256 * 2 ^ 10 + kind * 2 ^ 18))
  w.fault { kind := code, level := 3, lasting := true, ctx := some x, die := 28, unit := 13, core := g, gen := w.hw.genChip, tag := 0
            addr := none, detail := 0 }

/-- The conflict that keeps the first ready context off a core is recorded (R370). -/
def Work.noteConflict (w : Work) (g : Nat) : Work :=
  match w.firstOf (w.readyOn g) with
  | some x => if w.wsConflict x g then w.schFault x g 0 0x20 Fld.SCH_ERR_STAT_WS_CONFLICT else w
  | none => w

/-- Does the scheduler want core g to leave its context for the causes that hold by themselves (items 2 and 4 of R374)? -/
def Work.wantsOut (w : Work) (g : Nat) : Bool :=
  match w.placedCtx (globalSlot g) with
  | none => false
  | some x => decide (w.ctxState x = 3) ||
      (w.flag Reg.SCH_POLICY Fld.SCH_POLICY_PREEMPT && (w.readyOn g).any fun y => decide (w.prio x < w.prio y))

/-- Set PENDING where the scheduler wants it (R374). -/
def Work.schPend (w : Work) : Work :=
  if w.schOn then
    w.forEach (List.range 256) fun w g => if w.wantsOut g then w.setFlag (Reg.SCH_CORE g) Fld.SCH_CORE_PENDING true else w
  else w

/-! ### The switch (R369, R371, R373, R377, R379) -/

/-- Count bytes copied by a switch. -/
def Work.switchBytes (w : Work) (n : Nat) : Work := w.bump Reg.SCH_SWITCH_BYTES n

/-- Step 2 of a switch: the state of the context placed on core c goes to its record. -/
def Work.saveState (w : Work) (c x : Nat) (exited : Bool) : Work :=
  let k := w.core c
  let a := w.slotBase x (coreGlobal c)
  let w := w.unitWrite a ((List.range 32).flatMap fun i => leBytes 8 (k.g i).toNat)
  let w := (w.unitPut (a + 0x100) 8 k.pc.toNat).unitPut (a + 0x108) 8 (w.seed c).state.toNat
  let w := w.unitWrite (a + 0x110) ((List.range 5).flatMap fun e => leBytes 4 (w.doneCount c e))
  let w := w.unitPut (a + 0x124) 4 (w.r32 (Reg.VEC_SAT_ANCHOR c)).toNat
  let w := w.unitPut (a + 0x128) 4 (w.r32 (Reg.VEC_SAT_FLOAT c)).toNat
  let w := w.unitPut (a + 0x130) 8 (w.r64 (Reg.SYN_RESULT c)).toNat
  let w := w.unitPut (a + 0x138) 4 (w.r32 (Reg.SYN_RESULT_TAG c)).toNat
  let w := w.unitPut (a + 0x13C) 4 (if exited then 3 else 1)
  let w := w.unitWrite (a + 0x140) ((List.range 15).flatMap fun i => leBytes 8 (w.r64 (Reg.CORE_LINK_CFG c i)).toNat)
  let w := w.unitWrite (a + 0x200) ((List.range 4).flatMap fun i => leBytes 64 (w.cab c i).toNat)
  let w := w.unitWrite (a + 0x2000) ((List.range 1024).flatMap fun i => leBytes 8 (w.r64 (Reg.SYN_OBJ c i)).toNat)
  w.switchBytes 16384

/-- A core without a context: ABSENT goes to every watch of its table (R265). -/
def Work.takeOff (w : Work) (c : Nat) : Work :=
  let s := Reg.SCH_CORE (coreGlobal c)
  let w := w.forEach (List.range 256) fun w e =>
    let ctl := Reg.SYN_WATCH_CTL c e
    if w.flag ctl Fld.SYN_WATCH_CTL_VALID then
      let node := w.fld ctl Fld.SYN_WATCH_CTL_NODE
      let core := w.fld ctl Fld.SYN_WATCH_CTL_CORE
      let gen := w.fld ctl Fld.SYN_WATCH_CTL_GEN
      (w.clearWatch c e).sendWatch c node core 0 gen none .absent
    else w
  let w := (w.watchStat c).w32 (Reg.CORE_CTX c) 0
  let w := (w.setFld s Fld.SCH_CORE_CTX 0).setFlag s Fld.SCH_CORE_VALID false
  (w.setFlag s Fld.SCH_CORE_PENDING false).setFlag s Fld.SCH_CORE_OVERDUE false

/-- Steps 1 and 2 of a switch: the context of core c is saved and taken off. -/
def Work.switchOut (w : Work) (c x : Nat) (exited : Bool) : Work := (w.saveState c x exited).takeOff c

/-- A granule of a context's save slot (R369). -/
def Work.slotGranule (w : Work) (x g n : Nat) : Nat := w.slotBase x g + 16384 + 65536 * (n - w.wsFirst x)

/-- Write a context's data in a granule of core g to its save slot, when it has a place there. -/
def Work.evictGranule (w : Work) (z g n : Nat) : Work :=
  if w.ctxMask z g && decide (w.wsFirst z ≤ n) && decide (n < w.wsFirst z + w.wsCount z) then
    (w.unitWrite (w.slotGranule z g n) (w.rdBytes (spmAt (globalSlot g) (65536 * n)) 65536)).switchBytes 65536
  else w

/-- Steps 3 and 4 of a switch for one granule: the data of another context goes out, that of y comes in; whether a read failed. -/
def Work.bringGranule (w : Work) (y g n : Nat) (bad : Bool) : Bool × Work :=
  let e := Reg.SCH_PRES g n
  let owner := w.fld e Fld.SCH_PRES_OWNER
  let valid := w.flag e Fld.SCH_PRES_VALID && w.ctxLive owner
  let named := BitVec.ofNat 32 (y + 1024)
  if valid && decide (owner = y) then (bad, w)
  else if w.granuleHeld g n then (bad, w.w32 e named)
  else
    let w := if valid then w.evictGranule owner g n else w
    let (r, w) := w.unitRead (w.slotGranule y g n) 65536
    match r with
    | some bytes => (bad, ((w.wrBytes (spmAt (globalSlot g) (65536 * n)) bytes).w32 e named).switchBytes 65536)
    | none => (true, w)

/-- Steps 3 and 4 of a switch: whether a read failed. -/
def Work.bringSet (w : Work) (y g : Nat) : Bool × Work :=
  (w.wsGranules y).foldl (fun (k : Bool × Work) n => k.2.bringGranule y g n k.1) (false, w)

/-- The rest of a core's state that every placement sets: CORE_CTX, the banks, the entry of the scheduler (step 6 of R377, R373). -/
def Work.named (w : Work) (c y : Nat) : Work :=
  let s := Reg.SCH_CORE (coreGlobal c)
  let empty : Bank := { Bank.reset with draw := none }
  let w := w.updCore c fun k => { k with
    stall := .none, boundary := true
    mtx := { k.mtx with bank0 := empty, bank1 := empty, opened := 0, closed := [] } }
  let w := (w.setFld (Reg.CORE_CTX c) Fld.CORE_CTX_CTX y).setFlag (Reg.CORE_CTX c) Fld.CORE_CTX_VALID true
  let w := (w.setFld s Fld.SCH_CORE_CTX y).setFlag s Fld.SCH_CORE_VALID true
  let w := (w.setFlag s Fld.SCH_CORE_PENDING false).setFlag s Fld.SCH_CORE_OVERDUE false
  { ((w.setFld s Fld.SCH_CORE_SLICE_US 0).bump Reg.SCH_SWITCHES 1) with hw.lastSwitch := y }

/-- Step 5 for a record that holds a state of the launch. -/
def Work.restoreState (w : Work) (c : Nat) (rec_ : List Byte) : Work :=
  let num (o n : Nat) : Nat := leNat ((rec_.drop o).take n)
  let w := w.updCore c fun k => { k with
    regs := (List.range 31).foldl (fun m i => SMap.set 0 m (i + 1) (BitVec.ofNat 64 (num (8 * (i + 1)) 8))) []
    pc := BitVec.ofNat 24 (num 0x100 8 / 4 * 4)
    cabs := (List.range 4).foldl (fun m i => SMap.set 0 m i (BitVec.ofNat 512 (num (0x200 + 64 * i) 64))) [] }
  let w := w.writeSeed c (BitVec.ofNat 64 (num 0x108 8))
  let w := w.forEach (List.range 5) fun w e => w.setFld (Reg.CORE_QCNT c e) Fld.CORE_QCNT_DONE (num (0x110 + 4 * e) 2)
  w.forEach (List.range 15) fun w i => w.w64 (Reg.CORE_LINK_CFG c i) (BitVec.ofNat 64 (num (0x140 + 8 * i) 8))

/-- Step 5 for a core that begins its launch (R373). -/
def Work.beginLaunch (w : Work) (c y : Nat) : Work :=
  let e := w.launchOf y
  let i := w.ctxSlot y (coreGlobal c)
  let cores := ((List.range 256).filter fun g => w.ctxMask y g && !w.coreDisabled (globalSlot g)).length
  let regs := SMap.set 0 (SMap.set 0 (SMap.set 0 [] 3 (BitVec.ofNat 64 (ringParam e))) 4 (BitVec.ofNat 64 i)) 5 (BitVec.ofNat 64 cores)
  let w := w.updCore c fun k => { k with regs := regs, pc := BitVec.ofNat 24 (ringEntryPc e), cabs := [] }
  let w := w.writeSeed c (BitVec.ofNat 64 (ringSeed e + i))
  let w := w.forEach (List.range 5) fun w e => w.setFld (Reg.CORE_QCNT c e) Fld.CORE_QCNT_DONE 0
  w.forEach (List.range 15) fun w i => w.w64 (Reg.CORE_LINK_CFG c i) (csrReset (Reg.CORE_LINK_CFG c i + 4) ++ csrReset (Reg.CORE_LINK_CFG c i))

/-- What of a record is restored whether or not the launch has started: sync objects, SYN_RESULT, its tag, the saturation counts. -/
def Work.restoreSync (w : Work) (c : Nat) (rec_ : List Byte) : Work :=
  let num (o n : Nat) : Nat := leNat ((rec_.drop o).take n)
  let w := w.w32 (Reg.VEC_SAT_ANCHOR c) (BitVec.ofNat 32 (num 0x124 4))
  let w := w.w32 (Reg.VEC_SAT_FLOAT c) (BitVec.ofNat 32 (num 0x128 4))
  let w := w.w64 (Reg.SYN_RESULT c) (BitVec.ofNat 64 (num 0x130 8))
  let w := w.w32 (Reg.SYN_RESULT_TAG c) (BitVec.ofNat 32 (num 0x138 4))
  w.forEach (List.range 1024) fun w i => w.w64 (Reg.SYN_OBJ c i) (BitVec.ofNat 64 (num (0x2000 + 8 * i) 8))

/-- Copy `n` bytes of a launch's image, translated in its context, a page at a time; whether an access failed (R373, R379). -/
def Work.copyImage (w : Work) (c y : Nat) : Nat → Nat → Nat → Nat → Bool × Work
  | 0, _, _, _ => (false, w)
  | fuel + 1, cva, off, n =>
    if n = 0 then (false, w)
    else
      let m := min n (65536 - cva % 65536)
      let (dpa, w) : Option Nat × Work := match directDpa cva with
        | some a => (some a, w)
        | none => match w.walk (coreRegion c) y (cva / 65536) with
          | (.leaf id _ e, w) => (some (leafDpa id e cva), w)
          | (.fault _ _, w) => (none, w)
      match dpa with
      | none => (true, w)
      | some a =>
        match w.unitRead a m with
        | (some bytes, w) => (w.spmWrite c off bytes).copyImage c y fuel ((cva + m) % 2 ^ 48) (off + m) (n - m)
        | (none, w) => (true, w)

/-- A placement fails: the context is withdrawn and the core stays idle (R379). -/
def Work.placeFails (w : Work) (y g : Nat) : Work :=
  (w.abandon y).schFault y g 2 0x1F Fld.SCH_ERR_STAT_SAVE_FAULT

/-- Steps 3 to 6 of a switch: context y is placed on the idle core c. -/
def Work.place_ (w : Work) (c y : Nat) : Work :=
  let g := coreGlobal c
  let (bad, w) := w.bringSet y g
  if bad then w.placeFails y g
  else match w.unitRead (w.slotBase y g) 16384 with
    | (none, w) => w.placeFails y g
    | (some rec_, w) =>
      let w := (w.switchBytes 16384).restoreSync c rec_
      if (rec_.getD 0x13C 0).toNat % 2 = 1 then (w.restoreState c rec_).named c y
      else
        let e := w.launchOf y
        let (bad, w) := (w.beginLaunch c y).copyImage c y 257 (ringImage e) (ringOffset e) (ringImageBytes e)
        if bad then w.placeFails y g else (w.switchBytes (ringImageBytes e)).named c y

/-- Place the next context on an idle core, unless the core is reserved or the next context is a gang (R372, R374, R376). -/
def Work.placeNext (w : Work) (c : Nat) : Work :=
  let g := coreGlobal c
  if w.flag (Reg.SCH_CORE g) Fld.SCH_CORE_RESERVED then w
  else
    let w := w.noteConflict g
    match w.nextCtx g with
    | some y => if w.isGang y then w else (w.place_ c y).schPend
    | none => w

/-! ### Chain boundaries (R110, R374, R375) -/

/-- Has a context an open collective operation on a core (R375, R411)? -/
def Work.openStep (w : Work) (c : Nat) : Bool := w.hw.colOps.any fun o => decide (o.lane = coreGlobal c)

/-- A chain boundary reached with PENDING set: the switch, unless a hold keeps it (R374, R375, R377). -/
def Work.atBoundary (w : Work) (c : Nat) : Work :=
  match w.placedCtx c with
  | some x =>
    if !w.schOn || !w.flag (Reg.SCH_CORE (coreGlobal c)) Fld.SCH_CORE_PENDING || decide ((w.core c).halt ≠ .none) then w
    else if w.openStep c then w.bump Reg.SCH_HELD_OPEN 1
    else (w.switchOut c x false).placeNext c
  | none => w

/-- CBND completes: a chain boundary when every link is idle and both banks are empty (R110). -/
def Work.doBoundary (w : Work) (c : Nat) : Work :=
  let reached := (w.core c).handoverIdle
  let w := if reached then w.updCore c fun k => { k with boundary := true } else w
  let w := (w.setStall c .none).nextPc c
  if reached then w.atBoundary c else w

/-- CBND: it stalls until every command pushed has completed. -/
def execCbnd (core : CoreIx) (s : State) : Host.Outcome State Fault Refusal :=
  run s fun w => w.ctl core (isQueue 6) fun w _ =>
    if (w.core core).drained then w.doBoundary core else w.setStall core .boundary

/-- A stalled CBND completes. -/
def execCbndComplete (core : CoreIx) (s : State) : Host.Outcome State Fault Refusal :=
  run s fun w =>
    if w.ctlStalled core (fun x => decide (x = .boundary)) && (w.core core).drained then w.doBoundary core else w

/-! ### The context table (R361–R364) -/

/-- DPA and length of the parts of a context's save slots that admission clears: the sync objects. -/
def Work.clearSlots (w : Work) (x : Nat) (objects : Bool) : Work :=
  w.forEach ((List.range 256).filter fun g => w.ctxMask x g) fun w g =>
    let a := w.slotBase x g
    let w := if objects then w.unitWrite (a + 0x2000) (List.replicate 8192 0) else w
    w.unitPut (a + 0x13C) 4 0

/-- Admission of a context (R362). -/
def Work.admitCtx (w : Work) (x : Nat) : Work :=
  let w := w.clearSlots x true
  let w := w.forEach (List.range 65536) fun w i =>
    let e := Reg.SCH_PRES (i / 256) (i % 256)
    if w.flag e Fld.SCH_PRES_VALID && decide (w.fld e Fld.SCH_PRES_OWNER = x) then w.w32 e 0 else w
  let w := w.setFld (Reg.SCH_CTX_RUN x) Fld.SCH_CTX_RUN_CONS 0
  w.setFld (Reg.SCH_CTX_CTRL x) Fld.SCH_CTX_CTRL_STATE 1

/-- A context is withdrawn: its launch is abandoned (R363). -/
def Work.withdrawCtx (w : Work) (x : Nat) : Work := (w.abandon x).schPend

/-- What a write of SCH_CTX_x_CTRL does beyond its store: the transitions of R361 and R363. `pre` is the machine before the write, `written` the value
of STATE that was written: a code that R64 has clamped already counts no second clamp (R67). -/
def Work.ctxCtrlHook (w pre : Work) (who : ClampBy) (x written : Nat) : Work :=
  let a := Reg.SCH_CTX_CTRL x
  let old := pre.ctxState x
  let new := w.ctxState x
  let back (w : Work) : Work := w.setFld a Fld.SCH_CTX_CTRL_STATE old
  if new = old then w.schPend
  else if old = 0 ∧ new = 1 then (back w).admitCtx x
  else if (old = 1 ∨ old = 2) ∧ new = 3 then (back w).withdrawCtx x
  else if new = 0 ∧ (old = 1 ∨ (old = 3 ∧ !w.isPlaced x)) then w
  else (if written = new then (back w).clamp who a 0 0 .joined else back w).schPend

/-- A write to another register of a context's entry while the context is live is discarded and counted as one clamp (R363). -/
def Work.ctxEntryHook (w pre : Work) (who : ClampBy) (x addr n : Nat) : Work :=
  if pre.ctxState x = 0 then w
  else (w.forEach (List.range (n / 4)) fun w i => w.w32 (addr + 4 * i) (pre.r32 (addr + 4 * i))).clamp who addr 0 0 .joined

/-- A write of SCH_CTX_x_CTRL. -/
def Work.ctxCtrlWrite (w : Work) (m : Master) (x value : Nat) : Work :=
  (w.regWrite m (Reg.SCH_CTX_CTRL x) .w32 15 value).ctxCtrlHook w (w.clampBy m) x (value % 8)

/-- CTX_ADMIT: SCH_CTX_x_CTRL is written while the entry is FREE. -/
def execCtxAdmit (master : Master) (ctx : CtxIx) (value : Word) (s : State) : Host.Outcome State Fault Refusal :=
  run s fun w => if w.ctxState ctx = 0 then w.ctxCtrlWrite master ctx value.toNat else w

/-- CTX_WITHDRAW: SCH_CTX_x_CTRL is written with STATE 3. -/
def execCtxWithdraw (master : Master) (ctx : CtxIx) (value : Word) (s : State) : Host.Outcome State Fault Refusal :=
  run s fun w => w.ctxCtrlWrite master ctx (setBits value.toNat 0 3 3)

/-- CTX_FREE: SCH_CTX_x_CTRL is written with STATE 0. -/
def execCtxFree (master : Master) (ctx : CtxIx) (value : Word) (s : State) : Host.Outcome State Fault Refusal :=
  run s fun w => w.ctxCtrlWrite master ctx (setBits value.toNat 0 3 0)

/-! ### Work rings (R365–R368) -/

def Work.cons (w : Work) (x : Nat) : Nat := w.fld (Reg.SCH_CTX_RUN x) Fld.SCH_CTX_RUN_CONS

/-- The producer count of a context: the low bits of its doorbell word. -/
def Work.producer (w : Work) (x : Nat) : Nat :=
  (w.r64 (Reg.HUB_DB 0 (w.fld (Reg.SCH_CTX_RING x) Fld.SCH_CTX_RING_DOORBELL))).toNat % 65536

/-- Where entry CONS of a context's ring lies. -/
def Work.ringAt (w : Work) (x : Nat) : Nat :=
  w.fld (Reg.SCH_CTX_RING_BASE x) Fld.SCH_CTX_RING_BASE_BASE * 64 + w.cons x % 2 ^ w.fld (Reg.SCH_CTX_RING x) Fld.SCH_CTX_RING_LOG2 * 64

/-- RING_ENTRY_READ: the scheduler reads entry CONS of an IDLE context whose producer count differs (R365). -/
def execRingEntryRead (ctx : CtxIx) (s : State) : Host.Outcome State Fault Refusal :=
  run s fun w =>
    let x := ctx.val
    if w.schOn && decide (w.ctxState x = 1) && decide (w.producer x ≠ w.cons x) && (SMap.find? w.hw.ringEntries x).isNone then
      let a := w.ringAt x
      match w.unitRead a 64 with
      | (some bytes, w) =>
        let k : Clamping := ⟨w, BitVec.ofNat 512 (leNat bytes), .program x, some a⟩
        let k := ((k.field 0 0 4 (Legal.take 2 15 1).apply).field 4 0 24 (Legal.align 256).apply).field 5 0 24 (Legal.align 4).apply
        { k.work with hw := { k.work.hw with ringEntries := SMap.put k.work.hw.ringEntries x k.cmd } }
      | (none, w) =>
        w.fault { kind := 0x03, level := 3, lasting := true, ctx := some x, die := 28, unit := 13, core := 0, gen := w.hw.genChip, tag := 0
                  addr := some (a, false), detail := 0 }
    else w

/-- An entry is consumed: its signal is sent and CONS advances. -/
def Work.consume (w : Work) (x : Nat) (e : CmdBits) : Work :=
  let a := Reg.SCH_CTX_RUN x
  let w := w.unitSignal 28 13 (ringSignal e) 1
  let w := w.setFld a Fld.SCH_CTX_RUN_CONS (w.cons x + 1)
  { w with hw := { w.hw with ringEntries := SMap.del w.hw.ringEntries x } }

/-- The entry read for a context, when the scheduler may act on it and its KIND is `kind`. -/
def Work.ringHeld (w : Work) (x kind : Nat) : Option CmdBits :=
  match SMap.find? w.hw.ringEntries x with
  | some e => if w.schOn && decide (w.ctxState x = 1) && decide (ringKind e = kind) then some e else none
  | none => none

/-- RING_NOP: a NOP entry is consumed at once (R366). -/
def execRingNop (ctx : CtxIx) (s : State) : Host.Outcome State Fault Refusal :=
  run s fun w => match w.ringHeld ctx 0 with
    | some e => w.consume ctx e
    | none => w

/-- A launch completes when LEFT is 0 (R368). -/
def Work.launchEnds (w : Work) (x : Nat) : Work :=
  if w.ctxState x = 2 ∧ w.fld (Reg.SCH_CTX_RUN x) Fld.SCH_CTX_RUN_LEFT = 0 then
    (w.consume x (w.launchOf x)).setFld (Reg.SCH_CTX_CTRL x) Fld.SCH_CTX_CTRL_STATE 1
  else w

/-- The virtual time of a context that becomes ACTIVE (R372). -/
def Work.startVt (w : Work) (x : Nat) : Work :=
  let peers := (List.range 1024).filter fun y => decide (y ≠ x) && decide (w.ctxState y = 2) && decide (w.prio y = w.prio x)
  match peers.map w.vtime with
  | [] => w
  | v :: vs => w.w64 (Reg.SCH_CTX_VT x) (BitVec.ofNat 64 (max (w.vtime x) (vs.foldl min v)))

/-- RING_LAUNCH: a LAUNCH entry makes the context ACTIVE (R366). -/
def execRingLaunch (ctx : CtxIx) (s : State) : Host.Outcome State Fault Refusal :=
  run s fun w => match w.ringHeld ctx 1 with
    | some _ =>
      let x := ctx.val
      let left := ((List.range 256).filter fun g => w.ctxMask x g && !w.coreDisabled (globalSlot g)).length
      let w := (w.clearSlots x false).digestStart x ((List.range 256).filter fun g => w.ctxMask x g)
      let w := { w with hw := { w.hw with exited := w.hw.exited.filter fun k => decide (k / 256 ≠ x) } }
      let w := (w.startVt x).setFld (Reg.SCH_CTX_CTRL x) Fld.SCH_CTX_CTRL_STATE 2
      ((w.setFld (Reg.SCH_CTX_RUN x) Fld.SCH_CTX_RUN_LEFT left).launchEnds x).schPend
    | none => w

/-- A store to SCH_EXIT (R367): it counts only from the control core of a core whose context has a launch in progress there. -/
def Work.schExit (w : Work) (m : Master) (value : Nat) : Work :=
  match m with
  | .cell c e =>
    match w.placedCtx c.val with
    | some x =>
      if e.val = 0 ∧ w.ctxState x = 2 ∧ !w.hw.exited.contains (exitKey x (coreGlobal c.val)) then
        { w with hw := { w.hw with exiting := SMap.put w.hw.exiting c.val (1 + value % 65536) } }
      else w
    | none => w
  | _ => w

/-- SCH_EXIT is written whole. -/
def execSchExit (master : Master) (value : Word) (s : State) : Host.Outcome State Fault Refusal :=
  run s fun w => Work.when (w.regTakes (Reg.SCH_EXIT)) w fun w => w.schExit master value.toNat

/-- A core of the timed context exits: it is in phase 0 (R500). -/
def Work.exitPhase (w : Work) (x g : Nat) : Work :=
  let ctl := Reg.SNP_PHASE_CTRL
  if w.flag ctl Fld.SNP_PHASE_CTRL_EN && decide (w.fld ctl Fld.SNP_PHASE_CTRL_CTX = x) then
    { w with hw := { w.hw with phases := SMap.set 0 w.hw.phases g 1 } }
  else w

/-- EXIT_FINISH: every command of an exiting core has completed; it is emptied, saved and taken off (R367, R375, R377). -/
def execExitFinish (core : CoreIx) (s : State) : Host.Outcome State Fault Refusal :=
  run s fun w =>
    let c := core.val
    let g := coreGlobal c
    match SMap.find? w.hw.exiting c, w.placedCtx c with
    | some code, some x =>
      if w.coreUp c && (w.core c).drained && decide ((w.core c).halt = .none) && !w.openStep c then
        let w := w.updCore c fun k => { k with
          links := k.links.map fun l => (l.1, { l.2 with full0 := false, full1 := false, prod := 0, cons := 0 })
          mtx := { k.mtx with bank0 := { k.mtx.bank0 with state := .empty }, bank1 := { k.mtx.bank1 with state := .empty }, closed := [] } }
        let w := w.forEach (List.range 15) fun w i => w.applyLinkCfg c i
        let w := w.setFld (Reg.SCH_CORE g) Fld.SCH_CORE_EXIT_CODE (code - 1)
        let w := (w.switchOut c x true).exitPhase x g
        let w := { w with hw := { w.hw with exiting := SMap.del w.hw.exiting c, exited := exitKey x g :: w.hw.exited } }
        let r := Reg.SCH_CTX_RUN x
        let w := (w.setFld r Fld.SCH_CTX_RUN_LEFT (w.fld r Fld.SCH_CTX_RUN_LEFT - 1)).launchEnds x
        if w.schOn then w.placeNext c else w
      else w
    | _, _ => w

/-! ### Decisions (R374–R376) -/

/-- QUANTUM_EXPIRE: the quantum of the context on a core has elapsed (item 1 of R374). -/
def execQuantumExpire (core : CoreIx) (s : State) : Host.Outcome State Fault Refusal :=
  run s fun w =>
    let g := coreGlobal core
    match w.placedCtx core with
    | some x =>
      if w.schOn && decide (coreSlot core < 16) && (w.readyOn g).any (fun y => decide (y ≠ x) && decide (w.prio x ≤ w.prio y)) then
        w.setFlag (Reg.SCH_CORE g) Fld.SCH_CORE_PENDING true
      else w
    | none => w

/-- May the scheduler place a context on a core: it is up, idle and none of its business is unfinished? -/
def Work.coreIdle (w : Work) (c : Nat) : Bool :=
  decide (coreSlot c < 16) && w.coreUp c && decide ((w.core c).halt = .none) && (w.placedCtx c).isNone && (SMap.find? w.hw.exiting c).isNone && decide ((w.core c).test ≠ .pending)

/-- CONTEXT_PLACE: an idle core takes its next context at once (R374). -/
def execContextPlace (core : CoreIx) (s : State) : Host.Outcome State Fault Refusal :=
  run s fun w => if w.schOn && w.coreIdle core then w.placeNext core else w

/-- GANG_FORM: a gang context that is next on a core, and not already placed there, reserves all its ready cores (R376; log entry 41). -/
def execGangForm (core : CoreIx) (s : State) : Host.Outcome State Fault Refusal :=
  run s fun w =>
    let st := Reg.SCH_STATUS
    match w.nextCtx (coreGlobal core) with
    | some x =>
      if w.schOn && decide (coreSlot core < 16) && w.isGang x && !w.flag st Fld.SCH_STATUS_FORMING &&
          decide (w.placedCtx core ≠ some x) then
        let w := (w.setFlag st Fld.SCH_STATUS_FORMING true).setFld st Fld.SCH_STATUS_GANG_CTX x
        w.forEach ((List.range 256).filter fun g => w.ready x g && !w.wsConflict x g) fun w g =>
          (w.setFlag (Reg.SCH_CORE g) Fld.SCH_CORE_RESERVED true).setFlag (Reg.SCH_CORE g) Fld.SCH_CORE_PENDING true
      else w
    | none => w

/-- GANG_PLACE: every reserved core is idle, and the gang is placed on all of them (R376). -/
def execGangPlace (s : State) : Host.Outcome State Fault Refusal :=
  run s fun w =>
    let st := Reg.SCH_STATUS
    let x := w.fld st Fld.SCH_STATUS_GANG_CTX
    let cores := (List.range 256).filter fun g => w.flag (Reg.SCH_CORE g) Fld.SCH_CORE_RESERVED
    if w.schOn && w.flag st Fld.SCH_STATUS_FORMING && cores.all fun g => w.coreIdle (globalSlot g) || w.coreDisabled (globalSlot g) then
      let w := w.forEach cores fun w g =>
        let w := (w.setFlag (Reg.SCH_CORE g) Fld.SCH_CORE_RESERVED false).setFlag (Reg.SCH_CORE g) Fld.SCH_CORE_PENDING false
        if w.ready x g then w.place_ (globalSlot g) x else w
      (w.setFlag st Fld.SCH_STATUS_FORMING false).schPend
    else w

/-- SCH_OVERDUE: PENDING has been set for OVERDUE µs without a switch (R375). -/
def execSchOverdue (core : CoreIx) (s : State) : Host.Outcome State Fault Refusal :=
  run s fun w =>
    let g := coreGlobal core
    let a := Reg.SCH_CORE g
    match w.placedCtx core with
    | some x =>
      if w.clocked && decide (coreSlot core < 16) && w.flag a Fld.SCH_CORE_PENDING && !w.flag a Fld.SCH_CORE_OVERDUE then
        (w.setFlag a Fld.SCH_CORE_OVERDUE true).schFault x g 1 0x21 Fld.SCH_ERR_STAT_OVERDUE
      else w
    | none => w

/-- SPARE_SWAP: the region swaps its spare in for a logical core whose physical core is withdrawn; while a context is placed there, the
scheduler is asked to take it off first (R117, R118, item 5 of R374). -/
def execSpareSwap (region : RegionIx) (slot : Fin 16) (s : State) : Host.Outcome State Fault Refusal :=
  run s fun w =>
    let r := region.val
    let c := 17 * r + slot.val
    if decide (SMap.get 0 w.hw.spareIn r = 0) && w.physDisabled r slot && !w.physDisabled r 16 then
      match w.placedCtx c with
      | some _ => w.setFlag (Reg.SCH_CORE (coreGlobal c)) Fld.SCH_CORE_PENDING true
      | none => w.swapSpare r slot
    else w

end Sys2Proof.Machine
end

