-- ==== Sys2Proof/Machine/Err.lean ====
section
/-! DEFINITION. Error commands, self-tests, watchdogs, orphans, and the resets of every level (R526–R557). -/

namespace Sys2Proof.Machine

/-! ### Which registers a chip reset leaves alone -/

/-- Does a chip reset keep a register: it is always on, a HUB_ register below 0x100 (R635), but no clamp counter (R71)? -/
def chipKeeps (a : Nat) : Bool :=
  let off := (a - 0x3F0000000000) % 0x100000000
  (isAlwaysOn a && !(decide (csrDie a = 28) && decide (0x30001000 ≤ off ∧ off < 0x30002100))) ||
    (decide (csrDie a = 28 ∨ csrDie a = 29) && decide (off < 0x100))

/-! ### Resets of a cell or a core by command (R540–R542) -/

/-- The slot that a physical core serves. -/
def Work.slotOf (w : Work) (r p : Nat) : Nat := 17 * r + ((List.range 17).find? fun s => decide (w.physOf (17 * r + s) = p)).getD p

/-- May a command act on physical core p of region r: neither is disabled (R542)? -/
def Work.physUp (w : Work) (r p : Nat) : Bool := !w.regionDisabled r && !w.physDisabled r p

/-- A master's reset generation tag advances (R543). -/
def Work.advanceTag (w : Work) (c : Nat) : Work :=
  { w with hw := { w.hw with genCore := SMap.set 0 w.hw.genCore c ((SMap.get 0 w.hw.genCore c + 1) % 256) } }

/-- Reset the queue, the running commands and the counts of an engine. -/
def Work.resetEngine (w : Work) (c e : Nat) : Work :=
  ((w.updEngine c e fun _ => Engine.idle).w32 (Reg.CORE_QCNT c e) 0).w32 (Reg.CORE_QTAG c e) 0

/-- Reset one cell of a core (R540, R541): 0 CTL, 1 MTX, 2 VEC, 3 STA, 4 STB, 5 SYN, 6 SPM. -/
def Work.resetCell (w : Work) (c cell : Nat) : Work :=
  let b := coreWindow c
  let none_ (_ : Nat) : Bool := false
  match cell with
  | 0 =>
    let w := (w.orphan fun s => decide (s = .ctl c)).advanceTag c
    let w := w.resetBlock b (b + 0x300) fun a =>
      decide (a = Reg.CORE_ID c) || decide (a = Reg.CORE_CTX c) || (decide (b + 0x100 ≤ a) && decide (a < b + 0x200))
    w.updCore c fun k => { k with pc := 0, regs := [], cabs := [], stall := .none, halt := .none, boundary := false }
  | 1 => ((w.resetEngine c 0).updMtx c fun _ => Mtx.reset).resetBlock (b + 0x10000) (b + 0x20000) none_
  | 2 => (w.resetEngine c 1).resetBlock (b + 0x20000) (b + 0x30000) none_
  | 3 => (((w.orphan fun s => decide (s = .str c 0)).advanceTag c).resetEngine c 2).resetBlock (b + 0x30100) (b + 0x30200) none_
  | 4 => (((w.orphan fun s => decide (s = .str c 1)).advanceTag c).resetEngine c 3).resetBlock (b + 0x30200) (b + 0x30300) none_
  | 5 =>
    let w := (((w.cancelWatch c).orphan fun s => decide (s = .syn c)).advanceTag c).resetEngine c 4
    (w.updSyn c fun _ => Syn.reset).resetBlock (b + 0x40000) (b + 0x50000) none_
  | _ => w

/-- Order a self-test of a physical core (R545, R546): the scheduler takes the core out of use first. -/
def Work.orderSelfTest (w : Work) (r p : Nat) : Work :=
  let c := w.slotOf r p
  if w.physUp r p && decide ((w.core c).test = .none) then
    let w := w.updCore c fun k => { k with test := .pending }
    if decide (coreSlot c < 16) && (w.placedCtx c).isSome then w.setFlag (Reg.SCH_CORE (coreGlobal c)) Fld.SCH_CORE_PENDING true else w
  else w

/-- A reset that ERR_CMD orders (R540, R542, R557). -/
def Work.cmdReset (w : Work) (die level p cell : Nat) : Work :=
  if level = 3 then (if w.railsOn then w.orderReset 16 else w)
  else if 16 ≤ die ∨ w.regionDisabled die then w
  else if level = 2 then w.orderReset die
  else if !w.physUp die p ∨ !w.railsOn then w
  else if level = 1 then w.resetCore (w.slotOf die p) .command
  else w.resetCell (w.slotOf die p) cell

/-- ERR_CMD.FENCE sets the fence of a link die to ELECTRICAL (R556). -/
def Work.errFence (w : Work) (die : Nat) : Work :=
  if 16 ≤ die ∧ die < 24 then
    let pre := w
    (w.setFld (Reg.FEN_PORT_CFG (die - 16)) Fld.FEN_PORT_CFG_MODE 2).fenceChanged (die - 16) (pre.fenceMode (die - 16))
  else w

/-- What a write of ERR_CMD does (R557): the reset, then the fence, then the self-test. -/
def Work.errCmd (w : Work) (who : ClampBy) (die value : Nat) : Work :=
  let (v, w) := w.woWrite who (Reg.ERR_CMD die) value
  let p := bits v 2 5
  let w := if bits v 10 1 = 1 then w.cmdReset die (bits v 0 2) p (bits v 7 3) else w
  let w := if bits v 11 1 = 1 then w.errFence die else w
  if bits v 12 1 = 1 ∧ die < 16 then w.orderSelfTest die p else w

/-- CELL_RESET: ERR_CMD is written with RESET 1 and LEVEL 0 (R540, R541). -/
def execCellReset (master : Master) (die : DieIx) (value : Word) (s : State) : Host.Outcome State Fault Refusal :=
  run s fun w => Work.when (value.getLsbD 10 && decide (bits value.toNat 0 2 = 0)) w fun w => w.errCmd (w.clampBy master) die value.toNat

/-- CORE_RESET: ERR_CMD is written with RESET 1 and LEVEL 1 (R540). -/
def execCoreReset (master : Master) (die : DieIx) (value : Word) (s : State) : Host.Outcome State Fault Refusal :=
  run s fun w => Work.when (value.getLsbD 10 && decide (bits value.toNat 0 2 = 1)) w fun w => w.errCmd (w.clampBy master) die value.toNat

/-- ERR_FENCE: ERR_CMD is written with FENCE 1 (R556). -/
def execErrFence (master : Master) (die : DieIx) (value : Word) (s : State) : Host.Outcome State Fault Refusal :=
  run s fun w => Work.when (value.getLsbD 11) w fun w => w.errCmd (w.clampBy master) die value.toNat

/-- ERR_SELFTEST: ERR_CMD is written with SELFTEST 1 (R546). -/
def execErrSelftest (master : Master) (die : DieIx) (value : Word) (s : State) : Host.Outcome State Fault Refusal :=
  run s fun w => Work.when (value.getLsbD 12) w fun w => w.errCmd (w.clampBy master) die value.toNat

/-! ### Self-tests (R545–R547) -/

/-- SELFTEST_START: a self-test that was ordered starts on its idle core (R546). -/
def execSelftestStart (core : CoreIx) (s : State) : Host.Outcome State Fault Refusal :=
  run s fun w =>
    let c := core.val
    let idle := (w.placedCtx c).isNone && (SMap.find? w.hw.exiting c).isNone && (w.core c).drained
    Work.when (w.clocked && !w.coreDisabled c && decide ((w.core c).test = .pending) && idle) w fun w => w.selfTestStart c

/-- The fault of a self-test (R529, R546). -/
def Work.testFault (w : Work) (c : Nat) (lasting : Bool) : FaultInfo where
  kind := 0x0D
  level := 2
  lasting := lasting
  ctx := none
  die := coreRegion c
  unit := 0
  core := coreGlobal c
  gen := SMap.get 0 w.hw.genCore c
  tag := 0
  addr := none
  detail := 0

/-- SELFTEST_END: 6 ms after it began, a run of the self-test ends (R546): it passes, is run once more, or the core is withdrawn. -/
def execSelftestEnd (core : CoreIx) (pass : Bool) (s : State) : Host.Outcome State Fault Refusal :=
  run s fun w =>
    let c := core.val
    let setTest (w : Work) (t : SelfTest) : Work := w.updCore c fun k => { k with test := t }
    if !w.clocked then w
    else match (w.core c).test with
    | .running second =>
      if pass then
        let w := setTest w .none
        (if second then (w.countFault (w.testFault c false)).record (w.testFault c false) false else w).openPort c
      else if second then (((setTest w .none).fault (w.testFault c true)).withdrawPhys (coreRegion c) (w.physOf c)).openPort c
      else setTest w (.running true)
    | _ => w

/-! ### Contexts and watchdogs (R534–R539, R556) -/

/-- What a write of ERR_ABORT does (R534). -/
def Work.errAbort (w : Work) (who : ClampBy) (value : Nat) : Work :=
  let (v, w) := w.woWrite who Reg.ERR_ABORT value
  if bits v 15 1 = 1 then w.abortCtx (bits v 0 10) else w

/-- CONTEXT_ABORT: ERR_ABORT is written (R534). -/
def execContextAbort (master : Master) (value : Word) (s : State) : Host.Outcome State Fault Refusal :=
  run s fun w => w.errAbort (w.clampBy master) value.toNat

/-- Is an abort outstanding? -/
def Work.abortWaits (w : Work) : Bool := !w.hw.abortsDue.isEmpty || w.hw.resetsWait.any fun x => decide (x.cause = .abort)

/-- ABORT_STUCK: an abort has not completed in 10 ms (R556). -/
def execAbortStuck (s : State) : Host.Outcome State Fault Refusal :=
  run s fun w => Work.when w.abortWaits w fun w => w.setFlag (Reg.ERR_STATUS 28) Fld.ERR_STATUS_ABORT_STUCK true

/-- The lowest engine of a core that is busy, and the tag of the command it issued last (R536). -/
def Work.hangTag (w : Work) (c : Nat) : Nat :=
  match [0, 1, 2, 3, 4].find? fun e => !(w.engine c e).running.isEmpty with
  | some e => w.fld (Reg.CORE_QTAG c e) Fld.CORE_QTAG_ISSUED_TAG
  | none => 0

/-- CORE_HANG: a core's hang counter has reached CORE_MS (R536). -/
def execCoreHang (core : CoreIx) (s : State) : Host.Outcome State Fault Refusal :=
  run s fun w =>
    let c := core.val
    match w.placedCtx c with
    | some x =>
      Work.when (w.coreUp c && decide ((w.core c).halt = .none)) w fun w =>
        w.cellFault c 0x0C 0 (w.hangTag c) (some x) none (w.core c).pc.toNat
    | none => w

/-- REQ_TIMEOUT: a request has been outstanding for REQ_MS (R537): it completes with a fault response and becomes an orphan. -/
def execReqTimeout (req : Nat) (s : State) : Host.Outcome State Fault Refusal :=
  run s fun w =>
    match w.req? req with
    | some q =>
      let (master, host) : Bool × Bool := match q.src with | .link _ _ _ _ _ _ => (false, false) | .host _ _ => (true, true) | _ => (true, false)
      Work.when (decide (q.stage ≠ .replied) && master) w fun w =>
        let w := { w with hw := { w.hw with orphans := SMap.put w.hw.orphans req q } }
        let w := (w.setReq req { q with stage := .replied }).answer req .timeout
        if host then w.reqFault q 0x05 0 else w
    | none => w

/-- REGION_HANG: a channel with work in its queue has performed no access for 1 ms (R538). -/
def execRegionHang (region : RegionIx) (chan : Fin 64) (s : State) : Host.Outcome State Fault Refusal :=
  run s fun w =>
    let r := region.val
    Work.when (w.clocked && !w.regionDisabled r && !(w.chan (64 * r + chan.val)).queue.isEmpty && decide (SMap.get 0 w.hw.bistRun r = 0)) w
      fun w => w.fault { kind := 0x15, level := 2, lasting := true, ctx := none, die := r, unit := 7, core := 0,
                         gen := SMap.get 0 w.hw.genRegion r, tag := 0, addr := none, detail := chan.val }

/-- FABRIC_LINE_RETRY: a fabric line that failed its check is sent once more (R528). -/
def execFabricLineRetry (die : DieIx) (clean : Bool) (s : State) : Host.Outcome State Fault Refusal :=
  run s fun w =>
    let f : FaultInfo := { kind := 0x23, level := 3, lasting := !clean, ctx := none, die := die.val, unit := 14, core := 0,
                           gen := w.hw.genChip, tag := 0, addr := none, detail := 0 }
    Work.when w.clocked w fun w => if clean then (w.countFault f).record f false else w.fault f

/-- The fault of a management core that misses its heartbeat (R529, R539). -/
def Work.fwFault (w : Work) (lasting : Bool) (detail : Nat) : FaultInfo where
  kind := 0x25
  level := 3
  lasting := lasting
  ctx := none
  die := 28
  unit := 15
  core := 0
  gen := w.hw.genChip
  tag := 0
  addr := none
  detail := detail

/-- What a write of ERR_FW_HEART does (R539): a heartbeat from a core that was restarted makes its fault transient. -/
def Work.fwHeart (w : Work) (who : ClampBy) (value : Nat) : Work :=
  let (v, w) := w.woWrite who Reg.ERR_FW_HEART value
  let m := bits v 0 3
  if SMap.get false w.hw.fwLate m then
    let w := { w with hw := { w.hw with fwLate := SMap.set false w.hw.fwLate m false } }
    w.countFault (w.fwFault false 0)
  else w

/-- FW_HEARTBEAT: ERR_FW_HEART is written (R539). -/
def execFwHeartbeat (master : Master) (value : Word) (s : State) : Host.Outcome State Fault Refusal :=
  run s fun w => w.fwHeart (w.clampBy master) value.toNat

/-! ### Orphans (R544) -/

/-- Resets that waited on an orphan's tag are tried again. -/
def Work.retryResets (w : Work) : Work :=
  let l := w.hw.resetsWait
  let w := ({ w with hw := { w.hw with resetsWait := [] } }).settle settleFuel (l.map fun (x : WaitReset) => Todo.core x.core x.cause x.named)
  if w.abortWaits then w else w.setFlag (Reg.ERR_STATUS 28) Fld.ERR_STATUS_ABORT_STUCK false

/-- LATE_REPLY_DROP: the reply to an orphan arrives and is dropped; its pool operation returns (R544, R620). -/
def execLateReplyDrop (orphan : Nat) (s : State) : Host.Outcome State Fault Refusal :=
  run s fun w =>
    match SMap.find? w.hw.orphans orphan with
    | some q =>
      let w := (w.dropReply fun e => decide (e.1 = orphan))
      let w := match q.src with | .host p _ => w.bumpErr (Reg.HUB_CPL_DROP p) 1 | _ => w
      w.retryResets
    | none => w

/-- ORPHAN_EXPIRE: REQ_MS after its issue an orphan returns its pool operation (R544). -/
def execOrphanExpire (orphan : Nat) (s : State) : Host.Outcome State Fault Refusal :=
  run s fun w => ({ w with hw := { w.hw with orphans := SMap.del w.hw.orphans orphan } }).retryResets

/-! ### Region reset (R548) -/

/-- A move that the migration log records is undone (R350): MIGRATING is cleared, the destination frame returned. -/
def Work.replayLog (w : Work) (r : Nat) : Work :=
  match (w.pge r).move with
  | none => w
  | some v =>
    let m := v.entry
    let (res, w) := w.walk r m.id.ctx m.id.page
    let w := match res with | .leaf _ a e => w.unitPut a 8 (setBits e 6 1 0) | .fault _ _ => w
    let w := match v.dest with | some d => w.releaseFrames (if m.promote then 0 else 1) d m.id.slab false | none => w
    w.wakeHeld m.id

/-- The reset of a region's units (R540): paging unit, allocator, channels, power agent, descriptor store. -/
def Work.resetRegionUnits (w : Work) (r : Nat) : Work :=
  let w := w.replayLog r
  let w := w.orphan fun s => match s with | .unit d _ => decide (d = r) | _ => false
  let base := dieWindow r + 0x20000000
  let w := w.resetBlock base (base + 0x4000000) fun a => decide (Reg.MEM_CH_FAIL r ≤ a) && decide (a < Reg.MEM_CH_FAIL r + 8)
  let w := w.forEach (List.range 64) fun w c =>
    w.updChan (64 * r + c) fun k => { Chan.reset with waiting := k.waiting.filter fun a => decide (a.input ≠ 0) }
  let mine (k : Nat) : Bool := decide (k / 16384 = r)
  { w with hw := { w.hw with
      genRegion := SMap.set 0 w.hw.genRegion r ((SMap.get 0 w.hw.genRegion r + 1) % 256)
      paging := SMap.del w.hw.paging r
      alcs := SMap.del w.hw.alcs r
      invals := w.hw.invals.filter fun e => decide (e.2.purpose ≠ .move r ∧ e.2.purpose ≠ .unmap r)
      descs := w.hw.descs.filter fun e => !mine e.1
      descPos := w.hw.descPos.filter fun e => !mine e.1
      descBad := w.hw.descBad.filter fun e => !mine e.1
      descFirst := w.hw.descFirst.filter fun e => !mine e.1
      installs := w.hw.installs.filter fun x => decide (coreRegion x.core ≠ r)
      ueReports := SMap.del w.hw.ueReports r
      bistRun := SMap.set 0 w.hw.bistRun r 0
      reqs := w.hw.reqs.map fun e =>
        (e.1, if (e.2.stage = .walk ∨ e.2.stage = .held) ∧ e.2.pge = r then { e.2 with stage := .translate } else e.2) } }

/-- Channels marked failed in a region. -/
def Work.failedChannels (w : Work) (r : Nat) : Nat := ((List.range 64).filter fun c => (w.r64 (Reg.MEM_CH_FAIL r)).getLsbD c).length

/-- The fault of a region whose training fails (R548). -/
def Work.trainFault (w : Work) (r : Nat) : FaultInfo where
  kind := 0x17
  level := 3
  lasting := true
  ctx := none
  die := r
  unit := 7
  core := 0
  gen := SMap.get 0 w.hw.genRegion r
  tag := 0
  addr := none
  detail := 0

/-- A region's channels train, and fail the training twice where `failed` says so; `late`: the region did not end its training in time (R303, R548). -/
def Work.trainRegion (w : Work) (r : Nat) (failed : Nat) (late : Bool) : Work :=
  let w := w.forEach ((List.range 64).filter fun c => decide (bits failed c 1 = 1)) fun w c => w.failChannel (64 * r + c)
  let twice := late && SMap.get false w.hw.regionLate r
  let w := { w with hw := { w.hw with regionLate := SMap.set false w.hw.regionLate r late } }
  if decide (8 < w.failedChannels r) || twice then (w.fault (w.trainFault r)).withdrawRegion r
  else w.setFlag (Reg.MEM_STATUS r) Fld.MEM_STATUS_TRAINED true

/-- The cores of a region are reset (R540, R548): the work, the contexts that lost their state with their cores, and the other faults. -/
def Work.resetRegionCores (w : Work) (r : Nat) : Work × List (Nat × Nat) × List FaultInfo :=
  (List.range 17).foldl (fun (st : Work × List (Nat × Nat) × List FaultInfo) i =>
    let (w, x, f) := st.1.resetCells (17 * r + i)
    (w, st.2.1 ++ (match x with | some x => [(17 * r + i, x)] | none => []), st.2.2 ++ f)) (w, [], [])

/-- A region reset, to its end (R548, R549). -/
def Work.regionReset (w : Work) (r : Nat) (failed : Nat) (late counted faulty : Bool) : Work :=
  let w := w.forEach (List.range 17) fun w i => if (w.kilnCore (17 * r + i)).lent then w.reclaim (17 * r + i) else w
  let (w, lost, faults) := w.resetRegionCores r
  let w := w.resetRegionUnits r
  let w := w.settle settleFuel (faults.map Todo.fault ++ lost.map (fun e => Todo.fault (w.resetLoss e.1 e.2 2)) ++
    (if faulty then lost.map fun e => Todo.abort e.2 else []))
  let w := if counted then w.escAdd (272 + r) (Reg.ERR_ESC_REGION r) 30 else w
  if counted && decide (2 ≤ w.escCount (272 + r) 30) then w.withdrawRegion r
  else
    let w := w.trainRegion r failed late
    if w.regionDisabled r then w
    else w.forEach (List.range 17) fun w i =>
      let c := 17 * r + i
      if w.coreDisabled c then w else (w.setKiln c { w.kilnCore c with loan := 0, lent := false, back := none }).proofStart c 2 |>.selfTestStart c

/-- The reset of unit n (a region, or 16 for the chip) that is due, as `Hw.resetsDue` has it. -/
def Work.dueReset (w : Work) (n : Nat) : Option Nat := w.hw.resetsDue.find? fun m => decide (m % 32 = n)

/-- A reset is no longer due. -/
def Work.dropDue (w : Work) (n : Nat) : Work :=
  { w with hw := { w.hw with resetsDue := w.hw.resetsDue.filter fun m => decide (m % 32 ≠ n) } }

/-- Does an orphan of region r's masters hold the next tag (R544)? -/
def Work.regionTagHeld (w : Work) (r : Nat) : Bool :=
  ((List.range 17).any fun i => w.tagHeld (17 * r + i)) ||
    w.hw.orphans.any fun e => (match e.2.src with | .unit d _ => decide (d = r) | _ => false) &&
      decide (e.2.gen = (SMap.get 0 w.hw.genRegion r + 1) % 256)

/-- REGION_RESET: a region reset that has been ordered is performed, to the end of its training and the start of its self-tests (R548). `failed`:
channels that fail training twice; `late`: it does not end within 410 ms. -/
def execRegionReset (region : RegionIx) (failed : DWord) (late : Bool) (s : State) : Host.Outcome State Fault Refusal :=
  run s fun w =>
    let r := region.val
    match w.dueReset r with
    | some n =>
      if !w.clocked || w.regionDisabled r || w.regionTagHeld r then w
      else (w.dropDue r).regionReset r failed.toNat late (decide (n / 32 % 2 = 0)) (decide (64 ≤ n))
    | none => w

/-! ### Chip reset (R549, R552–R555, R567) -/

/-- The physical coordinate that a block number and the straps give (R455). -/
def physCoord (block pos : Nat) : Nat :=
  [0, 1, 2, 3].foldl (fun acc a => acc + (bits block (2 * a) 2 * 4 + bits pos (2 * a) 2) * 16 ^ a) 0

/-- RTE_IDSTAT and RTE_SELF.PHYS follow the straps and the block number (R455, R587, R591). -/
def Work.showIds (w : Work) : Work :=
  let pos := w.fld (Reg.BOOT_STRAP 1) Fld.BOOT_STRAP_POS
  let block := w.fld (Reg.BOOT_ACHAIN_STAT 1) Fld.BOOT_ACHAIN_STAT_BLOCK
  let valid := w.flag (Reg.BOOT_ACHAIN_STAT 1) Fld.BOOT_ACHAIN_STAT_VALID
  w.forEach linkDies fun w p =>
    let w := ((w.setFld (Reg.RTE_IDSTAT p) Fld.RTE_IDSTAT_BLOCK block).setFlag (Reg.RTE_IDSTAT p) Fld.RTE_IDSTAT_BLOCK_VALID valid).setFld
      (Reg.RTE_IDSTAT p) Fld.RTE_IDSTAT_POS pos
    w.setFld (Reg.RTE_SELF p) Fld.RTE_SELF_PHYS (physCoord block pos)

/-- Units marked for return come back into service, with their counts at zero (R553). -/
def Work.unitsReturn (w : Work) : Work :=
  let w := w.forEach (List.range 272) fun w i =>
    let a := Reg.ERR_ESC_CORE i
    if w.flag a Fld.ERR_ESC_CORE_RETURN then
      let w := (w.setFlag a Fld.ERR_ESC_CORE_RETURN false).setFlag a Fld.ERR_ESC_CORE_DISABLED false
      if SMap.get 0 w.hw.spareIn (i / 17) = i % 17 + 1 then { w with hw := { w.hw with spareIn := SMap.set 0 w.hw.spareIn (i / 17) 0 } } else w
    else w
  w.forEach (List.range 16) fun w r =>
    let a := Reg.ERR_ESC_REGION r
    if w.flag a Fld.ERR_ESC_REGION_RETURN then (w.setFlag a Fld.ERR_ESC_REGION_RETURN false).setFlag a Fld.ERR_ESC_REGION_DISABLED false else w

/-- A host's requests in flight are completed with Completer Abort (R621); the posted writes of a host have no completion. -/
def Work.abortHost (w : Work) : Work :=
  let l := w.hw.reqs.filterMap fun e =>
    match e.2.src, e.2.op, decide (e.2.stage ≠ .replied) with | .host p t, .read _, true => some (1024 * p + t) | _, _, _ => none
  { w with hw := { w.hw with completions := l.foldl (fun m k => SMap.put m k ⟨true, false, []⟩) w.hw.completions } }

/-- The state that a chip reset clears beyond the registers (R540): everything but the always-on plane, the contents of memory, the orphans and the
advanced tags. -/
def Hw.chipReset (h : Hw) : Hw :=
  let next (m : SMap Nat) (n : Nat) : SMap Nat := (List.range n).foldl (fun m k => SMap.set 0 m k ((SMap.get 0 m k + 1) % 256)) m
  { h with
    cores := [], seeds := [], watchMsgs := [], longWaits := [], reqs := [], chans := [], ueReports := [], bistRun := [], capMode := []
    cycleStart := (List.range 272).foldl (fun m c => SMap.set 0 m c (h.rootEighths / 8)) []
    genCore := next h.genCore 272, genRegion := next h.genRegion 16, genChip := (h.genChip + 1) % 256
    capHot := [], paging := [], alcs := [], invals := [], granules := [], descOwner := [], tables := [], ports := [], alertPairs := []
    alertCount := 0, colOps := [], colSeq := [], colFailed := [], colEarly := [], colTurn := [], setWrites := [], resetsDue := []
    descs := [], descPos := [], descBad := [], installs := [], ringEntries := [], exiting := [], exited := [], chipStart := h.uptime
    phases := [], phaseDone := [], phaseHeld := [], phaseSum := [], phaseWall := [], phaseOwn := [], phaseClose := none, snpSets := []
    snpJobs := [], red64 := false, recRead := 0, recDiffers := false, descFirst := [], resetsWait := [], abortsDue := [], fwLate := []
    kiln := h.kiln.map fun e => (e.1, { e.2 with loan := 0, lent := false, back := none }) }

/-- The reset of all four levels on all 32 dies (R540, R543, R553, R621). -/
def Work.resetChip (w : Work) : Work :=
  let w := w.abortHost.orphan fun _ => true
  let w := w.resetBlock 0x3F0000000000 0x3F2000000000 chipKeeps
  let w := (({ w with hw := w.hw.chipReset }).unitsReturn.setPool 0).showIds
  let w := w.forEach linkDies fun w p => w.setFld (Reg.RTE_SELF p) Fld.RTE_SELF_LOGICAL w.selfPhys
  w.setFlag (Reg.ERR_STATUS 28) Fld.ERR_STATUS_ABORT_STUCK false

/-- The chip goes out of service (R549, R552). -/
def Work.outOfService (w : Work) : Work :=
  (w.setFlag Reg.ERR_ESC_CHIP Fld.ERR_ESC_CHIP_DISABLED true).setChipState 2

/-- The reference that a chip reset takes (R567). -/
def Work.chooseRef (w : Work) : Option Nat :=
  let p := w.fld Reg.CLK_CTRL Fld.CLK_CTRL_REF_PREF
  if w.refStable p then some p else if w.refStable (1 - p) then some (1 - p) else none

/-- The boot controller at a chip reset (R602, R604, R606): a flash command is suspended, no image runs. -/
def Work.bootReset (w : Work) : Work :=
  let st := Reg.BOOT_STATUS 0
  let w := ((w.setFld st Fld.BOOT_STATUS_STAGE 1).setFld st Fld.BOOT_STATUS_SOURCE 0).w32 (Reg.BOOT_FWVER 0) 0
  { w with hw := { w.hw with flashHeld := w.hw.flashCmd.isSome } }

/-- CHIP_RESET: a chip reset that has been ordered is performed, to the training of the stacks and the start of the self-tests (R554). `failed`: the
stacked channels that fail training twice, 64 for each region; `late`: regions that do not end their training in time. -/
def execChipReset (failed : BitVec 1024) (late : BitVec 16) (s : State) : Host.Outcome State Fault Refusal :=
  run s fun w =>
    match w.dueReset 16 with
    | none => w
    | some n =>
      if !w.railsOn || !w.hw.starterOk then w
      else
        let counted := decide (n / 32 % 2 = 0)
        let w := w.resetChip
        let w := if counted then w.escAdd 288 Reg.ERR_ESC_CHIP 60 else w
        let w := (w.setChipState 1).bootReset
        if counted && decide (4 ≤ w.escCount 288 60) then w.stopClocks.outOfService
        else match w.chooseRef with
          | none => w.haltClocks
          | some ref =>
            let w := w.lock ref
            let w := w.forEach ((List.range 16).filter fun r => !w.regionDisabled r) fun w r =>
              w.trainRegion r (bits failed.toNat (64 * r) 64) (late.getLsbD r)
            let up := (List.range 272).filter fun c => !w.coreDisabled c
            let w := w.makeWild 0x100000000000 0x100200000000
            w.forEach up fun w c => (w.updCore c fun k => { k with test := .running false }).proofForce c 3

/-- What a write of ERR_RELEASE does (R552, R553, R588). -/
def Work.errRelease (w : Work) (who : ClampBy) (value : Nat) : Work :=
  let (v, w) := w.woWrite who Reg.ERR_RELEASE value
  let w := if bits v 1 1 = 1 then
      let w := w.forEach (List.range 272) fun w i =>
        let a := Reg.ERR_ESC_CORE i
        let w := if w.flag a Fld.ERR_ESC_CORE_DISABLED then w.setFlag a Fld.ERR_ESC_CORE_RETURN true else w
        if w.fld a Fld.ERR_ESC_CORE_COUNT = 0 then w else w.setFld a Fld.ERR_ESC_CORE_COUNT 0
      let w := w.forEach (List.range 16) fun w r =>
        let a := Reg.ERR_ESC_REGION r
        let w := if w.flag a Fld.ERR_ESC_REGION_DISABLED then w.setFlag a Fld.ERR_ESC_REGION_RETURN true else w
        if w.fld a Fld.ERR_ESC_REGION_COUNT = 0 then w else w.setFld a Fld.ERR_ESC_REGION_COUNT 0
      { (w.setFld Reg.ERR_ESC_CHIP Fld.ERR_ESC_CHIP_COUNT 0) with hw := { w.hw with escTimes := [] } }
    else w
  if bits v 0 1 = 1 then
    let w := (w.setFld Reg.ERR_ESC_CHIP Fld.ERR_ESC_CHIP_COUNT 0).setFlag Reg.ERR_ESC_CHIP Fld.ERR_ESC_CHIP_DISABLED false
    let w := { w with hw := { w.hw with escTimes := SMap.del w.hw.escTimes 288 } }
    let w := (w.setFlag (Reg.BOOT_STRAP 1) Fld.BOOT_STRAP_RECOVERY false).dropDue 16
    if w.railsOn then w.orderReset 48 else w
  else w

/-- ERR_RELEASE_CHIP: ERR_RELEASE is written with CHIP 1 (R552, R588). -/
def execErrReleaseChip (master : Master) (value : Word) (s : State) : Host.Outcome State Fault Refusal :=
  run s fun w => Work.when (value.getLsbD 0) w fun w => w.errRelease (w.clampBy master) value.toNat

/-- ERR_RELEASE_UNITS: ERR_RELEASE is written with UNITS 1 (R553). -/
def execErrReleaseUnits (master : Master) (value : Word) (s : State) : Host.Outcome State Fault Refusal :=
  run s fun w => Work.when (value.getLsbD 1) w fun w => w.errRelease (w.clampBy master) value.toNat

end Sys2Proof.Machine
end

