-- ==== Sys2Proof/Machine/Boot.lean ====
section
/-! DEFINITION. Straps, the address chain, the Starter, images, slot-pointer records, boots, flash commands, fuses (R587–R612), and the restart of a
management core (R539, R603). -/

namespace Sys2Proof.Machine

/-! ### Straps and the address chain (R587–R591) -/

/-- STRAP_SAMPLE: a round of 8 samples of POS (8 bits) and RECOVERY_N is taken, the first in the low bits (R587, R588). -/
def execStrapSample (samples : BitVec 72) (s : State) : Host.Outcome State Fault Refusal :=
  run s fun w =>
    let v (i : Nat) : Nat := bits samples.toNat (9 * i) 9
    let agree := (List.range 8).all fun i => decide (v i = v 7)
    let take (w : Work) (unstable : Bool) : Work :=
      let w := w.w32 (Reg.BOOT_STRAP 1) (BitVec.ofNat 32 (bits (v 7) 0 8 + (1 - bits (v 7) 8 1) * 2 ^ 8 + (if unstable then 2 ^ 9 else 0)))
      ({ w with hw := { w.hw with strapRound := 2 } }).showIds
    if w.hw.strapRound = 2 then w
    else if agree then take w false
    else if w.hw.strapRound = 0 then { w with hw := { w.hw with strapRound := 1 } }
    else take w true

/-- An error of the address chain is found to be transient or lasting (R590). -/
def Work.chainError (w : Work) (lasting : Bool) : Work :=
  let w := w.setFlag (Reg.BOOT_ACHAIN_ERR 1) (if lasting then Fld.BOOT_ACHAIN_ERR_PARITY_LASTING else Fld.BOOT_ACHAIN_ERR_PARITY_TRANSIENT) true
  let w := w.bumpErr (if lasting then Reg.ERR_LASTING 29 else Reg.ERR_TRANSIENT 29) 1
  { w with hw := { w.hw with badFrame := false } }

/-- Is a frame of 19 bits good: its 16 data bits and the parity bit even, its stop bit 1 (R589, R590)? -/
def frameGood (f : BitVec 19) : Bool :=
  decide (((List.range 17).filter fun i => f.getLsbD (1 + i)).length % 2 = 0) && f.getLsbD 18

/-- ACHAIN_FRAME: a frame is received, first bit in bit 0 (R589–R591). -/
def execAchainFrame (frame : BitVec 19) (s : State) : Host.Outcome State Fault Refusal :=
  run s fun w =>
    let st := Reg.BOOT_ACHAIN_STAT 1
    let er := Reg.BOOT_ACHAIN_ERR 1
    let block := bits frame.toNat 1 8
    let hop := bits frame.toNat 9 8
    if frame.getLsbD 0 then w
    else if frameGood frame then
      let w := if w.hw.badFrame then w.chainError false else w
      let w := { w with hw := { w.hw with achainOut := some (block, min 255 (hop + 1)) } }
      if w.flag st Fld.BOOT_ACHAIN_STAT_VALID then
        (if w.fld st Fld.BOOT_ACHAIN_STAT_BLOCK = block then w else w.setFlag er Fld.BOOT_ACHAIN_ERR_CONFLICT true)
      else (w.w32 st (BitVec.ofNat 32 (block + 2 ^ 8 + hop * 2 ^ 16))).showIds
    else
      let w := w.satAdd er Fld.BOOT_ACHAIN_ERR_BAD_FRAMES 1
      if w.hw.badFrame then w.chainError true else { w with hw := { w.hw with badFrame := true } }

/-- ACHAIN_BAD_TIMEOUT: no good frame has followed a bad one within 100 ms (R590). -/
def execAchainBadTimeout (s : State) : Host.Outcome State Fault Refusal :=
  run s fun w => Work.when w.hw.badFrame w fun w => w.chainError true

/-- What a write of BOOT_ACHAIN_CMD does (R591). -/
def Work.chainCmd (w : Work) (who : ClampBy) (value : Nat) : Work :=
  let (v, w) := w.woWrite who (Reg.BOOT_ACHAIN_CMD 1) value
  if bits v 0 1 = 1 then (w.w32 (Reg.BOOT_ACHAIN_STAT 1) 0).showIds else w

/-- ACHAIN_RELEARN: BOOT_ACHAIN_CMD is written (R591). -/
def execAchainRelearn (master : Master) (value : Word) (s : State) : Host.Outcome State Fault Refusal :=
  run s fun w => w.chainCmd (w.clampBy master) value.toNat

/-! ### The flash (R592–R594) -/

/-- A byte of the flash. -/
def Work.flB (w : Work) (a : Nat) : Byte := SMap.get 0xFF w.hw.flash a

/-- Bytes of the flash. -/
def Work.flBytes (w : Work) (a n : Nat) : List Byte := (List.range n).map fun i => w.flB (a + i)

/-- A little-endian number in the flash. -/
def Work.flLE (w : Work) (a n : Nat) : Nat := leNat (w.flBytes a n)

/-- Set a byte of the flash. -/
def Work.flSet (w : Work) (a : Nat) (v : Byte) : Work := { w with hw := { w.hw with flash := SMap.set 0xFF w.hw.flash a v } }

/-- Program bytes: a program clears bits and sets none. -/
def Work.flProgram (w : Work) (a : Nat) : List Byte → Work
  | [] => w
  | v :: vs => (w.flSet a (w.flB a &&& v)).flProgram (a + 1) vs

/-- Erase a 64 KiB sector. -/
def Work.flErase (w : Work) (a : Nat) : Work :=
  { w with hw := { w.hw with flash := w.hw.flash.filter fun e => decide (e.1 < a ∨ a + 65536 ≤ e.1) } }

/-- Contents that a failed program or erase leaves: free values (log entry 3). -/
def Work.flLose (w : Work) (a n : Nat) : Work :=
  let (d, w) := w.draw
  w.forEach (List.range n) fun w i => w.flSet (a + i) (Config.freeByte d (a + i))

/-- A flash read or program has passed at its second attempt, or failed twice (R598, R607). -/
def Work.flashFault (w : Work) (lasting : Bool) : Work :=
  let er := Reg.BOOT_ERR_STAT 0
  if lasting then (w.setFlag er Fld.BOOT_ERR_STAT_FLASH_LASTING true).bumpErr (Reg.ERR_LASTING 28) 1
  else ((w.setFlag er Fld.BOOT_ERR_STAT_FLASH_TRANSIENT true).satAdd er Fld.BOOT_ERR_STAT_TRANSIENT_CNT 1).bumpErr (Reg.ERR_TRANSIENT 28) 1

/-- STARTER_CHECK: mask ROM reads and checks the Starter region at standby power-on (R594); `read1`, `read2`: the reads of the flash are without error. -/
def execStarterCheck (read1 read2 : Bool) (s : State) : Host.Outcome State Fault Refusal :=
  run s fun w =>
    let st := Reg.BOOT_STATUS 0
    let digest := decide (sha384 (w.flBytes 0 0x200000) = Config.starterDigest)
    let pass (w : Work) : Work := { w with hw := { w.hw with starterOk := true } }
    if w.hw.starterOk ∨ w.fld st Fld.BOOT_STATUS_STAGE ≠ 0 then w
    else if read1 && digest then pass w
    else if read2 && digest then pass (w.flashFault false)
    else (w.setFld st Fld.BOOT_STATUS_STAGE 5).setFlag (Reg.BOOT_ERR_STAT 0) Fld.BOOT_ERR_STAT_STARTER_BAD true

/-! ### Images and their checks (R595–R598) -/

/-- Where a slot starts. -/
def slotAt (s : Nat) : Nat := 0x400000 + s * 0x2000000

/-- Where the body of a slot's image starts. -/
def bodyAt (s : Nat) : Nat := slotAt s + 4096

/-- The header fields of a slot. -/
def Work.hdr (w : Work) (s off n : Nat) : Nat := w.flLE (slotAt s + off) n
def Work.hdrKey (w : Work) (s : Nat) : Nat := w.hdr s 6 1
def Work.hdrSvn (w : Work) (s : Nat) : Nat := w.hdr s 7 1
def Work.hdrFwver (w : Work) (s : Nat) : Nat := w.hdr s 8 4
def Work.hdrBody (w : Work) (s : Nat) : Nat := w.hdr s 0x10 4
def Work.hdrSections (w : Work) (s : Nat) : Nat := w.hdr s 0x14 2

/-- The digest over the signed part of a header (R595, R599). -/
def Work.hdrDigest (w : Work) (s : Nat) : Nat := sha384 (w.flBytes (slotAt s) 0x200)

/-- A section entry (R596). -/
structure Section where
  type : Nat
  offset : Nat
  length : Nat
  load : Nat
deriving DecidableEq, Repr

/-- The sections of a slot's image. -/
def Work.sections (w : Work) (s : Nat) : List Section :=
  (List.range (min 16 (w.hdrSections s))).map fun i =>
    let a := 0x20 + 16 * i
    ⟨w.hdr s a 2, w.hdr s (a + 4) 4, w.hdr s (a + 8) 4, w.hdr s (a + 12) 4⟩

/-- The hub die of a section: only CODE_HD1 belongs to HD1. -/
def Section.hub (x : Section) : Nat := if x.type = 2 then 1 else 0

/-- The section types of R596. -/
def sectionTypes : List Nat := [0x0001, 0x0002, 0x0010, 0x0011, 0x0020, 0x0021, 0x0022, 0x0023, 0x0024, 0x0025]

/-- Do two sections overlap in management memory? -/
def Section.meets (x y : Section) : Bool :=
  decide (x.hub = y.hub) && decide (x.load < y.load + y.length) && decide (y.load < x.load + x.length)

/-- Check 7 (R598). -/
def sectionsGood (n body : Nat) (l : List Section) : Bool :=
  decide (1 ≤ n ∧ n ≤ 16) &&
    (l.all fun x => decide (x.offset + x.length ≤ body) && decide (x.load + x.length ≤ 2 ^ 24) && sectionTypes.contains x.type) &&
    ((l.zipIdx).all fun x => (l.zipIdx).all fun y => decide (x.2 = y.2) || !x.1.meets y.1) &&
    decide ((l.filter fun x => decide (x.type = 1)).length = 1) && decide ((l.filter fun x => decide (x.type = 2)).length = 1)

/-- Does one of the checks of R598 pass on a slot's image? -/
def Work.checkPasses (w : Work) (s : Nat) (k : Nat) : Bool :=
  match k with
  | 1 => decide (w.hdr s 0 4 = 0x3258544D) && decide (w.hdr s 4 2 = 1)
  | 2 => decide (bits (w.hdr s 0xC 4) 2 1 = 1)
  | 3 => decide (w.hdrKey s < 4) && decide (bits (w.fld (Reg.BOOT_FUSE 0) Fld.BOOT_FUSE_KEY_REVOKED) (w.hdrKey s) 1 = 0) &&
      decide (sha384 (w.flBytes (slotAt s + 0x150) 97) = Config.keyDigest (w.hdrKey s))
  | 4 => decide (w.fld (Reg.BOOT_FUSE 0) Fld.BOOT_FUSE_SVN_MIN ≤ w.hdrSvn s)
  | 5 =>
    let at_ (off : Nat) : Nat := beNat (w.flBytes (slotAt s + off) 48)
    decide (w.flB (slotAt s + 0x150) = 4) && ecdsaVerifies (at_ 0x151) (at_ 0x181) (w.hdrDigest s) (at_ 0x200) (at_ 0x230)
  | 6 => decide (w.hdrBody s ≤ 33550336) &&
      decide (sha384 (w.flBytes (bodyAt s) (w.hdrBody s)) = beNat (w.flBytes (slotAt s + 0x120) 48))
  | _ => sectionsGood (w.hdrSections s) (w.hdrBody s) (w.sections s)

/-- The first check that fails, 0 when all pass. `stale`: the pointer's digest does not match, which counts as check 5 (R601); a read that fails
twice makes check `bad` fail. -/
def Work.imageCheck (w : Work) (s : Nat) (stale : Bool) (read : ReadCheck) (bad : Nat) : Nat :=
  ([1, 2, 3, 4, 5, 6, 7].find? fun k =>
    !w.checkPasses s k || (stale && decide (k = 5)) || (decide (read = .lasting) && decide (k = bad))).getD 0

/-- Run the checks on a slot and show their outcome (R598, R612). -/
def Work.runChecks (w : Work) (s : Nat) (stale : Bool) (read : ReadCheck) (bad : Nat) : Nat × Work :=
  let k := w.imageCheck s stale read bad
  let a := Reg.BOOT_SLOT 0 s
  let w := if read = .transient then w.flashFault false else w
  let w := (((w.setFlag a Fld.BOOT_SLOT_CHECKED true).setFld a Fld.BOOT_SLOT_CHECK k).setFld a Fld.BOOT_SLOT_SVN (w.hdrSvn s)).setFld a
    Fld.BOOT_SLOT_FWVER (w.hdrFwver s)
  if k = 0 then (k, w.setFlag a Fld.BOOT_SLOT_VERIFIED true)
  else
    let i := Reg.BOOT_ERR_INFO 0
    (k, ((w.setFlag (Reg.BOOT_ERR_STAT 0) Fld.BOOT_ERR_STAT_SLOT_BAD true).setFld i Fld.BOOT_ERR_INFO_CHECK k).setFld i Fld.BOOT_ERR_INFO_SLOT s)

/-! ### Slot-pointer records (R599–R601) -/

/-- Where record i lies. -/
def recAt (i : Nat) : Nat := 0x200000 + 64 * i

/-- Is a record slot free? -/
def Work.recFree (w : Work) (i : Nat) : Bool := (w.flBytes (recAt i) 64).all fun b => decide (b = 0xFF)

/-- Is the CRC of a record correct? -/
def Work.recCrc (w : Work) (i : Nat) : Bool := decide (crc32 (w.flBytes (recAt i) 60) = w.flLE (recAt i + 60) 4)

/-- A slot-pointer record. -/
structure SlotRec where
  index : Nat
  type : Nat
  slot : Nat
  revert : Bool
  seq : Nat
  act : Nat
  digest : Nat
deriving DecidableEq, Repr

/-- The valid records (R599). -/
def Work.records (w : Work) : List SlotRec :=
  (List.range 2048).filterMap fun i =>
    let a := recAt i
    if w.flLE a 4 = 0x52505452 ∧ w.recCrc i then
      some ⟨i, w.flLE (a + 4) 1, w.flLE (a + 5) 1 % 2, decide (w.flLE (a + 6) 2 % 2 = 1), w.flLE (a + 8) 4, w.flLE (a + 12) 4,
        beNat (w.flBytes (a + 0x20) 28)⟩
    else none

/-- The record with the highest SEQ. -/
def newest (l : List SlotRec) : Option SlotRec :=
  l.foldl (fun b x => match b with | some y => if y.seq < x.seq then some x else b | none => some x) none

/-- The pointer (R601). -/
def pointerOf (l : List SlotRec) : Option SlotRec := newest (l.filter fun x => decide (x.type = 1))

/-- Is a pointer confirmed (R601)? -/
def confirmed (l : List SlotRec) (p : SlotRec) : Bool := p.revert || l.any fun x => decide (x.type = 3) && decide (x.act = p.seq)

/-- The attempt count of a pointer (R601). -/
def attempts (l : List SlotRec) (p : SlotRec) : Nat := (l.filter fun x => decide (x.type = 2) && decide (x.act = p.seq)).length

/-- Show the pointer in BOOT_ACTIVE, BOOT_ACT_SEQ, BOOT_REC and BOOT_STATUS. -/
def Work.showPointer (w : Work) : Work :=
  let l := w.records
  let w := w.w32 (Reg.BOOT_REC 0) (BitVec.ofNat 32 (match newest l with | some r => r.seq | none => 0))
  let st := Reg.BOOT_STATUS 0
  match pointerOf l with
  | some p =>
    let w := w.w32 (Reg.BOOT_ACTIVE 0) (BitVec.ofNat 32 (p.slot + 2 + (if p.revert then 4 else 0)))
    ((w.w32 (Reg.BOOT_ACT_SEQ 0) (BitVec.ofNat 32 p.seq)).setFlag st Fld.BOOT_STATUS_CONFIRMED (confirmed l p)).setFld st
      Fld.BOOT_STATUS_ATTEMPTS (min 3 (attempts l p))
  | none =>
    (((w.w32 (Reg.BOOT_ACTIVE 0) 0).w32 (Reg.BOOT_ACT_SEQ 0) 0).setFlag st Fld.BOOT_STATUS_CONFIRMED false).setFld st Fld.BOOT_STATUS_ATTEMPTS 0

/-- The record sectors are read at a boot: a record that is not free and fails its CRC is reported (R602, R612). -/
def Work.scanRecords (w : Work) : Work :=
  match ((List.range 2048).filter fun i => !w.recFree i && !w.recCrc i).getLast? with
  | some i => ((w.setFlag (Reg.BOOT_ERR_STAT 0) Fld.BOOT_ERR_STAT_REC_CRC true).setFld (Reg.BOOT_ERR_INFO 0) Fld.BOOT_ERR_INFO_RECORD i).showPointer
  | none => w.showPointer

/-- Where the next record goes (R600). -/
def Work.nextRecord (w : Work) (l : List SlotRec) : Nat :=
  let sector := (match newest l with | some r => r.index | none => 0) / 1024
  let last := ((List.range 1024).filter fun i => !w.recFree (1024 * sector + i)).getLast?
  match last with
  | none => 1024 * sector
  | some i => if i + 1 < 1024 then 1024 * sector + i + 1 else 1024 * (1 - sector)

/-- Append a record (R599, R600): `act` none for an ACTIVATE, whose ACT_SEQ is its own SEQ. -/
def Work.appendRecord (w : Work) (type slot : Nat) (revert : Bool) (act : Option Nat) : Work :=
  let l := w.records
  let seq := ((match newest l with | some r => r.seq | none => 0) + 1) % 2 ^ 32
  let i := w.nextRecord l
  let digest := w.hdrDigest slot / 2 ^ (8 * 20)
  let body := leBytes 4 0x52505452 ++ leBytes 1 type ++ leBytes 1 slot ++ leBytes 2 (if revert then 1 else 0) ++ leBytes 4 seq ++
    leBytes 4 (act.getD seq) ++ leBytes 4 (w.hdrFwver slot) ++ leBytes 12 0 ++ (leBytes 28 digest).reverse
  let w := w.flProgram (recAt i) (body ++ leBytes 4 (crc32 body))
  let w := if 1023 - i % 1024 ≤ 64 then { w with hw := { w.hw with recErase := some (1 - i / 1024) } } else w
  w.showPointer

/-- RECORD_SECTOR_ERASE: outside every boot the boot controller erases the older record sector (R600). -/
def execRecordSectorErase (s : State) : Host.Outcome State Fault Refusal :=
  run s fun w =>
    match w.hw.recErase with
    | some k =>
      Work.when (decide (3 ≤ w.fld (Reg.BOOT_STATUS 0) Fld.BOOT_STATUS_STAGE)) w fun w =>
        ({ w with hw := { w.hw with recErase := none } }).flErase (0x200000 + 65536 * k)
    | none => w

/-! ### Boots (R602–R604, R610) -/

/-- Copy a section of a slot's image into management memory (R596). -/
def Work.copySection (w : Work) (s : Nat) (x : Section) : Work :=
  let bytes := w.flBytes (bodyAt s + x.offset) x.length
  { w with hw := { w.hw with
      mgmtMem := (bytes.foldl (fun (st : SMap Byte × Nat) b => (SMap.set 0 st.1 st.2 b, st.2 + 1)) (w.hw.mgmtMem, 2 ^ 24 * x.hub + x.load)).1 } }

/-- Load an image: the checks, then its sections (R602). -/
def Work.loadImage (w : Work) (s : Nat) (stale : Bool) (read : ReadCheck) (bad : Nat) : Bool × Work :=
  let (k, w) := w.runChecks s stale read bad
  if k ≠ 0 then (false, w)
  else
    let st := Reg.BOOT_STATUS 0
    let w := w.forEach (w.sections s) fun w x => w.copySection s x
    (true, ((w.setFld st Fld.BOOT_STATUS_STAGE 2).setFld st Fld.BOOT_STATUS_SOURCE (1 + s)).w32 (Reg.BOOT_FWVER 0)
      (BitVec.ofNat 32 (w.hdrFwver s)))

/-- A boot ends in host recovery (R604, R610): the chip goes out of service, with a FW_HANG record unless RECOVERY asked for it. -/
def Work.hostRecovery (w : Work) (asked : Bool) : Work :=
  let w := w.setFld (Reg.BOOT_STATUS 0) Fld.BOOT_STATUS_STAGE 4
  let w := if asked then w
    else
      let f := w.fwFault true (w.r32 (Reg.BOOT_STATUS 0)).toNat
      (w.countFault f).record f false
  w.outOfService

/-- The Starter falls back from slot s (R602). -/
def Work.fallBack (w : Work) (s : Nat) (read : Nat → ReadCheck) (bad : Nat → Nat) : Work :=
  let t := 1 - s
  let (ok, w) := w.loadImage t false (read t) (bad t)
  if ok then (w.appendRecord 1 t true none).setFlag (Reg.BOOT_STATUS 0) Fld.BOOT_STATUS_REVERTED true else w.hostRecovery false

/-- BOOT_IMAGE_LOAD: the Starter reads the records, chooses an image and loads it (R602, R604). For each slot: how the reads of its image go, and the
check that a read which fails twice belongs to, less 1. -/
def execBootImageLoad (readA : ReadCheck) (badA : Fin 7) (readB : ReadCheck) (badB : Fin 7) (s : State) :
    Host.Outcome State Fault Refusal :=
  run s fun w =>
    let st := Reg.BOOT_STATUS 0
    let read (i : Nat) : ReadCheck := if i = 0 then readA else readB
    let bad (i : Nat) : Nat := (if i = 0 then badA.val else badB.val) + 1
    if !w.hw.starterOk ∨ w.chipState ≠ 1 ∨ w.fld st Fld.BOOT_STATUS_STAGE ≠ 1 then w
    else
      let w := ((w.setFlag st Fld.BOOT_STATUS_NO_POINTER false).setFlag st Fld.BOOT_STATUS_REVERTED false).setFlag st Fld.BOOT_STATUS_NO_BLOCK false
      let w := w.scanRecords
      if w.flag (Reg.BOOT_STRAP 1) Fld.BOOT_STRAP_RECOVERY then w.hostRecovery true
      else
        let l := w.records
        match pointerOf l with
        | none =>
          let (ok, w) := w.loadImage 0 false (read 0) (bad 0)
          if ok then w.setFlag st Fld.BOOT_STATUS_NO_POINTER true
          else
            let (ok, w) := w.loadImage 1 false (read 1) (bad 1)
            if ok then w.setFlag st Fld.BOOT_STATUS_NO_POINTER true else w.hostRecovery false
        | some p =>
          if !confirmed l p && decide (3 ≤ attempts l p) then w.fallBack p.slot read bad
          else
            let stale := decide (p.digest ≠ w.hdrDigest p.slot / 2 ^ (8 * 20))
            let (ok, w) := w.loadImage p.slot stale (read p.slot) (bad p.slot)
            if ok then (if confirmed l p then w else w.appendRecord 2 p.slot false (some p.seq)) else w.fallBack p.slot read bad

/-! ### Table sections (R596, R597) -/

/-- A little-endian number in HD0's management memory. -/
def Work.mmLE (w : Work) (a n : Nat) : Nat := leNat ((List.range n).map fun i => SMap.get 0 w.hw.mgmtMem (a + i))

/-- May a CLOCK or POWER entry write a register (R596, R597)? -/
def tableNames (type a : Nat) : Bool :=
  if type = 0x10 then [Reg.CLK_CTRL, Reg.CLK_ROOT, Reg.CLK_MON_CFG].contains a
  else isCsr a && (decide (30 ≤ csrDie a) || (decide (csrDie a = 28) && decide ((a - 0x3F0000000000) % 0x100000000 / 0x1000000 = 6)))

/-- Apply one entry of a CLOCK or POWER section (R597). -/
def Work.applyEntry (w : Work) (type at_ : Nat) : Work :=
  let a := bits (w.mmLE at_ 8) 0 46 / 4 * 4
  let sel := bits (w.mmLE at_ 8) 48 8
  let value := w.mmLE (at_ + 8) 4
  let mask := w.mmLE (at_ + 12) 4
  if sel ≠ 0 ∧ ¬(60 ≤ sel ∧ sel ≤ 80 ∧ w.fld Reg.CLK_ROOT Fld.CLK_ROOT_MULT = sel) then w
  else if !tableNames type a then w.setFlag (Reg.BOOT_STATUS 0) Fld.BOOT_STATUS_TABLE_SKIP true
  else
    let v := ((w.r32 a).toNat &&& (2 ^ 32 - 1 - mask)) ||| (value &&& mask)
    if a = Reg.PWR_CMD then w.pwrCmd .firmware v else w.regWrite (.firmware 0) a .w32 0xF v

/-- Apply the CLOCK and POWER sections of the image loaded from slot s. -/
def Work.applySections (w : Work) (s : Nat) : Work :=
  w.forEach ((w.sections s).filter fun x => decide (x.type = 0x10 ∨ x.type = 0x11)) fun w x =>
    w.forEach (List.range (x.length / 16)) fun w i => w.applyEntry x.type (x.load + 16 * i)

/-- BOOT_RELEASE: the wait for the block number has ended, and the management cores start (R602). -/
def execBootRelease (s : State) : Host.Outcome State Fault Refusal :=
  run s fun w =>
    let st := Reg.BOOT_STATUS 0
    if w.fld st Fld.BOOT_STATUS_STAGE ≠ 2 then w
    else
      let cold := !w.hw.booted
      let w := if cold then
          let w := w.applySections (w.fld st Fld.BOOT_STATUS_SOURCE - 1)
          let p := w.fld Reg.CLK_CTRL Fld.CLK_CTRL_REF_PREF
          let other := w.refStable p && decide (p ≠ w.refActive)
          if w.fld Reg.CLK_ROOT Fld.CLK_ROOT_MULT ≠ w.fld Reg.CLK_ROOT Fld.CLK_ROOT_ACTIVE_MULT ∨ other then
            w.relock (if other then p else w.refActive)
          else w
        else w
      let w := w.setFlag st Fld.BOOT_STATUS_NO_BLOCK (!w.flag (Reg.BOOT_ACHAIN_STAT 1) Fld.BOOT_ACHAIN_STAT_VALID)
      let w := (w.setFlag st Fld.BOOT_STATUS_COLD cold).setFld st Fld.BOOT_STATUS_STAGE 3
      { w with hw := { w.hw with booted := true, flashHeld := false } }

/-- FW_HANG: a management core has not written its heartbeat for FW_MS (R539, R603): the first time it restarts from the firmware image, if the body
read again passes its check; the second time in a row the fault is lasting. -/
def execFwHang (mcore : Fin 8) (read : ReadCheck) (s : State) : Host.Outcome State Fault Refusal :=
  run s fun w =>
    let m := mcore.val
    let source := w.fld (Reg.BOOT_STATUS 0) Fld.BOOT_STATUS_SOURCE
    if w.fld (Reg.BOOT_STATUS 0) Fld.BOOT_STATUS_STAGE ≠ 3 ∨ source = 0 then w
    else if SMap.get false w.hw.fwLate m then
      ({ w with hw := { w.hw with fwLate := SMap.set false w.hw.fwLate m false } }).fault (w.fwFault true 0)
    else
      let good := w.checkPasses (source - 1) 6 && decide (read ≠ .lasting)
      let w := if read = .transient then w.flashFault false else w
      if good then
        let w := w.forEach ((w.sections (source - 1)).filter fun x => decide (x.type = 1 + m / 4)) fun w x => w.copySection (source - 1) x
        ({ w with hw := { w.hw with fwLate := SMap.set false w.hw.fwLate m true } }).record (w.fwFault false 0) false
      else w.fault (w.fwFault true 0)

/-! ### Flash commands (R605–R608) -/

/-- May a master write BOOT_CMD, BOOT_CMD_ARG and BOOT_DATA_n now (R605)? -/
def Work.bootTakes (w : Work) (m : Master) : Bool :=
  match m with
  | .firmware _ => decide (w.chipState ≠ 2)
  | .host _ => decide (w.chipState = 2)
  | _ => false

/-- What a write of BOOT_CMD does (R605, R607): the command starts, on the buffer and argument as they stand. -/
def Work.bootCmd (w : Work) (m : Master) (value : Nat) : Work :=
  let cs := Reg.BOOT_CMD_STAT 0
  if !w.bootTakes m then w
  else if w.flag cs Fld.BOOT_CMD_STAT_BUSY then
    (w.clamp (w.clampBy m) (Reg.BOOT_CMD 0) 0 0 .joined).setFlag (Reg.BOOT_ERR_STAT 0) Fld.BOOT_ERR_STAT_CMD_DROP true
  else
    let (v, w) := w.woWrite (w.clampBy m) (Reg.BOOT_CMD 0) value
    let data := (List.range 64).flatMap fun i => leBytes 4 (w.r32 (Reg.BOOT_DATA 0 i)).toNat
    let c : FlashCmd := ⟨bits v 0 4, bits v 4 1, bits v 5 2, (w.r32 (Reg.BOOT_CMD_ARG 0)).toNat, data⟩
    let w := (w.setFlag cs Fld.BOOT_CMD_STAT_BUSY true).setFld cs Fld.BOOT_CMD_STAT_OP c.op
    { w with hw := { w.hw with flashCmd := some c } }

/-- BOOT_CMD is written with a given OP. -/
def bootCmdRow (op : Nat) (master : Master) (value : Word) (s : State) : Host.Outcome State Fault Refusal :=
  run s fun w => Work.when (decide (bits value.toNat 0 4 = op)) w fun w => w.bootCmd master value.toNat

/-- FLASH_NOP: BOOT_CMD is written with OP 0 (R607). -/
def execFlashNop (master : Master) (value : Word) (s : State) : Host.Outcome State Fault Refusal := bootCmdRow 0 master value s

/-- RAISE_SVN: BOOT_CMD is written with OP 1 (R607). -/
def execRaiseSvn (master : Master) (value : Word) (s : State) : Host.Outcome State Fault Refusal := bootCmdRow 1 master value s

/-- REVOKE_KEY: BOOT_CMD is written with OP 2 (R607). -/
def execRevokeKey (master : Master) (value : Word) (s : State) : Host.Outcome State Fault Refusal := bootCmdRow 2 master value s

/-- FLASH_CONFIRM: BOOT_CMD is written with OP 3 (R607). -/
def execFlashConfirm (master : Master) (value : Word) (s : State) : Host.Outcome State Fault Refusal := bootCmdRow 3 master value s

/-- FLASH_ACTIVATE: BOOT_CMD is written with OP 4 (R607). -/
def execFlashActivate (master : Master) (value : Word) (s : State) : Host.Outcome State Fault Refusal := bootCmdRow 4 master value s

/-- FLASH_ERASE: BOOT_CMD is written with OP 5 (R607). -/
def execFlashErase (master : Master) (value : Word) (s : State) : Host.Outcome State Fault Refusal := bootCmdRow 5 master value s

/-- FLASH_PROGRAM: BOOT_CMD is written with OP 6 (R607). -/
def execFlashProgram (master : Master) (value : Word) (s : State) : Host.Outcome State Fault Refusal := bootCmdRow 6 master value s

/-- FLASH_VERIFY: BOOT_CMD is written with OP 7 (R607). -/
def execFlashVerify (master : Master) (value : Word) (s : State) : Host.Outcome State Fault Refusal := bootCmdRow 7 master value s

/-- FLASH_READ: BOOT_CMD is written with OP 8, or a higher code that takes it (R607). -/
def execFlashRead (master : Master) (value : Word) (s : State) : Host.Outcome State Fault Refusal :=
  run s fun w => Work.when (decide (8 ≤ bits value.toNat 0 4)) w fun w => w.bootCmd master value.toNat

/-- The slot that the running image was loaded from (R606). -/
def Work.runningSlot (w : Work) : Option Nat :=
  let source := w.fld (Reg.BOOT_STATUS 0) Fld.BOOT_STATUS_SOURCE
  if source = 0 ∨ w.chipState = 2 then none else some (source - 1)

/-- The slot that a flash offset lies in. -/
def slotOfOffset (a : Nat) : Option Nat :=
  if 0x400000 ≤ a ∧ a < 0x2400000 then some 0 else if 0x2400000 ≤ a ∧ a < 0x4400000 then some 1 else none

/-- Is a flash offset protected from ERASE and PROGRAM (R606)? -/
def Work.flProtected (w : Work) (a : Nat) : Bool :=
  decide (a < 0x220000) || ((slotOfOffset a).isSome && decide (slotOfOffset a = w.runningSlot))

/-- A flash command completes with a RESULT, and CHECK for BAD_IMAGE (R607). -/
def Work.cmdResult (w : Work) (result check : Nat) : Work :=
  let cs := Reg.BOOT_CMD_STAT 0
  let w := ((w.setFlag cs Fld.BOOT_CMD_STAT_BUSY false).setFld cs Fld.BOOT_CMD_STAT_RESULT result).setFld cs Fld.BOOT_CMD_STAT_CHECK check
  { w with hw := { w.hw with flashCmd := none } }

/-- An ERASE or PROGRAM of `n` bytes at `a` with its effect `f` (R607): `first`, `second`: what the flash reports of the attempts. -/
def Work.flChange (w : Work) (a n : Nat) (first second : Bool) (f : Work → Work) : Work :=
  if w.flProtected a then w.cmdResult 1 0
  else
    let w := match slotOfOffset a with
      | some s => w.setFlag (Reg.BOOT_SLOT 0 s) Fld.BOOT_SLOT_VERIFIED false
      | none => w
    if first then (f w).cmdResult 0 0
    else if second then ((f w).flashFault false).cmdResult 0 0
    else ((w.flLose a n).flashFault true).cmdResult 3 0

/-- Put 256 bytes into BOOT_DATA_0 to BOOT_DATA_63. -/
def Work.fillData (w : Work) (bytes : List Byte) : Work :=
  w.forEach (List.range 64) fun w i => w.w32 (Reg.BOOT_DATA 0 i) (BitVec.ofNat 32 (leNat ((bytes.drop (4 * i)).take 4)))

/-- FLASH_CMD_DONE: the flash command in progress completes (R607). `first`, `second`: what the flash reports of its attempts; `read`, `bad`: for
VERIFY, as in a boot. -/
def execFlashCmdDone (first second : Bool) (read : ReadCheck) (bad : Fin 7) (s : State) : Host.Outcome State Fault Refusal :=
  run s fun w =>
    match w.hw.flashCmd with
    | none => w
    | some c =>
      let fuse := Reg.BOOT_FUSE 0
      if w.hw.flashHeld then w
      else match c.op with
      | 0 => w.cmdResult 0 0
      | 1 =>
        match w.runningSlot with
        | some r =>
          if w.fld fuse Fld.BOOT_FUSE_SVN_MIN < w.hdrSvn r then (w.setFld fuse Fld.BOOT_FUSE_SVN_MIN (w.hdrSvn r)).cmdResult 0 0
          else w.cmdResult 5 0
        | none => w.cmdResult 5 0
      | 2 =>
        match w.runningSlot with
        | some r => if w.hdrKey r = c.key then w.cmdResult 6 0
          else (w.setFld fuse Fld.BOOT_FUSE_KEY_REVOKED (w.fld fuse Fld.BOOT_FUSE_KEY_REVOKED ||| 2 ^ c.key)).cmdResult 0 0
        | none => (w.setFld fuse Fld.BOOT_FUSE_KEY_REVOKED (w.fld fuse Fld.BOOT_FUSE_KEY_REVOKED ||| 2 ^ c.key)).cmdResult 0 0
      | 3 =>
        let l := w.records
        match pointerOf l with
        | some p =>
          if confirmed l p ∨ w.runningSlot ≠ some p.slot then w.cmdResult 5 0
          else (w.appendRecord 3 p.slot false (some p.seq)).cmdResult 0 0
        | none => w.cmdResult 5 0
      | 4 =>
        if w.flag (Reg.BOOT_SLOT 0 c.slot) Fld.BOOT_SLOT_VERIFIED then (w.appendRecord 1 c.slot false none).cmdResult 0 0
        else w.cmdResult 2 0
      | 5 =>
        let a := c.arg / 65536 * 65536
        w.flChange a 65536 first second fun w => w.flErase a
      | 6 =>
        let a := c.arg / 256 * 256
        w.flChange a 256 first second fun w => w.flProgram a c.data
      | 7 =>
        if w.runningSlot = some c.slot then w.cmdResult 1 0
        else
          let (k, w) := w.runChecks c.slot false read (bad.val + 1)
          if k = 0 then w.cmdResult 0 0 else w.cmdResult 4 k
      | _ =>
        if first then (w.fillData (w.flBytes c.arg 256)).cmdResult 0 0
        else if second then ((w.fillData (w.flBytes c.arg 256)).flashFault false).cmdResult 0 0
        else (w.flashFault true).cmdResult 3 0

end Sys2Proof.Machine
end

