-- ==== Sys2Proof/Machine/Mem.lean ====
section
/-! DEFINITION. The commands of the stacked memory (R272–R304). -/

namespace Sys2Proof.Machine

/-- Does region r's memory controller work: clocks run and the region is not disabled? -/
def Work.memUp (w : Work) (r : Nat) : Bool := w.clocked && !w.regionDisabled r

/-- Does the region's heat throttle let its channels take an access in this MEMIF cycle (R581)? -/
def Work.memAdmits (w : Work) (r : Nat) : Bool :=
  decide (w.fld (Reg.MEM_TEMP r) Fld.MEM_TEMP_MAX < w.fld Reg.PWR_THERM_CFG Fld.PWR_THERM_CFG_THROT_D) ||
    decide (w.hw.rootEighths / 8 % 8 < w.fld Reg.PWR_THERM_CFG Fld.PWR_THERM_CFG_MEM_ADMIT)

/-- The admission arbiter of a channel admits one waiting request (R275–R278, R301). A channel that is not trained, or in self-refresh,
admits none (R303, R561). -/
def execMemRequestAdmit (region : RegionIx) (chan : Fin 64) (s : State) : Host.Outcome State Fault Refusal :=
  run s fun w =>
    let ch := 64 * region.val + chan.val
    if w.memUp region && w.memAdmits region && w.flag (Reg.MEM_STATUS region) Fld.MEM_STATUS_TRAINED &&
        decide (w.fld Reg.CLK_STATUS Fld.CLK_STATUS_DOM_SRC = 0) then w.admitOne ch else w

/-- A channel performs the access it chooses next (R280–R284, R290, R294–R299). `ecc` is what the check bits of crumb `crumb` of its burst
show, or the command parity. -/
def execMemAccess (region : RegionIx) (chan : Fin 64) (crumb : Fin 2) (ecc : EccEvent) (s : State) :
    Host.Outcome State Fault Refusal :=
  run s fun w =>
    let ch := 64 * region.val + chan.val
    if w.memUp region && w.chServes ch then w.serveChannel ch crumb ecc else w

/-- A channel refreshes all its banks for TRFC cycles, which closes their rows (R291). -/
def execMemRefresh (region : RegionIx) (chan : Fin 64) (s : State) : Host.Outcome State Fault Refusal :=
  run s fun w =>
    let ch := 64 * region.val + chan.val
    if w.memUp region && w.chServes ch then
      (w.updChan ch fun k => { k with rows := [] }).bump (Reg.MEM_CH_REF region chan) (w.fld (Reg.MEM_TIMING_3 region) Fld.MEM_TIMING_3_TRFC)
    else w

/-- The temperatures of the eight DRAM layers, layer 0 in the low byte. -/
def layerTemps (layers : DWord) : List Nat := (List.range 8).map fun i => bits layers.toNat (8 * i) 8

/-- The largest of a list of numbers. -/
def maxOf (l : List Nat) : Nat := l.foldl max 0

/-- The layers are sampled (R292, R293): the highest reading and its lowest layer, the peak, and the hot state. The sensors read on while the rails
are off after a trip, since R583 asks for their readings. -/
def execMemTempSample (region : RegionIx) (layers : DWord) (s : State) : Host.Outcome State Fault Refusal :=
  run s fun w =>
    let t := layerTemps layers
    let top := maxOf t
    let a := Reg.MEM_TEMP region
    let cfg := Reg.MEM_REF_CFG region
    let st := Reg.MEM_STATUS region
    if !w.memUp region && !w.flag Reg.PWR_STATUS Fld.PWR_STATUS_TRIPPED then w
    else
      let w := (w.setFld a Fld.MEM_TEMP_MAX top).setFld a Fld.MEM_TEMP_LAYER (t.findIdx (fun x => decide (x = top)))
      let w := w.setFld a Fld.MEM_TEMP_PEAK (max top (w.fld a Fld.MEM_TEMP_PEAK))
      if w.fld cfg Fld.MEM_REF_CFG_HOT_ON ≤ top then w.setFlag st Fld.MEM_STATUS_HOT true
      else if top < w.fld cfg Fld.MEM_REF_CFG_HOT_OFF then w.setFlag st Fld.MEM_STATUS_HOT false
      else w

/-- A scrub read of a channel's next burst enters its queue, when an entry is free (R297). -/
def execMemScrubRead (region : RegionIx) (chan : Fin 64) (s : State) : Host.Outcome State Fault Refusal :=
  run s fun w =>
    let ch := 64 * region.val + chan.val
    let k := w.chan ch
    if w.memUp region && w.flag (Reg.MEM_STATUS region) Fld.MEM_STATUS_TRAINED && w.flag (Reg.MEM_CTRL region) Fld.MEM_CTRL_SCRUB_EN &&
        decide (k.queue.length < w.chDepth ch) then
      let a : Access := ⟨none, region.val * 2 ^ 35 + scrubOffset chan k.scrub, 64, 0, none, none, 0, 0, w.chNow ch⟩
      w.updChan ch fun k => { k with queue := k.queue ++ [a], scrub := (k.scrub + 1) % 2 ^ 23 }
    else w

/-- What a write of MEM_BIST_CTRL does: START begins the self-test of channel CHAN; while a test runs it is discarded and counts as a
clamp (R300). -/
def Work.bistWrite (w : Work) (m : Master) (r value : Nat) : Work :=
  let st := Reg.MEM_BIST_STAT r
  if bits value 8 1 = 0 then w
  else if SMap.get 0 w.hw.bistRun r ≠ 0 then w.clamp (w.clampBy m) (Reg.MEM_BIST_CTRL r) 0 8 .joined
  else
    let w := { w with hw := { w.hw with bistRun := SMap.set 0 w.hw.bistRun r 1 } }
    ((w.setFld st Fld.MEM_BIST_STAT_CHAN (bits value 0 6)).setFlag st Fld.MEM_BIST_STAT_BUSY true).setFlag (Reg.MEM_STATUS r)
      Fld.MEM_STATUS_BIST_BUSY true

/-- MEM_BIST_CTRL is written (R300). -/
def execMemBistStart (master : Master) (region : RegionIx) (value : Word) (s : State) : Host.Outcome State Fault Refusal :=
  run s fun w => Work.when (w.regTakes (Reg.MEM_BIST_CTRL region)) w fun w => w.bistWrite master region value.toNat

/-- The self-test in progress ends with a result: the channel serves again. -/
def Work.bistDone (w : Work) (r : Nat) (pass transient : Bool) : Work :=
  let st := Reg.MEM_BIST_STAT r
  let w := { w with hw := { w.hw with bistRun := SMap.set 0 w.hw.bistRun r 0 } }
  let w := (w.setFlag st Fld.MEM_BIST_STAT_BUSY false).setFlag (Reg.MEM_STATUS r) Fld.MEM_STATUS_BIST_BUSY false
  (w.setFlag st Fld.MEM_BIST_STAT_PASS pass).setFlag st Fld.MEM_BIST_STAT_TRANSIENT transient

/-- A run of the self-test ends (R300, R302): a first failure is run again at once, a second one marks the channel failed. -/
def execMemBistEnd (region : RegionIx) (pass : Bool) (s : State) : Host.Outcome State Fault Refusal :=
  run s fun w =>
    let r := region.val
    let n := SMap.get 0 w.hw.bistRun r
    let ch := 64 * r + w.fld (Reg.MEM_BIST_STAT r) Fld.MEM_BIST_STAT_CHAN
    if n = 0 ∨ !w.memUp r then w
    else if pass then
      let w := w.bistDone r true (decide (n = 2))
      if n = 2 then w.chTransientCount ch else w
    else if n = 1 then { w with hw := { w.hw with bistRun := SMap.set 0 w.hw.bistRun r 2 } }
    else
      let w := (w.bistDone r false false).setFlag (Reg.MEM_ERR_STAT r) Fld.MEM_ERR_STAT_BIST_FAIL true
      (w.w32 (Reg.MEM_ERR_INFO r) (BitVec.ofNat 32 (ch % 64 + 3 * 2 ^ 8))).failChannel ch

end Sys2Proof.Machine
end

