-- ==== Sys2Proof/Machine/Cap.lean ====
section
/-! DEFINITION. The commands of the capacity ports (R306–R327). A die is 0–3 for CP0–CP3, a port 0–3 on its die. -/

namespace Sys2Proof.Machine

/-- Does a port take an access in this CAPCLK cycle: every second one while a rank is at its high-temperature limit (R582; log entry 13)? -/
def Work.capAdmits (w : Work) (ch : Nat) : Bool :=
  let p := chPort ch
  !(SMap.get false w.hw.capHot (2 * p) || SMap.get false w.hw.capHot (2 * p + 1)) || decide (w.chNow ch % 2 = 0)

/-- Are a channel's addresses unbacked because its die was taken out of use (R327)? -/
def Work.capGone (w : Work) (ch : Nat) : Bool := decide (SMap.get 0 w.hw.capMode (chDie ch) = 0)

/-- A capacity access enters its channel's or group's queue (R314). -/
def execCapRequestAdmit (die port : Fin 4) (chan : Fin 8) (s : State) : Host.Outcome State Fault Refusal :=
  run s fun w =>
    let ch := 1024 + 8 * (4 * die.val + port.val) + chan.val
    if w.clocked && w.capAdmits ch && decide (w.fld Reg.CLK_STATUS Fld.CLK_STATUS_DOM_SRC = 0) then w.admitOne ch else w

/-- An access whose addresses became unbacked after it was queued: zeros for a read, nothing for a write (R42, R327). -/
def Work.serveGone (w : Work) (ch : Nat) : Work :=
  match (w.chan ch).queue with
  | [] => w
  | a :: rest =>
    let w := w.updChan ch fun k => { k with queue := rest }
    match a.req.bind w.req? with
    | none => w
    | some q => (w.accessDone a .ok).reqFault { q with dpa := a.lo, isDpa := true } 0x01 0

/-- A capacity queue performs the access it chooses next (R315, R316, R321, R323). -/
def execCapAccess (die port : Fin 4) (chan : Fin 8) (crumb : Fin 2) (ecc : EccEvent) (s : State) :
    Host.Outcome State Fault Refusal :=
  run s fun w =>
    let ch := 1024 + 8 * (4 * die.val + port.val) + chan.val
    if !w.clocked then w
    else if w.capGone ch then w.serveGone ch
    else if w.chServes ch then w.serveChannel ch crumb ecc
    else w

/-- A channel refreshes the next of its banks, or all of them (R318). -/
def execCapRefresh (die port : Fin 4) (chan : Fin 8) (s : State) : Host.Outcome State Fault Refusal :=
  run s fun w =>
    let ch := 1024 + 8 * (4 * die.val + port.val) + chan.val
    let t := Reg.CAP_TIMING_3 die
    let cnt := Reg.CAP_P_REF die port
    if !w.clocked || !w.chServes ch || w.chFailed ch then w
    else if w.flag (Reg.CAP_CTRL die) Fld.CAP_CTRL_REF_PB then
      (w.updChan ch fun k => { k with rows := SMap.set 0 k.rows k.refBank 0, refBank := (k.refBank + 1) % 16 }).bump cnt
        (w.fld t Fld.CAP_TIMING_3_TRFCPB)
    else (w.updChan ch fun k => { k with rows := [] }).bump cnt (16 * w.fld t Fld.CAP_TIMING_3_TRFCAB)

/-- Mark port q of die d failed, in service or in training, and report it (R323, R325). -/
def Work.capPortFails (w : Work) (d q kind : Nat) : Work :=
  let st := Reg.CAP_STATUS d
  let w := w.setFld st Fld.CAP_STATUS_FAILED (w.fld st Fld.CAP_STATUS_FAILED ||| 2 ^ q)
  let w := w.setFld st Fld.CAP_STATUS_TRAINED (setBits (w.fld st Fld.CAP_STATUS_TRAINED) q 1 0)
  let w := w.w32 (Reg.CAP_ERR_INFO d) (BitVec.ofNat 32 (q + kind * 4))
  w.fault { kind := 0x18, level := 3, lasting := true, ctx := none, die := 24 + d, unit := 11, core := 0, gen := 0, tag := 0,
            addr := none, detail := 4 * d + q }

/-- The temperature mode register of a rank is read (R319, R323): the multiplier it reports and whether it is at its limit. `check`: a valid
reply at once, on the second read, or not at all. -/
def execCapTempRead (die port : Fin 4) (rank : Fin 2) (check : ReadCheck) (rate : Fin 8) (hot : Bool) (s : State) :
    Host.Outcome State Fault Refusal :=
  run s fun w =>
    let d := die.val
    let q := port.val
    let ch := 1024 + 8 * (4 * d + q)
    let st := Reg.CAP_ERR_STAT d
    if !w.clocked || decide (bits (w.fld (Reg.CAP_STATUS d) Fld.CAP_STATUS_TRAINED) q 1 = 0) then w
    else
      let valid (w : Work) : Work :=
        { (w.setFld (Reg.CAP_PORT_INFO d q) Fld.CAP_PORT_INFO_REF_RATE rate.val) with
          hw := { w.hw with capHot := SMap.set false w.hw.capHot (2 * (4 * d + q) + rank.val) hot } }
      match check with
      | .clean => valid w
      | .transient => valid (w.chTransient ch Fld.CAP_ERR_STAT_PORT_TRANSIENT)
      | .lasting => (w.setFlag st Fld.CAP_ERR_STAT_PORT_FAIL true).capPortFails d q 2

/-- A scrub read of a port's next burst enters its queue, when an entry is free (R322). The port's walk is kept with its channel 0. -/
def execCapScrubRead (die port : Fin 4) (s : State) : Host.Outcome State Fault Refusal :=
  run s fun w =>
    let p := 4 * die.val + port.val
    let base := 0x20000000000 + p * 2 ^ 37
    let bursts := w.fld (Reg.CAP_PORT_INFO die port) Fld.CAP_PORT_INFO_USABLE * 2 ^ 23
    let n := (w.chan (1024 + 8 * p)).scrub
    let a := base + 64 * (if n < bursts then n else 0)
    let ch := w.chanOf a
    if w.clocked && decide (0 < bursts) && w.flag (Reg.CAP_CTRL die) Fld.CAP_CTRL_SCRUB_EN && w.chHasEcc ch && !w.capGone ch &&
        !w.chFailed ch && decide ((w.chan ch).queue.length < w.chDepth ch) then
      let w := w.updChan ch fun k => { k with queue := k.queue ++ [⟨none, a, 64, 0, none, none, 0, 0, w.chNow ch⟩] }
      w.updChan (1024 + 8 * p) fun k => { k with scrub := (a - base) / 64 + 1 }
    else w

/-! ### Training -/

/-- What a write of CAP_CMD does (R324, R328). -/
def Work.capCmdWrite (w : Work) (m : Master) (d value : Nat) : Work :=
  let st := Reg.CAP_STATUS d
  if bits value 0 1 = 0 then w
  else if w.flag st Fld.CAP_STATUS_BUSY || !w.flag (Reg.CAP_CTRL d) Fld.CAP_CTRL_EN then
    w.clamp (w.clampBy m) (Reg.CAP_CMD d) 0 0 .joined
  else ((w.setFlag st Fld.CAP_STATUS_BUSY true).setFld st Fld.CAP_STATUS_TRAINED 0).setFld st Fld.CAP_STATUS_FAILED 0

/-- CAP_CMD is written (R324). -/
def execCapTrain (master : Master) (die : Fin 4) (value : Word) (s : State) : Host.Outcome State Fault Refusal :=
  run s fun w => Work.when (w.regTakes (Reg.CAP_CMD die)) w fun w => w.capCmdWrite master die value.toNat

/-- Does a port's training pass: every step in one of two attempts, and devices of a supported capacity (R307, R309, R325)? -/
def portPasses (p : PortReport) : Bool :=
  (p.first || p.second) && [16, 24, 32, 48, 64, 96, 128, 192, 256].contains p.installed.toNat

/-- Does a die mismatch (R325): its ports do not report one organisation, its devices are not of CAP_CTRL.TYPE, or TYPE or RATE differ from
those of the lowest die with EN at 1? -/
def Work.capMismatch (w : Work) (d : Nat) (ps : List PortReport) : Bool :=
  let ctl := Reg.CAP_CTRL
  let t := w.fld (ctl d) Fld.CAP_CTRL_TYPE
  let low := ((List.range 4).find? fun i => w.flag (ctl i) Fld.CAP_CTRL_EN).getD d
  ps.any (fun p => ps.any fun q => decide (p.type ≠ q.type ∨ p.installed ≠ q.installed ∨ p.twoRank ≠ q.twoRank)) ||
    ps.any (fun p => decide (p.type.val ≠ t)) ||
    decide (t ≠ w.fld (ctl low) Fld.CAP_CTRL_TYPE) || decide (w.fld (ctl d) Fld.CAP_CTRL_RATE ≠ w.fld (ctl low) Fld.CAP_CTRL_RATE)

/-- The four ports of a die end their training (R310, R323–R327). -/
def execCapTrainDone (die : Fin 4) (p0 p1 p2 p3 : PortReport) (s : State) : Host.Outcome State Fault Refusal :=
  run s fun w =>
    let d := die.val
    let st := Reg.CAP_STATUS d
    let ps := [p0, p1, p2, p3]
    if !w.flag st Fld.CAP_STATUS_BUSY then w
    else
      let w := w.setFlag st Fld.CAP_STATUS_BUSY false
      if !w.flag (Reg.CAP_CTRL d) Fld.CAP_CTRL_EN then w
      else
        let type := w.fld (Reg.CAP_CTRL d) Fld.CAP_CTRL_TYPE
        let inline := w.fld (Reg.CAP_CTRL d) Fld.CAP_CTRL_INLINE_ECC
        let rate := w.fld (Reg.CAP_CTRL d) Fld.CAP_CTRL_RATE
        let w := { w with hw := { w.hw with
          capMode := SMap.set 0 w.hw.capMode d (1 + type + 4 * inline + 8 * rate)
          capHot := (List.range 8).foldl (fun m i => SMap.set false m (8 * d + i) false) w.hw.capHot } }
        let bad := w.capMismatch d ps
        let w := (w.setFlag st Fld.CAP_STATUS_MISMATCH bad).setFlag st Fld.CAP_STATUS_SELFREF false
        w.forEach ps.zipIdx fun w pq =>
          let p := pq.1
          let q := pq.2
          let n := p.installed.toNat
          let usable := if type ≠ 2 ∧ inline = 1 then n - n / 8 else n
          let w := w.w32 (Reg.CAP_PORT_INFO d q) (BitVec.ofNat 32 (n + usable * 2 ^ 16 + (if p.twoRank then 1 else 0) * 2 ^ 25))
          let w := w.forEach (List.range 8) fun w c => w.updChan (1024 + 8 * (4 * d + q) + c) fun k => { k with rows := [] }
          if !portPasses p then (w.setFlag (Reg.CAP_ERR_STAT d) Fld.CAP_ERR_STAT_TRAIN_FAIL true).capPortFails d q 3
          else
            let w := if p.first then w else w.chTransient (1024 + 8 * (4 * d + q)) Fld.CAP_ERR_STAT_PORT_TRANSIENT
            if bad then w.capPortFails d q 3
            else w.setFld st Fld.CAP_STATUS_TRAINED (w.fld st Fld.CAP_STATUS_TRAINED ||| 2 ^ q)

/-- What follows a write of CAP_CTRL that finds EN at `was`: clearing EN takes the die's ranges out of use and puts its devices into
self-refresh (R327). -/
def Work.capCtrlHook (w : Work) (d : Nat) (was : Bool) : Work :=
  if was && !w.flag (Reg.CAP_CTRL d) Fld.CAP_CTRL_EN then
    let st := Reg.CAP_STATUS d
    let w := (w.setFld st Fld.CAP_STATUS_TRAINED 0).setFlag st Fld.CAP_STATUS_SELFREF true
    { w with hw := { w.hw with capMode := SMap.set 0 w.hw.capMode d 0 } }
  else w

/-- CAP_CTRL is written with EN at 0 (R327). -/
def execCapEnClear (master : Master) (die : Fin 4) (value : Word) (s : State) : Host.Outcome State Fault Refusal :=
  run s fun w =>
    if bits value.toNat 4 1 = 1 then w
    else (w.regWrite master (Reg.CAP_CTRL die) .w32 0xF value.toNat).capCtrlHook die (w.flag (Reg.CAP_CTRL die) Fld.CAP_CTRL_EN)

end Sys2Proof.Machine
end

