-- ==== Sys2Proof/Machine/Engines.lean ====
section
/-! DEFINITION. What every engine does with its queue: issue, repeats, hand-over and completion (R87–R92, R105–R109, R167, R185, R186, R213, R218,
R239–R241), and the notices of long waits (R267). -/

namespace Sys2Proof.Machine

/-! ### Issue (R87, R88, R91) -/

/-- Is a core in service and not halted? -/
def Work.coreRuns (w : Work) (c : Nat) : Bool := w.coreUp c && decide ((w.core c).halt = .none)

/-- Has engine e got so far with the commands it runs that it may issue the next one (R89, R167, R186, R218)? -/
def Work.engineFree (w : Work) (c e : Nat) : Bool :=
  match (w.engine c e).last with
  | none => !(decide (e = 0) && w.proofForced c)
  | some r =>
    if e = 0 then mtxSentAll r && !r.stopped && !w.proofForced c
    else if e = 1 then vecWalkedAll r && !r.stopped
    else false

/-- Does the head command of engine e wait for its dependency alone or with others? -/
def Work.depWait (w : Work) (c e : Nat) : Bool :=
  match (w.engine c e).queue.head? with
  | some q => !w.depMet c q.cmd
  | none => false

/-- A core no longer waits, or its WAIT is over: the end notice follows a long-wait notice (R267). -/
def Work.endNotice (w : Work) (c : Nat) : Work :=
  if (w.core c).syn.waiting then
    let w := w.updSyn c fun y => { y with waiting := false }
    { w with hw := { w.hw with longWaits := w.hw.longWaits ++ [2 * c + 1] } }
  else w

/-- Must a command read something before it can run: a segment table, a configuration block, a descriptor? -/
def readsFirst (e : Nat) (cmd : CmdBits) : Bool :=
  if e = 0 then mtxSeg cmd else if e = 1 then decide (cmdOpcode cmd = 1) else if e = 4 then false else decide (cmdOpcode cmd ≠ 0)

/-- Issue the head command of engine e: its fields are clamped, it is counted, the next command becomes the head (R83, R87, R111). -/
def Work.issue (w : Work) (c e : Nat) : Work :=
  match (w.engine c e).queue with
  | [] => w
  | q :: _ =>
    if w.coreRuns c && !q.held && w.depMet c q.cmd && w.engineFree c e then
      let (w, cmd) := clampCmd w c e q
      let w := w.updEngine c e fun x => { x with
        queue := x.queue.drop 1
        running := x.running ++ [{ Running.fresh cmd q.ctx with src := q.src, ready := !readsFirst e cmd }] }
      let w := w.setFld (Reg.CORE_QCNT c e) Fld.CORE_QCNT_ISSUED (w.fld (Reg.CORE_QCNT c e) Fld.CORE_QCNT_ISSUED + 1)
      let w := w.setFld (Reg.CORE_QTAG c e) Fld.CORE_QTAG_ISSUED_TAG (cmdTag cmd)
      let w := if e ≤ 1 then w.endNotice c else w
      w.headArrives c e
    else w

/-- COMMAND_ISSUE: an engine issues the command at the head of its queue (R87). -/
def execCommandIssue (core : CoreIx) (eng : EngIx) (s : State) : Host.Outcome State Fault Refusal :=
  run s fun w => w.issue core eng

/-! ### Repeats (R88, R106, R107, R213, R218, R239) -/

/-- Does a command run repeats that wait for halves or banks: not a NOP, a PROOF, or a SYN command? -/
def hasRepeats (e : Nat) (cmd : CmdBits) : Bool :=
  decide (e < 4) && decide (cmdOpcode cmd ≠ 0) && !(decide (e = 0) && decide (cmdOpcode cmd = 8))

/-- Has the running repeat of a command got so far that the next one may start: every group sent, every element walked, every request issued,
the chunk taken? -/
def repeatOver (e : Nat) (r : Running) : Bool :=
  if e = 0 then decide (mtxGroups r.cmd ≤ r.pos)
  else if e = 1 then vecWalked r
  else if cmdOpcode r.cmd = 8 then decide (0 < r.pos)
  else decide (r.desc.length ≤ r.pos)

/-- Has a command a repeat left to start, with nothing but its halves or bank in the way? -/
def Work.repeatDue (w : Work) (c e : Nat) : Option Running :=
  match (w.engine c e).last with
  | some r =>
    if w.coreUp c && hasRepeats e r.cmd && r.ready && !r.stopped && !r.refetch && decide (r.started < cmdRepeat r.cmd) &&
        (decide (r.started = 0) || repeatOver e r)
    then some r else none
  | none => none

/-- The bank that a VEC repeat with ACCIN takes: the oldest closed one, when it is full (R107, R213). -/
def Work.fullBank (w : Work) (c : Nat) : Option Nat :=
  match (w.mtx c).closed with
  | b :: _ => if ((w.mtx c).bank b).state = .full then some b else none
  | [] => none

/-- Does a repeat of engine e read an accumulator bank? -/
def takesBank (e : Nat) (cmd : CmdBits) : Bool := decide (e = 1) && vecAccin cmd

/-- Take the bank of a starting VEC repeat. -/
def Work.takeBank (w : Work) (c e : Nat) (r : Running) : Work :=
  match (if takesBank e r.cmd then w.fullBank c else none) with
  | some b =>
    (w.updMtx c fun m => { m with closed := m.closed.drop 1 }).updEngine c e fun x => x.updLast fun r => { r with bankHeld := r.bankHeld ++ [b] }
  | none => w

/-- REPEAT_START: the next repeat takes its halves and its bank and runs (R106, R107). -/
def execRepeatStart (core : CoreIx) (eng : EngIx) (s : State) : Host.Outcome State Fault Refusal :=
  run s fun w =>
    match w.repeatDue core eng with
    | some r =>
      if w.halvesReady core r && (!takesBank eng r.cmd || (w.fullBank core).isSome) then
        let w := (w.takeHalves core eng r).takeBank core eng r
        w.updEngine core eng fun x => x.updLast fun r => { r with started := r.started + 1, pos := 0 }
      else w
    | none => w

/-! ### Halves (R106, R214, R239, R240) -/

/-- Are requests of repeat `rep` of stream cell s outstanding? -/
def Work.strBusy (w : Work) (c s rep : Nat) : Bool := w.hw.reqs.any fun e => decide (e.2.src = .str c s) && decide (e.2.rep = rep)

/-- Is the last write of the oldest output half that a command holds visible? -/
def Work.outDone (w : Work) (c e : Nat) (r : Running) : Bool :=
  let ended := decide (1 < r.outHeld.length) || repeatOver e r
  if e = 1 then ended else ended && !w.strBusy c (e - 2) (r.started - r.outHeld.length)

/-- Has the last read of the oldest input half that a command holds returned? -/
def inDone (e : Nat) (r : Running) : Bool := decide (1 < r.inHeld.length) || repeatOver e r

/-- HALF_MARK_FULL: the last write of a repeat to its half is visible (R106). -/
def execHalfMarkFull (core : CoreIx) (eng : EngIx) (s : State) : Host.Outcome State Fault Refusal :=
  run s fun w =>
    match (w.engine core eng).running.find? (fun r => !r.outHeld.isEmpty) with
    | some r =>
      if w.coreUp core && !r.stopped && w.outDone core eng r then
        let w := w.markHalf core (cmdOutLink r.cmd) (r.outHeld.headD 0) true
        w.updEngine core eng fun x => { x with running := x.running.map fun y => if y = r then { y with outHeld := y.outHeld.drop 1 } else y }
      else w
    | none => w

/-- HALF_MARK_EMPTY: the last read of a repeat from its half has returned (R106). -/
def execHalfMarkEmpty (core : CoreIx) (eng : EngIx) (s : State) : Host.Outcome State Fault Refusal :=
  run s fun w =>
    match (w.engine core eng).running.find? (fun r => !r.inHeld.isEmpty) with
    | some r =>
      if w.coreUp core && !r.stopped && inDone eng r then
        let w := w.markHalf core (cmdInLink r.cmd) (r.inHeld.headD 0) false
        w.updEngine core eng fun x => { x with running := x.running.map fun y => if y = r then { y with inHeld := y.inHeld.drop 1 } else y }
      else w
    | none => w

/-- LINK_CFG_APPLY: a configuration that was written takes effect on an idle link (R109). -/
def execLinkCfgApply (core : CoreIx) (link : Fin 15) (s : State) : Host.Outcome State Fault Refusal :=
  run s fun w => if w.clocked then w.applyLinkCfg core link else w

/-! ### Completion (R89–R91, R240, R241) -/

/-- Has a PROOF command held its level for its length (R185)? -/
def Work.proofEnded (w : Work) (c : Nat) : Bool := decide ((w.mtx c).proofLeft = some 0)

/-- Has the oldest command of engine e done all its work? -/
def Work.workDone (w : Work) (c e : Nat) (r : Running) : Bool :=
  let op := cmdOpcode r.cmd
  let idle := r.inHeld.isEmpty && r.outHeld.isEmpty && r.bankHeld.isEmpty
  if op = 0 then true
  else if e = 0 then (if op = 8 then w.proofEnded c else mtxSentAll r && idle)
  else if e = 1 then vecWalkedAll r && idle
  else if e = 4 then decide (r.pos = 1)
  else r.ready && decide (r.started = cmdRepeat r.cmd) && repeatOver e r && idle &&
    !(w.hw.reqs.any fun x => decide (x.2.src = .str c (e - 2)))

/-- What an engine leaves when its oldest command completes: a PROOF's hold, a WAIT or an ATOMIC. -/
def Work.finish (w : Work) (c e : Nat) (r : Running) : Work :=
  if e = 0 ∧ cmdOpcode r.cmd = 8 then w.updMtx c fun m => { m with proofLeft := none }
  else if e = 4 then (w.endNotice c).updSyn c fun y => { y with mode := .none, awaiting := none }
  else w

/-- Complete the oldest command of engine e when all its work is done. -/
def Work.completeDone (w : Work) (c e : Nat) : Work :=
  match (w.engine c e).first with
  | some r => if w.coreUp c && !r.stopped && w.workDone c e r then (w.finish c e r).complete c e else w
  | none => w

/-- COMMAND_COMPLETE: the oldest command of an engine completes (R90). -/
def execCommandComplete (core : CoreIx) (eng : EngIx) (s : State) : Host.Outcome State Fault Refusal :=
  run s fun w => w.completeDone core eng

/-- ENGINE_NOP: a NOP issues, does no work and completes (R91). -/
def execEngineNop (core : CoreIx) (eng : EngIx) (s : State) : Host.Outcome State Fault Refusal :=
  run s fun w =>
    let isNop (w : Work) : Bool := match (w.engine core eng).first with | some r => decide (cmdOpcode r.cmd = 0) | none => false
    if isNop w then w.completeDone core eng
    else
      match (w.engine core eng).queue with
      | q :: _ =>
        if (assigned (opcodesOf eng) (cmdOpcode q.cmd)).1 = 0 then
          let w := w.issue core eng
          if isNop w then w.completeDone core eng else w
        else w
      | [] => w

end Sys2Proof.Machine
end

