-- ==== Sys2Proof/Machine/Hub.lean ====
section
/-! DEFINITION. The host ports beyond their accesses (R613–R625), the mailboxes of the management plane (R626–R629), the sideband's addresses and
interrupts (R630, R633) and telemetry (R634). -/

namespace Sys2Proof.Machine

/-! ### The links of the host ports (R613–R615, R620–R622) -/

/-- The fault of a host port (R529, R622). -/
def hostPortFault (h gen : Nat) (lasting : Bool) : FaultInfo where
  kind := 0x24
  level := 3
  lasting := lasting
  ctx := none
  die := 28 + h
  unit := 12
  core := 0
  gen := gen
  tag := 0
  addr := none
  detail := 0

/-- Is the link of port h in L0? -/
def Work.linkInL0 (w : Work) (h : Nat) : Bool := decide (w.fld (Reg.HUB_STATUS h) Fld.HUB_STATUS_LTSSM = 3)

/-- The outstanding requests of a port become orphans (R620), and completions on their way to its host are lost. -/
def Work.dropHost (w : Work) (h : Nat) : Work :=
  let w := w.orphan fun s => match s with | .host p _ => decide (p = h) | _ => false
  { w with hw := { w.hw with completions := w.hw.completions.filter fun e => decide (e.1 / 1024 ≠ h) } }

/-- The configuration space of a port is reset; what the last fundamental reset took stays. -/
def Work.resetConfig (w : Work) (h : Nat) : Work :=
  w.setPci h { PciPort.reset with gen := (w.pciPort h).gen, lanes := (w.pciPort h).lanes }

/-- PCIE_FUNDAMENTAL_RESET: PERST_n goes low and high again; the link trains (R620). -/
def execPcieFundamentalReset (port : Fin 2) (link : LinkUp) (s : State) : Host.Outcome State Fault Refusal :=
  run s fun w => (w.dropHost port).linkTrains port { link with up := link.up && w.railsOn }

/-- PCIE_HOT_RESET: the host orders a hot reset, or disables the link; it trains again, or stays disabled (R620). -/
def execPcieHotReset (port : Fin 2) (disable : Bool) (link : LinkUp) (s : State) : Host.Outcome State Fault Refusal :=
  run s fun w =>
    Work.when (w.linkInL0 port) w fun w =>
      let w := (w.dropHost port).resetConfig port
      if disable then (w.linkSet port { link with up := false }).setFld (Reg.HUB_STATUS port) Fld.HUB_STATUS_LTSSM 6 else w.linkSet port link

/-- PCIE_FLR: a function level reset; the link stays in L0 (R620). -/
def execPcieFlr (port : Fin 2) (s : State) : Host.Outcome State Fault Refusal :=
  run s fun w => Work.when (w.linkInL0 port) w fun w => (w.dropHost port).resetConfig port

/-- PCIE_LINK_DOWN: the link has left L0 for Detect by itself; it returns to L0 within 100 ms, or the port is marked failed (R622). -/
def execPcieLinkDown (port : Fin 2) (link : LinkUp) (s : State) : Host.Outcome State Fault Refusal :=
  run s fun w =>
    Work.when (w.linkInL0 port) w fun w =>
      let w := w.linkSet port link
      let e := Reg.HUB_ERR_STAT port
      if link.up then
        w.transient (hostPortFault port w.hw.genChip false) e Fld.HUB_ERR_STAT_LINK_TRANSIENT Fld.HUB_ERR_STAT_TRANSIENT_CNT
      else
        ((w.setFlag e Fld.HUB_ERR_STAT_LINK_LASTING true).setFlag (Reg.HUB_STATUS port) Fld.HUB_STATUS_FAILED true).fault
          (hostPortFault port w.hw.genChip true)

/-- AER_CORRECTABLE_ERROR: a correctable error on a host link (R622). -/
def execAerCorrectableError (port : Fin 2) (s : State) : Host.Outcome State Fault Refusal :=
  run s fun w =>
    Work.when (w.linkInL0 port) w fun w =>
      w.transient (hostPortFault port w.hw.genChip false) (Reg.HUB_ERR_STAT port) Fld.HUB_ERR_STAT_LINK_TRANSIENT
        Fld.HUB_ERR_STAT_TRANSIENT_CNT

/-- HUB_BAR2_BASE is aligned down to the size of its port's BAR2 (R617); a write of it that this changes counts a clamp. -/
def Work.alignBar2 (w : Work) (h : Nat) (who : Option ClampBy) : Work :=
  let a := Reg.HUB_BAR2_BASE h
  let v := w.fld a Fld.HUB_BAR2_BASE_BASE
  let v' := v / 2 ^ ((w.pciPort h).bar2 - 30) * 2 ^ ((w.pciPort h).bar2 - 30)
  if v' = v then w
  else
    let w := w.setFld a Fld.HUB_BAR2_BASE_BASE v'
    match who with
    | some who => w.clamp who a 0 30 .align
    | none => w

/-- PCIE_CONFIG_ACCESS: the host writes a port's configuration space (R613, R616, R617, R625). -/
def execPcieConfigAccess (port : Fin 2) (change : ConfigWrite) (s : State) : Host.Outcome State Fault Refusal :=
  run s fun w =>
    Work.when (w.linkInL0 port) w fun w =>
      let p := w.pciPort port
      match change with
      | .bar2Size i => (w.setPci port { p with bar2 := 30 + i.val }).alignBar2 port none
      | .msix enable mask => w.setPci port { p with msix := enable, masked := mask }
      | .power d3 => w.setPci port { p with d3 := d3 }

/-- CPL_TIMEOUT: a host's read has not completed CPL_MS ms after it arrived (R620): Completer Abort, and an orphan. -/
def execCplTimeout (req : Nat) (s : State) : Host.Outcome State Fault Refusal :=
  run s fun w =>
    match w.req? req with
    | some q =>
      match q.src, q.op, decide (q.stage ≠ .replied) with
      | .host p t, .read _, true =>
        let w := (w.dropReq req).setFlag (Reg.HUB_ERR_STAT p) Fld.HUB_ERR_STAT_CPL_LATE true
        { w with hw := { w.hw with
            orphans := SMap.put w.hw.orphans req q
            completions := SMap.put w.hw.completions (1024 * p + t) ⟨true, false, []⟩ } }
      | _, _, _ => w
    | none => w

/-! ### Doorbell and interrupt words (R619, R621, R623–R625) -/

/-- Do the doorbell and interrupt words answer: the chip is in service, and the rails are on (R621)? -/
def Work.hubUp (w : Work) : Bool := decide (w.chipState = 0) && w.railsOn

/-- A write of a doorbell or interrupt word, or of its add alias. -/
def Work.hubWrite (w : Work) (word : SyncWord) (add : Bool) (value : DWord) : Work :=
  let op := if add then 1 else 0
  let w := (w.hubOp word (.atomic op) value 0).2
  match word with
  | .db n => w.doorbellInput n op value
  | _ => w

/-- HUB_DB_WRITE: a write of HUB_DB_n, or with `add` of HUB_DB_ADD_n, is performed (R623). -/
def execHubDbWrite (word : Fin 1024) (add : Bool) (value : DWord) (s : State) : Host.Outcome State Fault Refusal :=
  run s fun w => Work.when w.hubUp w fun w => w.hubWrite (.db word) add value

/-- HUB_IW_WRITE: a write of HUB_IW_v, or with `add` of HUB_IW_ADD_v, is performed; words 0 and 1 do not exist (R624, R625). -/
def execHubIwWrite (hub : Fin 2) (vector : Fin 256) (add : Bool) (value : DWord) (s : State) : Host.Outcome State Fault Refusal :=
  run s fun w => Work.when (w.hubUp && decide (2 ≤ vector.val)) w fun w => w.hubWrite (.iw hub vector) add value

/-! ### MSI-X (R624, R625) -/

/-- A word of port h's MSI-X table: the mask bit of a vector that nothing has written is 1. -/
def Work.msixWord (w : Work) (h i : Nat) : Word := SMap.get (if i % 4 = 3 then 1 else 0) w.hw.msixTable (1024 * h + i)

/-- Set a word of port h's MSI-X table. -/
def Work.setMsixWord (w : Work) (h i : Nat) (v : Word) : Work :=
  { w with hw := { w.hw with msixTable := SMap.set (if i % 4 = 3 then 1 else 0) w.hw.msixTable (1024 * h + i) v } }

/-- May port h send vector v now (R625)? -/
def Work.msixReady (w : Work) (h v : Nat) : Bool :=
  let p := w.pciPort h
  let last := SMap.get 0 w.hw.msixSent (256 * h + v)
  SMap.get false w.hw.msixPend (256 * h + v) && p.msix && !p.masked && !p.d3 && w.linkInL0 h && !(w.msixWord h (4 * v + 3)).getLsbD 0 &&
    (decide (last = 0) || decide (last - 1 + 200 * w.fld (Reg.HUB_IRQ_CFG h) Fld.HUB_IRQ_CFG_HOLDOFF ≤ w.hw.uptime))

/-- MSIX_SEND: a pending vector is sent, with four bytes of payload (R625). -/
def execMsixSend (port : Fin 2) (vector : Fin 256) (s : State) : Host.Outcome State Fault Refusal :=
  run s fun w =>
    Work.when (w.msixReady port vector) w fun w =>
      let k := 256 * port.val + vector.val
      { (w.bumpErr (Reg.HUB_TX_BYTES port) 4) with hw := { w.hw with
          msixPend := SMap.set false w.hw.msixPend k false
          msixSent := SMap.set 0 w.hw.msixSent k (w.hw.uptime + 1) } }

/-! ### Mailboxes (R627–R629) -/

/-- A message is discarded because it finds no room: counted on the hub die that would have held it. -/
def Work.mboxDrop (w : Work) (h : Nat) : Work := w.satAdd (Reg.MGT_MBOX_DROP h) word32 1

/-- Is slot k of the host mailbox taken? -/
def Work.hmbValid (w : Work) (k : Nat) : Bool := w.flag (Reg.MGT_HMB_HDR 0 k) Fld.MGT_HMB_HDR_VALID

/-- Slot k of the host mailbox takes a message whose payload is in place; vector 1 rises (R628, R629). -/
def Work.hmbFill (w : Work) (k src msgid len : Nat) : Work :=
  (w.w64 (Reg.MGT_HMB_HDR 0 k) (BitVec.ofNat 64 (src % 65536 + msgid % 65536 * 2 ^ 16 + len % 8192 * 2 ^ 32 + 2 ^ 63))).raiseVector 1

/-- The payload area of slot k: 4,096 bytes. -/
def Work.hmbBytes (w : Work) (k : Nat) : List Byte :=
  let l := SMap.get [] w.hw.hmbData k
  (l ++ List.replicate (4096 - l.length) 0).take 4096

/-- Write payload bytes of slot k from offset `at_`. -/
def Work.hmbWrite (w : Work) (k at_ : Nat) (data : List (Option Byte)) : Work :=
  let old := w.hmbBytes k
  let new := (List.range 4096).map fun i =>
    match (if at_ ≤ i then data.getD (i - at_) none else none) with
    | some b => b
    | none => old.getD i 0
  { w with hw := { w.hw with hmbData := SMap.set [] w.hw.hmbData k (if new.all (· = 0) then [] else new) } }

/-- A MGMT message is delivered to mailbox `mbox` (R627, R628). -/
def Work.mailbox (w : Work) (mbox src msgid : Nat) (data : List Byte) : Work :=
  if mbox < 8 then
    let l := SMap.get [] w.hw.mboxes mbox
    if l.length < 8 then { w with hw := { w.hw with mboxes := SMap.set [] w.hw.mboxes mbox (l ++ [⟨src, msgid, data⟩]) } }
    else w.mboxDrop (mbox / 4)
  else
    match (List.range 8).find? fun k => !w.hmbValid k with
    | some k => (w.hmbWrite k 0 (data.map some)).hmbFill k src msgid data.length
    | none => w.mboxDrop 0

/-- What a write of MGT_HMB_POST does (R628). -/
def Work.hmbPost (w : Work) (who : ClampBy) (value : Nat) : Work :=
  let (v, w) := w.woWrite who (Reg.MGT_HMB_POST 0) value
  let k := bits v 0 3
  if w.hmbValid k then w.mboxDrop 0 else w.hmbFill k w.selfNode (bits v 16 16) (bits v 3 13)

/-- HMB_POST: MGT_HMB_POST is written (R628). -/
def execHmbPost (master : Master) (value : DWord) (s : State) : Host.Outcome State Fault Refusal :=
  run s fun w => w.hmbPost (w.clampBy master) value.toNat

/-- HMB_FREE: 1 is written to VALID of a slot (R628). -/
def execHmbFree (slot : Fin 8) (s : State) : Host.Outcome State Fault Refusal :=
  run s fun w => w.setFlag (Reg.MGT_HMB_HDR 0 slot) Fld.MGT_HMB_HDR_VALID false

/-! ### The sideband's address and interrupts (R630, R633) -/

/-- DYNAMIC_ADDRESS_ASSIGNMENT: ENTDAA or SETDASA in I3C mode (R630). -/
def execDynamicAddressAssignment (addr : BitVec 7) (s : State) : Host.Outcome State Fault Refusal :=
  run s fun w =>
    Work.when (w.flag (Reg.MGT_SB_CFG 1) Fld.MGT_SB_CFG_MODE) w fun w =>
      w.setFld (Reg.MGT_SB_STAT 1) Fld.MGT_SB_STAT_DYNAMIC addr.toNat

/-- IBI_ACKNOWLEDGE: the controller acknowledges the in-band interrupt (R633). -/
def execIbiAcknowledge (s : State) : Host.Outcome State Fault Refusal :=
  run s fun w => w.setFlag (Reg.MGT_SB_STAT 1) Fld.MGT_SB_STAT_IBI_PEND false

/-! ### Telemetry (R634) -/

/-- The unit with the largest value, the lowest of equals, among 0 to n − 1. -/
def hottest (f : Nat → Nat) : Nat → Nat
  | 0 => 0
  | n + 1 => if f (hottest f n) < f n then n else hottest f n

/-- PWR_TEMP: the hottest junction and its die, the hottest layer and its region (R581, R585). -/
def Work.pwrTemp (w : Work) : Nat :=
  let d := hottest w.junction 30
  let layer (r : Nat) : Nat := w.fld (Reg.MEM_TEMP r) Fld.MEM_TEMP_MAX
  let r := hottest layer 16
  w.junction d + d * 2 ^ 8 + layer r * 2 ^ 16 + r * 2 ^ 24

/-- The eight words of a telemetry copy. -/
def Work.telemetry (w : Work) (k : Nat) : Nat :=
  let temps (r0 : Nat) : Nat := (List.range 8).foldl (fun n i => n + w.fld (Reg.MEM_TEMP (r0 + i)) Fld.MEM_TEMP_MAX * 256 ^ i) 0
  match k with
  | 0 => w.fld Reg.PWR_INPUT Fld.PWR_INPUT_P_W + w.fld Reg.PWR_EXCESS Fld.PWR_EXCESS_E_MJ * 2 ^ 16 +
      w.fld Reg.PWR_CAPS Fld.PWR_CAPS_C * 2 ^ 32 + w.chipState * 2 ^ 48
  | 1 => w.pwrTemp
  | 2 => (w.r32 Reg.ERR_REC_HEAD).toNat + (w.r32 Reg.ERR_REC_LOST).toNat * 2 ^ 32
  | 3 => w.hw.uptime
  | 4 => (w.r32 Reg.CLK_STATUS).toNat % 2 ^ 13 + w.fld Reg.CLK_ROOT Fld.CLK_ROOT_ACTIVE_MULT * 2 ^ 16
  | 5 => w.fld (Reg.PWR_SD_VIN 0) Fld.PWR_SD_VIN_MV + w.fld (Reg.PWR_SD_VIN 1) Fld.PWR_SD_VIN_MV * 2 ^ 16 +
      w.fld (Reg.PWR_SD_IIN 0) Fld.PWR_SD_IIN_CA * 2 ^ 32 + w.fld (Reg.PWR_SD_IIN 1) Fld.PWR_SD_IIN_CA * 2 ^ 48
  | 6 => temps 0
  | _ => temps 8

/-- What a write of MGT_TEL_CTRL does (R634). -/
def Work.telSnap (w : Work) (who : ClampBy) (value : Nat) : Work :=
  let (v, w) := w.woWrite who (Reg.MGT_TEL_CTRL 0) value
  if bits v 0 1 = 1 then
    let pre := w
    let w := w.forEach (List.range 8) fun w k => w.w64 (Reg.MGT_TEL 0 k) (BitVec.ofNat 64 (pre.telemetry k))
    w.w32 (Reg.MGT_TEL_SEQ 0) (w.r32 (Reg.MGT_TEL_SEQ 0) + 1)
  else w

/-- TEL_SNAP: MGT_TEL_CTRL is written (R634). -/
def execTelSnap (master : Master) (value : Word) (s : State) : Host.Outcome State Fault Refusal :=
  run s fun w => w.telSnap (w.clampBy master) value.toNat

end Sys2Proof.Machine
end

