-- ==== Sys2Proof/Machine/Snp.lean ====
section
/-! DEFINITION. Support for training jobs (R499–R515): phase timers and step snapshots. -/

namespace Sys2Proof.Machine

/-! ### Phase timers (R499–R501) -/

/-- Put a global core in a phase: 1 + phase. -/
def Work.setPhase (w : Work) (g n : Nat) : Work := { w with hw := { w.hw with phases := SMap.set 0 w.hw.phases g n } }

/-- The core that spent most time in phase p, the lowest of several, and its time. -/
def Work.phaseMax (w : Work) (p : Nat) : Nat × Nat :=
  let t (g : Nat) : Nat := SMap.get 0 w.hw.phaseOwn (16 * g + p)
  (List.range 256).foldl (fun (b : Nat × Nat) g => if b.2 < t g then (g, t g) else b) (0, t 0)

/-- A mark of a core, without the close that it may bring. -/
def Work.takeMark (w : Work) (g phase : Nat) (done : Bool) : Work :=
  if w.hw.phaseDone.contains g then
    { w with hw := { w.hw with phaseHeld := SMap.put w.hw.phaseHeld g (1 + phase + (if done then 16 else 0)) } }
  else if done then
    let w := w.setPhase g 1
    { w with hw := { w.hw with phaseDone := g :: w.hw.phaseDone } }
  else w.setPhase g (1 + phase)

/-- A step closes. -/
def Work.closeStep (w : Work) : Work :=
  let w := w.forEach (List.range 16) fun w p =>
    let m := w.phaseMax p
    let w := (w.w64 (Reg.SNP_PH_SUM p) (BitVec.ofNat 64 (SMap.get 0 w.hw.phaseSum p))).w64 (Reg.SNP_PH_WALL p)
      (BitVec.ofNat 64 (SMap.get 0 w.hw.phaseWall p))
    (w.w32 (Reg.SNP_PH_MAX p) (BitVec.ofNat 32 (min m.2 0xFFFFFFFF))).w32 (Reg.SNP_PH_MAXCORE p) (BitVec.ofNat 32 m.1)
  let w := w.w64 Reg.SNP_PHASE_STEP (w.r64 Reg.SNP_PHASE_STEP + 1)
  let w := w.w64 Reg.SNP_PHASE_STAMP (BitVec.ofNat 64 (w.hw.uptime - w.hw.chipStart))
  let (dur, w) : DWord × Work := match w.hw.phaseClose with
    | some t => (BitVec.ofNat 64 (w.hw.uptime - t), w)
    | none => let (n, w) := w.draw; (Config.freeWord n 1 ++ Config.freeWord n 0, w)
  let w := w.w64 Reg.SNP_PHASE_DUR dur
  let held := w.hw.phaseHeld
  let w := { w with hw := { w.hw with
    phases := [], phaseDone := [], phaseHeld := [], phaseSum := [], phaseWall := [], phaseOwn := [], phaseClose := some w.hw.uptime } }
  let w := w.forEach held fun w e => w.takeMark e.1 ((e.2 - 1) % 16) (decide (16 < e.2))
  w.unitSignal 28 13 (w.r64 Reg.SNP_PHASE_SIG).toNat 1

/-- A write that SNP_ discards is counted. -/
def Work.snpDrop (w : Work) : Work := w.bump Reg.SNP_DROP 1

/-- What a write of SNP_PHASE_MARK does (R499, R501). -/
def Work.phaseMark (w : Work) (m : Master) (value : Nat) : Work :=
  let ctl := Reg.SNP_PHASE_CTRL
  match m with
  | .cell c e =>
    if e.val = 0 ∧ w.flag ctl Fld.SNP_PHASE_CTRL_EN ∧ w.placedCtx c.val = some (w.fld ctl Fld.SNP_PHASE_CTRL_CTX) then
      let n := w.hw.phaseDone.length
      let w := w.takeMark (coreGlobal c.val) (bits value 0 4) (decide (bits value 8 1 = 1))
      if n < w.hw.phaseDone.length ∧ w.hw.phaseDone.length = w.fld ctl Fld.SNP_PHASE_CTRL_CORES then w.closeStep else w
    else w.snpDrop
  | _ => w.snpDrop

/-- PHASE_MARK: SNP_PHASE_MARK is written whole. -/
def execPhaseMark (master : Master) (value : Word) (s : State) : Host.Outcome State Fault Refusal :=
  run s fun w => Work.when (w.regTakes (Reg.SNP_PHASE_MARK)) w fun w => w.phaseMark master value.toNat

/-- What a write of SNP_PHASE_CTRL does once it is stored (R499). -/
def Work.phaseCtrlHook (w pre : Work) : Work :=
  let ctl := Reg.SNP_PHASE_CTRL
  if w.flag ctl Fld.SNP_PHASE_CTRL_EN && !pre.flag ctl Fld.SNP_PHASE_CTRL_EN then
    { w with hw := { w.hw with phases := [], phaseDone := [], phaseHeld := [], phaseSum := [], phaseWall := [], phaseOwn := [] } }
  else w

/-- PHASE_ENABLE: a write of SNP_PHASE_CTRL that sets EN. -/
def execPhaseEnable (master : Master) (value : Word) (s : State) : Host.Outcome State Fault Refusal :=
  run s fun w => (w.regWrite master Reg.SNP_PHASE_CTRL .w32 15 (setBits value.toNat 0 1 1)).phaseCtrlHook w

/-- One MGMT cycle of the live totals (R500). -/
def Work.phaseTick (w : Work) : Work :=
  if !w.flag Reg.SNP_PHASE_CTRL Fld.SNP_PHASE_CTRL_EN then w
  else
    let add (m : SMap Nat) (k n : Nat) : SMap Nat := SMap.set 0 m k (SMap.get 0 m k + n)
    w.forEach (List.range 16) fun w p =>
      let l := w.hw.phases.filter fun e => decide (e.2 = p + 1)
      if l.isEmpty then w
      else { w with hw := { w.hw with
        phaseSum := add w.hw.phaseSum p l.length
        phaseWall := add w.hw.phaseWall p 1
        phaseOwn := l.foldl (fun m e => add m (16 * e.1 + p) 1) w.hw.phaseOwn } }

/-! ### Snapshot sets and ranges (R502, R503) -/

def Work.snpSet (w : Work) (n : Nat) : SnpSet := SMap.get SnpSet.reset w.hw.snpSets n
def Work.updSnpSet (w : Work) (n : Nat) (f : SnpSet → SnpSet) : Work :=
  { w with hw := { w.hw with snpSets := SMap.set SnpSet.reset w.hw.snpSets n (f (w.snpSet n)) } }
def Work.snpValid (w : Work) (n : Nat) : Bool := w.flag (Reg.SNP_SET_CFG n) Fld.SNP_SET_CFG_VALID
def Work.snpCtx (w : Work) (n : Nat) : Nat := w.fld (Reg.SNP_SET_CFG n) Fld.SNP_SET_CFG_CTX
def Work.snpBuddy (w : Work) (n : Nat) : Nat := w.fld (Reg.SNP_SET_CFG n) Fld.SNP_SET_CFG_BUDDY
def Work.rangeSet (w : Work) (i : Nat) : Nat := w.fld (Reg.SNP_RANGE_CFG i) Fld.SNP_RANGE_CFG_SET
def Work.rangePages (w : Work) (i : Nat) : Nat := w.fld (Reg.SNP_RANGE_LEN i) Fld.SNP_RANGE_LEN_PAGES
def Work.rangeSrc (w : Work) (i : Nat) : Nat := w.fld (Reg.SNP_RANGE_SRC i) Fld.SNP_RANGE_SRC_CVA * 65536

/-- The copies that MODE names: false the local one, true the buddy's. -/
def Work.snpCopies (w : Work) (n : Nat) : List Bool :=
  let m := w.fld (Reg.SNP_SET_CFG n) Fld.SNP_SET_CFG_MODE
  if m = 2 then [true] else if m = 3 then [false, true] else [false]

/-- The valid ranges of a set. -/
def Work.snpRanges (w : Work) (n : Nat) : List Nat :=
  (List.range 256).filter fun i => w.flag (Reg.SNP_RANGE_CFG i) Fld.SNP_RANGE_CFG_VALID && decide (w.rangeSet i = n)

/-- 4 KiB pieces of a range. -/
def Work.rangePieces (w : Work) (i : Nat) : Nat := 16 * w.rangePages i

/-- DPA of slot `slot` of a copy of a range. -/
def Work.slotDpa (w : Work) (i : Nat) (buddy : Bool) (slot : Nat) : Nat :=
  (if buddy then w.fld (Reg.SNP_RANGE_BDST i) Fld.SNP_RANGE_BDST_DPA else w.fld (Reg.SNP_RANGE_LDST i) Fld.SNP_RANGE_LDST_DPA) * 65536
    + slot * 65536 * w.rangePages i

/-- DPA of a record. -/
def Work.recordDpaOf (w : Work) (n : Nat) (buddy : Bool) : Nat :=
  (if buddy then w.fld (Reg.SNP_SET_BREC n) Fld.SNP_SET_BREC_DPA else w.fld (Reg.SNP_SET_LREC n) Fld.SNP_SET_LREC_DPA) * 8

/-- The value of a record that holds no step. -/
def snpNone : Nat := 2 ^ 64 - 1

/-! ### Requests of the engine (R504, R510) -/

/-- What a request of the engine is for: its TAG. -/
inductive SnpUse where
  | mirrorRead | mirrorWrite | commit | domain | keep | clear | restRecord | restRead | restWrite | restSource | restOther
deriving DecidableEq, Repr

/-- The number of a use in the TAG of a request. -/
def SnpUse.code : SnpUse → Nat
  | .mirrorRead => 0 | .mirrorWrite => 1 | .commit => 2 | .domain => 3 | .keep => 4 | .clear => 5 | .restRecord => 6 | .restRead => 7
  | .restWrite => 8 | .restSource => 9 | .restOther => 10

/-- The use that a TAG names. -/
def snpUse (tag : Nat) : SnpUse :=
  [.mirrorRead, .mirrorWrite, .commit, .domain, .keep, .clear, .restRecord, .restRead, .restWrite, .restSource].getD (tag % 16) .restOther

/-- Is a use one of a range, not of a set? -/
def SnpUse.ofRange : SnpUse → Bool
  | .mirrorRead => true | .mirrorWrite => true | .restRead => true | .restWrite => true | _ => false

/-- Does a request belong to the engine? -/
def Req.isSnp (q : Req) : Bool := decide (q.src = .unit 28 16)

/-- Requests outstanding. -/
def Work.snpOutstanding (w : Work) : Nat := (w.hw.reqs.filter fun e => e.2.isSnp).length

/-- Send a request of the engine: to another chip, to a DPA of this one, or to be translated in its context. -/
def Work.snpSend (w : Work) (q : Req) : Work :=
  let (i, w) := w.addReq { q with stage := if q.node = w.selfNode then .translate else .remote false, bad := .ok, data := [] }
  if q.node ≠ w.selfNode then w.launch i
  else if q.isDpa then match w.req? i with
    | some q => w.dpaRoute i q q.addr
    | none => w
  else w

/-- A request of the engine to DPA `dpa` of a copy: `ix` is its range or set. -/
def Work.snpDpa (w : Work) (use : SnpUse) (set ix off : Nat) (buddy : Bool) (op : ReqOp) (dpa : Nat) : Work :=
  let node := if buddy then w.snpBuddy set else w.selfNode
  let q := Req.make (.unit 28 16) op none node (if buddy then 0xC00000000000 + dpa else dpa) w.hw.uptime use.code 0
  w.snpSend { q with isDpa := !buddy, rep := ix + 256 * (w.snpSet set).epoch, off := off }

/-- A request of the engine to a CVA of a set's context. -/
def Work.snpCva (w : Work) (use : SnpUse) (set ix off : Nat) (op : ReqOp) (cva : Nat) : Work :=
  let q := Req.make (.unit 28 16) op (some (w.snpCtx set)) w.selfNode cva w.hw.uptime use.code 0
  w.snpSend { q with rep := ix + 256 * (w.snpSet set).epoch, off := off }

/-- A write of eight bytes. -/
def writeOp (n v : Nat) : ReqOp := .write ((leBytes n v).map some)

/-- Write a record of a set. -/
def Work.snpRecord (w : Work) (use : SnpUse) (set : Nat) (buddy : Bool) (v : Nat) : Work :=
  w.snpDpa use set set 0 buddy (writeOp 8 v) (w.recordDpaOf set buddy)

/-! ### Copying ranges -/

/-- The open step of a set. -/
def Work.openStepOf (w : Work) (n : Nat) : Nat := ((w.r64 (Reg.SNP_SET_CSTEP n)).toNat + 1) % 2 ^ 64

/-- Requests that a job's next read will hold at once: a read, and the writes that follow it. -/
def Work.jobWidth (w : Work) (j : SnpJob) : Nat := if j.restore then 1 else (w.snpCopies (w.rangeSet j.range)).length

/-- Slots that the outstanding requests hold: a mirror read holds those of its writes. -/
def Work.snpHeld (w : Work) : Nat :=
  w.hw.reqs.foldl (fun n e =>
    if e.2.isSnp then
      n + (if snpUse e.2.tag = .mirrorRead then max 1 (w.snpCopies (w.rangeSet (e.2.rep % 256))).length else 1)
    else n) 0

/-- May a job read now? Mirrors wait while their set is enabled or restored. -/
def Work.jobReads (w : Work) (j : SnpJob) : Bool :=
  let t := w.snpSet (w.rangeSet j.range)
  decide (j.next < w.rangePieces j.range) && (if j.restore then decide (t.stage = .restCopy) else decide (t.stage = .idle ∨ t.stage = .restWait))

/-- Change the job of a range. -/
def Work.updJob (w : Work) (i : Nat) (restore : Bool) (f : SnpJob → SnpJob) : Work :=
  { w with hw := { w.hw with snpJobs := w.hw.snpJobs.map fun j => if j.range = i ∧ j.restore = restore then f j else j } }

/-- Issue the next read of a job. -/
def Work.jobRead (w : Work) (j : SnpJob) : Work :=
  let set := w.rangeSet j.range
  let off := 4096 * j.next
  let w := w.updJob j.range j.restore fun j => { j with next := j.next + 1 }
  if j.restore then
    let t := w.snpSet set
    w.snpDpa .restRead set j.range off t.buddy (.read 4096) (w.slotDpa j.range t.buddy (t.step % 2) + off)
  else w.snpCva .mirrorRead set j.range off (.read 4096) (w.rangeSrc j.range + off)

/-- Issue reads in the order of the jobs, while 1,024 requests allow it. -/
def Work.snpPump : Nat → Work → Work
  | 0, w => w
  | n + 1, w =>
    match w.hw.snpJobs.find? fun j => w.jobReads j with
    | some j => if w.snpHeld + w.jobWidth j ≤ 1024 then Work.snpPump n (w.jobRead j) else w
    | none => w

/-- Issue what can be issued. -/
def Work.snpGo (w : Work) : Work := w.snpPump 1024

/-- Is a range of a set being mirrored? -/
def Work.snpMirroring (w : Work) (n : Nat) : Bool := w.hw.snpJobs.any fun j => !j.restore && decide (w.rangeSet j.range = n)

/-- Drop the jobs of a set, and tell its requests in flight from later ones. -/
def Work.snpStop (w : Work) (n : Nat) (failed : Bool) : Work :=
  let w := { w with hw := { w.hw with snpJobs := w.hw.snpJobs.filter fun j => decide (w.rangeSet j.range ≠ n) } }
  w.updSnpSet n fun t => { SnpSet.reset with epoch := t.epoch + 1, failed := failed }

/-- SNP_ERR_INFO. KIND 0 read, 1 write, 2 domain, 3 stale. -/
def Work.snpErrInfo (w : Work) (set range kind status : Nat) : Work :=
  w.w32 Reg.SNP_ERR_INFO (BitVec.ofNat 32 (set + range % 256 * 2 ^ 4 + kind * 2 ^ 12 + status * 2 ^ 15 + w.snpCtx set * 2 ^ 19))

/-- The fault of a snapshot set. -/
def Work.snpFault (w : Work) (set : Nat) (lasting : Bool) : FaultInfo where
  kind := 0x1E
  level := 3
  lasting := lasting
  ctx := some (w.snpCtx set)
  die := 28
  unit := 13
  core := 0
  gen := w.hw.genChip
  tag := 0
  addr := none
  detail := 0

/-- A second failure: the set is FAILED, or its domain stays unread (R508, R510). -/
def Work.snpFails (w : Work) (set range : Nat) (use : SnpUse) (write : Bool) (status : Nat) : Work :=
  if use = .domain then
    ((w.setFlag Reg.SNP_ERR_STAT Fld.SNP_ERR_STAT_WRITE_LASTING true).snpErrInfo set 0 2 status).snpStop set false
  else
    let bit := if write then Fld.SNP_ERR_STAT_WRITE_LASTING else Fld.SNP_ERR_STAT_READ_LASTING
    let w := ((w.setFlag Reg.SNP_ERR_STAT bit true).snpErrInfo set range (if write then 1 else 0) status).snpStop set true
    w.fault (w.snpFault set true)

/-- A second attempt succeeded (R510). -/
def Work.snpSecond (w : Work) (set : Nat) (write : Bool) : Work :=
  w.transient (w.snpFault set false) Reg.SNP_ERR_STAT
    (if write then Fld.SNP_ERR_STAT_WRITE_TRANSIENT else Fld.SNP_ERR_STAT_READ_TRANSIENT) Fld.SNP_ERR_STAT_TRANSIENT_CNT

/-! ### Enabling a set (R508) -/

/-- The check has passed: the set is valid, and KEEP decides what happens to CSTEP and the records. -/
def Work.snpEnable (w : Work) (n : Nat) : Work :=
  let cfg := Reg.SNP_SET_CFG n
  let w := w.setFlag cfg Fld.SNP_SET_CFG_VALID true
  if w.flag cfg Fld.SNP_SET_CFG_KEEP then
    let buddy := w.flag cfg Fld.SNP_SET_CFG_KSRC
    (w.updSnpSet n fun t => { t with stage := .keep }).snpDpa .keep n n 0 buddy (.read 8) (w.recordDpaOf n buddy)
  else
    let copies := w.snpCopies n
    let w := w.updSnpSet n fun t => { t with stage := .keep, left := copies.length }
    w.forEach copies fun w b => w.snpRecord .clear n b snpNone

/-- VALID is written 1 on a set that is not valid. -/
def Work.snpAsk (w : Work) (n : Nat) : Work :=
  if (w.snpSet n).stage = .domain then w
  else if (w.snpCopies n).contains true then
    (w.updSnpSet n fun t => { t with stage := .domain }).snpDpa .domain n n 0 true (.read 4) Reg.SNP_DOMAIN
  else w.snpEnable n

/-- Clear a range's trigger bits. -/
def Work.clearTriggers (w : Work) (i : Nat) : Work :=
  let a := Reg.SNP_RANGE_CFG i
  ((w.setFlag a Fld.SNP_RANGE_CFG_TRIG false).setFlag a Fld.SNP_RANGE_CFG_HELD false).setFlag a Fld.SNP_RANGE_CFG_DONE false

/-- VALID is cleared: the mirror of the open step ends, triggers are dropped (R509). -/
def Work.snpDisable (w : Work) (n : Nat) : Work :=
  (w.forEach (w.snpRanges n) fun w i => w.clearTriggers i).snpStop n false

/-- Is a range's configuration fixed, because it belongs to a valid set or would join one (R509)? -/
def Work.rangeFixed (w pre : Work) (i : Nat) : Bool :=
  let joins (w : Work) : Bool := w.flag (Reg.SNP_RANGE_CFG i) Fld.SNP_RANGE_CFG_VALID && w.snpValid (w.rangeSet i)
  joins pre || joins w

/-- Undo a discarded write and count it as a clamp with RULE 0b11. -/
def Work.snpDiscard (w pre : Work) (who : ClampBy) (addr n : Nat) : Work :=
  (w.forEach (List.range (n / 4)) fun w i => w.w32 (addr + 4 * i) (pre.r32 (addr + 4 * i))).clamp who addr 0 0 .joined

/-- What a write of SNP_SET_s_CFG does once it is stored: VALID reads 1 only after the checks (R508, R509). -/
def Work.snpCfgHook (w pre : Work) (who : ClampBy) (n : Nat) : Work :=
  let a := Reg.SNP_SET_CFG n
  let asks := w.snpValid n
  if pre.snpValid n then (if asks then w.snpDiscard pre who a 4 else w.snpDisable n)
  else if asks then (w.setFlag a Fld.SNP_SET_CFG_VALID false).snpAsk n
  else if (pre.snpSet n).stage = .domain then w.snpStop n false
  else w

/-- What a write of another register of a set does once it is stored (R509). -/
def Work.snpSetHook (w pre : Work) (who : ClampBy) (n addr : Nat) : Work :=
  if pre.snpValid n then w.snpDiscard pre who addr 8 else w

/-- What a write of a register of a range does once it is stored (R509). -/
def Work.snpRangeHook (w pre : Work) (who : ClampBy) (i addr size : Nat) : Work :=
  if w.rangeFixed pre i then w.snpDiscard pre who addr size else w

/-- A write of SNP_SET_s_CFG. -/
def Work.snpCfgWrite (w : Work) (m : Master) (n value : Nat) : Work :=
  (w.regWrite m (Reg.SNP_SET_CFG n) .w32 15 value).snpCfgHook w (w.clampBy m) n

/-- SNP_SET_ENABLE: SNP_SET_s_CFG is written with VALID 1. -/
def execSnpSetEnable (master : Master) (set : Fin 16) (value : Word) (s : State) : Host.Outcome State Fault Refusal :=
  run s fun w => w.snpCfgWrite master set (setBits value.toNat 0 1 1)

/-- SNP_SET_DISABLE: SNP_SET_s_CFG is written with VALID 0. -/
def execSnpSetDisable (master : Master) (set : Fin 16) (value : Word) (s : State) : Host.Outcome State Fault Refusal :=
  run s fun w => w.snpCfgWrite master set (setBits value.toNat 0 1 0)

/-! ### Triggers (R503) -/

/-- Trigger a range for the open step: it is mirrored after those triggered before it. -/
def Work.triggerRange (w : Work) (i : Nat) : Work :=
  let w := w.setFlag (Reg.SNP_RANGE_CFG i) Fld.SNP_RANGE_CFG_TRIG true
  { w with hw := { w.hw with snpJobs := w.hw.snpJobs ++ [⟨i, false, 0, 0, 0, false⟩] } }

/-- May a master trigger a range of a context's set? -/
def Work.triggers (w : Work) (m : Master) (ctx : Nat) : Bool :=
  match m with
  | .host _ => true
  | .firmware _ => true
  | .cell c e => decide (e.val = 0) && decide (w.placedCtx c.val = some ctx)
  | _ => false

/-- Does a set take triggers: valid, not FAILED, not restored? -/
def Work.takesTriggers (w : Work) (n : Nat) : Bool :=
  w.snpValid n && !(w.snpSet n).failed &&
    decide ((w.snpSet n).stage ∈ [SnpStage.idle, SnpStage.keep, SnpStage.commit])

/-- What a write of SNP_MIRROR does. -/
def Work.snpTrigger (w : Work) (m : Master) (value : Nat) : Work :=
  let i := bits value 0 8
  let a := Reg.SNP_RANGE_CFG i
  let n := w.rangeSet i
  if w.flag Reg.SNP_CTRL Fld.SNP_CTRL_EN && w.flag a Fld.SNP_RANGE_CFG_VALID && w.takesTriggers n && w.triggers m (w.snpCtx n) then
    if !w.flag a Fld.SNP_RANGE_CFG_TRIG then (w.triggerRange i).snpGo
    else if !w.flag a Fld.SNP_RANGE_CFG_HELD then w.setFlag a Fld.SNP_RANGE_CFG_HELD true
    else w.snpDrop
  else w.snpDrop

/-- SNP_TRIGGER: SNP_MIRROR is written whole. -/
def execSnpTrigger (master : Master) (value : Word) (s : State) : Host.Outcome State Fault Refusal :=
  run s fun w => Work.when (w.regTakes (Reg.SNP_MIRROR)) w fun w => w.snpTrigger master value.toNat

/-- A mirrored range whose reads are signalled and whose writes are acknowledged is done. -/
def Work.jobDone (w : Work) (i : Nat) : Work :=
  match w.hw.snpJobs.find? fun j => decide (j.range = i) && !j.restore with
  | some j =>
    if j.signalled && decide (j.wrote = w.rangePieces i * w.jobWidth j) then
      let w := { w with hw := { w.hw with snpJobs := w.hw.snpJobs.filter fun y => decide (y ≠ j) } }
      w.setFlag (Reg.SNP_RANGE_CFG i) Fld.SNP_RANGE_CFG_DONE true
    else w
  | none => w

/-! ### Restores (R511) -/

/-- Step 4 of a restore begins: the source's record. -/
def Work.restSource (w : Work) (n : Nat) : Work :=
  let t := w.snpSet n
  (w.updSnpSet n fun t => { t with stage := .restSource }).snpRecord .restSource n t.buddy t.step

/-- Step 3 of a restore begins: every valid range is read from the source. -/
def Work.restCopy (w : Work) (n : Nat) : Work :=
  let l := w.snpRanges n
  let w := w.updSnpSet n fun t => { t with stage := .restCopy }
  if l.isEmpty then w.restSource n
  else { w with hw := { w.hw with snpJobs := w.hw.snpJobs ++ l.map fun i => ⟨i, true, 0, 0, 0, true⟩ } }

/-- Step 2 of a restore begins once no range of the set is mirrored: standing triggers are dropped and the record is read. -/
def Work.restStart (w : Work) (n : Nat) : Work :=
  if (w.snpSet n).stage = .restWait ∧ !w.snpMirroring n then
    let w := w.forEach (w.snpRanges n) fun w i => w.clearTriggers i
    let t := w.snpSet n
    (w.updSnpSet n fun t => { t with stage := .restRecord }).snpDpa .restRecord n n 0 t.buddy (.read 8) (w.recordDpaOf n t.buddy)
  else w

/-- Is a restore in progress (SNP_STATUS.RESTORING)? -/
def Work.restoring (w : Work) : Bool :=
  w.hw.snpSets.any fun e => decide (e.2.stage ∈
    [SnpStage.restWait, SnpStage.restRecord, SnpStage.restCopy, SnpStage.restSource, SnpStage.restOther])

/-- What a write of SNP_CMD does. -/
def Work.snpCmd (w : Work) (value : Nat) : Work :=
  let n := bits value 4 4
  if bits value 0 1 = 0 then w
  else if w.flag Reg.SNP_CTRL Fld.SNP_CTRL_EN && w.snpValid n && decide ((w.snpSet n).stage = .idle) && !(w.snpSet n).failed &&
      !w.restoring then
    (w.updSnpSet n fun t => { t with
      stage := .restWait, step := (w.r64 Reg.SNP_RESTORE_STEP).toNat, buddy := decide (bits value 1 1 = 1)
      other := decide (bits value 2 1 = 1) }).restStart n
  else w.snpDrop

/-- SNP_RESTORE: SNP_CMD is written with RESTORE 1. -/
def execSnpRestore (value : Word) (s : State) : Host.Outcome State Fault Refusal :=
  run s fun w => Work.when (w.regTakes (Reg.SNP_CMD)) w fun w => w.snpCmd (setBits value.toNat 0 1 1)

/-- Steps 5 and 6 of a restore. -/
def Work.restRest (w : Work) (n : Nat) : Work :=
  let t := w.snpSet n
  let w := w.w64 (Reg.SNP_SET_CSTEP n) (BitVec.ofNat 64 t.step)
  if (w.snpCopies n).contains (!t.buddy) then
    (w.updSnpSet n fun t => { t with stage := .restOther }).snpRecord .restOther n (!t.buddy) (if t.other then t.step else snpNone)
  else w.updSnpSet n fun t => { t with stage := .idle }

/-! ### Commit (R505) -/

/-- May a set commit its open step? -/
def Work.commitReady (w : Work) (n : Nat) : Bool :=
  let l := w.snpRanges n
  w.snpValid n && !(w.snpSet n).failed && decide ((w.snpSet n).stage = .idle) && !l.isEmpty &&
    l.all fun i => w.flag (Reg.SNP_RANGE_CFG i) Fld.SNP_RANGE_CFG_TRIG && w.flag (Reg.SNP_RANGE_CFG i) Fld.SNP_RANGE_CFG_DONE

/-- SNP_COMMIT: the step is written to each record that MODE names. -/
def execSnpCommit (set : Fin 16) (s : State) : Host.Outcome State Fault Refusal :=
  run s fun w =>
    let n := set.val
    if w.commitReady n then
      let copies := w.snpCopies n
      let step := w.openStepOf n
      let w := w.updSnpSet n fun t => { t with stage := .commit, left := copies.length }
      w.forEach copies fun w b => w.snpRecord .commit n b step
    else w

/-- The records of a commit are written: CSTEP, the signal, and the held triggers. -/
def Work.committed (w : Work) (n : Nat) : Work :=
  let w := w.w64 (Reg.SNP_SET_CSTEP n) (BitVec.ofNat 64 (w.openStepOf n))
  let w := (w.bump Reg.SNP_COMMITS 1).unitSignal 28 13 (w.r64 (Reg.SNP_SET_COMMITSIG n)).toNat 1
  let w := w.updSnpSet n fun t => { t with stage := .idle }
  let held := (w.snpRanges n).filter fun i => w.flag (Reg.SNP_RANGE_CFG i) Fld.SNP_RANGE_CFG_HELD
  let w := w.forEach (w.snpRanges n) fun w i => w.clearTriggers i
  w.forEach held fun w i => w.triggerRange i

/-! ### Replies -/

/-- One of `left` record accesses of a set has completed. -/
def Work.snpRecordDone (w : Work) (n : Nat) (last : Work → Work) : Work :=
  let k := (w.snpSet n).left - 1
  let w := w.updSnpSet n fun t => { t with left := k }
  if k = 0 then last w else w

/-- A good reply: what follows. -/
def Work.snpContinue (w : Work) (use : SnpUse) (n : Nat) (q : Req) : Work :=
  let i := q.rep % 256
  let data : List (Option Byte) := (List.range 4096).map fun k => some (q.byte k)
  let idle (w : Work) : Work := w.updSnpSet n fun t => { t with stage := .idle }
  match use with
  | .mirrorRead =>
    let w := (w.bump Reg.SNP_BYTES 4096).updJob i false fun j => { j with back := j.back + 1 }
    let slot := w.openStepOf n % 2
    w.forEach (w.snpCopies n) fun w b => w.snpDpa .mirrorWrite n i q.off b (.write data) (w.slotDpa i b slot + q.off)
  | .mirrorWrite => (w.updJob i false fun j => { j with wrote := j.wrote + 1 }).jobDone i
  | .commit => w.snpRecordDone n fun w => w.committed n
  | .domain =>
    if q.number 4 % 65536 = w.fld Reg.SNP_DOMAIN Fld.SNP_DOMAIN_DOMAIN then
      ((w.setFlag Reg.SNP_ERR_STAT Fld.SNP_ERR_STAT_SAME_DOMAIN true).snpErrInfo n 0 2 0).snpStop n false
    else w.snpEnable n
  | .keep => idle (w.w64 (Reg.SNP_SET_CSTEP n) (BitVec.ofNat 64 (q.number 8)))
  | .clear => w.snpRecordDone n idle
  | .restRecord =>
    let t := (w.snpSet n).step
    if q.number 8 = t ∨ q.number 8 = (t + 1) % 2 ^ 64 then w.restCopy n
    else idle ((w.setFlag Reg.SNP_ERR_STAT Fld.SNP_ERR_STAT_STALE true).snpErrInfo n 0 3 0)
  | .restRead =>
    let w := (w.bump Reg.SNP_BYTES 4096).updJob i true fun j => { j with back := j.back + 1 }
    w.snpCva .restWrite n i q.off (.write data) (w.rangeSrc i + q.off)
  | .restWrite =>
    let w := w.updJob i true fun j => { j with wrote := j.wrote + 1 }
    let w := { w with hw := { w.hw with
      snpJobs := w.hw.snpJobs.filter fun j => !(j.restore && decide (j.wrote = w.rangePieces j.range)) } }
    if w.hw.snpJobs.any fun j => j.restore then w else w.restSource n
  | .restSource => w.restRest n
  | .restOther => idle w

/-- SNP_REQUEST_REPLY: a request of the engine has been answered (R504, R508, R510, R511); one of a set that has failed or been disabled since is
dropped. -/
def execSnpRequestReply (req : Nat) (s : State) : Host.Outcome State Fault Refusal :=
  run s fun w =>
    match w.req? req with
    | some q =>
      if !q.isSnp || decide (q.stage ≠ .replied) then w
      else
        let use := snpUse q.tag
        let ix := q.rep % 256
        let n := if use.ofRange then w.rangeSet ix else ix
        let second := decide (q.tag / 16 % 2 = 1)
        let w := w.dropReq req
        let w := if q.rep / 256 ≠ (w.snpSet n).epoch then w
          else if q.bad ≠ .ok then
            (if second then w.snpFails n (if use.ofRange then ix else 0) use q.op.isWrite q.bad.status
             else w.snpSend { q with tag := q.tag + 16 })
          else (if second then w.snpSecond n q.op.isWrite else w).snpContinue use n q
        (w.restStart n).snpGo
    | none => w

/-- SNP_RANGE_READ_DONE: every read of a mirrored range has returned (R504). -/
def execSnpRangeReadDone (range : Fin 256) (s : State) : Host.Outcome State Fault Refusal :=
  run s fun w =>
    let i := range.val
    match w.hw.snpJobs.find? fun j => decide (j.range = i) && !j.restore with
    | some j =>
      if decide (j.back = w.rangePieces i) && !j.signalled then
        let n := w.rangeSet i
        let w := w.unitSignal 28 13 (w.r64 (Reg.SNP_SET_READSIG n)).toNat 1
        ((w.updJob i false fun j => { j with signalled := true }).jobDone i).restStart n
      else w
    | none => w

end Sys2Proof.Machine
end

