-- ==== Sys2Proof/Machine/Views.lean ====
section
/-! DEFINITION. Registers that show what units hold, computed when they are read: the read-only status registers of the maps. -/

namespace Sys2Proof.Machine

/-- A number put together from fields: position and value. -/
def pack (l : List (Nat × Nat)) : Nat := l.foldl (fun n e => n + e.2 * 2 ^ e.1) 0

/-- One for true. -/
def bit (b : Bool) : Nat := if b then 1 else 0

/-! ### Cores (R119) -/

/-- Do the rails or an out-of-service chip hold every core in reset (R552, R583)? -/
def Work.coresHeld (w : Work) : Bool := !w.railsOn || decide (w.chipState = 2)

/-- CORE_STATE.RUN. -/
def Work.coreRun (w : Work) (c : Nat) : Nat :=
  let k := w.core c
  if w.coreDisabled c then 0
  else if w.coresHeld then 6
  else if k.testing then 5
  else match k.halt with
    | .brk => 3
    | .run => 4
    | .none => if (w.placedCtx c).isSome then 2 else 1

/-- Has engine e an issued command that has not completed? -/
def Work.engBusy (w : Work) (c e : Nat) : Bool := !(w.engine c e).running.isEmpty

/-- CORE_STATE.ENG_BUSY. -/
def Work.engsBusy (w : Work) (c : Nat) : Nat := pack ((List.range 5).map fun e => (e, bit (w.engBusy c e)))

/-- CORE_STATE.CTL_STALL. -/
def Work.ctlStalls (w : Work) (c : Nat) : Bool :=
  match (w.core c).stall with | .push _ => true | .wait _ _ => true | .boundary => true | _ => false

/-- CORE_STATE. -/
def Work.coreState (w : Work) (c : Nat) : Nat :=
  let run := w.coreRun c
  if run = 0 ∨ run = 6 then run
  else pack [(0, run), (4, w.engsBusy c), (9, bit (w.ctlStalls c)), (10, bit (w.core c).boundary)]

/-- CORE_ID. -/
def Work.coreId (w : Work) (c : Nat) : Nat :=
  pack [(0, coreGlobal c % 256), (8, w.physOf c), (13, bit (decide (coreSlot c < 16) && decide (w.physOf c = 16))), (16, coreRegion c)]

/-- Does the running repeat of engine e wait on a link half? -/
def Work.linkWait (w : Work) (c e : Nat) : Bool := match w.repeatDue c e with | some r => !w.halvesReady c r | none => false

/-- Does the running repeat of engine e wait on an accumulator bank: VEC on a full one, MTX on an open one that is not yet empty? -/
def Work.accWait (w : Work) (c e : Nat) : Bool :=
  if e = 1 then match w.repeatDue c 1 with | some r => vecAccin r.cmd && (w.fullBank c).isNone | none => false
  else if e = 0 then match (w.engine c 0).last with
    | some r => !mtxSentAll r && decide (((w.mtx c).bank (w.mtx c).opened).state ≠ .empty)
    | none => false
  else false

/-- CORE_QSTAT_e. -/
def Work.queueStat (w : Work) (c e : Nat) : Nat :=
  let x := w.engine c e
  pack [(0, x.queue.length), (8, bit (w.engBusy c e)), (9, bit (w.depWait c e)), (10, bit (w.linkWait c e)), (11, bit (w.accWait c e)),
    (12, bit (match x.queue.head? with | some q => q.held | none => false))]

/-- CORE_LINK_STAT: for each link FULL0, FULL1, PROD, CONS; the place of link 15 shows the banks (R119). -/
def Work.linkStat (w : Work) (c : Nat) : Nat :=
  let k := w.core c
  let one (l : Link) : Nat := pack [(0, bit l.full0), (1, bit l.full1), (2, l.prod), (3, l.cons)]
  let banks := pack [(0, bit (decide (k.mtx.bank0.state = .full))), (1, bit (decide (k.mtx.bank1.state = .full))), (2, k.mtx.opened),
    (3, k.mtx.closed.headD 0)]
  pack ((List.range 15).map (fun i => (4 * i, one (k.link i))) ++ [(60, banks)])

/-- MTX_STATUS (R190). -/
def Work.mtxStatus (w : Work) (c : Nat) : Nat :=
  let m := w.mtx c
  let st (b : Bank) : Nat := match b.state with | .empty => 0 | .closing => 1 | .full => 2
  pack [(0, st m.bank0), (2, st m.bank1), (4, m.opened), (5, m.level), (9, m.target), (13, bit m.proofSlot), (14, bit m.lastMvp)]

/-- W of a running VEC command (R196): the code of VEC_STATUS.WIDTH. -/
def vecWidth (r : Running) : Nat :=
  let g := r.vecCfg
  let fmts := (List.range (g.inCount + 1)).map g.inFmt ++ (List.range (g.outCount + 1)).map g.outFmt
  if fmts.any fun f => decide (12 ≤ f) then 0 else if vecAccin r.cmd || fmts.any fun f => decide (f = 10 ∨ f = 11) then 1 else 2

/-- VEC_STATUS (R221): of the command that takes repeats. -/
def Work.vecStatus (w : Work) (c : Nat) : Nat :=
  match (w.engine c 1).last with
  | some r =>
    if cmdOpcode r.cmd = 0 then 1
    else pack [(0, 1), (1, if r.ready then vecWidth r else 0), (3, vecStages r.cmd - 1), (6, bit (vecAccin r.cmd)), (7, r.bankHeld.getLast?.getD 0),
      (16, cmdRepeat r.cmd - r.started)]
  | none => 0

/-- STR_STATUS_c (R247). -/
def Work.strStatus (w : Work) (c s : Nat) : Nat :=
  match (w.engine c (2 + s)).first with
  | some r => pack [(0, 1), (1, cmdOpcode r.cmd), (7, strDesc r.cmd),
      (21, (w.hw.reqs.filter fun e => decide (e.2.src = .str c s)).length)]
  | none => 0

/-- SYN_STATUS (R270): a WAIT whose REGISTER has not been answered shows no mode. -/
def Work.synStatus (w : Work) (c : Nat) : Nat :=
  let y := (w.core c).syn
  let mode := match y.mode with | .none => 0 | .sent => 0 | .local => 1 | .accepted => 2 | .polling => 3
  let obj := match y.mode, (w.engine c 4).first with | .local, some r => synSidx r.cmd | _, _ => 0
  pack [(0, mode), (2, bit y.waiting), (3, obj), (14, y.incoming.length)]

/-- SYN_WAIT_TAG (R270). -/
def Work.synWaitTag (w : Work) (c : Nat) : Nat := if w.synStatus c % 4 = 0 then 0 else pack [(0, w.synTag c), (16, 1)]

/-- The computed registers of a core slot's CORE_, MTX_, VEC_, STR_ and SYN_ blocks, by name; `off` is the offset in the slot. -/
def Work.viewCore (w : Work) (name : String) (c off : Nat) : Option Nat :=
  match name with
  | "CORE_ID" => some (w.coreId c)
  | "CORE_STATE" => some (w.coreState c)
  | "CORE_PC" => some (w.core c).pc.toNat
  | "CORE_CTX" => some (setBits (w.r32 (Reg.CORE_CTX c)).toNat 16 8 (SMap.get 0 w.hw.genCore c))
  | "CORE_QSTAT_e" => some (w.queueStat c ((off - 0x100) / 16))
  | "CORE_LINK_STAT" => some (w.linkStat c)
  | "MTX_STATUS" => some (w.mtxStatus c)
  | "VEC_STATUS" => some (w.vecStatus c)
  | "STR_PEEK_Ww" => some (w.descWord (descKey (coreRegion c) (w.fld (Reg.STR_PEEK_IDX c) Fld.STR_PEEK_IDX_INDEX)) ((off - 0x30010) / 4))
  | "STR_PEEK_POS" => some (w.descPosOf (descKey (coreRegion c) (w.fld (Reg.STR_PEEK_IDX c) Fld.STR_PEEK_IDX_INDEX)))
  | "STR_STATUS_c" => some (w.strStatus c ((off - 0x30100) / 0x100))
  | "SYN_STATUS" => some (w.synStatus c)
  | "SYN_WAIT_TAG" => some (w.synWaitTag c)
  | "SYN_WATCH_STAT" =>
    let n := w.watchUsed c
    some (pack [(0, n), (16, max n (w.fld (Reg.SYN_WATCH_STAT c) Fld.SYN_WATCH_STAT_HIGH))])
  | _ => none

/-! ### Regions (R305, R359, R360, R586) -/

/-- Channels of a region marked failed. -/
def Work.channelsFailed (w : Work) (r : Nat) : Nat := ((List.range 64).filter fun i => w.chFailed (64 * r + i)).length

/-- MEM_CH_STAT_c. -/
def Work.chanStat (w : Work) (ch : Nat) : Nat :=
  let k := w.chan ch
  pack [(0, k.queue.length), (7, (k.queue.filter fun a => a.wr.isSome).length), (14, bit k.batch), (15, bit (w.chTesting ch)),
    (16, bit (w.chFailed ch))]

/-- Retired frames of an allocator's tier. -/
def Work.retired (w : Work) (r tier : Nat) : Nat :=
  min 65535 ((w.listedRecords r).filter fun e => decide (e.2.1 = 4) && decide ((recordFrame r e.1).1 = tier)).length

/-- Does the heat throttle limit the admission of a region's channels (R581)? -/
def Work.memThrottled (w : Work) (r : Nat) : Bool :=
  decide (w.fld Reg.PWR_THERM_CFG Fld.PWR_THERM_CFG_THROT_D ≤ w.fld (Reg.MEM_TEMP r) Fld.MEM_TEMP_MAX)

/-- The computed registers of a region's MEM_, PGE_, ALC_ and PWR_RG_ blocks. -/
def Work.viewRegion (w : Work) (name : String) (r off : Nat) : Option Nat :=
  match name with
  | "MEM_STATUS" => some (setBits (w.r32 (Reg.MEM_STATUS r)).toNat 3 8 (w.channelsFailed r))
  | "MEM_TEMP" =>
    let v := (w.r32 (Reg.MEM_TEMP r)).toNat
    some (setBits v 16 8 (max (bits v 16 8) (bits v 0 8)))
  | "MEM_POOL_STAT" =>
    let n := w.poolUsed r
    some (pack [(0, n), (16, max n (w.fld (Reg.MEM_POOL_STAT r) Fld.MEM_POOL_STAT_HIGH))])
  | "MEM_CH_STAT_c" => some (w.chanStat (64 * r + (off % 0x1000000 - 0x1000) / 0x40))
  | "PGE_STATUS" =>
    let p := w.pge r
    some (pack [(0, p.queue.length), (9, bit (match p.move with | some m => m.evict | none => false)), (10, (w.walks r).length)])
  | "ALC_STATUS" => some (pack [(0, (w.alc r).queue.length), (8, bit (w.reserveShort r))])
  | "ALC_OWNED" => some (pack ((ownedPorts r).map fun p => (p, 1)))
  | "ALC_FREE_STK" => some (w.freeStacked r)
  | "ALC_FREE_CAP" => some (w.freeCapacity r)
  | "ALC_RETIRED" => some (pack [(0, w.retired r 0), (16, w.retired r 1)])
  | "PWR_RG_STATUS" => some (setBits (w.r32 (Reg.PWR_RG_STATUS r)).toNat 4 1 (bit (w.memThrottled r)))
  | _ => none

/-! ### Link dies (R418, R494) -/

/-- The computed registers of a link die. -/
def Work.viewLink (w : Work) (name : String) (p : Nat) : Option Nat :=
  match name with
  | "COL_STATUS" =>
    let axis := p / 2
    some (pack [(0, (w.hw.colOps.filter fun o => decide (o.axis = axis)).length),
      (16, bit (w.hw.colFailed.any fun k => decide (k / 65536 = axis)))])
  | "COL_STORE" =>
    let n := w.storeGranules p
    some (pack [(0, n), (16, max n (w.fld (Reg.COL_STORE p) Fld.COL_STORE_HIGH))])
  | "FEN_STATUS" => some (setBits (w.r32 (Reg.FEN_STATUS p)).toNat 0 2 (w.fenceMode p))
  | _ => none

/-! ### HD0 (R379, R380, R515, R525, R585, R612) -/

/-- A disabled logical core (R550). -/
def Work.logicalDisabled (w : Work) (g : Nat) : Bool := w.coreDisabled (globalSlot g)

/-- STATE, DONE and RANGES of a snapshot set. -/
def Work.snpSetState (w : Work) (n : Nat) : Nat :=
  let l := w.snpRanges n
  let st := if !w.snpValid n then 0 else if (w.snpSet n).failed then 3 else if w.snpMirroring n then 2 else 1
  pack [(0, st), (2, (l.filter fun i => w.flag (Reg.SNP_RANGE_CFG i) Fld.SNP_RANGE_CFG_DONE).length), (11, l.length)]

/-- Is a restore in progress (R511)? -/
def Work.snpRestoring (w : Work) : Bool :=
  (List.range 16).any fun n => match (w.snpSet n).stage with
    | .restWait => true | .restRecord => true | .restCopy => true | .restSource => true | .restOther => true | _ => false

/-- ERR_CHIP.PHASE: the first row of R554 that is in progress. -/
def Work.chipPhase (w : Work) : Nat :=
  if w.chipState ≠ 1 then 0
  else if w.hw.resetsDue.any fun m => decide (m % 32 = 16) then 0
  else if w.fld (Reg.BOOT_STATUS 0) Fld.BOOT_STATUS_STAGE < 3 then 5
  else if w.hw.cores.any fun e => e.2.testing then 7
  else if linkDies.any fun p => decide (1 ≤ w.linkState p ∧ w.linkState p ≤ 4) then 8
  else if [0, 1, 2, 3].any fun d => w.flag (Reg.CAP_STATUS d) Fld.CAP_STATUS_BUSY then 9
  else 11

/-- Is an edge die's junction at or above THROT_J (R582)? -/
def Work.edgeHot (w : Work) : Bool :=
  (List.range 14).any fun i => decide (w.fld Reg.PWR_THERM_CFG Fld.PWR_THERM_CFG_THROT_J ≤ w.junction (16 + i))

/-- The computed registers of HD0 alone. -/
def Work.viewHub0 (w : Work) (name : String) (off : Nat) : Option Nat :=
  match name with
  | "SCH_STATUS" => some (setBits (w.r32 Reg.SCH_STATUS).toNat 0 11 ((List.range 1024).filter fun x => decide (w.ctxState x = 2)).length)
  | "SCH_CTX_x_RUN" =>
    let x := (off - 0x1010000) / 64
    let v := setBits (w.r32 (Reg.SCH_CTX_RUN x)).toNat 25 1 (bit (w.hw.colOps.any fun o => decide (o.ctx = x)))
    some (setBits v 26 1 (bit (w.isPlaced x)))
  | "SCH_PRES_g_n" =>
    let i := (off - 0x1040000) / 4
    some (setBits (w.r32 (0x3F1C00000000 + off)).toNat 11 1 (bit (w.granuleHeld (i / 256) (i % 256))))
  | "SNP_STATUS" =>
    some (pack [(0, bit (w.hw.snpJobs.any fun j => !j.restore)), (1, bit w.snpRestoring), (2, w.snpOutstanding)])
  | "SNP_SET_s_STATE" => some (w.snpSetState ((off - 0x2002004) / 64))
  | "DET_ENV" =>
    some (pack [(0, (w.r32 (Reg.BOOT_FWVER 0)).toNat), (32, 2), (36, ((List.range 256).filter w.logicalDisabled).length),
      (45, bit w.detOn)])
  | "DET_UNITMAP_k" => some (pack ((List.range 64).map fun b => (b, bit (w.logicalDisabled (64 * ((off - 0x3000020) / 8) + b)))))
  | "ERR_CHIP" => some (setBits (w.r32 Reg.ERR_CHIP).toNat 2 5 w.chipPhase)
  | "ERR_ORPHANS" => some w.hw.orphans.length
  | "PWR_STATUS" =>
    let v := setBits (w.r32 Reg.PWR_STATUS).toNat 2 1 (bit (!w.hw.proof.isEmpty))
    some (setBits v 3 1 (bit w.edgeHot))
  | "PWR_TEMP" => some w.pwrTemp
  | _ => none

/-- Registers of every die. -/
def Work.viewAny (w : Work) (name : String) (d off : Nat) : Option Nat :=
  match name with
  | "ERR_STATUS" =>
    let v := setBits (w.r32 (Reg.ERR_STATUS d)).toNat 3 1 (bit (decide (w.chipState = 1)))
    if d < 16 then
      let v := setBits v 4 1 (bit (w.regionDisabled d))
      some (setBits v 6 1 (bit ((List.range 17).any fun i => (w.core (17 * d + i)).testing)))
    else some v
  | "ERR_ESC_CORE_p" =>
    let p := (off - 0x2F003000) / 8
    let a := Reg.ERR_ESC_CORE p
    some (setBits (w.r64 a).toNat 0 4 (min 15 (w.escCount p 10)))
  | "ERR_ESC_REGION_n" =>
    let r := (off - 0x2F003900) / 8
    some (setBits (w.r64 (Reg.ERR_ESC_REGION r)).toNat 0 4 (min 15 (w.escCount (272 + r) 30)))
  | "ERR_ESC_CHIP" => some (setBits (w.r64 Reg.ERR_ESC_CHIP).toNat 0 4 (min 15 (w.escCount 288 60)))
  | "MGT_ID" => some (pack [(0, 0x2A02), (16, 2), (24, d)])
  | "MGT_SERIAL" => some Config.serial.toNat
  | "MGT_UPTIME" => some (w.hw.uptime % 2 ^ 64)
  | "MGT_SB_STAT" =>
    let pos := w.fld (Reg.BOOT_STRAP 1) Fld.BOOT_STRAP_POS
    some (setBits (w.r32 (Reg.MGT_SB_STAT d)).toNat 0 7 (0x60 + pos % 16))
  | _ => none

/-- What a register shows now (R46): the reading of a unit, or the stored word. -/
def Work.shows (w : Work) (h : RegHit) : Nat :=
  let d := csrDie h.addr
  let off := (h.addr - 0x3F0000000000) % 0x100000000
  let top := off / 0x1000000
  let v := (w.viewAny h.row.name d off).or (
    if d < 16 then (if top < 17 then w.viewCore h.row.name (17 * d + top) (off % 0x1000000) else w.viewRegion h.row.name d off)
    else if d < 24 then w.viewLink h.row.name (d - 16)
    else if d = 28 then w.viewHub0 h.row.name off else none)
  match v with
  | some n => n
  | none => if h.row.size = 8 then (w.r64 h.addr).toNat else (w.r32 h.addr).toNat

end Sys2Proof.Machine
end

