-- ==== Sys2Proof/Machine/Dbg.lean ====
section
/-! DEFINITION. Debug access (R637–R649): the signal groups, OBS, the trigger unit, the trace buffer, the counter freeze and the test access port. -/

namespace Sys2Proof.Machine

/-! ### Signal groups (R638–R641) -/

/-- The bits of a group that are levels, from the state: the value now (R641). -/
def Work.groupLevels (w : Work) (d sel : Nat) : Nat :=
  if d < 16 then
    if sel ≤ 0x10 then
      let c := w.slotOf d sel
      pack [(0, w.coreRun c), (3, w.engsBusy c), (8, bit (w.ctlStalls c)), (9, bit (w.core c).boundary), (10, (w.mtx c).level),
        (15, bit (w.core c).syn.waiting)]
    else if 0x40 ≤ sel ∧ sel < 0x80 then
      let ch := 64 * d + (sel - 0x40)
      pack [(0, (w.chan ch).queue.length), (7, bit (w.chan ch).batch), (8, bit (w.chTesting ch))]
    else if sel = 0x80 then
      pack [(1, (w.walks d).length), (14, bit (w.hw.reqs.any fun e => decide (e.2.stage = .held) && decide (e.2.pge = d))),
        (15, bit (match (w.pge d).move with | some m => m.evict | none => false))]
    else 0
  else if d < 24 then (if sel = 0 then w.linkState (d - 16) else if sel = 1 then w.storeGranules (d - 16) else 0)
  else if d < 28 then
    let k := d - 24
    let ch := 1024 + 8 * (4 * k + sel % 4)
    pack [(0, (w.chan ch).queue.length), (7, bit (w.chan ch).batch), (9, bit (w.flag (Reg.CAP_STATUS k) Fld.CAP_STATUS_SELFREF)),
      (14, bit (w.flag (Reg.CAP_STATUS k) Fld.CAP_STATUS_BUSY)), (15, bit (w.capFailed (4 * k + sel % 4)))]
  else if d = 28 then
    if sel = 0 then pack [(0, w.hw.lastSwitch % 1024), (14, bit (w.flag Reg.SCH_STATUS Fld.SCH_STATUS_FORMING))]
    else pack [(0, w.fld Reg.PWR_CAPS Fld.PWR_CAPS_C), (12, bit (w.flag Reg.PWR_STATUS Fld.PWR_STATUS_RECOVERING)),
      (13, bit (w.flag Reg.PWR_STATUS Fld.PWR_STATUS_AT_FLOOR)), (15, bit (!w.hw.proof.isEmpty))]
  else if d = 29 then
    pack [(0, w.fld (Reg.HUB_STATUS 1) Fld.HUB_STATUS_LTSSM), (8, bit (w.flag (Reg.HUB_ERR_STAT 1) Fld.HUB_ERR_STAT_CPL_LATE))]
  else w.fld (Reg.PWR_SD_POWER (d - 30)) Fld.PWR_SD_POWER_W

/-- The bits of a group that show events (R641). -/
def groupEvents (d sel : Nat) : Nat :=
  if d < 16 then (if sel ≤ 0x10 then 0x4000 else if 0x20 ≤ sel ∧ sel ≤ 0x30 then 0xFFFF else if sel = 0x80 then 0x3F01 else 0xFE00)
  else if d < 24 then (if sel = 0 then 0xFFF0 else 0xC000)
  else if d < 28 then 0x3D00
  else if d = 28 then (if sel = 0 then 0xBC00 else 0x4000)
  else if d = 29 then 0xF0 else 0

/-- The bits that the table of R641 names. -/
def groupNamed (d : Nat) : Nat := if d = 29 then 0x1FF else 0xFFFF

/-- Does a die drive zeros (R640)? -/
def Work.groupDark (w : Work) (d : Nat) : Bool := (decide (d < 30) && w.coresHeld) || (decide (d < 16) && w.regionDisabled d)

/-- The word that die d samples: the levels of its group with the events of the sample (R638, R641). -/
def Work.groupWord (w : Work) (d : Nat) (events : Nat) : Nat :=
  let sel := w.fld (Reg.DBG_MUX_SEL d) Fld.DBG_MUX_SEL_SEL
  if sel = 0xFF then 0xA5C3
  else if sel = 0xFE then w.hw.obsCount % 65536
  else if w.groupDark d then 0
  else
    let shown := if w.fld (Reg.DBG_MUX_SEL d) Fld.DBG_MUX_SEL_MODE = 1 then groupNamed d else groupEvents d sel
    (w.groupLevels d sel ||| (events &&& shown)) % 65536

/-! ### The trigger unit (R642–R644) -/

/-- The trigger unit's own copy of DBG_TRIG_CTRL: a field. -/
def Work.trigCtl (w : Work) (f : Fld) : Bool := decide (bits w.hw.trigRegs.ctrl.toNat f.lsb f.width = 1)

/-- A change of DBG_CNT_CTRL.FREEZE of a die, with its stamp (R646). -/
def Work.setFreeze (w : Work) (d : Nat) (b : Bool) : Work :=
  if w.frozen d = b then w
  else (w.setFlag (Reg.DBG_CNT_CTRL d) Fld.DBG_CNT_CTRL_FREEZE b).w64 (Reg.DBG_FREEZE_STAMP d) (BitVec.ofNat 64 w.hw.uptime)

/-- A_HALT: the cores of a region that are not in reset or in self-test halt (R643). -/
def Work.haltRegion (w : Work) (r : Nat) : Work :=
  w.forEach (List.range 17) fun w i =>
    let c := 17 * r + i
    if w.coreDisabled c || w.coresHeld || (w.core c).testing then w else w.haltCore c

/-- The unit fires on the conditions `by_` (R642, R643, R645). -/
def Work.fire (w : Work) (by_ : Nat) : Work :=
  let st := Reg.DBG_TRIG_STAT
  let w := ((w.setFlag st Fld.DBG_TRIG_STAT_HIT true).setFld st Fld.DBG_TRIG_STAT_BY by_).w64 Reg.DBG_TRIG_STAMP (BitVec.ofNat 64 w.hw.uptime)
  let w := if w.trigCtl Fld.DBG_TRIG_CTRL_A_OUT then { w with hw := { w.hw with trigRise := 4 } } else w
  let w := if w.trigCtl Fld.DBG_TRIG_CTRL_A_TRACE && w.hw.traceOn then
      let w := w.setFld Reg.DBG_TRACE_STAT Fld.DBG_TRACE_STAT_TRIG_IDX (w.fld Reg.DBG_TRACE_STAT Fld.DBG_TRACE_STAT_WPTR + 8191)
      { w with hw := { w.hw with tracePost := some (w.fld Reg.DBG_TRACE_CFG Fld.DBG_TRACE_CFG_POST) } }
    else w
  let w := if w.trigCtl Fld.DBG_TRIG_CTRL_A_FREEZE then w.forEach (List.range 32) fun w d => w.setFreeze d true else w
  let w := if w.trigCtl Fld.DBG_TRIG_CTRL_A_HALT then
      w.forEach ((List.range 16).filter fun r => decide (bits (w.fld Reg.DBG_TRIG_HALT Fld.DBG_TRIG_HALT_REGIONS) r 1 = 1)) Work.haltRegion
    else w
  { w with hw := { w.hw with trigConds := 0 } }

/-- Conditions hold: the unit fires at once (`now`), keeps them for the firing that follows the sample, or counts a missed firing (R642, R644). -/
def Work.condsHold (w : Work) (conds : Nat) (now : Bool) : Work :=
  if conds = 0 ∨ !w.trigCtl Fld.DBG_TRIG_CTRL_ARM then w
  else if w.flag Reg.DBG_TRIG_STAT Fld.DBG_TRIG_STAT_HIT then w.satAdd Reg.DBG_TRIG_STAT Fld.DBG_TRIG_STAT_MISSED 1
  else if now then w.fire conds
  else { w with hw := { w.hw with trigConds := conds } }

/-- The firing that follows a sample at which conditions held. -/
def Work.fireDue (w : Work) : Work := if w.hw.trigConds = 0 then w else w.fire w.hw.trigConds

/-- TRIGGER_FIRE: the unit performs what a firing sample calls for (R642, R643). -/
def execTriggerFire (s : State) : Host.Outcome State Fault Refusal := run s fun w => w.fireDue

/-- TRIG_OUT falls (R643). -/
def Work.trigOutLow (w : Work) : Work :=
  let w := w.setFlag Reg.DBG_TRIG_STAT Fld.DBG_TRIG_STAT_OUT false
  { w with hw := { w.hw with trigLeft := 0 } }

/-- TRIG_OUT has been high for OUT_LEN samples. -/
def Work.outEndDue (w : Work) : Work := if w.hw.trigLeft = 1 then w.trigOutLow else w

/-- TRIG_OUT_END: TRIG_OUT falls after OUT_LEN samples (R643). -/
def execTrigOutEnd (s : State) : Host.Outcome State Fault Refusal := run s fun w => w.outEndDue

/-- The capture stops: POST samples have followed the firing sample (R645). -/
def Work.traceDue (w : Work) : Work :=
  if w.hw.tracePost = some 0 then
    let w := w.setFlag Reg.DBG_TRACE_STAT Fld.DBG_TRACE_STAT_FROZEN true
    { w with hw := { w.hw with traceOn := false, tracePost := none } }
  else w

/-- TRACE_FREEZE: the capture stops with FROZEN set (R645). -/
def execTraceFreeze (s : State) : Host.Outcome State Fault Refusal := run s fun w => w.traceDue

/-- What a write of DBG_TRIG_CMD does: FIRE, with ARM in effect, and CLEAR_OUT (R642, R643). -/
def Work.trigCmd (w : Work) (who : ClampBy) (value : Nat) : Work :=
  let (v, w) := w.woWrite who Reg.DBG_TRIG_CMD value
  let w := if bits v 0 1 = 1 then w.condsHold 16 true else w
  if bits v 1 1 = 1 then w.trigOutLow else w

/-- TRIG_CMD_FIRE: DBG_TRIG_CMD is written with FIRE 1 (R642). -/
def execTrigCmdFire (master : Master) (value : Word) (s : State) : Host.Outcome State Fault Refusal :=
  run s fun w => Work.when (value.getLsbD 0) w fun w => w.trigCmd (w.clampBy master) value.toNat

/-- TRIG_CLEAR_OUT: DBG_TRIG_CMD is written with CLEAR_OUT 1 (R643). -/
def execTrigClearOut (master : Master) (value : Word) (s : State) : Host.Outcome State Fault Refusal :=
  run s fun w => Work.when (value.getLsbD 1) w fun w => w.trigCmd (w.clampBy master) value.toNat

/-- TRIG_REARM: 1 is written to DBG_TRIG_STAT.HIT (R644). A firing that is due in the same cycle leaves HIT set (R14). -/
def execTrigRearm (s : State) : Host.Outcome State Fault Refusal :=
  run s fun w => w.setFlag Reg.DBG_TRIG_STAT Fld.DBG_TRIG_STAT_HIT false

/-! ### Samples (R637–R639, R645) -/

/-- Does OCLK run (R637)? -/
def Work.oclkRuns (w : Work) : Bool :=
  w.flag Reg.DBG_OBS_CFG Fld.DBG_OBS_CFG_SRC || decide (w.fld Reg.CLK_STATUS Fld.CLK_STATUS_DOM_SRC = 0)

/-- Are OBS and TRIG_OUT held low (R640)? -/
def Work.obsLow (w : Work) : Bool :=
  !w.flag Reg.DBG_OBS_CFG Fld.DBG_OBS_CFG_EN || w.flag Reg.CLK_STATUS Fld.CLK_STATUS_HALTED || w.tripped

/-- The word that the chip multiplexer samples (R639). -/
def Work.obsWord (w : Work) (loEvents hiEvents : Nat) : Nat :=
  let cfg := Reg.DBG_OBS_CFG
  let lo := w.groupWord (w.fld cfg Fld.DBG_OBS_CFG_LO_DIE) loEvents
  let hi := w.groupWord (w.fld cfg Fld.DBG_OBS_CFG_HI_DIE) hiEvents
  bits lo (8 * w.fld cfg Fld.DBG_OBS_CFG_LO_BYTE) 8 + bits hi (8 * w.fld cfg Fld.DBG_OBS_CFG_HI_BYTE) 8 * 256

/-- OBS changes at an edge: the word sampled 24 edges ago reaches the pins (R639, R640). -/
def Work.obsShift (w : Work) (word : Nat) : Work :=
  let pipe := word :: w.hw.obsPipe
  let toggle := !w.hw.obsToggle
  let out := pipe.getD 24 0
  let out := if w.flag Reg.DBG_OBS_CFG Fld.DBG_OBS_CFG_STROBE then setBits out 15 1 (bit toggle) else out
  { w with hw := { w.hw with
      obsPipe := pipe.take 24, obsToggle := toggle, obsPins := if w.obsLow then 0 else out, obsCount := (w.hw.obsCount + 1) % 65536 } }

/-- The conditions that hold at a sample (R642), as DBG_TRIG_STAT.BY counts them, and the run of matches. -/
def Work.trigTest (w : Work) : Nat × Nat :=
  let t := w.hw.trigRegs
  let mask := bits t.cond.toNat 16 16
  let run := if w.hw.obsPins &&& mask = bits t.cond.toNat 0 16 then min (w.hw.matchRun + 1) 65535 else 0
  let now := w.hw.trigIn.getD 0 false
  let before := w.hw.trigIn.getD 1 false
  let edge := if bits t.cfg.toNat 24 1 = 0 then now && !before else before && !now
  let held := pack [(0, bit (decide (bits t.cfg.toNat 0 16 ≤ run))), (1, bit edge), (2, bit w.hw.dbgBreak), (3, bit w.hw.dbgFault)]
  (held &&& bits t.ctrl.toNat 1 4, run)

/-- The trace buffer takes a sample of the OBS word (R645). -/
def Work.traceSample (w : Work) : Work :=
  if !w.hw.traceOn then w
  else
    let st := Reg.DBG_TRACE_STAT
    let i := w.fld st Fld.DBG_TRACE_STAT_WPTR
    let w := w.setFld (Reg.DBG_TRACE (i / 2)) ⟨16 * (i % 2), 16⟩ w.hw.obsPins
    let w := w.setFld st Fld.DBG_TRACE_STAT_WPTR (i + 1)
    { w with hw := { w.hw with tracePost := w.hw.tracePost.map (· - 1) } }

/-- The output pulse advances by a sample (R643). -/
def Work.pulseSample (w : Work) : Work :=
  if w.hw.trigRise = 1 then
    let n := bits w.hw.trigRegs.cfg.toNat 16 8
    let w := w.setFlag Reg.DBG_TRIG_STAT Fld.DBG_TRIG_STAT_OUT (!w.obsLow)
    { w with hw := { w.hw with trigRise := 0, trigLeft := if w.obsLow || decide (n = 0) then 0 else n + 1 } }
  else { w with hw := { w.hw with trigRise := w.hw.trigRise - 1, trigLeft := if w.hw.trigLeft ≤ 1 then w.hw.trigLeft else w.hw.trigLeft - 1 } }

/-- OBS_SAMPLE: an OCLK edge (R638, R642–R645). `loEvents`, `hiEvents`: the signals that were 1 since the last sample in the groups of the two dies
that OBS shows; `trigIn`: the level of TRIG_IN. What the last sample called for comes first. -/
def execObsSample (loEvents hiEvents : BitVec 16) (trigIn : Bool) (s : State) : Host.Outcome State Fault Refusal :=
  run s fun w =>
    Work.when w.oclkRuns w fun w =>
      let w := w.fireDue.traceDue.outEndDue
      let w := w.obsShift (w.obsWord loEvents.toNat hiEvents.toNat)
      let (conds, run) := w.trigTest
      let w := w.traceSample.pulseSample
      let w := { w with hw := { w.hw with
        matchRun := run, trigIn := [trigIn, w.hw.trigIn.getD 0 false], dbgBreak := false, dbgFault := false
        trigRegs := ⟨w.r32 Reg.DBG_TRIG_CTRL, w.r32 Reg.DBG_TRIG_MATCH, w.r32 Reg.DBG_TRIG_CFG⟩ } }
      w.condsHold conds false

/-! ### Registers with an effect (R641, R645, R646) -/

/-- What a write of DBG_OBS_CFG does once it is stored: EN from 0 to 1 sets every sample count to zero, EN 0 drives OBS and TRIG_OUT low. -/
def Work.obsCfgHook (w pre : Work) : Work :=
  let en (w : Work) : Bool := w.flag Reg.DBG_OBS_CFG Fld.DBG_OBS_CFG_EN
  if en w && !en pre then { w with hw := { w.hw with obsCount := 0 } }
  else if !en w && en pre then w.quietObs
  else w

/-- OBS_ENABLE: a write of DBG_OBS_CFG that sets EN (R641). -/
def execObsEnable (master : Master) (value : Word) (s : State) : Host.Outcome State Fault Refusal :=
  run s fun w => Work.when (value.getLsbD 0) w fun w => (w.regWrite master Reg.DBG_OBS_CFG .w32 15 value.toNat).obsCfgHook w

/-- What a write of DBG_TRACE_CFG does once it is stored: with EN 1 the capture starts at index 0 (R645). -/
def Work.traceCfgHook (w : Work) : Work :=
  if w.flag Reg.DBG_TRACE_CFG Fld.DBG_TRACE_CFG_EN then
    { (w.w32 Reg.DBG_TRACE_STAT 0) with hw := { w.hw with traceOn := true, tracePost := none } }
  else { w with hw := { w.hw with traceOn := false, tracePost := none } }

/-- TRACE_ENABLE: DBG_TRACE_CFG is written with EN 1 (R645). -/
def execTraceEnable (master : Master) (value : Word) (s : State) : Host.Outcome State Fault Refusal :=
  run s fun w => Work.when (value.getLsbD 0) w fun w => (w.regWrite master Reg.DBG_TRACE_CFG .w32 15 value.toNat).traceCfgHook

/-- What a write of DBG_CNT_CTRL does once it is stored: a change of FREEZE is stamped (R646). -/
def Work.cntCtrlHook (w pre : Work) (d : Nat) : Work :=
  if w.frozen d = pre.frozen d then w else w.w64 (Reg.DBG_FREEZE_STAMP d) (BitVec.ofNat 64 w.hw.uptime)

/-- CNT_FREEZE: DBG_CNT_CTRL of a die is written (R646). -/
def execCntFreeze (master : Master) (die : DieIx) (value : Word) (s : State) : Host.Outcome State Fault Refusal :=
  run s fun w => (w.regWrite master (Reg.DBG_CNT_CTRL die) .w32 15 value.toNat).cntCtrlHook w die

/-! ### The test access port (R647, R648) -/

/-- An instruction reaches the instruction register; TRST_N low holds the port in Test-Logic-Reset. -/
def tapRow (s : State) (f : Work → Work) : Host.Outcome State Fault Refusal :=
  runAlways s fun w => if w.hw.standby && !w.hw.tapReset then f w else w

/-- The instruction in effect. -/
def Work.setIr (w : Work) (code : Nat) : Work := w.setFld Reg.DBG_TAP_STAT Fld.DBG_TAP_STAT_IR code

/-- An instruction that takes the pins: only while the chip is out of service (R648). -/
def Work.takePins (w : Work) (code : Nat) : Work :=
  if w.chipState = 2 then w.setIr code else (w.satAdd Reg.DBG_TAP_STAT Fld.DBG_TAP_STAT_REFUSED 1).setIr 0xFF

/-- TAP_IDCODE. -/
def execTapIdcode (s : State) : Host.Outcome State Fault Refusal := tapRow s fun w => w.setIr 0x01

/-- TAP_SAMPLE_PRELOAD: the boundary register takes the pins, in an order that the spec leaves to the BSDL description. -/
def execTapSamplePreload (pins : Nat) (s : State) : Host.Outcome State Fault Refusal :=
  tapRow s fun w => { (w.setIr 0x02) with hw := { w.hw with boundary := pins } }

/-- TAP_EXTEST. -/
def execTapExtest (s : State) : Host.Outcome State Fault Refusal := tapRow s fun w => w.takePins 0x03

/-- TAP_CLAMP. -/
def execTapClamp (s : State) : Host.Outcome State Fault Refusal := tapRow s fun w => w.takePins 0x04

/-- TAP_HIGHZ. -/
def execTapHighz (s : State) : Host.Outcome State Fault Refusal := tapRow s fun w => w.takePins 0x05

/-- TAP_EXTEST_PULSE. -/
def execTapExtestPulse (s : State) : Host.Outcome State Fault Refusal := tapRow s fun w => w.takePins 0x06

/-- TAP_EXTEST_TRAIN. -/
def execTapExtestTrain (s : State) : Host.Outcome State Fault Refusal := tapRow s fun w => w.takePins 0x07

/-- TAP_BYPASS. -/
def execTapBypass (s : State) : Host.Outcome State Fault Refusal := tapRow s fun w => w.setIr 0xFF

/-- TAP_RESET: TRST_N falls or rises (R648); Test-Logic-Reset selects IDCODE. -/
def execTapReset (low : Bool) (s : State) : Host.Outcome State Fault Refusal :=
  runAlways s fun w => Work.when w.hw.standby w fun w => { (w.setIr 0x01) with hw := { w.hw with tapReset := low } }

end Sys2Proof.Machine
end

