-- ==== Sys2Proof/Machine/Bus.lean ====
section
/-! DEFINITION. Register accesses as the dies' CSR logic performs them (R46, R55–R65, R251): one access of a width, the commands that a write to a
write-only register orders, what follows the write of a register with behaviour, and the split of a wider access. -/

namespace Sys2Proof.Machine

/-- Offset of a CSR address in its die window. -/
def csrOff (a : Nat) : Nat := (a - 0x3F0000000000) % 0x100000000

/-- The core slot whose registers hold a CSR address. -/
def csrCore (a : Nat) : Nat := 17 * csrDie a + csrOff a / 0x1000000

/-! ### Masters -/

/-- The context that a master's operations act for (R256). -/
def Work.masterCtx (w : Work) : Master → Option Nat
  | .cell c _ => w.placedCtx c.val
  | .remote _ x => x.map fun y => y.val
  | _ => none

/-- The master that a request goes back to. -/
def Req.master (q : Req) : Master :=
  match q.src with
  | .ctl c => .cell (Fin.ofNat 272 c) 0
  | .str c s => .cell (Fin.ofNat 272 c) (Fin.ofNat 4 (1 + s))
  | .syn c => .cell (Fin.ofNat 272 c) 3
  | .host p _ => .host (Fin.ofNat 2 p)
  | .link _ node _ _ _ _ => .remote (Fin.ofNat 65536 node) (q.ctx.map (Fin.ofNat 1024))
  | .unit _ _ => .firmware 0

/-! ### Sync words -/

/-- Does an operation come from the host or from firmware: it acts for no context, and no unit sends it (R256)? -/
def Work.fromOutside (w : Work) (op : SynOp) : Bool :=
  op.ctx.isNone && (match op.source with
    | .master => true
    | .req i => match w.req? i with
      | some q => (match q.src with | .unit _ _ => false | _ => true)
      | none => false
    | _ => false)

/-- A sync cell performs an operation; one of the host or of firmware is an external input to the placed context (R522). -/
def Work.performOp (w : Work) (c : Nat) (op : SynOp) (check : ReadCheck) : Work :=
  let outside := w.fromOutside op && decide (check ≠ .lasting)
  let w := w.synPerform c op check
  match op.kind, w.placedCtx c with
  | .atomic k, some x => if outside then w.externalInput x 1 k (Reg.SYN_OBJ c op.obj) (leBytes 8 op.operand.toNat) else w
  | _, _ => w

/-- A write of a sync word, or of its add alias: on a cell's objects behind the operations that wait there (R251, R253). -/
def Work.syncWrite (w : Work) (m : Master) (word : SyncWord) (add : Bool) (v : DWord) : Work :=
  match word with
  | .obj c i =>
    let op : SynOp := ⟨i, .atomic (if add then 1 else 0), v, 0, w.masterCtx m, .master⟩
    if (w.core c).syn.incoming.isEmpty then w.performOp c op .clean
    else w.updSyn c fun y => { y with incoming := y.incoming ++ [op] }
  | _ => Work.when w.hubUp w fun w => w.hubWrite word add v

/-- The value of a sync word as a register read returns it (R251, R256, R621). -/
def Work.syncShows (w : Work) (m : Master) (word : SyncWord) : Nat × Work :=
  match word with
  | .obj c i =>
    let here (w : Work) : Nat × Work := ((w.r64 (Reg.SYN_OBJ c i)).toNat, w.bump (Reg.SYN_OPS c) 1)
    if !w.regTakes (Reg.SYN_OBJ c i) then (0, w)
    else match w.masterCtx m, w.placedCtx c with
      | none, some _ => here w
      | none, none => here (w.setFlag (Reg.SYN_ERR_STAT c) Fld.SYN_ERR_STAT_NOCTX true)
      | some x, p =>
        if p = some x then here w
        else match w.savedObj x c i with
          | some a => let r := w.unitLE a 8
                      (r.1.getD 0, r.2)
          | none => (0, w)
  | .db n => (if w.hubUp then (w.r64 (Reg.HUB_DB 0 n)).toNat else 0, w)
  | .iw h v => (if w.hubUp then (w.r64 (Reg.HUB_IW h v)).toNat else 0, w)

/-! ### Writes -/

/-- A register of the shared routing configuration takes writes in LD0 only, and a copied set entry in LD(2a) only (R383, R493). -/
def writableHere (a : Nat) : Bool :=
  let d := csrDie a
  let off := csrOff a
  !(decide (17 ≤ d ∧ d < 24 ∧ off / 0x1000000 = 2) && rteShared (off % 0x1000000)) &&
    !(decide (16 ≤ d ∧ d < 24 ∧ d % 2 = 1) && (setEntryAt (a - 0x100000000)).isSome)

/-- BOOT_CMD_ARG and BOOT_DATA_n take writes of the master that may order flash commands (R605). -/
def Work.bootAllows (w : Work) (m : Master) (name : String) : Bool :=
  w.bootTakes m || !(decide (name = "BOOT_CMD_ARG") || decide (name = "BOOT_DATA_n"))

/-- Does a part of an access reach its register and change it (R46, R59)? -/
def Work.partTakes (w : Work) (m : Master) (n be : Nat) (p : RegPart) : Bool :=
  p.takesWrite n be && w.regTakes p.hit.addr && writableHere p.hit.addr && w.bootAllows m p.hit.row.name

/-- A register whose fields are write-only: a write of it is a command. -/
def RegHit.commands (h : RegHit) : Bool := h.row.fields.any fun f => decide (f.acc = .wo)

/-- CORE_RUN is written: HALT wins over RESUME (R114). -/
def Work.coreRunWrite (w : Work) (c value : Nat) : Work :=
  if bits value 0 1 = 1 then w.haltCore c else if bits value 1 1 = 1 then w.resumeCore c else w

/-- The command that a write of a write-only register orders. -/
def Work.regCommand (w : Work) (m : Master) (h : RegHit) (v : Nat) (req : Option Nat) : Work :=
  let who := w.clampBy m
  let d := csrDie h.addr
  match h.row.name with
  | "CORE_RUN" => w.coreRunWrite (csrCore h.addr) v
  | "STR_INSTALL" => w.strInstall m (csrCore h.addr) v req
  | "MEM_BIST_CTRL" => w.bistWrite m d v
  | "PGE_INVAL" => w.pgeInval v req
  | "ALC_SUBMIT" => w.alcSubmit m d v
  | "LNK_CMD" => w.lnkCmd who (d - 16) v
  | "FEN_CMD" => w.fenCmd who (d - 16) v
  | "CAP_CMD" => w.capCmdWrite m (d - 24) v
  | "SCH_EXIT" => w.schExit m v
  | "SNP_CMD" => w.snpCmd v
  | "SNP_MIRROR" => w.snpTrigger m v
  | "SNP_PHASE_MARK" => w.phaseMark m v
  | "BOOT_CMD" => w.bootCmd m v
  | "BOOT_ACHAIN_CMD" => w.chainCmd who v
  | "CLK_CMD" => w.clkCmd who v
  | "PWR_CMD" => w.pwrCmd who v
  | "ERR_CMD" => w.errCmd who d v
  | "ERR_ABORT" => w.errAbort who v
  | "ERR_FW_HEART" => w.fwHeart who v
  | "ERR_RELEASE" => w.errRelease who v
  | "DBG_TRIG_CMD" => w.trigCmd who v
  | "MGT_TEL_CTRL" => w.telSnap who v
  | "MGT_HMB_POST" => w.hmbPost who v
  | _ => w

/-- ERR_REC_TAIL takes HEAD where it would pass it (R531). -/
def Work.tailHook (w pre : Work) (who : ClampBy) : Work :=
  let head := pre.r32 Reg.ERR_REC_HEAD
  let old := pre.r32 Reg.ERR_REC_TAIL
  let new := w.r32 Reg.ERR_REC_TAIL
  if (head - old).toNat < (new - old).toNat then (w.w32 Reg.ERR_REC_TAIL head).clamp who Reg.ERR_REC_TAIL 0 0 .range else w

/-- A written cause is the cause that every link die holds for an alert of its own (R491). -/
def Work.causeCopy (w : Work) (a : Nat) : Work := w.forEach linkDies fun w p => w.w64 (Reg.FEN_ALERT_CAUSE p) (w.r64 a)

/-- What follows the write of register `h` on a link die or a capacity die. `pre` is the machine before the access. -/
def Work.edgeHook (w pre : Work) (who : ClampBy) (h : RegHit) : Work :=
  let p := csrDie h.addr - 16
  match h.row.name with
  | "LNK_CTRL" => w.lnkCtrlHook pre p
  | "LNK_RXBUF_CFG_0" => w.clampShares who p
  | "LNK_RXBUF_CFG_1" => w.clampShares who p
  | "FEN_PORT_CFG" => w.fenceChanged p (pre.fenceMode p)
  | "CAP_CTRL" => w.capCtrlHook (p - 8) (pre.flag (Reg.CAP_CTRL (p - 8)) Fld.CAP_CTRL_EN)
  | _ => if p = 0 ∧ csrOff h.addr / 0x1000000 = 2 then w.rteCopy (csrOff h.addr % 0x1000000) h.row.size else w

/-- What follows the write of a register of the scheduler. -/
def Work.schHook (w pre : Work) (who : ClampBy) (h : RegHit) (data : Nat) : Work :=
  let x := csrOff h.addr % 0x10000 / 64
  let entry : Work := w.ctxEntryHook pre who x h.addr h.row.size
  match h.row.name with
  | "SCH_CTRL" => w.schPend
  | "SCH_CTX_x_CTRL" => w.ctxCtrlHook pre who x (data % 8)
  | "SCH_CTX_x_SPM" => entry
  | "SCH_CTX_x_SAVE" => entry
  | "SCH_CTX_x_RING_BASE" => entry
  | "SCH_CTX_x_RING" => entry
  | "SCH_CTX_x_MASK_k" => entry
  | _ => w

/-- What follows the write of a register of the snapshot unit. -/
def Work.snpHook (w pre : Work) (who : ClampBy) (h : RegHit) : Work :=
  let off := csrOff h.addr % 0x1000000
  match h.row.name with
  | "SNP_PHASE_CTRL" => w.phaseCtrlHook pre
  | "SNP_SET_s_CFG" => w.snpCfgHook pre who ((off - 0x2000) / 64)
  | "SNP_CTRL" => w
  | _ =>
    if 0x2000 ≤ off ∧ off < 0x2400 then w.snpSetHook pre who ((off - 0x2000) / 64) h.addr
    else if 0x4000 ≤ off ∧ off < 0x6000 then w.snpRangeHook pre who ((off - 0x4000) / 32) h.addr h.row.size
    else w

/-- What follows the write of a register with behaviour of its own, once it is stored. -/
def Work.regHook (w pre : Work) (m : Master) (p : RegPart) : Work :=
  let h := p.hit
  let d := csrDie h.addr
  let who := w.clampBy m
  let top := csrOff h.addr / 0x1000000
  let en (i : Nat) : Bool := p.enabled.headD false && decide (bits p.data i 1 = 1)
  if d < 16 then (if h.row.name = "CORE_BRK_CTRL" then w.armBreaks (csrCore h.addr) (en 0) (en 1) else w)
  else if d < 28 then
    if h.row.name = "FEN_ALERT_CAUSE" then w.causeCopy h.addr else w.edgeHook pre who h
  else if d = 28 ∧ top = 1 then w.schHook pre who h p.data
  else if d = 28 ∧ top = 2 then w.snpHook pre who h
  else match h.row.name with
    | "HUB_BAR2_BASE" => w.alignBar2 (d - 28) (some who)
    | "DET_CTRL" => w.detCtrlHook
    | "DET_REC_CTRL" => w.recCtrlHook pre
    | "ERR_REC_TAIL" => w.tailHook pre who
    | "DBG_OBS_CFG" => w.obsCfgHook pre
    | "DBG_TRACE_CFG" => w.traceCfgHook
    | "DBG_CNT_CTRL" => w.cntCtrlHook pre d
    | _ => w

/-- Store the plain registers that an access changes. The activity level is settled before MTX_PROOF_CTRL changes (R182), a set entry takes
effect as R383 says. -/
def Work.storePlain (w : Work) (m : Master) (ps : List RegPart) : Work :=
  let who := w.clampBy m
  let put (w : Work) : Work := w.forEach ps fun w p => w.storeReg who p.hit p.enabled p.data
  match ps with
  | [] => w
  | p :: _ =>
    let w := if p.hit.row.name = "MTX_PROOF_CTRL" ∨ ps.length = 2 ∧ p.hit.row.name = "MTX_RAMP_CFG" then w.settleLevel (csrCore p.hit.addr) else w
    match setEntryAt p.hit.addr with
    | some e => w.colSetWrite e.1 e.2 put
    | none => put w

/-- Slot and offset of an address in the payload area of the host mailbox (R628). -/
def hmbAt (a : Nat) : Option (Nat × Nat) :=
  let off := csrOff a
  if csrDie a = 28 ∧ 0x38010000 ≤ off ∧ off < 0x38018000 then some ((off - 0x38010000) / 4096, off % 4096) else none

/-- A write of payload bytes of the host mailbox. -/
def Work.payloadWrite (w : Work) (k at_ n be data : Nat) : Work :=
  w.hmbWrite k at_ ((List.range n).map fun i => if bits be i 1 = 1 then some (BitVec.ofNat 8 (data >>> (8 * i))) else none)

/-- One register write of `n` bytes at an address aligned to `n` (R56–R59): the registers are stored, what they govern follows, then the commands
act. -/
def Work.writeAccess (w : Work) (m : Master) (a n be data : Nat) (req : Option Nat) : Work :=
  match syncWordAt a with
  | some (word, add) => if n = 8 ∧ be % 256 = 255 ∧ w.regTakes a then w.syncWrite m word add (BitVec.ofNat 64 data) else w
  | none => match hmbAt a with
  | some (k, at_) => w.payloadWrite k at_ n be data
  | none =>
    let pre := w
    let ps := (regParts a n be data).filter (w.partTakes m n be)
    let plain := ps.filter fun p => !p.hit.commands
    let w := (w.storePlain m plain).forEach plain fun w p => w.regHook pre m p
    w.forEach (ps.filter fun p => p.hit.commands) fun w p => w.regCommand m p.hit (p.data % 2 ^ (8 * p.hit.row.size)) req

/-! ### Reads -/

/-- What a register returns to a read (R46). -/
def Work.regShows (w : Work) (h : RegHit) : Nat :=
  match w.answers h.addr with
  | .usual => w.shows h
  | .asDisabled => 0
  | .asReset =>
    match h.row.name with
    | "CORE_STATE" => 6
    | "CORE_ID" => w.shows h
    | "CORE_CTX" => w.shows h / 65536 * 65536
    | _ => resetOf h

/-- A read of `n` bytes of a register from byte `lo`: an RC field is cleared when every byte of it is returned (R60). -/
def Work.readReg (w : Work) (m : Master) (h : RegHit) (lo n : Nat) : Nat × Work :=
  let v := w.regShows h
  if w.answers h.addr ≠ .usual then (v, w)
  else
    let w := w.forEach h.row.fields fun w f =>
      if f.acc = .rc ∧ lo ≤ f.lsb / 8 ∧ (f.lsb + f.width - 1) / 8 < lo + n then w.setFld h.addr ⟨f.lsb, f.width⟩ 0 else w
    match m with
    | .host _ => if h.row.name = "DET_REC_HEAD" then (v, { w with hw := { w.hw with recRead := v } }) else (v, w)
    | _ => (v, w)

/-- One register read of `n` bytes at an address aligned to `n` (R57, R58). -/
def Work.readAccess (w : Work) (m : Master) (a n : Nat) : Nat × Work :=
  match syncWordAt a with
  | some (_, true) => (0, w)
  | some (word, false) =>
    let r := w.syncShows m word
    (bits r.1 (8 * (a % 8)) (8 * n), r.2)
  | none => match hmbAt a with
  | some (k, at_) => (leNat (((w.hmbBytes k).drop at_).take n), w)
  | none =>
    (regParts a n 255 0).foldl (fun (r : Nat × Work) (p : RegPart) =>
      let x := r.2.readReg m p.hit (a - p.hit.addr) (a + n - max a p.hit.addr)
      (r.1 + bits (if a ≤ p.hit.addr then x.1 <<< (8 * (p.hit.addr - a)) else x.1 >>> (8 * (a - p.hit.addr))) 0 (8 * n), x.2)) (0, w)

/-! ### Accesses of any length -/

/-- The accesses that `n` bytes at `a` are split into (R61): each 8-byte pair wholly covered, and each other register touched. -/
def spanAccesses (a n : Nat) : List (Nat × Nat) :=
  (List.range ((a % 8 + n + 7) / 8)).flatMap fun i =>
    let b := a / 8 * 8 + 8 * i
    if a ≤ b ∧ b + 8 ≤ a + n then [(b, 8)]
    else ([b, b + 4].filter fun x => decide (a < x + 4 ∧ x < a + n)).map fun x => (x, 4)

/-- Is an access one of 8, 16, 32 or 64 bits (R56)? -/
def oneAccess (n : Nat) : Bool := decide (n = 1 ∨ n = 2 ∨ n = 4 ∨ n = 8)

/-- The address of an access, aligned down to its width (R56). -/
def busAlign (a n : Nat) : Nat := if oneAccess n then a / n * n else a

/-- The accesses that an access of `n` bytes at `a` is performed as. -/
def accessesOf (a n : Nat) : List (Nat × Nat) := if oneAccess n then [(a, n)] else spanAccesses a n

/-- Enables and data of the access (b, k) of a write of `data` at `a`. -/
def spanData (a b k : Nat) (data : List (Option Byte)) : Nat × Nat :=
  let at_ (i : Nat) : Option Byte := if a ≤ b + i then data.getD (b + i - a) none else none
  ((List.range k).foldl (fun s i => s + (if (at_ i).isSome then 2 ^ i else 0)) 0, leNat ((List.range k).map fun i => (at_ i).getD 0))

/-- A register write of any length, at an aligned address. -/
def Work.spanWrite (w : Work) (m : Master) (a : Nat) (data : List (Option Byte)) (req : Option Nat) : Work :=
  w.forEach (accessesOf a data.length) fun w x =>
    let d := spanData a x.1 x.2 data
    w.writeAccess m x.1 x.2 d.1 d.2 req

/-- A register read of any length, at an aligned address. -/
def Work.spanRead (w : Work) (m : Master) (a n : Nat) : List Byte × Work :=
  let xs := accessesOf a n
  let r := xs.foldl (fun (r : List Byte × Work) (x : Nat × Nat) =>
    let y := r.2.readAccess m x.1 x.2
    (r.1 ++ leBytes x.2 y.1, y.2)) ([], w)
  ((r.1.drop (a - (xs.headD (a, 0)).1)).take n, r.2)

/-! ### Requests to registers -/

/-- Did the write of request i become an installation or an invalidation that answers it when it ends (R225, R340)? -/
def Work.answersLater (w : Work) (i : Nat) : Bool :=
  (w.hw.installs.any fun x => decide (x.req = some i)) ||
    w.hw.invals.any fun e => (match e.2.purpose with | .write (some j) => decide (j = i) | _ => false)

/-- A request reaches a sync word (R46, R251, R621). -/
def Work.syncRoute (w : Work) (i : Nat) (q : Req) (word : SyncWord) (add : Bool) : Work :=
  let up : Bool := match word with | .obj c o => w.regTakes (Reg.SYN_OBJ c o) | _ => w.hubUp
  let reads : Bool := match q.op with | .read _ => true | _ => false
  if !up || (add && reads) then w.synAnswer i 0 .ok
  else
    let w := w.syncArrive i q word add
    match word, q.synOp add with
    | .db n, some (.atomic k, o, _) => w.doorbellInput n k o
    | _, _ => w

/-- Read data of a request. -/
def Work.putData (w : Work) (i : Nat) (bytes : List Byte) : Work :=
  w.updReq i fun q => { q with data := bytes.zipIdx.foldl (fun m b => SMap.set 0 m b.2 b.1) [] }

/-- A request reaches the CSR window (R46, R56–R61, R257). A sync word is one 64-bit word: an access within it is an operation on it. -/
def Work.regRoute (w : Work) (i : Nat) (q : Req) (dpa : Nat) : Work :=
  let a := match q.op with | .sync _ _ _ => dpa / 8 * 8 | _ => busAlign dpa q.op.len
  let q := { q with dpa := a }
  let w := w.setReq i q
  match (if a % 8 + q.op.len ≤ 8 then syncWordAt a else none), q.op with
  | some (s, add), _ => w.syncRoute i q s add
  | none, .sync _ _ _ => w.answer i .nonsync
  | none, .read n =>
    let r := w.spanRead q.master a n
    (r.2.putData i r.1).answer i .ok
  | none, .write d =>
    let w := w.spanWrite q.master a d (some i)
    if w.answersLater i then w.updReq i fun q => { q with stage := .atRegister } else w.answer i .ok

/-- A request with a DPA goes to a register, to memory or to a scratchpad (R37–R46). -/
def Work.busRoute (w : Work) (i : Nat) (q : Req) (dpa : Nat) : Work :=
  if isCsr dpa then w.regRoute i q dpa else w.dpaRoute i q dpa

/-- REGISTER_WRITE: a master writes a register of this chip (R55–R65). -/
def execRegisterWrite (master : Master) (addr : BitVec 46) (width : AccWidth) (enables : BitVec 8) (data : DWord) (s : State) :
    Host.Outcome State Fault Refusal :=
  run s fun w =>
    let n := width.bytes
    let a := addr.toNat / n * n
    Work.when (isCsr a && !w.installHolds master (csrDie a)) w fun w =>
      w.writeAccess master a n (enables.toNat % 2 ^ n) (data.toNat % 2 ^ (8 * n)) none

end Sys2Proof.Machine
end

