-- ==== Sys2Proof/Machine/Access.lean ====
section
/-! DEFINITION. The requests of the control cores and the stream cells: how they are issued, and what a reply does (R76, R78, R235–R241, R246). -/

namespace Sys2Proof.Machine

/-- A master issues a request: to another chip by a packet, to a DPA of the direct window at once, else to its paging unit (R32–R34, R236). -/
def Work.issueReq (w : Work) (q : Req) : Nat × Work :=
  let (i, w) := w.addReq q
  if q.node ≠ w.selfNode then (i, w.launch i)
  else match directDpa q.addr with
    | some a => (i, w.busRoute i q a)
    | none => (i, w)

/-- A request of core slot c, for the context placed there or for that of a command. -/
def Work.coreReq (w : Work) (c : Nat) (src : ReqFrom) (op : ReqOp) (ctx : Option Nat) (node addr tag : Nat) : Req :=
  Req.make src op ctx node addr w.hw.uptime tag (SMap.get 0 w.hw.genCore c)

/-- Must a register access of a master wait for an installation of its own (R55, R225)? -/
def Work.accessHeld (w : Work) (m : Master) (node cva : Nat) : Bool :=
  decide (node = w.selfNode) &&
    (match directDpa cva with | some a => isCsr a && w.installHolds m (csrDie a) | none => false)

/-- Does an access reach a sync word through the direct window, here or on another chip? -/
def reachesSync (cva n : Nat) : Bool :=
  match directDpa cva with
  | some a => isCsr a && (List.range ((a % 8 + n + 7) / 8)).any fun k => (syncWordAt (a / 8 * 8 + 8 * k)).isSome
  | none => false

/-- A write to a sync word waits for the acknowledgement of every earlier write of its master (R52). -/
def Work.syncHeld (w : Work) (src : ReqFrom) (cva : Nat) (op : ReqOp) : Bool :=
  op.isWrite && reachesSync cva op.len &&
    w.hw.reqs.any fun e => decide (e.2.src = src) && e.2.op.isWrite && decide (e.2.stage ≠ .replied)

/-! ### Control-core loads and stores (R76, R78) -/

/-- Address of a memory load or store: the low 48 bits of the sum, aligned down to the access. -/
def Work.memOperand (w : Work) (c i : Nat) : Nat := (w.g c (insA i) + insImm12 i).toNat % 2 ^ 48 / insSize i * insSize i

/-- A control core issues a load or store and holds its next instruction; the request keeps the register it fills. -/
def Work.ctlAccess (w : Work) (c i : Nat) (op : ReqOp) : Work :=
  let a := w.memOperand c i
  if w.accessHeld (.cell (Fin.ofNat 272 c) 0) w.selfNode a then w
  else
    let (n, w) := w.issueReq { w.coreReq c (.ctl c) op (w.placedCtx c) w.selfNode a 0 with off := insD i }
    w.setStall c (.access n)

/-- MEM_LOAD: LD8 to LD64 (R76). -/
def execMemLoad (core : CoreIx) (s : State) : Host.Outcome State Fault Refusal :=
  run s fun w => w.ctl core isMemLoad fun w i => w.ctlAccess core i (.read (insSize i))

/-- MEM_STORE: ST8 to ST64 (R76). -/
def execMemStore (core : CoreIx) (s : State) : Host.Outcome State Fault Refusal :=
  run s fun w => w.ctl core isMemStore fun w i => w.ctlAccess core i (.write ((leBytes (insSize i) (w.g core (insD i)).toNat).map some))

/-- The reply to a control core's access: a load fills g[D]; a fault stops the control core at the instruction (R76, R78). -/
def Work.ctlReply (w : Work) (c n : Nat) (q : Req) : Work :=
  let w := w.dropReq n
  if q.bad = .ok then
    let w := match q.op with | .read k => w.setG c q.off (BitVec.ofNat 64 (q.number k)) | _ => w
    (w.setStall c .none).nextPc c
  else (w.setStall c .faulted).reqFault q q.bad.kind (w.core c).pc.toNat

/-- MEM_ACCESS_REPLY: the reply to a control-core load or store returns (R76, R78). -/
def execMemAccessReply (core : CoreIx) (s : State) : Host.Outcome State Fault Refusal :=
  run s fun w =>
    match (w.core core).stall with
    | .access n =>
      match w.req? n with
      | some q => if q.stage = .replied ∧ w.coreUp core then w.ctlReply core n q else w
      | none => w
    | _ => w

/-! ### Stream cells (R229–R241, R246) -/

/-- Operations of a region's pool that its stream cells hold, with their orphans (R237, R279, R544). -/
def Work.streamOps (w : Work) (r : Nat) : Nat :=
  let mine (e : Nat × Req) : Bool := match e.2.src with | .str c _ => decide (coreRegion c = r) | _ => false
  (w.hw.reqs.filter fun e => mine e && decide (e.2.bad ≠ .timeout)).length + (w.hw.orphans.filter mine).length

/-- Is an opcode a LOAD or a GATHER? -/
def strLoads (cmd : CmdBits) : Bool := decide (cmdOpcode cmd = 1 ∨ cmdOpcode cmd = 3)

/-- The command of a stream cell whose running repeat has bytes left to request, with a slot and an operation free (R237, R279). -/
def Work.strDue (w : Work) (c s : Nat) : Option Running :=
  match (w.engine c (2 + s)).last with
  | some r =>
    if w.coreUp c && decide (1 ≤ cmdOpcode r.cmd ∧ cmdOpcode r.cmd ≤ 4) && r.ready && !r.stopped && decide (0 < r.started) &&
        decide (r.pos < r.desc.length) && decide ((w.hw.reqs.filter fun e => decide (e.2.src = .str c s)).length < 256) &&
        decide (w.streamOps (coreRegion c) < 3776)
    then some r else none
  | none => none

/-- Advance the running repeat of a stream cell by n bytes. -/
def Work.strAdvance (w : Work) (c s n : Nat) : Work := w.updEngine c (2 + s) fun x => x.updLast fun r => { r with pos := r.pos + n }

/-- A stream cell takes up the next run of its repeat: a request of at most one 4 KiB block, or a skipped entry (R230, R235). -/
def Work.strStep (w : Work) (c s : Nat) (r : Running) : Work :=
  let d := r.desc
  let rep := r.started - 1
  let b := r.pos
  let node := if d.isLocal then w.selfNode else d.node
  match w.strRun c d (r.position rep) b with
  | (none, n) =>
    let w := if strLoads r.cmd then w.strPut c r rep b (List.replicate n 0) else w
    w.strAdvance c s n
  | (some a, run) =>
    let n := min run (4096 - a % 4096)
    let op : ReqOp := if strLoads r.cmd then .read n else .write ((w.strTake c r rep b n).map some)
    if w.accessHeld (.cell (Fin.ofNat 272 c) (Fin.ofNat 4 (1 + s))) node a || w.syncHeld (.str c s) a op then w
    else
      let w := (w.strAdvance c s n).bump (Reg.STR_REQS c s) 1
      let w := if strLoads r.cmd then w else w.bump (Reg.STR_BYTES c s) n
      (w.issueReq { w.coreReq c (.str c s) op r.ctx node a (cmdTag r.cmd) with rep := rep, off := b }).2

/-- STREAM_REQUEST: a stream cell issues its next request (R235–R237). -/
def execStreamRequest (core : CoreIx) (str : StrIx) (s : State) : Host.Outcome State Fault Refusal :=
  run s fun w =>
    match w.strDue core str with
    | some r => w.strStep core str r
    | none => w

/-- A stream cell's request ends in an error: the command stops (R246). -/
def Work.strFails (w : Work) (c s : Nat) (r : Running) (q : Req) : Work :=
  let w := w.updEngine c (2 + s) fun x => x.updFirst fun r => { r with stopped := true }
  ((w.setFlag (Reg.STR_ERR_STAT c) Fld.STR_ERR_STAT_REQ_FAULT true).strErrInfo c s r.cmd true).reqFault q q.bad.kind 0

/-- Read data lands in the scratchpad; an acknowledged write is visible. Both add to the digest of the cell (R241, R521). -/
def Work.strLands (w : Work) (c s : Nat) (r : Running) (q : Req) : Work :=
  let reg := digestReg (coreGlobal c) s
  match q.op with
  | .read n =>
    let bytes := (List.range n).map q.byte
    let at_ (j : Nat) : Nat := w.strSpm c r q.rep (q.off + j) % 2 ^ 24
    let pairs := bytes.zipIdx.map fun b => (at_ b.2, b.1)
    ((w.strPut c r q.rep q.off bytes).bump (Reg.STR_BYTES c s) n).digest reg q.ctx true pairs
  | .write d => w.digest reg q.ctx false (writePairs q.addr d)
  | .sync _ _ _ => w

/-- STREAM_REPLY: read data or a write acknowledgement returns to a stream cell (R241, R246). -/
def execStreamReply (req : Nat) (s : State) : Host.Outcome State Fault Refusal :=
  run s fun w =>
    match w.req? req with
    | some q =>
      match q.src, decide (q.stage = .replied) with
      | .str c k, true =>
        let w := w.dropReq req
        match (w.engine c (2 + k)).first with
        | some r => if q.bad = .ok then w.strLands c k r q else w.strFails c k r q
        | none => w
      | _, _ => w
    | none => w

end Sys2Proof.Machine
end

