-- ==== Sys2Proof/Machine/CoreCtl.lean ====
section
/-! DEFINITION. Breaks, and the halt and resume of a core, as a master orders them by a register write (R111–R115). -/

namespace Sys2Proof.Machine

/-- A master writes a 32-bit register of a core. -/
def Work.coreWrite (w : Work) (m : Master) (c a value : Nat) : Work :=
  Work.when (!w.installHolds m (coreRegion c)) w fun w => w.writeAccess m a 4 15 value none

/-- BRK_ARM_COUNT: CORE_BRK_CTRL is written with EN_COUNT 1 (R111). -/
def execBrkArmCount (master : Master) (core : CoreIx) (value : Word) (s : State) : Host.Outcome State Fault Refusal :=
  run s fun w => Work.when (value.getLsbD 0) w fun w => w.coreWrite master core (Reg.CORE_BRK_CTRL core) value.toNat

/-- BRK_ARM_TAG: CORE_BRK_CTRL is written with EN_TAG 1 (R112). -/
def execBrkArmTag (master : Master) (core : CoreIx) (value : Word) (s : State) : Host.Outcome State Fault Refusal :=
  run s fun w => Work.when (value.getLsbD 1) w fun w => w.coreWrite master core (Reg.CORE_BRK_CTRL core) value.toNat

/-- CORE_HALT: CORE_RUN.HALT is written (R114). -/
def execCoreHalt (master : Master) (core : CoreIx) (s : State) : Host.Outcome State Fault Refusal :=
  run s fun w => w.coreWrite master core (Reg.CORE_RUN core) 1

/-- CORE_RESUME: CORE_RUN.RESUME is written (R114). -/
def execCoreResume (master : Master) (core : CoreIx) (s : State) : Host.Outcome State Fault Refusal :=
  run s fun w => w.coreWrite master core (Reg.CORE_RUN core) 2

end Sys2Proof.Machine
end

