-- ==== Sys2Proof/Machine/HostBus.lean ====
section
/-! DEFINITION. What the host and the system controller read and write (R616–R621, R630–R632): the BARs of the host ports, the MSI-X table, the
sideband. -/

namespace Sys2Proof.Machine

/-! ### The BARs (R616, R617) -/

/-- Die and block offset of each BAR0 aperture, by the upper bits of the offset. -/
def bar0Apertures : List (Nat × Nat) :=
  [(28, 0), (29, 0), (28, 0x38000000), (29, 0x38000000), (28, 0x2F000000), (28, 0x30000000), (28, 0x04000000), (29, 0x04000000),
   (28, 0x05000000), (28, 0x06000000), (30, 0), (31, 0)]

/-- What a host access reaches: a DPA, the MSI-X table or pending bits of its port from a byte on, or nothing. -/
inductive HostTarget where
  | dpa (a : Nat)
  | table (at_ : Nat)
  | pending (at_ : Nat)
  | nothing
deriving DecidableEq, Repr

/-- What a BAR0 offset reaches. -/
def bar0Target (o : Nat) : HostTarget :=
  match bar0Apertures[o / 0x1000000]? with
  | some (d, block) => .dpa (dieWindow d + block + o % 0x1000000)
  | none =>
    if 0x0F000000 ≤ o ∧ o < 0x0F001000 then .table (o % 0x1000)
    else if 0x0F800000 ≤ o ∧ o < 0x0F800020 then .pending (o % 0x20)
    else .nothing

/-- What an access of port p reaches; BAR2 reaches nothing while the chip is not in service (R617, R621). -/
def Work.hostTarget (w : Work) (p : Nat) (bar2 : Bool) (o : Nat) : HostTarget :=
  if !bar2 then bar0Target o
  else if w.chipState ≠ 0 then .nothing
  else .dpa ((w.fld (Reg.HUB_BAR2_BASE p) Fld.HUB_BAR2_BASE_BASE * 2 ^ 30 + o) % 2 ^ 46)

/-! ### The MSI-X structures (R624, R625) -/

/-- Byte i of port p's MSI-X table. -/
def Work.msixByte (w : Work) (p i : Nat) : Byte := BitVec.ofNat 8 ((w.msixWord p (i / 4)).toNat >>> (8 * (i % 4)))

/-- Write byte i of port p's MSI-X table. -/
def Work.setMsixByte (w : Work) (p i : Nat) (b : Byte) : Work :=
  w.setMsixWord p (i / 4) (BitVec.ofNat 32 (setBits (w.msixWord p (i / 4)).toNat (8 * (i % 4)) 8 b.toNat))

/-- Byte i of port p's pending bit array. -/
def Work.pendingByte (w : Work) (p i : Nat) : Byte :=
  BitVec.ofNat 8 ((List.range 8).foldl (fun n b => n + (if SMap.get false w.hw.msixPend (256 * p + 8 * i + b) then 2 ^ b else 0)) 0)

/-! ### Host accesses (R618–R621) -/

/-- The request that a host operation makes. -/
def hostReqOp : HostOp → ReqOp
  | .read n => .read (n.val + 1)
  | .write d _ => .write d

/-- The die that holds a DPA; 32 where nothing does. -/
def dpaDie (a : Nat) : Nat :=
  match dpaKind a with
  | .stacked r => r
  | .capacity p => 24 + p / 4
  | .scratchpad c => coreRegion c
  | .csr => csrDie a
  | .unbacked => 32

/-- Does a host access wait: a read for the earlier writes of the port to the same die, a write of a sync word for every earlier write, an access to
registers for the port's own installation; or is its tag in use (R52, R225, R619)? -/
def Work.hostHeld (w : Work) (p tag a : Nat) (op : ReqOp) : Bool :=
  let mine := w.hw.reqs.filter fun e => match e.2.src with | .host q _ => decide (q = p) | _ => false
  let writes := mine.filter fun e => e.2.op.isWrite && decide (e.2.stage ≠ .replied)
  let sync := isCsr a && (List.range ((a % 8 + op.len + 7) / 8)).any fun k => (syncWordAt (a / 8 * 8 + 8 * k)).isSome
  (if op.isWrite then sync && !writes.isEmpty
   else (writes.any fun e => decide (dpaDie e.2.dpa = dpaDie a)) || mine.any fun e => decide (e.2.src = .host p tag)) ||
    (isCsr a && w.installHolds (.host (Fin.ofNat 2 p)) (csrDie a))

/-- A request of a host port. -/
def Work.hostReq (w : Work) (p tag a : Nat) (op : ReqOp) : Req :=
  { Req.make (.host p tag) op none w.selfNode a w.hw.uptime 0 w.hw.genChip with isDpa := true, dpa := a }

/-- A host access that reaches a DPA: memory in the input window takes an external input (R522). -/
def Work.hostDpa (w : Work) (p tag a : Nat) (op : ReqOp) : Work :=
  let (i, w) := w.addReq (w.hostReq p tag a op)
  let w := w.busRoute i (w.hostReq p tag a op) a
  let memory := match w.target a with | .stacked _ => true | .capacity _ => true | .scratchpad _ => true | _ => false
  match op with
  | .write d => if memory then w.hostInput a (d.map fun b => b.getD 0) else w
  | _ => w

/-- Answer a host access that reaches no unit with a request of its own: read data, or a write that is done. -/
def Work.hostDone (w : Work) (p tag : Nat) (op : ReqOp) (data : List Byte) : Work :=
  let (i, w) := w.addReq (w.hostReq p tag 0 op)
  (w.putData i data).answer i .ok

/-- A host access that is not held. -/
def Work.hostServe (w : Work) (p tag : Nat) (t : HostTarget) (op : ReqOp) : Work :=
  match t with
  | .dpa a => w.hostDpa p tag a op
  | .table at_ =>
    let w := match op with
      | .write d => w.forEach d.zipIdx fun w b => match b.1 with | some v => if at_ + b.2 < 4096 then w.setMsixByte p (at_ + b.2) v else w | none => w
      | _ => w
    w.hostDone p tag op ((List.range op.len).map fun i => if at_ + i < 4096 then w.msixByte p (at_ + i) else 0)
  | .pending at_ => w.hostDone p tag op ((List.range op.len).map fun i => if at_ + i < 32 then w.pendingByte p (at_ + i) else 0)
  | .nothing =>
    let w := w.fault { kind := 0x01, level := 3, lasting := true, ctx := none, die := 28 + p, unit := 12, core := 0,
                       gen := w.hw.genChip, tag := 0, addr := none, detail := 0 }
    w.hostDone p tag op (List.replicate op.len 0)

/-- HOST_ACCESS: a host TLP through BAR0 or BAR2 reaches the chip (R618). `tag` is that of a read. -/
def execHostAccess (port : Fin 2) (tag : Fin 1024) (bar2 : Bool) (offset : BitVec 46) (op : HostOp) (s : State) :
    Host.Outcome State Fault Refusal :=
  run s fun w =>
    let p := port.val
    let o := offset.toNat
    let q := hostReqOp op
    let size := if bar2 then 2 ^ (w.pciPort p).bar2 else 2 ^ 28
    let t := w.hostTarget p bar2 o
    let held := match t with | .dpa a => w.hostHeld p tag a q | _ => false
    Work.when (w.linkInL0 p && decide (o < size) && decide (0 < q.len) && !held) w fun w =>
      match op with
      | .write d true => (w.bumpErr (Reg.HUB_RX_BYTES p) d.length).setFlag (Reg.HUB_ERR_STAT p) Fld.HUB_ERR_STAT_EP_IN true
      | .write d false => (w.bumpErr (Reg.HUB_RX_BYTES p) d.length).hostServe p tag t q
      | .read _ => w.hostServe p tag t q

/-! ### The sideband (R631, R632) -/

/-- The response that the controller reads next; a new one takes the place of one that was not read (R632). -/
def Work.sbAnswer (w : Work) (status : Nat) (data : List Byte) : Work := { w with hw := { w.hw with sbReply := some ⟨status, data⟩ } }

/-- Bytes that LEN of a sideband command gives: 1 for 4, 2 for 8; another value takes the nearest of the two. -/
def sbBytes (len : BitVec 8) : Nat := if len.toNat < 2 then 4 else 8

/-- SB_READ: a READ frame reads an always-on register (R631, R632). -/
def execSbRead (addr : BitVec 48) (len : BitVec 8) (s : State) : Host.Outcome State Fault Refusal :=
  run s fun w =>
    let n := sbBytes len
    let a := addr.toNat / n * n
    if isAlwaysOn a then
      let r := w.readAccess .sideband a n
      r.2.sbAnswer 0 (leBytes n r.1)
    else w.sbAnswer 2 (List.replicate n 0)

/-- SB_WRITE: a WRITE frame writes an always-on register (R631, R632). -/
def execSbWrite (addr : BitVec 48) (len : BitVec 8) (data : DWord) (s : State) : Host.Outcome State Fault Refusal :=
  run s fun w =>
    let n := sbBytes len
    let a := addr.toNat / n * n
    if isAlwaysOn a then (w.writeAccess .sideband a n (2 ^ n - 1) (data.toNat % 2 ^ (8 * n)) none).sbAnswer 0 []
    else w.sbAnswer 2 []

/-- SB_STATUS: a STATUS frame returns MGT_SB_STAT (R631). -/
def execSbStatus (s : State) : Host.Outcome State Fault Refusal :=
  run s fun w =>
    let r := w.readAccess .sideband (Reg.MGT_SB_STAT 1) 4
    r.2.sbAnswer 0 (leBytes 4 r.1)

/-- SB_BAD_COMMAND: a frame with a wrong PEC, where PEC is required, or with another first byte is not performed (R632). -/
def execSbBadCommand (frame : BadFrame) (s : State) : Host.Outcome State Fault Refusal :=
  run s fun w =>
    match frame with
    | .pec => Work.when (w.flag (Reg.MGT_SB_CFG 1) Fld.MGT_SB_CFG_PEC) w fun w => w.sbAnswer 3 []
    | .command => w.sbAnswer 4 []

end Sys2Proof.Machine
end

