-- ==== Sys2Proof/Machine/Waits.lean ====
section
/-! DEFINITION. The sync cells (R249–R271): ATOMIC and WAIT, the operations that they perform, the messages between waiter and holder, polling,
rechecks, and the notices of long waits. -/

namespace Sys2Proof.Machine

/-! ### Packets that a port hands to this chip -/

/-- Take the oldest packet of a channel out of a port's receive buffer: it is sent on, answered where it cannot be (R452, R464), or delivered. -/
def Work.takePkt (w : Work) (p v : Nat) (is : Pkt → Bool) (deliver : Work → Pkt → Work) : Work :=
  match w.rxHead p v with
  | some r =>
    if is r.pkt && w.clocked then
      let t := (w.rxTake p v r.flits).place (some p) (16 + p) r.pkt
      match t.2 with
      | .delivered => deliver t.1 r.pkt
      | .full => t.1.inject (16 + p) (r.pkt.fullFor w.selfNode)
      | .refused st => t.1.injectAnswer (16 + p) r.pkt st []
      | _ => t.1
    else w
  | none => w

/-! ### The cell's own commands -/

/-- The SYN command with opcode `op` that a cell runs and that is not done, when the cell can act. -/
def Work.synRuns (w : Work) (c op : Nat) : Option Running :=
  match (w.engine c 4).first with
  | some r =>
    if w.coreUp c && decide (cmdOpcode r.cmd = op) && decide (r.pos = 0) && !r.stopped then some r else none
  | none => none

/-- Mark the SYN command as sent. -/
def Work.synSent (w : Work) (c : Nat) : Work := w.updEngine c 4 fun x => x.updFirst fun r => { r with started := 1 }

/-- The work of the SYN command is done. -/
def Work.synDone (w : Work) (c : Nat) : Work := w.updEngine c 4 fun x => x.updFirst fun r => { r with pos := 1 }

/-- The sync word that a remote SYN command names (R34, R257). -/
def synTarget (cmd : CmdBits) : Option SyncWord := ((directDpa (gCva (synGaddr cmd))).bind syncWordAt).map Prod.fst

/-- Does the condition of a WAIT hold for a value (R258)? -/
def waitHolds (cmd : CmdBits) (v : DWord) : Bool := waitMet (synOpCode cmd) v (synOperand cmd) (synCompare cmd)

/-- A SYN command whose target is no sync word: an ATOMIC returns zero, a WAIT tests zero (R257). -/
def Work.synNonsync (w : Work) (c : Nat) (r : Running) : Work :=
  let tag := cmdTag r.cmd
  let w := w.synSent c
  let w := if cmdOpcode r.cmd = 1 then w.synResult c tag 0 false else if waitHolds r.cmd 0 then w.synDone c else w
  let info := Reg.SYN_ERR_INFO c
  let w := (w.setFlag (Reg.SYN_ERR_STAT c) Fld.SYN_ERR_STAT_NONSYNC true).setFld info Fld.SYN_ERR_INFO_TAG tag
  (w.setFlag info Fld.SYN_ERR_INFO_KIND true).cellFault c 0x0B 5 tag r.ctx (some (gCva (synGaddr r.cmd), true)) 0

/-- A request of a sync cell for the target of its command. -/
def Work.synReq (w : Work) (c : Nat) (r : Running) (op : ReqOp) : Work :=
  let g := synGaddr r.cmd
  let (i, w) := w.issueReq (w.coreReq c (.syn c) op r.ctx (gNode g) (gCva g / 8 * 8) (cmdTag r.cmd))
  w.updSyn c fun y => { y with awaiting := some i }

/-- An ATOMIC is sent to its target: the cell's own queue, another cell or hub word, or another chip (R253–R255). -/
def Work.synAtomicSend (w : Work) (c : Nat) (r : Running) : Work :=
  let cmd := r.cmd
  if !synRemote cmd then
    if (w.core c).syn.incoming.length < 64 then
      (w.updSyn c fun y => { y with
        incoming := y.incoming ++ [⟨synSidx cmd, .atomic (synOpCode cmd), synOperand cmd, synCompare cmd, r.ctx, .own⟩] }).synSent c
    else w
  else if (synTarget cmd).isNone then w.synNonsync c r
  else (w.synSent c).synReq c r (.sync (.atomic (synOpCode cmd)) (synOperand cmd) (synCompare cmd))

/-- SYN_ATOMIC: an ATOMIC command sends an operation to its target sync word (R254). -/
def execSynAtomic (core : CoreIx) (s : State) : Host.Outcome State Fault Refusal :=
  run s fun w =>
    match w.synRuns core 1 with
    | some r => if r.started = 0 then w.synAtomicSend core r else w
    | none => w

/-- A SYN command whose access ends in a fault does not complete (R255). -/
def Work.synStops (w : Work) (c : Nat) (q : Req) : Work :=
  (w.updEngine c 4 fun x => x.updFirst fun r => { r with stopped := true }).reqFault q q.bad.kind 0

/-- What the return of a sync operation says: a value (poisoned or not), or a fault. -/
def ReqBad.returns : ReqBad → Bool
  | .ok => true | .poison _ => true | .nonsync => true | _ => false

/-- The return of the ATOMIC that a cell runs. -/
def Work.atomicReturn (w : Work) (c i : Nat) (q : Req) : Work :=
  let w := (w.dropReq i).updSyn c fun y => { y with awaiting := none }
  if q.bad.returns then w.synResult c q.tag q.value (decide (q.bad ≠ .ok)) else w.synStops c q

/-- ATOMIC_REPLY: the holder's return reaches the issuing cell (R255). The return of a read whose WAIT is over is dropped here too. -/
def execAtomicReply (core : CoreIx) (s : State) : Host.Outcome State Fault Refusal :=
  run s fun w =>
    let stray (e : Nat × Req) : Bool :=
      decide (e.2.src = .syn core) && decide (e.2.stage = .replied) && decide ((w.core core).syn.awaiting ≠ some e.1)
    match List.find? stray w.hw.reqs with
    | some (i, _) => w.dropReq i
    | none =>
      match w.synRuns core 1, (w.core core).syn.awaiting with
      | some _, some i =>
        match w.req? i with
        | some q => if q.stage = .replied then w.atomicReturn core i q else w
        | none => w
      | _, _ => w

/-! ### WAIT (R257–R260, R269) -/

/-- The test of a local WAIT at issue (R259, R269): then the cell tests it after every operation. -/
def Work.localWait (w : Work) (c : Nat) (r : Running) (check : ReadCheck) : Work :=
  let w := (w.synSent c).updSyn c fun y => { y with mode := .local }
  let w := if check = .transient then
      w.cellTransient c 0x0A 5 (cmdTag r.cmd) r.ctx (Reg.SYN_ERR_STAT c) Fld.SYN_ERR_STAT_OBJ_TRANSIENT Fld.SYN_ERR_STAT_TRANSIENT_CNT 0
    else w
  let v := if check = .lasting then 0 else w.r64 (Reg.SYN_OBJ c (synSidx r.cmd))
  let w := if waitHolds r.cmd v then w.synDone c else w
  if check = .lasting then w.objLasting c ⟨synSidx r.cmd, .read, 0, 0, r.ctx, .own⟩ else w

/-- The global core that holds a sync word; a hub die's word has none. -/
def SyncWord.holder : SyncWord → Nat
  | .obj c _ => coreGlobal c
  | _ => 0

/-- A WAIT asks the holder of its target for a watch (R260); a refusal of its REGISTER is the core's fault (R255). -/
def Work.remoteWait (w : Work) (c : Nat) (r : Running) (word : SyncWord) : Work :=
  let g := synGaddr r.cmd
  let w := (w.synSent c).updSyn c fun y => { y with mode := .sent }
  let t := w.sendWatchFrom (coreRegion c) c (gNode g) word.holder (gCva g / 8 * 8) (SMap.get 0 w.hw.genCore c) r.ctx
    (.register (synOpCode r.cmd) (synOperand r.cmd) (synCompare r.cmd))
  match t.2 with
  | .refused st => t.1.watchRefused c st
  | _ => t.1

/-- SYN_WAIT: a WAIT tests its target locally or registers a watch on a remote holder (R258). -/
def execSynWait (core : CoreIx) (check : ReadCheck) (s : State) : Host.Outcome State Fault Refusal :=
  run s fun w =>
    match w.synRuns core 2 with
    | some r =>
      if r.started ≠ 0 then w
      else if !synRemote r.cmd then w.localWait core r check
      else match synTarget r.cmd with
        | some word => w.remoteWait core r word
        | none => w.synNonsync core r
    | none => w

/-- The WAIT that a cell holds unmet. -/
def Work.unmetWait (w : Work) (c : Nat) : Option Running :=
  match w.synRuns c 2 with
  | some r => if r.started = 1 then some r else none
  | none => none

/-! ### Operations on a cell's objects -/

/-- SYNC_OP_PERFORM: a sync cell performs the oldest operation of its incoming queue (R253); a request that waits before the cell moves up. -/
def execSyncOpPerform (core : CoreIx) (check : ReadCheck) (s : State) : Host.Outcome State Fault Refusal :=
  run s fun w =>
    match (w.core core).syn.incoming with
    | op :: rest =>
      if w.coreUp core then ((w.updSyn core fun y => { y with incoming := rest }).performOp core op check).syncPull core else w
    | [] => w

/-- A master writes a sync object, or its add alias (R251). -/
def Work.objWrite (w : Work) (m : Master) (c obj : Nat) (add : Bool) (v : DWord) : Work :=
  Work.when (w.regTakes (Reg.SYN_OBJ c obj) && !w.installHolds m (coreRegion c)) w fun w => w.syncWrite m (.obj c obj) add v

/-- SYN_OBJ_WRITE: a 64-bit write to SYN_OBJ_i sets a sync word (R251). -/
def execSynObjWrite (master : Master) (core : CoreIx) (obj : Fin 1024) (value : DWord) (s : State) : Host.Outcome State Fault Refusal :=
  run s fun w => w.objWrite master core obj false value

/-- SYN_ADD_WRITE: a 64-bit write to SYN_ADD_i adds to a sync word (R251). -/
def execSynAddWrite (master : Master) (core : CoreIx) (obj : Fin 1024) (value : DWord) (s : State) : Host.Outcome State Fault Refusal :=
  run s fun w => w.objWrite master core obj true value

/-! ### Watch messages (R260–R266) -/

/-- The message that a WATCH packet carries to this chip. -/
def Pkt.watch (k : Pkt) (here : Nat) : WatchMsg :=
  let word (i : Nat) : DWord := BitVec.ofNat 64 (leNat ((k.data.drop i).take 8))
  { node := k.src, core := k.core, here := here, target := k.addr, gen := k.gen, ctx := k.ctx
    kind := match k.op with
      | 0 => .register (bits k.w5 20 4) (word 0) (word 8)
      | 1 => .accepted | 2 => .full | 3 => .wake (word 0) | 4 => .absent | _ => .cancel }

/-- OP of a watch message. -/
def WatchKind.op : WatchKind → Nat
  | .register _ _ _ => 0 | .accepted => 1 | .full => 2 | .wake _ => 3 | .absent => 4 | .cancel => 5

/-- Take a watch message of a kind: among those of this chip, the oldest between its two cores; or from a port. `held`: it cannot be taken yet. -/
def Work.takeWatch (w : Work) (src : WatchSrc) (op : Nat) (held : WatchMsg → Bool) (f : Work → Nat → WatchMsg → Work) : Work :=
  match src with
  | .here n =>
    match w.hw.watchMsgs.drop n with
    | m :: later =>
      let earlier := w.hw.watchMsgs.take n
      let first := !earlier.any fun x => decide (x.node = m.node) && decide (x.core = m.core) && decide (x.here = m.here)
      if w.clocked && first && decide (m.kind.op = op) && !held m then
        f { w with hw := { w.hw with watchMsgs := earlier ++ later } } (coreRegion m.here) m
      else w
    | [] => w
  | .port p v =>
    let mine (k : Pkt) : WatchMsg := k.watch (globalSlot k.core)
    w.takePkt p v (fun k => decide (k.ptype = 4) && decide (k.op = op) && (decide (k.dst ≠ w.selfNode) || !held (mine k)))
      fun w k => f w (16 + p) (mine k)

/-- The sync word that a message to a holder names. -/
def WatchMsg.word (m : WatchMsg) : Option SyncWord := ((directDpa m.target).bind syncWordAt).map Prod.fst

/-- Is the queue of the cell that a REGISTER is for full (R253)? -/
def Work.registerHeld (w : Work) (m : WatchMsg) : Bool :=
  match m.word with
  | some (.obj c i) => w.regTakes (Reg.SYN_OBJ c i) && decide (64 ≤ (w.core c).syn.incoming.length)
  | _ => false

/-- Answer a REGISTER for a word that no watch table covers (R260): with what a read of it shows. -/
def Work.registerHub (w : Work) (die : Nat) (m : WatchMsg) (v : DWord) : Work :=
  match m.kind with
  | .register op operand compare =>
    (w.sendWatchFrom die (globalSlot 0) m.node m.core 0 m.gen none (if waitMet op v operand compare then .wake v else .full)).1
  | _ => w

/-- A REGISTER reaches the holder of its target. -/
def Work.registerIn (w : Work) (die : Nat) (m : WatchMsg) : Work :=
  match m.word, m.kind with
  | some (.obj c i), .register op operand compare =>
    if w.regTakes (Reg.SYN_OBJ c i) then
      w.updSyn c fun y => { y with incoming := y.incoming ++ [⟨i, .register op, operand, compare, m.ctx, .watch m.node m.core m.gen⟩] }
    else w.registerHub die m 0
  | some (.db n), _ => w.registerHub 28 m (if w.hubUp then w.r64 (Reg.HUB_DB 0 n) else 0)
  | some (.iw h v), _ => w.registerHub (28 + h) m (if w.hubUp then w.r64 (Reg.HUB_IW h v) else 0)
  | _, _ => w.registerHub die m 0

/-- WATCH_REGISTER: a REGISTER message reaches the holder, which tests the condition as an operation in order (R260). -/
def execWatchRegister (src : WatchSrc) (s : State) : Host.Outcome State Fault Refusal :=
  run s fun w => w.takeWatch src 0 w.registerHeld Work.registerIn

/-- Is a message for the WAIT that its cell holds in one of two modes? -/
def Work.waitExpects (w : Work) (m : WatchMsg) (a b : WaitMode) : Bool :=
  (w.unmetWait m.here).isSome && decide (m.gen = SMap.get 0 w.hw.genCore m.here) &&
    (decide ((w.core m.here).syn.mode = a) || decide ((w.core m.here).syn.mode = b))

/-- A WAIT falls back to polling (R263). -/
def Work.waitFallBack (w : Work) (c : Nat) : Work :=
  (w.updSyn c fun y => { y with mode := .polling }).bump (Reg.SYN_FALLBACKS c) 1

/-- An answer to a REGISTER of an earlier life of its core is dropped (R544). -/
def Work.lateAnswer (w : Work) (m : WatchMsg) : Work :=
  if m.gen = SMap.get 0 w.hw.genCore m.here then w else w.bumpErr Reg.ERR_LATE_DROP 1

/-- WATCH_ACCEPTED: the waiter learns that its watch is held (R264). -/
def execWatchAccepted (src : WatchSrc) (s : State) : Host.Outcome State Fault Refusal :=
  run s fun w => w.takeWatch src 1 (fun _ => false) fun w _ m =>
    if w.waitExpects m .sent .sent then w.updSyn m.here fun y => { y with mode := .accepted } else w.lateAnswer m

/-- WATCH_FULL: a FULL answer makes the waiter fall back to polling (R263). -/
def execWatchFull (src : WatchSrc) (s : State) : Host.Outcome State Fault Refusal :=
  run s fun w => w.takeWatch src 2 (fun _ => false) fun w _ m =>
    if w.waitExpects m .sent .sent then w.waitFallBack m.here else w.lateAnswer m

/-- WATCH_WAKE: a WAKE reaches the waiter and completes its WAIT on the value it carries, or is dropped when stale (R262). -/
def execWatchWake (src : WatchSrc) (s : State) : Host.Outcome State Fault Refusal :=
  run s fun w => w.takeWatch src 3 (fun _ => false) fun w _ m =>
    if w.waitExpects m .sent .accepted then w.synDone m.here else w.bump (Reg.SYN_WAKE_DROP m.here) 1

/-- WATCH_ABSENT: an ABSENT message makes the waiter fall back to polling (R265). -/
def execWatchAbsent (src : WatchSrc) (s : State) : Host.Outcome State Fault Refusal :=
  run s fun w => w.takeWatch src 4 (fun _ => false) fun w _ m =>
    if w.waitExpects m .sent .accepted then w.waitFallBack m.here else w

/-- The watch-table entry that a waiter holds on an object. -/
def Work.entryOf (w : Work) (c obj node core gen : Nat) : Option Nat :=
  (List.range 256).find? fun e =>
    let ctl := Reg.SYN_WATCH_CTL c e
    w.flag ctl Fld.SYN_WATCH_CTL_VALID && decide (w.fld ctl Fld.SYN_WATCH_CTL_OBJ = obj) && decide (w.fld ctl Fld.SYN_WATCH_CTL_NODE = node) &&
      decide (w.fld ctl Fld.SYN_WATCH_CTL_CORE = core) && decide (w.fld ctl Fld.SYN_WATCH_CTL_GEN = gen)

/-- WATCH_CANCEL: a CANCEL clears the waiter's watch entry at the holder, if one is held (R264, R266). -/
def execWatchCancel (src : WatchSrc) (s : State) : Host.Outcome State Fault Refusal :=
  run s fun w => w.takeWatch src 5 (fun _ => false) fun w _ m =>
    match m.word with
    | some (.obj c i) =>
      match w.entryOf c i m.node m.core m.gen with
      | some e => (w.clearWatch c e).watchStat c
      | none => w
    | _ => w

/-! ### Polling and rechecks (R263, R264) -/

/-- Does the holder of a WAIT's target, on this chip, hold no entry for the waiter? A holder on another chip says so by ABSENT (log entry 29). -/
def Work.entryLost (w : Work) (c : Nat) (r : Running) : Bool :=
  let g := synGaddr r.cmd
  match synTarget r.cmd with
  | some (.obj d i) =>
    decide (gNode g = w.selfNode) && (w.entryOf d i w.selfNode (coreGlobal c) (SMap.get 0 w.hw.genCore c)).isNone
  | _ => false

/-- The value read by a polling or rechecking WAIT returns (R263, R264, R269): a poisoned word tests as zero. -/
def Work.pollReturn (w : Work) (c i : Nat) (r : Running) (q : Req) (recheck : Bool) : Work :=
  let w := (w.dropReq i).updSyn c fun y => { y with awaiting := none }
  if !q.bad.returns then w.synStops c q
  else if waitHolds r.cmd (if q.bad = .ok then BitVec.ofNat 64 (q.number 8) else 0) then
    (if recheck then w.cancelWatch c else w).synDone c
  else if recheck && w.entryLost c r then w.waitFallBack c
  else w

/-- A WAIT in mode `m` reads its target: the read is issued, or its return is taken. -/
def Work.waitRead (w : Work) (c : Nat) (m : WaitMode) : Work :=
  match w.unmetWait c with
  | some r =>
    if (w.core c).syn.mode ≠ m then w
    else match (w.core c).syn.awaiting with
      | none => (w.bump (Reg.SYN_POLLS c) 1).synReq c r (.read 8)
      | some i =>
        match w.req? i with
        | some q => if q.stage = .replied then w.pollReturn c i r q (decide (m = .accepted)) else w
        | none => w.updSyn c fun y => { y with awaiting := none }
  | none => w

/-- POLL_READ: each polling interval the waiter reads the target, and completes when the condition holds (R263). -/
def execPollRead (core : CoreIx) (s : State) : Host.Outcome State Fault Refusal := run s fun w => w.waitRead core .polling

/-- RECHECK_READ: each recheck interval a waiter with an accepted watch reads the target (R264). -/
def execRecheckRead (core : CoreIx) (s : State) : Host.Outcome State Fault Refusal := run s fun w => w.waitRead core .accepted

/-! ### Long waits (R267) -/

/-- Is a core waiting: its sync cell holds an unmet WAIT, and neither MTX nor VEC runs a command? -/
def Work.coreWaits (w : Work) (c : Nat) : Bool :=
  (w.unmetWait c).isSome && (w.engine c 0).running.isEmpty && (w.engine c 1).running.isEmpty

/-- LONGWAIT_NOTICE: a core that has been waiting unbroken for THRESH µs sends a long-wait notice to the Kiln (R267). -/
def execLongwaitNotice (core : CoreIx) (s : State) : Host.Outcome State Fault Refusal :=
  run s fun w =>
    let c := core.val
    Work.when (w.coreWaits c && w.flag (Reg.SYN_LONGWAIT c) Fld.SYN_LONGWAIT_EN && !(w.core c).syn.waiting) w fun w =>
      let w := w.updSyn c fun y => { y with waiting := true }
      { w with hw := { w.hw with longWaits := w.hw.longWaits ++ [2 * c] } }

end Sys2Proof.Machine
end

