-- ==== Sys2Proof/Machine/NetIn.lean ====
section
/-! DEFINITION. Packets that arrive at a port for this chip (R35, R436–R443, R468, R627): requests, their answers, and management messages. -/

namespace Sys2Proof.Machine

/-- The request that a packet makes of this chip, sent on by the receive path of its link die (R35). -/
def Work.packetReq (w : Work) (p : Nat) (k : Pkt) (op : ReqOp) : Req :=
  Req.make (.link p k.src k.tag k.vc k.core k.master) op k.ctx w.selfNode k.addr w.hw.uptime 0 k.gen

/-- Serve a request packet; one that touches no byte is answered at once (R443). -/
def Work.packetServe (w : Work) (p : Nat) (k : Pkt) (op : ReqOp) : Work :=
  if op.len = 0 then w.injectAnswer (16 + p) k 0 [] else (w.issueReq (w.packetReq p k op)).2

/-- PKT_RD: an RD packet is accepted and sent on, or served (R436). -/
def execPktRd (port : LinkIx) (vc : Fin 8) (s : State) : Host.Outcome State Fault Refusal :=
  run s fun w => w.takePkt port vc (fun k => decide (k.ptype = 1)) fun w k => w.packetServe port k (.read k.rlen)

/-- A WR packet that carries POISON (R437): its crumbs become poison codewords; a scratchpad, which has none, takes unknown bytes, and a register
takes nothing (log entry 30). -/
def Work.poisonedWr (w : Work) (p : Nat) (k : Pkt) (op : ReqOp) : Work :=
  let mark (w : Work) : Work :=
    { w with hw := { w.hw with poisonWrites := w.hw.nextReq :: w.hw.poisonWrites.filter fun i => (w.req? i).isSome } }
  match directDpa k.addr with
  | some a =>
    if isCsr a then w.injectAnswer (16 + p) k 0 []
    else match w.target a with
      | .scratchpad _ => (w.makeWild a (a + op.len)).injectAnswer (16 + p) k 0 []
      | _ => (mark w).packetServe p k op
  | none => (mark w).packetServe p k op

/-- PKT_WR: a WR packet is accepted and sent on, or written (R436). -/
def execPktWr (port : LinkIx) (vc : Fin 8) (s : State) : Host.Outcome State Fault Refusal :=
  run s fun w => w.takePkt port vc (fun k => decide (k.ptype = 2)) fun w k =>
    let op : ReqOp := .write (k.data.map some)
    if k.poison && decide (op.len ≠ 0) then w.poisonedWr port k op else w.packetServe port k op

/-- PKT_ATOMIC: an ATOMIC packet is accepted and sent on, or handed to its sync word (R436). -/
def execPktAtomic (port : LinkIx) (vc : Fin 8) (s : State) : Host.Outcome State Fault Refusal :=
  run s fun w => w.takePkt port vc (fun k => decide (k.ptype = 3)) fun w k =>
    let word (i : Nat) : DWord := BitVec.ofNat 64 (leNat ((k.data.drop i).take 8))
    w.packetServe port k (.sync (.atomic (min 7 k.op)) (word 0) (word 8))

/-- A RESP that answers an ATOMIC has LEN 8; another LEN is a clamp (R442). -/
def Work.respLen (w : Work) (p : Nat) (k : Pkt) : Work :=
  match List.find? k.answers w.hw.reqs with
  | some (_, q) =>
    match q.op with
    | .sync _ _ _ => if k.status = 0 ∧ k.data.length ≠ 8 then w.clamp (.link p k.ctx) 0 0 8 .joined else w
    | _ => w
  | none => w

/-- PKT_RESP: a RESP packet reaches its requester, or is sent on (R468). -/
def execPktResp (port : LinkIx) (vc : Fin 8) (s : State) : Host.Outcome State Fault Refusal :=
  run s fun w => w.takePkt port vc (fun k => decide (k.ptype = 5)) fun w k => (w.respLen port k).respArrives k

/-- PKT_ACK: an ACK packet completes a write at its requester, or is sent on (R468). -/
def execPktAck (port : LinkIx) (vc : Fin 8) (s : State) : Host.Outcome State Fault Refusal :=
  run s fun w => w.takePkt port vc (fun k => decide (k.ptype = 6)) fun w k => w.respArrives k

/-- PKT_MGMT: a delivered MGMT packet is put into its mailbox, or discarded when that is full (R627). -/
def execPktMgmt (port : LinkIx) (vc : Fin 8) (s : State) : Host.Outcome State Fault Refusal :=
  run s fun w => w.takePkt port vc (fun k => decide (k.ptype = 10)) fun w k =>
    let mbox := k.w4 % 256
    let w := if 8 < mbox then w.clamp (.link port k.ctx) 0 4 0 .encoding else w
    w.mailbox (min 8 mbox) k.src (bits k.w4 16 16) k.data

end Sys2Proof.Machine
end

