-- ==== Sys2Proof/Machine/Tick.lean ====
section
/-! DEFINITION. One MGMT cycle in which no command acts (log entry 5): the clocks advance, and with them the counters of cycles and of µs that
the state between two commands decides. -/

namespace Sys2Proof.Machine

/-! ### Clocks (R10, R559, R560) -/

/-- CORE cycles in one MGMT cycle, in eighths: MULT × 100 MHz ÷ 4, 100 MHz in BYPASS, or none. -/
def Work.coreEighths (w : Work) : Nat :=
  match w.fld Reg.CLK_STATUS Fld.CLK_STATUS_DOM_SRC with
  | 0 => w.fld Reg.CLK_ROOT Fld.CLK_ROOT_ACTIVE_MULT
  | 1 => 4
  | _ => 0

/-- CORE (and MEMIF) cycles that have passed since `pre`. -/
def Work.coreSince (w pre : Work) : Nat := w.hw.rootEighths / 8 - pre.hw.rootEighths / 8

/-- LINKCLK cycles that have passed since `pre`: ROOT ÷ 6, or 100 MHz in BYPASS. -/
def Work.linkSince (w pre : Work) : Nat :=
  if w.fld Reg.CLK_STATUS Fld.CLK_STATUS_DOM_SRC = 0 then w.hw.rootEighths / 12 - pre.hw.rootEighths / 12 else w.coreSince pre

/-- Count in a 32-bit counter that saturates, unless a freeze stops it. -/
def Work.satCount (w : Work) (a n : Nat) : Work := if w.frozen (csrDie a) && freezes a then w else w.satAdd a word32 n

/-! ### Cores -/

/-- Slot k of a run is active at level l (R180). -/
def slotActive (l k : Nat) : Bool := decide ((k * l + 7) / 8 < ((k + 1) * l + 7) / 8)

/-- Active slots among n CORE cycles from the t-th of the core on. -/
def activeSlots (l t n : Nat) : Nat := ((List.range n).filter fun i => slotActive l ((t + i) % 8)).length

/-- The matrix cell: the hold of a PROOF command, Proof groups, and what its repeats wait for (R161, R167, R180, R184, R185). -/
def Work.mtxTick (w : Work) (c t n : Nat) : Work :=
  let busy := match w.mtxSender c with | some r => decide (cmdOpcode r.cmd ≠ 2) | none => false
  let on := activeSlots (w.mtxLevelNow c) t n
  let w := w.bump (if busy then Reg.MTX_RAMP_LOSS c else Reg.MTX_PROOF_CYC c) (if busy then n - on else on)
  let w := w.bump (Reg.MTX_STALL_BANK c) (if w.accWait c 0 then n else 0)
  let w := w.bump (Reg.MTX_STALL_LINK c) (if w.linkWait c 0 then n else 0)
  match (w.mtx c).proofLeft with
  | some (k + 1) => w.updMtx c fun m => { m with proofLeft := some (k + 1 - n) }
  | _ => w

/-- The vector chain: what its repeats wait for (R213). -/
def Work.vecTick (w : Work) (c n : Nat) : Work :=
  (w.bump (Reg.VEC_STALL_ACC c) (if w.accWait c 1 then n else 0)).bump (Reg.VEC_STALL_LINK c) (if w.linkWait c 1 then n else 0)

/-- The counter to which a stream cell with a command adds its cycles (R244). -/
def Work.strCause (w : Work) (c s : Nat) (r : Running) : Nat :=
  let mine := w.hw.reqs.filter fun e => decide (e.2.src = .str c s)
  let left := decide (0 < r.started) && decide (r.pos < r.desc.length)
  if w.linkWait c (2 + s) then Reg.STR_STALL_LINK c s
  else if mine.any fun e => (match e.2.stage with | .translate => true | .walk => true | .held => true | _ => false) then Reg.STR_STALL_XLATE c s
  else if left && r.ready && (decide (256 ≤ mine.length) || decide (3776 ≤ w.streamOps (coreRegion c))) then Reg.STR_STALL_REQ c s
  else if !left && decide (r.started = cmdRepeat r.cmd) && !mine.isEmpty then Reg.STR_STALL_MEM c s
  else Reg.STR_ACTIVE c s

/-- A stream cell. -/
def Work.strTick (w : Work) (c s n : Nat) : Work :=
  match (w.engine c (2 + s)).last with
  | some r => (w.bump (Reg.STR_BUSY c s) n).bump (w.strCause c s r) n
  | none => w

/-- Does a sync cell hold an unmet WAIT (R268)? -/
def Work.holdsWait (w : Work) (c : Nat) : Bool :=
  match (w.engine c 4).first with
  | some r => decide (cmdOpcode r.cmd = 2) && decide (r.started = 1) && decide (r.pos = 0)
  | none => false

/-- A core, for n CORE cycles. -/
def Work.coreTick (w : Work) (c n : Nat) : Work :=
  Work.when (w.coreUp c) w fun w =>
    let t := w.coreCycles - n - SMap.get 0 w.hw.cycleStart c
    let w := ((w.mtxTick c t n).vecTick c n).strTick c 0 n
    (w.strTick c 1 n).bump (Reg.SYN_WAIT_CYC c) (if w.holdsWait c then n else 0)

/-! ### Memory channels, ports, collectives -/

/-- A channel: cycles in which a request waits for the limit on one crumb (R289, R315). -/
def Work.chanTick (w pre : Work) (ch : Nat) : Work :=
  let k := w.chan ch
  if k.waiting.any fun a => a.hot k.queue (w.hotLimit ch) then
    w.satCount (if chIsCap ch then Reg.CAP_P_HOT (chDie ch) (chPort ch % 4) else Reg.MEM_CH_HOT (chRegion ch) (ch % 64)) (w.chNow ch - pre.chNow ch)
  else w

/-- A port: LINKCLK cycles in which a packet waits for credit, for the dateline's 33 flits, or for replay space (R428, R433, R466). -/
def Work.portTick (w : Work) (p l : Nat) : Work :=
  let k := w.port p
  let heads := (List.range 8).filterMap fun v => (k.nextOf v).map fun t => (v, t.1.pkt)
  let credit (v : Nat) : Nat := w.fld (Reg.LNK_VC_CRED p v) Fld.LNK_VC_CRED_CREDIT
  let short := heads.any fun h => decide (credit h.1 < h.2.flits)
  let line := heads.any fun h => !h.2.dl && decide (h.2.flits ≤ credit h.1) && decide (credit h.1 < h.2.flits + 33)
  let full := match w.nextVc p with
    | some (v, _) => (match w.vcReady p v with
      | some (t, _) => decide (32768 < seqSub (w.txNext p) (w.txOldest p) + t.pkt.flits)
      | none => false)
    | none => false
  let w := w.bump (Reg.LNK_CREDIT_STALL p) (if short then l else 0)
  let w := w.bump (Reg.RTE_DLWAIT p) (if line then l else 0)
  w.bump (Reg.LNK_REPLAY_STALL p) (if full then l else 0)

/-- Does a die's store hold a contribution of an operation that waits for its arrival? -/
def ColOp.waitsAt (o : ColOp) (die : Nat) : Bool := o.granules.any fun g => decide (g.die = die) && g.waits

/-- Does a peer's piece of a stream wait for what this chip has yet to do, under item 4 or 5 of R407? -/
def ColOp.keepsPeer (o : ColOp) (t : ColStream) : Bool :=
  let j := SMap.get 0 o.granted t.key
  let x : Piece := ⟨t.ring, t.step, t.block, j⟩
  let met := !o.par.meets x || o.granules.any (fun g => decide (g.die = 2 * o.axis + t.port) && g.waits && decide (g.piece = x))
  decide (j < o.par.chunks) && !o.awaited.any (fun y => decide (y.ring = t.ring ∧ y.step = t.step ∧ y.block = t.block)) &&
    !(met && (decide (o.par.kind ≠ 6) || decide (j < o.accepted)))

/-- The waits of collectives at a die (R412); `us` when a µs ends. -/
def Work.colTick (w : Work) (die l : Nat) (us : Bool) : Work :=
  let waiting := w.hw.colOps.filter fun o => o.waitsAt die
  let keeps := w.hw.colOps.any fun o => decide (o.axis = die / 2) && o.par.streams.any fun t => decide (2 * o.axis + t.port = die) && o.keepsPeer t
  let w := w.bump (Reg.COL_PEERWAIT_CYC die) (if waiting.isEmpty then 0 else l)
  let w := w.bump (Reg.COL_LOCALWAIT_CYC die) (if keeps then l else 0)
  if us then w.forEach (waiting.map ColOp.set).dedup fun w n => w.satCount (Reg.COL_SET_PEERWAIT die n) 1 else w

/-! ### Microseconds -/

/-- The scheduler's times of the context placed on global core g: its slice and its virtual time (R370, R372). -/
def Work.placedTick (w : Work) (g : Nat) : Work :=
  let a := Reg.SCH_CORE g
  if w.flag a Fld.SCH_CORE_VALID then
    let x := w.fld a Fld.SCH_CORE_CTX
    (w.satAdd a Fld.SCH_CORE_SLICE_US 1).w64 (Reg.SCH_CTX_VT x)
      (w.r64 (Reg.SCH_CTX_VT x) + BitVec.ofNat 64 (1024 / max 1 (w.fld (Reg.SCH_CTX_CTRL x) Fld.SCH_CTX_CTRL_WEIGHT)))
  else w

/-- Is the work of a chip recovery done: the boot released, no core in self-test, no port or stack in training (R554; log entry 5)? -/
def Work.recovered (w : Work) : Bool :=
  decide (w.chipState = 1) && decide (w.fld (Reg.BOOT_STATUS 0) Fld.BOOT_STATUS_STAGE = 3) && w.hw.resetsDue.isEmpty &&
    (w.hw.cores.all fun e => decide (e.2.test = .none)) &&
    ((List.range 4).all fun d => !w.flag (Reg.CAP_STATUS d) Fld.CAP_STATUS_BUSY) &&
    ((List.range 8).all fun p => !decide (1 ≤ w.linkState p ∧ w.linkState p ≤ 4))

/-- What runs on the ROOT-derived clocks, for one MGMT cycle. -/
def Work.clockedTick (w pre : Work) : Work :=
  let n := w.coreSince pre
  let l := w.linkSince pre
  let us := decide (w.hw.uptime % 200 = 0)
  let w := w.forEach (w.hw.cores.map Prod.fst) fun w c => w.coreTick c n
  let w := w.forEach (w.hw.chans.map Prod.fst) fun w ch => w.chanTick pre ch
  let w := w.forEach (w.hw.ports.map Prod.fst) fun w p => if w.linkState p = 5 then w.portTick p l else w
  let w := if w.hw.colOps.isEmpty then w else w.forEach (List.range 8) fun w die => w.colTick die l us
  let w := if us then w.forEach (List.range 256) Work.placedTick else w
  let w := w.phaseTick
  if w.recovered then w.setChipState 0 else w

/-- One MGMT cycle. -/
def Work.tick (w : Work) : Work :=
  let pre := w
  let w := { w with hw := { w.hw with uptime := w.hw.uptime + 1, rootEighths := w.hw.rootEighths + w.coreEighths } }
  if w.clocked then w.clockedTick pre else w

end Sys2Proof.Machine
end

