-- ==== Sys2Proof/Machine/Dispatch.lean ====
section
/-! DEFINITION. One arm for each command: a direct call of its meaning. -/

namespace Sys2Proof.Machine

def exec (i : Instr) (s : State) : Host.Outcome State Fault Refusal :=
  match i with
  | .registerWrite master addr width enables data => Sys2Proof.Machine.execRegisterWrite master addr width enables data s
  | .aluReg core => Sys2Proof.Machine.execAluReg core s
  | .aluImm core => Sys2Proof.Machine.execAluImm core s
  | .lhi core => Sys2Proof.Machine.execLhi core s
  | .memLoad core => Sys2Proof.Machine.execMemLoad core s
  | .memStore core => Sys2Proof.Machine.execMemStore core s
  | .memAccessReply core => Sys2Proof.Machine.execMemAccessReply core s
  | .scratchpadLoad core => Sys2Proof.Machine.execScratchpadLoad core s
  | .scratchpadStore core => Sys2Proof.Machine.execScratchpadStore core s
  | .branch core => Sys2Proof.Machine.execBranch core s
  | .call core => Sys2Proof.Machine.execCall core s
  | .jmp core => Sys2Proof.Machine.execJmp core s
  | .jmpr core => Sys2Proof.Machine.execJmpr core s
  | .ctlNop core => Sys2Proof.Machine.execCtlNop core s
  | .srd core => Sys2Proof.Machine.execSrd core s
  | .swr core => Sys2Proof.Machine.execSwr core s
  | .seedAccessResume core => Sys2Proof.Machine.execSeedAccessResume core s
  | .brk core => Sys2Proof.Machine.execBrk core s
  | .cwr core => Sys2Proof.Machine.execCwr core s
  | .cwf core => Sys2Proof.Machine.execCwf core s
  | .cld core => Sys2Proof.Machine.execCld core s
  | .cpush core => Sys2Proof.Machine.execCpush core s
  | .cpushm core => Sys2Proof.Machine.execCpushm core s
  | .cpushUnstall core => Sys2Proof.Machine.execCpushUnstall core s
  | .cqst core => Sys2Proof.Machine.execCqst core s
  | .cwait core => Sys2Proof.Machine.execCwait core s
  | .cwaitRelease core => Sys2Proof.Machine.execCwaitRelease core s
  | .cbnd core => Sys2Proof.Machine.execCbnd core s
  | .cbndComplete core => Sys2Proof.Machine.execCbndComplete core s
  | .commandIssue core eng => Sys2Proof.Machine.execCommandIssue core eng s
  | .repeatStart core eng => Sys2Proof.Machine.execRepeatStart core eng s
  | .halfMarkFull core eng => Sys2Proof.Machine.execHalfMarkFull core eng s
  | .halfMarkEmpty core eng => Sys2Proof.Machine.execHalfMarkEmpty core eng s
  | .commandComplete core eng => Sys2Proof.Machine.execCommandComplete core eng s
  | .engineNop core eng => Sys2Proof.Machine.execEngineNop core eng s
  | .mma core => Sys2Proof.Machine.execMma core s
  | .mvm core => Sys2Proof.Machine.execMvm core s
  | .aclr core => Sys2Proof.Machine.execAclr core s
  | .aclose core => Sys2Proof.Machine.execAclose core s
  | .proof core => Sys2Proof.Machine.execProof core s
  | .segTableReadDone core => Sys2Proof.Machine.execSegTableReadDone core s
  | .groupEnter core parity => Sys2Proof.Machine.execGroupEnter core parity s
  | .bankFull core bank => Sys2Proof.Machine.execBankFull core bank s
  | .levelStep core => Sys2Proof.Machine.execLevelStep core s
  | .rampHoldExpire core => Sys2Proof.Machine.execRampHoldExpire core s
  | .feedParityError core => Sys2Proof.Machine.execFeedParityError core s
  | .feedRefetchEnd core clean => Sys2Proof.Machine.execFeedRefetchEnd core clean s
  | .proofCtrlWrite master core value => Sys2Proof.Machine.execProofCtrlWrite master core value s
  | .vecRun core parity => Sys2Proof.Machine.execVecRun core parity s
  | .vecCfgReadDone core check => Sys2Proof.Machine.execVecCfgReadDone core check s
  | .bankEmpty core => Sys2Proof.Machine.execBankEmpty core s
  | .brkArmCount master core value => Sys2Proof.Machine.execBrkArmCount master core value s
  | .brkArmTag master core value => Sys2Proof.Machine.execBrkArmTag master core value s
  | .coreHalt master core => Sys2Proof.Machine.execCoreHalt master core s
  | .coreResume master core => Sys2Proof.Machine.execCoreResume master core s
  | .linkCfgApply core link => Sys2Proof.Machine.execLinkCfgApply core link s
  | .spareSwap region slot => Sys2Proof.Machine.execSpareSwap region slot s
  | .strLoad core str check word => Sys2Proof.Machine.execStrLoad core str check word s
  | .strStore core str check word => Sys2Proof.Machine.execStrStore core str check word s
  | .strGather core str check word => Sys2Proof.Machine.execStrGather core str check word s
  | .strScatter core str check word => Sys2Proof.Machine.execStrScatter core str check word s
  | .strColl core str => Sys2Proof.Machine.execStrColl core str s
  | .strInstall master core value => Sys2Proof.Machine.execStrInstall master core value s
  | .installDone region => Sys2Proof.Machine.execInstallDone region s
  | .streamRequest core str => Sys2Proof.Machine.execStreamRequest core str s
  | .streamReply req => Sys2Proof.Machine.execStreamReply req s
  | .synAtomic core => Sys2Proof.Machine.execSynAtomic core s
  | .atomicReply core => Sys2Proof.Machine.execAtomicReply core s
  | .synWait core check => Sys2Proof.Machine.execSynWait core check s
  | .syncOpPerform core check => Sys2Proof.Machine.execSyncOpPerform core check s
  | .synObjWrite master core obj value => Sys2Proof.Machine.execSynObjWrite master core obj value s
  | .synAddWrite master core obj value => Sys2Proof.Machine.execSynAddWrite master core obj value s
  | .watchRegister src => Sys2Proof.Machine.execWatchRegister src s
  | .watchAccepted src => Sys2Proof.Machine.execWatchAccepted src s
  | .watchFull src => Sys2Proof.Machine.execWatchFull src s
  | .watchWake src => Sys2Proof.Machine.execWatchWake src s
  | .watchAbsent src => Sys2Proof.Machine.execWatchAbsent src s
  | .watchCancel src => Sys2Proof.Machine.execWatchCancel src s
  | .pollRead core => Sys2Proof.Machine.execPollRead core s
  | .recheckRead core => Sys2Proof.Machine.execRecheckRead core s
  | .longwaitNotice core => Sys2Proof.Machine.execLongwaitNotice core s
  | .memRequestAdmit region chan => Sys2Proof.Machine.execMemRequestAdmit region chan s
  | .memAccess region chan crumb ecc => Sys2Proof.Machine.execMemAccess region chan crumb ecc s
  | .memRefresh region chan => Sys2Proof.Machine.execMemRefresh region chan s
  | .memTempSample region layers => Sys2Proof.Machine.execMemTempSample region layers s
  | .memScrubRead region chan => Sys2Proof.Machine.execMemScrubRead region chan s
  | .memBistStart master region value => Sys2Proof.Machine.execMemBistStart master region value s
  | .memBistEnd region pass => Sys2Proof.Machine.execMemBistEnd region pass s
  | .capTrain master die value => Sys2Proof.Machine.execCapTrain master die value s
  | .capTrainDone die p0 p1 p2 p3 => Sys2Proof.Machine.execCapTrainDone die p0 p1 p2 p3 s
  | .capRequestAdmit die port chan => Sys2Proof.Machine.execCapRequestAdmit die port chan s
  | .capAccess die port chan crumb ecc => Sys2Proof.Machine.execCapAccess die port chan crumb ecc s
  | .capRefresh die port chan => Sys2Proof.Machine.execCapRefresh die port chan s
  | .capTempRead die port rank check rate hot => Sys2Proof.Machine.execCapTempRead die port rank check rate hot s
  | .capScrubRead die port => Sys2Proof.Machine.execCapScrubRead die port s
  | .capEnClear master die value => Sys2Proof.Machine.execCapEnClear master die value s
  | .translate req => Sys2Proof.Machine.execTranslate req s
  | .pageWalkDone req victim => Sys2Proof.Machine.execPageWalkDone req victim s
  | .shadowClear req => Sys2Proof.Machine.execShadowClear req s
  | .shootdown region inval => Sys2Proof.Machine.execShootdown region inval s
  | .shootdownAck inval => Sys2Proof.Machine.execShootdownAck inval s
  | .pgeInval region value => Sys2Proof.Machine.execPgeInval region value s
  | .migrationMove region dest => Sys2Proof.Machine.execMigrationMove region dest s
  | .migrationCopyDone region => Sys2Proof.Machine.execMigrationCopyDone region s
  | .epochHalve region => Sys2Proof.Machine.execEpochHalve region s
  | .demoteStart region frame dest => Sys2Proof.Machine.execDemoteStart region frame dest s
  | .hintReceive region => Sys2Proof.Machine.execHintReceive region s
  | .hintSlab region => Sys2Proof.Machine.execHintSlab region s
  | .alcSubmit master region value => Sys2Proof.Machine.execAlcSubmit master region value s
  | .alcNop region => Sys2Proof.Machine.execAlcNop region s
  | .mapPages region choices => Sys2Proof.Machine.execMapPages region choices s
  | .mapSlabs region choices => Sys2Proof.Machine.execMapSlabs region choices s
  | .unmap region => Sys2Proof.Machine.execUnmap region s
  | .allocSpm region start => Sys2Proof.Machine.execAllocSpm region start s
  | .freeSpm region => Sys2Proof.Machine.execFreeSpm region s
  | .allocDesc region start => Sys2Proof.Machine.execAllocDesc region start s
  | .freeDesc region => Sys2Proof.Machine.execFreeDesc region s
  | .unmapCtx region => Sys2Proof.Machine.execUnmapCtx region s
  | .query region => Sys2Proof.Machine.execQuery region s
  | .pgeUeReport region reread shadow => Sys2Proof.Machine.execPgeUeReport region reread shadow s
  | .ctxAdmit master ctx value => Sys2Proof.Machine.execCtxAdmit master ctx value s
  | .ctxWithdraw master ctx value => Sys2Proof.Machine.execCtxWithdraw master ctx value s
  | .ctxFree master ctx value => Sys2Proof.Machine.execCtxFree master ctx value s
  | .ringEntryRead ctx => Sys2Proof.Machine.execRingEntryRead ctx s
  | .ringNop ctx => Sys2Proof.Machine.execRingNop ctx s
  | .ringLaunch ctx => Sys2Proof.Machine.execRingLaunch ctx s
  | .schExit master value => Sys2Proof.Machine.execSchExit master value s
  | .exitFinish core => Sys2Proof.Machine.execExitFinish core s
  | .quantumExpire core => Sys2Proof.Machine.execQuantumExpire core s
  | .contextPlace core => Sys2Proof.Machine.execContextPlace core s
  | .gangForm core => Sys2Proof.Machine.execGangForm core s
  | .gangPlace => Sys2Proof.Machine.execGangPlace s
  | .schOverdue core => Sys2Proof.Machine.execSchOverdue core s
  | .colSetWrite master axis set off width enables data => Sys2Proof.Machine.execColSetWrite master axis set off width enables data s
  | .colSetApply axis set => Sys2Proof.Machine.execColSetApply axis set s
  | .collChunkAccept core str check => Sys2Proof.Machine.execCollChunkAccept core str check s
  | .collPiece port bulk check => Sys2Proof.Machine.execCollPiece port bulk check s
  | .collPieceSend port bulk check => Sys2Proof.Machine.execCollPieceSend port bulk check s
  | .colCredit port => Sys2Proof.Machine.execColCredit port s
  | .barrierArrive port => Sys2Proof.Machine.execBarrierArrive port s
  | .barrierRelease port => Sys2Proof.Machine.execBarrierRelease port s
  | .colWatchdog die set lane => Sys2Proof.Machine.execColWatchdog die set lane s
  | .flitReceive port flit corrected uncorrectable replay => Sys2Proof.Machine.execFlitReceive port flit corrected uncorrectable replay s
  | .linkFlit port ack credits => Sys2Proof.Machine.execLinkFlit port ack credits s
  | .nakReceive port ack nak credits => Sys2Proof.Machine.execNakReceive port ack nak credits s
  | .resetNotice port ack credits => Sys2Proof.Machine.execResetNotice port ack credits s
  | .ackTimeout port => Sys2Proof.Machine.execAckTimeout port s
  | .linkSilence port => Sys2Proof.Machine.execLinkSilence port s
  | .packetSend port => Sys2Proof.Machine.execPacketSend port s
  | .pktRd port vc => Sys2Proof.Machine.execPktRd port vc s
  | .pktWr port vc => Sys2Proof.Machine.execPktWr port vc s
  | .pktAtomic port vc => Sys2Proof.Machine.execPktAtomic port vc s
  | .pktResp port vc => Sys2Proof.Machine.execPktResp port vc s
  | .pktAck port vc => Sys2Proof.Machine.execPktAck port vc s
  | .pktMgmt port vc => Sys2Proof.Machine.execPktMgmt port vc s
  | .respEscape port => Sys2Proof.Machine.execRespEscape port s
  | .linkEnable master port value => Sys2Proof.Machine.execLinkEnable master port value s
  | .linkDisable master port value => Sys2Proof.Machine.execLinkDisable master port value s
  | .linkCmdTrain master port value => Sys2Proof.Machine.execLinkCmdTrain master port value s
  | .linkCmdDown master port value => Sys2Proof.Machine.execLinkCmdDown master port value s
  | .trainingBlock port block => Sys2Proof.Machine.execTrainingBlock port block s
  | .trainStepDone port fails => Sys2Proof.Machine.execTrainStepDone port fails s
  | .trainStepBound port => Sys2Proof.Machine.execTrainStepBound port s
  | .trainTimeout port => Sys2Proof.Machine.execTrainTimeout port s
  | .resetWaitExpire port => Sys2Proof.Machine.execResetWaitExpire port s
  | .fenRaise master port value => Sys2Proof.Machine.execFenRaise master port value s
  | .fenClear master port value => Sys2Proof.Machine.execFenClear master port value s
  | .fenceAlert port => Sys2Proof.Machine.execFenceAlert port s
  | .fenModeChange master port value => Sys2Proof.Machine.execFenModeChange master port value s
  | .rteSharedWrite master off width enables data => Sys2Proof.Machine.execRteSharedWrite master off width enables data s
  | .phaseMark master value => Sys2Proof.Machine.execPhaseMark master value s
  | .phaseEnable master value => Sys2Proof.Machine.execPhaseEnable master value s
  | .snpTrigger master value => Sys2Proof.Machine.execSnpTrigger master value s
  | .snpRangeReadDone range => Sys2Proof.Machine.execSnpRangeReadDone range s
  | .snpRequestReply req => Sys2Proof.Machine.execSnpRequestReply req s
  | .snpCommit set => Sys2Proof.Machine.execSnpCommit set s
  | .snpSetEnable master set value => Sys2Proof.Machine.execSnpSetEnable master set value s
  | .snpSetDisable master set value => Sys2Proof.Machine.execSnpSetDisable master set value s
  | .snpRestore value => Sys2Proof.Machine.execSnpRestore value s
  | .detModeApply => Sys2Proof.Machine.execDetModeApply s
  | .hostAccess port tag bar2 offset op => Sys2Proof.Machine.execHostAccess port tag bar2 offset op s
  | .cellReset master die value => Sys2Proof.Machine.execCellReset master die value s
  | .coreReset master die value => Sys2Proof.Machine.execCoreReset master die value s
  | .regionReset region failed late => Sys2Proof.Machine.execRegionReset region failed late s
  | .chipReset failed late => Sys2Proof.Machine.execChipReset failed late s
  | .errFence master die value => Sys2Proof.Machine.execErrFence master die value s
  | .errSelftest master die value => Sys2Proof.Machine.execErrSelftest master die value s
  | .selftestStart core => Sys2Proof.Machine.execSelftestStart core s
  | .selftestEnd core pass => Sys2Proof.Machine.execSelftestEnd core pass s
  | .contextAbort master value => Sys2Proof.Machine.execContextAbort master value s
  | .fwHeartbeat master value => Sys2Proof.Machine.execFwHeartbeat master value s
  | .errReleaseChip master value => Sys2Proof.Machine.execErrReleaseChip master value s
  | .errReleaseUnits master value => Sys2Proof.Machine.execErrReleaseUnits master value s
  | .coreHang core => Sys2Proof.Machine.execCoreHang core s
  | .reqTimeout req => Sys2Proof.Machine.execReqTimeout req s
  | .regionHang region chan => Sys2Proof.Machine.execRegionHang region chan s
  | .fwHang mcore read => Sys2Proof.Machine.execFwHang mcore read s
  | .lateReplyDrop orphan => Sys2Proof.Machine.execLateReplyDrop orphan s
  | .orphanExpire orphan => Sys2Proof.Machine.execOrphanExpire orphan s
  | .abortStuck => Sys2Proof.Machine.execAbortStuck s
  | .fabricLineRetry die clean => Sys2Proof.Machine.execFabricLineRetry die clean s
  | .clkRelock master value => Sys2Proof.Machine.execClkRelock master value s
  | .refAbsent ref => Sys2Proof.Machine.execRefAbsent ref s
  | .pllLockLoss => Sys2Proof.Machine.execPllLockLoss s
  | .refStableReturn => Sys2Proof.Machine.execRefStableReturn s
  | .clkMonWindow edgesA edgesB devA devB devAB => Sys2Proof.Machine.execClkMonWindow edgesA edgesB devA devB devAB s
  | .mgmtAbsent => Sys2Proof.Machine.execMgmtAbsent s
  | .mgmtReturn => Sys2Proof.Machine.execMgmtReturn s
  | .kilnPeriod power vin iin est => Sys2Proof.Machine.execKilnPeriod power vin iin est s
  | .kilnLend core => Sys2Proof.Machine.execKilnLend core s
  | .kilnReclaim core => Sys2Proof.Machine.execKilnReclaim core s
  | .proofScheduleStep core => Sys2Proof.Machine.execProofScheduleStep core s
  | .thermalSample die junction => Sys2Proof.Machine.execThermalSample die junction s
  | .thermalTrip die dram => Sys2Proof.Machine.execThermalTrip die dram s
  | .pgoodLoss sd input rails => Sys2Proof.Machine.execPgoodLoss sd input rails s
  | .inputGoodReturn => Sys2Proof.Machine.execInputGoodReturn s
  | .pwrRestart master value => Sys2Proof.Machine.execPwrRestart master value s
  | .strapSample samples => Sys2Proof.Machine.execStrapSample samples s
  | .achainFrame frame => Sys2Proof.Machine.execAchainFrame frame s
  | .achainBadTimeout => Sys2Proof.Machine.execAchainBadTimeout s
  | .achainRelearn master value => Sys2Proof.Machine.execAchainRelearn master value s
  | .starterCheck read1 read2 => Sys2Proof.Machine.execStarterCheck read1 read2 s
  | .bootImageLoad readA badA readB badB => Sys2Proof.Machine.execBootImageLoad readA badA readB badB s
  | .bootRelease => Sys2Proof.Machine.execBootRelease s
  | .flashNop master value => Sys2Proof.Machine.execFlashNop master value s
  | .raiseSvn master value => Sys2Proof.Machine.execRaiseSvn master value s
  | .revokeKey master value => Sys2Proof.Machine.execRevokeKey master value s
  | .flashConfirm master value => Sys2Proof.Machine.execFlashConfirm master value s
  | .flashActivate master value => Sys2Proof.Machine.execFlashActivate master value s
  | .flashErase master value => Sys2Proof.Machine.execFlashErase master value s
  | .flashProgram master value => Sys2Proof.Machine.execFlashProgram master value s
  | .flashVerify master value => Sys2Proof.Machine.execFlashVerify master value s
  | .flashRead master value => Sys2Proof.Machine.execFlashRead master value s
  | .flashCmdDone first second read bad => Sys2Proof.Machine.execFlashCmdDone first second read bad s
  | .recordSectorErase => Sys2Proof.Machine.execRecordSectorErase s
  | .cplTimeout req => Sys2Proof.Machine.execCplTimeout req s
  | .pcieFundamentalReset port link => Sys2Proof.Machine.execPcieFundamentalReset port link s
  | .pcieHotReset port disable link => Sys2Proof.Machine.execPcieHotReset port disable link s
  | .pcieFlr port => Sys2Proof.Machine.execPcieFlr port s
  | .pcieLinkDown port link => Sys2Proof.Machine.execPcieLinkDown port link s
  | .hubDbWrite word add value => Sys2Proof.Machine.execHubDbWrite word add value s
  | .hubIwWrite hub vector add value => Sys2Proof.Machine.execHubIwWrite hub vector add value s
  | .msixSend port vector => Sys2Proof.Machine.execMsixSend port vector s
  | .hmbPost master value => Sys2Proof.Machine.execHmbPost master value s
  | .hmbFree slot => Sys2Proof.Machine.execHmbFree slot s
  | .sbRead addr len => Sys2Proof.Machine.execSbRead addr len s
  | .sbWrite addr len data => Sys2Proof.Machine.execSbWrite addr len data s
  | .sbStatus => Sys2Proof.Machine.execSbStatus s
  | .telSnap master value => Sys2Proof.Machine.execTelSnap master value s
  | .triggerFire => Sys2Proof.Machine.execTriggerFire s
  | .trigCmdFire master value => Sys2Proof.Machine.execTrigCmdFire master value s
  | .trigClearOut master value => Sys2Proof.Machine.execTrigClearOut master value s
  | .trigOutEnd => Sys2Proof.Machine.execTrigOutEnd s
  | .trigRearm => Sys2Proof.Machine.execTrigRearm s
  | .traceEnable master value => Sys2Proof.Machine.execTraceEnable master value s
  | .traceFreeze => Sys2Proof.Machine.execTraceFreeze s
  | .cntFreeze master die value => Sys2Proof.Machine.execCntFreeze master die value s
  | .obsEnable master value => Sys2Proof.Machine.execObsEnable master value s
  | .tapIdcode => Sys2Proof.Machine.execTapIdcode s
  | .tapSamplePreload pins => Sys2Proof.Machine.execTapSamplePreload pins s
  | .tapExtest => Sys2Proof.Machine.execTapExtest s
  | .tapClamp => Sys2Proof.Machine.execTapClamp s
  | .tapHighz => Sys2Proof.Machine.execTapHighz s
  | .tapExtestPulse => Sys2Proof.Machine.execTapExtestPulse s
  | .tapExtestTrain => Sys2Proof.Machine.execTapExtestTrain s
  | .tapBypass => Sys2Proof.Machine.execTapBypass s
  | .tapReset low => Sys2Proof.Machine.execTapReset low s
  | .standbyGood => Sys2Proof.Machine.execStandbyGood s
  | .standbyLoss => Sys2Proof.Machine.execStandbyLoss s
  | .railsUp link0 link1 => Sys2Proof.Machine.execRailsUp link0 link1 s
  | .pcieConfigAccess port change => Sys2Proof.Machine.execPcieConfigAccess port change s
  | .aerCorrectableError port => Sys2Proof.Machine.execAerCorrectableError port s
  | .sbBadCommand frame => Sys2Proof.Machine.execSbBadCommand frame s
  | .dynamicAddressAssignment addr => Sys2Proof.Machine.execDynamicAddressAssignment addr s
  | .ibiAcknowledge => Sys2Proof.Machine.execIbiAcknowledge s
  | .obsSample loEvents hiEvents trigIn => Sys2Proof.Machine.execObsSample loEvents hiEvents trigIn s

end Sys2Proof.Machine
end

