-- ==== Sys2Proof/Safety.lean ====
section
/-! DEFINITION. What a safe state is, and how claims read a state and an outcome: registers, memory and cores as a command finds them, a next
state with a property, and what two states have in common. -/

namespace Sys2Proof.Machine

/-- Memory and the register file are in canonical form: equal contents are equal data. -/
def State.wellKept (s : State) : Bool := Mem.wf s.mem && Csr.wf s.csr

/-- The machine as a command finds it: what registers, memory and cores read as. -/
abbrev State.look (s : State) : Work := Work.start s

/-- An outcome that is a next state. -/
def answersNext (o : Host.Outcome State Fault Refusal) : Bool :=
  match o with
  | .next _ => true
  | _ => false

/-- The outcome is a next state with a property. -/
def goesTo (o : Host.Outcome State Fault Refusal) (p : State → Prop) : Prop := ∃ t, o = .next t ∧ p t

/-- The next state that a piece of work on s leaves: what the work has written, and nothing else, differs from s. -/
def done (s : State) (w : Work) : Host.Outcome State Fault Refusal := .next (Work.commit s w)

/-- Every byte of memory outside `a` reads as before. -/
def sameBytesBut (a : Nat → Prop) (s t : State) : Prop := ∀ x, ¬ a x → t.look.rdB x = s.look.rdB x

/-- Every byte of memory reads as before. -/
def sameBytes (s t : State) : Prop := ∀ x, t.look.rdB x = s.look.rdB x

/-- Every register word outside a list reads as before. -/
def sameWordsBut (l : List Nat) (s t : State) : Prop := ∀ x, x ∉ l → t.look.r32 x = s.look.r32 x

/-- Every register word reads as before. -/
def sameWords (s t : State) : Prop := ∀ x, t.look.r32 x = s.look.r32 x

/-- Every core slot but one is as before. -/
def sameCoresBut (c : Nat) (s t : State) : Prop := ∀ x, x ≠ c → t.look.core x = s.look.core x

/-- Only core slot c has changed: registers, memory, every other core and everything else are as before. -/
def onlyCore (c : Nat) (s t : State) : Prop :=
  sameBytes s t ∧ sameWords s t ∧ sameCoresBut c s t ∧ t.hw = { s.hw with cores := t.hw.cores } ∧ t.pending = s.pending

/-- Only the register words of a list have changed: memory and everything else are as before. -/
def onlyWords (l : List Nat) (s t : State) : Prop :=
  sameBytes s t ∧ sameWordsBut l s t ∧ t.hw = s.hw ∧ t.pending = s.pending

/-- Core slot c, and nothing else, has changed, and it is now k. -/
def coreBecomes (c : Nat) (s t : State) (k : Core) : Prop := onlyCore c s t ∧ t.look.core c = k

/-- The always-on plane runs, the control core of slot c runs, and the instruction at its program counter is one of `row`'s. -/
def atInsn (c : Nat) (row : Nat → Bool) (s : State) : Prop :=
  s.powered = true ∧ s.look.ctlRuns c = true ∧ row (s.look.insn c) = true

end Sys2Proof.Machine
end

