-- ==== Sys2Proof/Certificates/Slice0/Obligations.lean ====
section
/-! DEFINITION. The statements about the model, for the provers. -/

section Statements

open Sys2Proof Sys2Proof.Machine

/-- A step performs the command at the front of the queue on the machine with the queue's rest, whatever waits behind it. -/
def Obligations.StepTakesTheFront : Prop :=
  (∀ (c : Instr) (s : State), step { s with pending := c :: s.pending } = exec c s) ∧
  ∀ (c : Instr) (rest : List Instr) (s : State), s.pending = c :: rest → step s = exec c { s with pending := rest }

/-- No command ends in a fault or a refusal, and none touches the queue: each answers a next state with the queue it was given. -/
def Obligations.CommandsAnswerAndKeepTheQueue : Prop := ∀ (c : Instr) (s : State), goesTo (exec c s) fun t => t.pending = s.pending

/-- Memory and the register file keep their canonical form through every step, whatever is commanded: from every state that has it, a step answers a
next state that has it. -/
def Obligations.EveryStepKeepsTheForm : Prop := ∀ s : State, s.wellKept = true → goesTo (step s) fun t => t.wellKept = true

/-- The state after reset: no command waits, memory and registers are in canonical form, every register word reads its reset value (R15), the refresh
interval is 780 (R291), a port's BAR2 is 16 GiB (R616), no sync object and no general register holds anything but zero. -/
def Obligations.ResetState : Prop :=
  State.reset.pending = [] ∧ State.reset.wellKept = true ∧ (∀ a, State.reset.look.r32 a = csrReset a) ∧
  (∀ r : RegionIx, State.reset.look.fld (Reg.MEM_REF_CFG r) Fld.MEM_REF_CFG_TREFI = 780) ∧
  (∀ h, (State.reset.look.pciPort h).bar2 = 34) ∧ (∀ (c : CoreIx) (i : Fin 1024), State.reset.look.r64 (Reg.SYN_OBJ c i) = 0) ∧
  ∀ (c : CoreIx) d, (State.reset.look.core c).g d = 0

/-- On an empty queue one MGMT cycle passes (log entry 5, a choice of the model): without standby power and MGMT nothing changes; with the domains
stopped only the times advance; with them running the units take their ticks. Nothing but the supplies and the test access port acts while the
always-on plane does not run (R571, R657): every other command leaves the machine as it is. -/
def Obligations.WithoutCommandsOrPower : Prop :=
  (∀ s : State, let w := s.look
    let later : Work := { w with hw := { w.hw with uptime := w.hw.uptime + 1, rootEighths := w.hw.rootEighths + w.coreEighths } }
    s.pending = [] →
    (s.powered = false → step s = .next s) ∧
    (s.powered = true ∧ w.clocked = false → step s =
      .next { s with hw := { s.hw with uptime := s.hw.uptime + 1, rootEighths := s.hw.rootEighths + w.coreEighths } }) ∧
    (s.powered = true ∧ w.clocked = true → step s = done s (later.clockedTick w))) ∧
  (∀ (c : Instr) (s : State), s.powered = false →
    match c with
    | .standbyGood => True | .standbyLoss => True | .mgmtReturn .. => True | .tapIdcode => True | .tapSamplePreload _ => True | .tapExtest => True
    | .tapClamp => True | .tapHighz => True | .tapExtestPulse => True | .tapExtestTrain => True | .tapBypass => True | .tapReset _ => True
    | c => exec c s = .next s)

/-- Integer instructions, branches and jumps (R76): each answers the state in which the destination and the program counter of its core are as the
rule says, and nothing else has changed; a write to g0 is discarded (R74). -/
def Obligations.CtlIntegerResults : Prop :=
  ∀ (c : CoreIx) (s : State), let k := s.look.core c; let i := s.look.insn c
    (atInsn c isAluReg s → goesTo (exec (.aluReg c) s) fun t =>
      coreBecomes c s t { k.setG (insD i) (aluReg (insFnA i) (k.g (insA i)) (k.g (insB i))) with pc := k.pc + 4 }) ∧
    (atInsn c isAluImm s → goesTo (exec (.aluImm c) s) fun t =>
      coreBecomes c s t { k.setG (insD i) (aluImm (insFnB i) (k.g (insA i)) (insImm12 i)) with pc := k.pc + 4 }) ∧
    (atInsn c isLhi s → goesTo (exec (.lhi c) s) fun t =>
      coreBecomes c s t { k.setG (insD i) (insImm20 i <<< 12) with pc := k.pc + 4 }) ∧
    (atInsn c isBranch s → goesTo (exec (.branch c) s) fun t =>
      coreBecomes c s t { k with pc := if branchTaken (insFnB i) (k.g (insD i)) (k.g (insA i)) then pcPlus k.pc (insImm12 i) else k.pc + 4 }) ∧
    (atInsn c isCall s → goesTo (exec (.call c) s) fun t =>
      coreBecomes c s t { k.setG 1 (linkWord k.pc) with pc := pcPlus k.pc (insImm20 i) }) ∧
    (atInsn c isJmp s → goesTo (exec (.jmp c) s) fun t => coreBecomes c s t { k with pc := pcPlus k.pc (insImm20 i) }) ∧
    (atInsn c isJmpr s → goesTo (exec (.jmpr c) s) fun t =>
      coreBecomes c s t { k.setG (insD i) (linkWord k.pc) with
        pc := BitVec.ofNat 24 ((k.g (insA i) + insImm12 i).toNat / 4 * 4) }) ∧
    (atInsn c (isSpecial 0) s → goesTo (exec (.ctlNop c) s) fun t => coreBecomes c s t { k with pc := k.pc + 4 })

/-- Loads and stores of a control core (R76): the access goes out under the context placed on the core, with the address aligned to its size, and the
control core holds its next instruction; an access that must wait for an installation of its own (R55) leaves the instruction where it is. An
access to the direct window is the bus's at once; any other waits for translation. The reply to a load or store (R76, R78): a load fills its
register, the control core goes on behind the instruction; a reply that carries an error leaves the control core stopped at the instruction, and
the error is a fault of the core's. Scratchpad loads and stores (R76): the offset is taken modulo 2²⁴ and aligned down to the size; a store
changes the bytes it names and no others. -/
def Obligations.CtlMemoryAccess : Prop :=
  (∀ (c : CoreIx) (s : State), let w := s.look; let k := w.core c; let i := w.insn c; let a := w.memOperand c i; let n := s.hw.nextReq
    let size := 2 ^ insFnB i
    let held := w.accessHeld (.cell c 0) w.selfNode a
    let request (op : ReqOp) : Req :=
      { Req.make (.ctl c) op (w.placedCtx c) w.selfNode a s.hw.uptime 0 (SMap.get 0 s.hw.genCore c) with off := insD i }
    let store : ReqOp := .write ((leBytes size (k.g (insD i)).toNat).map some)
    let issued (op : ReqOp) (t : State) : Prop :=
      sameBytes s t ∧ sameWordsBut [Reg.MEM_POOL_STAT (coreRegion c)] s t ∧ sameCoresBut c s t ∧ t.pending = s.pending ∧
        t.look.core c = { k with stall := .access n } ∧
        t.hw = { s.hw with cores := t.hw.cores, nextReq := n + 1, reqs := SMap.put s.hw.reqs n (request op) }
    (atInsn c isMemLoad s ∧ held = false ∧ directDpa a = none → goesTo (exec (.memLoad c) s) (issued (.read size))) ∧
    (atInsn c isMemStore s ∧ held = false ∧ directDpa a = none → goesTo (exec (.memStore c) s) (issued store)) ∧
    (∀ d, atInsn c isMemLoad s ∧ held = false ∧ directDpa a = some d →
      exec (.memLoad c) s = done s (((w.addReq (request (.read size))).2.busRoute n (request (.read size)) d).setStall c (.access n))) ∧
    (∀ d, atInsn c isMemStore s ∧ held = false ∧ directDpa a = some d →
      exec (.memStore c) s = done s (((w.addReq (request store)).2.busRoute n (request store) d).setStall c (.access n))) ∧
    (atInsn c isMemLoad s ∧ held = true → exec (.memLoad c) s = .next s) ∧
    (atInsn c isMemStore s ∧ held = true → exec (.memStore c) s = .next s)) ∧
  (∀ (c : CoreIx) (s : State) (n : Nat) (q : Req), let k := s.look.core c
    s.powered = true ∧ k.stall = .access n ∧ s.look.req? n = some q ∧ q.stage = .replied ∧ s.look.coreUp c = true →
    (q.bad = .ok → goesTo (exec (.memAccessReply c) s) fun t =>
      sameBytes s t ∧ sameWords s t ∧ sameCoresBut c s t ∧ t.pending = s.pending ∧
        t.hw = { s.hw with cores := t.hw.cores, reqs := SMap.del s.hw.reqs n } ∧
        t.look.core c = { (match q.op with | .read m => k.setG q.off (BitVec.ofNat 64 (q.number m)) | _ => k) with
          stall := .none, pc := k.pc + 4 }) ∧
    (q.bad ≠ .ok → exec (.memAccessReply c) s =
      done s (((s.look.dropReq n).setStall c .faulted).reqFault q q.bad.kind k.pc.toNat))) ∧
  (∀ (c : CoreIx) (s : State), let k := s.look.core c; let i := s.look.insn c
    let size := 2 ^ insFnB i
    let off := (k.g (insA i) + insImm12 i).toNat % 2 ^ 24 / size * size
    (atInsn c isSpmLoad s → goesTo (exec (.scratchpadLoad c) s) fun t =>
      coreBecomes c s t { k.setG (insD i) (BitVec.ofNat 64 (s.look.spmLE c off size)) with pc := k.pc + 4 }) ∧
    (atInsn c isSpmStore s → goesTo (exec (.scratchpadStore c) s) fun t =>
      sameBytesBut (fun x => spmAt c off ≤ x ∧ x < spmAt c off + size) s t ∧
        (∀ j, j < size → t.look.rdB (spmAt c off + j) = (leBytes size (k.g (insD i)).toNat).getD j 0) ∧
        sameWords s t ∧ sameCoresBut c s t ∧ t.pending = s.pending ∧ t.look.core c = { k with pc := k.pc + 4 } ∧
        t.hw = { s.hw with cores := t.hw.cores, wild := t.hw.wild }))

/-- SRD copies a special register into g[D], and SWR copies g[A] into one: only SEED takes a write, no other does, and indices 9 to 31 read as zero
(R79). An access to SEED waits for the vector chain to drain, and a zero written to it is replaced by the reset state (R136). -/
def Obligations.CtlSpecialRegisters : Prop :=
  ∀ (c : CoreIx) (s : State), let w := s.look; let k := w.core c; let i := w.insn c
    let waits := decide (insB i = 8) && !w.vecDrained c
    let seeded (v : DWord) (k' : Core) (t : State) : Prop :=
      sameBytes s t ∧ sameWords s t ∧ sameCoresBut c s t ∧ t.pending = s.pending ∧ t.look.core c = k' ∧
        t.hw = { s.hw with cores := t.hw.cores, seeds := SMap.set Seed.reset s.hw.seeds c ⟨if v = 0 then Seed.reset.state else v, []⟩ }
    let resumes := s.powered = true ∧ w.coreUp c = true ∧ k.stall = .seed ∧ w.vecDrained c = true
    (atInsn c (isSpecial 1) s ∧ waits = false → goesTo (exec (.srd c) s) fun t =>
      coreBecomes c s t { k.setG (insD i) (w.special c (insB i)) with pc := k.pc + 4 }) ∧
    (atInsn c (isSpecial 1) s ∧ waits = true → goesTo (exec (.srd c) s) fun t => coreBecomes c s t { k with stall := .seed }) ∧
    (atInsn c (isSpecial 2) s ∧ insB i ≠ 8 → goesTo (exec (.swr c) s) fun t => coreBecomes c s t { k with pc := k.pc + 4 }) ∧
    (atInsn c (isSpecial 2) s ∧ insB i = 8 ∧ w.vecDrained c = true → goesTo (exec (.swr c) s) (seeded (k.g (insA i)) { k with pc := k.pc + 4 })) ∧
    (atInsn c (isSpecial 2) s ∧ waits = true → goesTo (exec (.swr c) s) fun t => coreBecomes c s t { k with stall := .seed }) ∧
    (resumes ∧ isSpecial 1 i = true → goesTo (exec (.seedAccessResume c) s) fun t =>
      coreBecomes c s t { k.setG (insD i) (w.special c (insB i)) with stall := .none, pc := k.pc + 4 }) ∧
    (resumes ∧ isSpecial 2 i = true ∧ insB i = 8 → goesTo (exec (.seedAccessResume c) s)
      (seeded (k.g (insA i)) { k with stall := .none, pc := k.pc + 4 })) ∧
    w.special c 0 = BitVec.ofNat 64 (coreGlobal c) ∧ w.special c 1 = BitVec.ofNat 64 (coreRegion c * 256 + w.physOf c) ∧
    w.special c 2 = BitVec.ofNat 64 (w.fld (Reg.CORE_CTX c) Fld.CORE_CTX_CTX) ∧ w.special c 3 = BitVec.ofNat 64 w.selfNode ∧
    w.special c 4 = BitVec.ofNat 64 (w.coreCycles - SMap.get 0 s.hw.cycleStart c) ∧
    w.special c 5 = BitVec.ofNat 64 (SMap.get 0 s.hw.genCore c) ∧ w.special c 6 = BitVec.ofNat 64 (coreWindow c) ∧
    w.special c 7 = BitVec.ofNat 64 (0x100000000000 + coreGlobal c * 0x1000000) ∧ w.special c 8 = (w.seed c).state ∧
    ∀ x, 9 ≤ x → w.special c x = 0

/-- Command assembly (R82, R85): CWR writes a word, CWF a field whose width ends at the word's end, CLD all sixteen words, CQST reads a queue; a
clamped field is counted (R67). -/
def Obligations.CtlCommandAssembly : Prop :=
  ∀ (c : CoreIx) (s : State), let w := s.look; let k := w.core c; let i := w.insn c; let n := insCab i; let old := SMap.get 0 k.cabs n
    let e := min (insEng i) 4
    let assembled (v : CmdBits) : Core := { k with cabs := SMap.set 0 k.cabs n v, pc := k.pc + 4 }
    let field := cmdSet old (insWord i) (insLsb i) (min (insWidth i) (31 - insLsb i) + 1) (k.g (insGA i)).toNat
    let status : DWord := BitVec.ofNat 64 (64 - (w.engine c e).queue.length + w.doneCount c e * 2 ^ 16 +
      w.fld (Reg.CORE_QTAG c e) Fld.CORE_QTAG_DONE_TAG * 2 ^ 32)
    (atInsn c (isQueue 0) s → goesTo (exec (.cwr c) s) fun t =>
      coreBecomes c s t (assembled (cmdSet old (insWord i) 0 32 (k.g (insGA i)).toNat))) ∧
    (atInsn c (isQueue 1) s ∧ insWidth i ≤ 31 - insLsb i → goesTo (exec (.cwf c) s) fun t => coreBecomes c s t (assembled field)) ∧
    (atInsn c (isQueue 1) s ∧ 31 - insLsb i < insWidth i →
      goesTo (exec (.cwf c) s) fun t => sameBytes s t ∧ sameCoresBut c s t ∧ t.hw = { s.hw with cores := t.hw.cores } ∧
        t.pending = s.pending ∧ t.look.core c = assembled field ∧ ∀ a, t.look.r32 a = (w.clampIns c 26 .joined).r32 a) ∧
    (atInsn c (isQueue 2) s → goesTo (exec (.cld c) s) fun t =>
      coreBecomes c s t (assembled (BitVec.ofNat 512 (w.spmLE c ((k.g (insGA i)).toNat % 2 ^ 24 / 64 * 64) 64)))) ∧
    (atInsn c (isQueue 4) s ∧ insEng i ≤ 4 → goesTo (exec (.cqst c) s) fun t =>
      coreBecomes c s t { k.setG (insGA i) status with pc := k.pc + 4 }) ∧
    (atInsn c (isQueue 4) s ∧ 4 < insEng i → goesTo (exec (.cqst c) s) fun t =>
      sameBytes s t ∧ sameCoresBut c s t ∧ t.hw = { s.hw with cores := t.hw.cores } ∧ t.pending = s.pending ∧
        t.look.core c = { k.setG (insGA i) status with pc := k.pc + 4 } ∧ ∀ a, t.look.r32 a = (w.clampIns c 17 .range).r32 a)

/-- CPUSH, CPUSHM and CWAIT (R72, R83–R85): a push puts the command behind those that wait, with the context placed on the core, and ends a chain
boundary; it stalls while the queue is full, or while an installation of the core's own is in progress (R226), and goes on once neither holds;
CWAIT holds the control core until DONE has reached the value. An engine number above 4 takes 4 and is counted as a clamp at the word of the
instruction (R64, R67, R81). CBND (R110): it holds the control core until everything pushed has completed; then the control core goes on behind
the instruction, and when every link is idle and both banks are empty the core stands at a chain boundary. Whether the scheduler then switches
the core is its own rule. -/
def Obligations.CtlQueueInstructions : Prop :=
  (∀ (c : CoreIx) (s : State), let w := s.look; let k := w.core c; let i := w.insn c; let e := min (insEng i) 4
    let cab := SMap.get 0 k.cabs (insCab i)
    let off := (k.g (insGA i)).toNat % 2 ^ 24 / 64 * 64
    let behind (x : QEntry) : Core := { k.setEngine e { k.engine e with queue := (k.engine e).queue ++ [x] } with
      boundary := false, stall := .none, pc := k.pc + 4 }
    let pushed : Core := { behind ⟨cab, none, w.placedCtx c, false⟩ with
      cabs := if insInc i then SMap.set 0 k.cabs (insCab i) (cmdSet cab 1 0 16 (cmdTag cab + 1)) else k.cabs }
    let pushedM : Core := behind ⟨BitVec.ofNat 512 (w.spmLE c off 64), some (spmAt c off), w.placedCtx c, false⟩
    let room := insEng i ≤ 4 ∧ w.pushWaits c e = false
    let stalled := s.powered = true ∧ w.coreUp c = true ∧ k.stall = .push e ∧ w.pushWaits c e = false
    let value := (k.g (insGA i)).toNat % 65536
    (atInsn c (isQueue 3) s ∧ room ∧ (k.engine e).queue ≠ [] → goesTo (exec (.cpush c) s) fun t => coreBecomes c s t pushed) ∧
    (atInsn c (isQueue 3) s ∧ room ∧ (k.engine e).queue = [] → exec (.cpush c) s = done s (w.doPush c i)) ∧
    (atInsn c (isQueue 7) s ∧ room ∧ (k.engine e).queue ≠ [] → goesTo (exec (.cpushm c) s) fun t => coreBecomes c s t pushedM) ∧
    (atInsn c (isQueue 7) s ∧ room ∧ (k.engine e).queue = [] → exec (.cpushm c) s = done s (w.doPush c i)) ∧
    (atInsn c (isQueue 3) s ∧ insEng i ≤ 4 ∧ w.pushWaits c e = true →
      goesTo (exec (.cpush c) s) fun t => coreBecomes c s t { k with stall := .push e }) ∧
    (atInsn c (isQueue 7) s ∧ insEng i ≤ 4 ∧ w.pushWaits c e = true →
      goesTo (exec (.cpushm c) s) fun t => coreBecomes c s t { k with stall := .push e }) ∧
    (stalled ∧ isQueue 3 i = true ∧ (k.engine e).queue ≠ [] → goesTo (exec (.cpushUnstall c) s) fun t => coreBecomes c s t pushed) ∧
    (stalled ∧ isQueue 7 i = true ∧ (k.engine e).queue ≠ [] → goesTo (exec (.cpushUnstall c) s) fun t => coreBecomes c s t pushedM) ∧
    (atInsn c (isQueue 5) s ∧ insEng i ≤ 4 ∧ hasReached (w.doneCount c e) value = true →
      goesTo (exec (.cwait c) s) fun t => coreBecomes c s t { k with pc := k.pc + 4 }) ∧
    (atInsn c (isQueue 5) s ∧ insEng i ≤ 4 ∧ hasReached (w.doneCount c e) value = false →
      goesTo (exec (.cwait c) s) fun t => coreBecomes c s t { k with stall := .wait e value }) ∧
    (∀ e' v, s.powered = true ∧ w.coreUp c = true ∧ k.stall = .wait e' v ∧ hasReached (w.doneCount c e') v = true →
      goesTo (exec (.cwaitRelease c) s) fun t => coreBecomes c s t { k with stall := .none, pc := k.pc + 4 })) ∧
  (∀ (c : CoreIx) (s : State), let w := s.look; let i := w.insn c; let counted := w.clampIns c 17 .range
    4 < insEng i →
    (atInsn c (isQueue 3) s → exec (.cpush c) s =
      done s (if w.pushWaits c 4 then counted.setStall c (.push 4) else counted.doPush c i)) ∧
    (atInsn c (isQueue 7) s → exec (.cpushm c) s =
      done s (if w.pushWaits c 4 then counted.setStall c (.push 4) else counted.doPush c i)) ∧
    (atInsn c (isQueue 5) s → exec (.cwait c) s = done s (
      if hasReached (counted.doneCount c 4) ((w.g c (insGA i)).toNat % 65536) then counted.nextPc c
      else counted.setStall c (.wait 4 ((w.g c (insGA i)).toNat % 65536))))) ∧
  (∀ (c : CoreIx) (s : State), let w := s.look; let k := w.core c
    let atBoundary := done s ((((w.updCore c fun k => { k with boundary := true }).setStall c .none).nextPc c).atBoundary c)
    let goesOn (t : State) : Prop := coreBecomes c s t { k with stall := .none, pc := k.pc + 4 }
    let completes := s.powered = true ∧ w.coreUp c = true ∧ k.stall = .boundary ∧ k.drained = true
    (atInsn c (isQueue 6) s ∧ k.drained = true ∧ k.handoverIdle = true → exec (.cbnd c) s = atBoundary) ∧
    (atInsn c (isQueue 6) s ∧ k.drained = true ∧ k.handoverIdle = false → goesTo (exec (.cbnd c) s) goesOn) ∧
    (atInsn c (isQueue 6) s ∧ k.drained = false → goesTo (exec (.cbnd c) s) fun t => coreBecomes c s t { k with stall := .boundary }) ∧
    (completes ∧ k.handoverIdle = true → exec (.cbndComplete c) s = atBoundary) ∧
    (completes ∧ k.handoverIdle = false → goesTo (exec (.cbndComplete c) s) goesOn))

/-- A count has reached a value under R84 when their difference modulo 65,536 is less than 32,768; a CWAIT goes on exactly then, and a command's
dependency is met exactly then. -/
def Obligations.CountHasReached : Prop :=
  (∀ count v : Nat, hasReached count v = true ↔ ((count : Int) - v) % 65536 < 32768) ∧
  (∀ (c : CoreIx) (s : State), let w := s.look; let i := w.insn c; let e := insEng i; let v := (w.g c (insGA i)).toNat % 65536
    let reached := ((w.doneCount c e : Int) - v) % 65536 < 32768
    atInsn c (isQueue 5) s ∧ e ≤ 4 →
    (reached → goesTo (exec (.cwait c) s) fun t => coreBecomes c s t { w.core c with pc := (w.core c).pc + 4 }) ∧
    (¬ reached → goesTo (exec (.cwait c) s) fun t => coreBecomes c s t { w.core c with stall := .wait e v })) ∧
  ∀ (w : Work) (c : CoreIx) (cmd : CmdBits), cmdDepEn cmd = true ∧ cmdDepEng cmd ≤ 4 →
    (w.depMet c cmd = true ↔ ((w.doneCount c (cmdDepEng cmd) : Int) - cmdDepCount cmd) % 65536 < 32768)

/-- HALT and RESUME (R114): a halt leaves a core that is halted already as it is; a resume ends any halt, clears CORE_BRK_STAT and releases the
commands that a break held. Arming the breaks (R111, R112, R115): the count starts at zero, and with no command at the head of a queue nothing is
hit; a command that is at the head already and meets the break halts the core at once, with the engine and the tag in CORE_BRK_STAT. BRK (R113):
the core halts behind the instruction, with HIT set, no cause, and both breaks off. A link configuration that was written takes effect once the
link is idle (R109), and a region swaps its spare in for a core whose physical core is disabled (R117, R118): the swapped-in scratchpad holds
bytes nobody knows; while a context is placed there the core is asked for first (R374). -/
def Obligations.CoreHaltsBreaksAndLinks : Prop :=
  (∀ (m : Master) (c : CoreIx) (s : State), let w := s.look; let k := w.core c
    let reaches := s.powered = true ∧ w.regTakes (Reg.CORE_RUN c) = true ∧ w.installHolds m (coreRegion c) = false
    (reaches ∧ k.halt = .none → goesTo (exec (.coreHalt m c) s) fun t => coreBecomes c s t { k with halt := .run }) ∧
    (reaches ∧ k.halt ≠ .none → exec (.coreHalt m c) s = .next s) ∧
    (reaches ∧ k.halt ≠ .none → goesTo (exec (.coreResume m c) s) fun t => let k' := t.look.core c
      sameBytes s t ∧ sameWordsBut [Reg.CORE_BRK_STAT c] s t ∧ sameCoresBut c s t ∧ t.hw = { s.hw with cores := t.hw.cores } ∧
        t.pending = s.pending ∧ t.look.r32 (Reg.CORE_BRK_STAT c) = 0 ∧ k'.halt = .none ∧ k'.pc = k.pc ∧ k'.regs = k.regs ∧ k'.stall = k.stall ∧
        ∀ e, (k'.engine e).running = (k.engine e).running ∧
          (k'.engine e).queue = (k.engine e).queue.map fun q => { q with held := false }) ∧
    (reaches ∧ k.halt = .none → exec (.coreResume m c) s = .next s)) ∧
  (∀ (m : Master) (c : CoreIx) (value : Word) (s : State), let w := s.look; let k := w.core c
    let reaches := s.powered = true ∧ w.regTakes (Reg.CORE_BRK_CTRL c) = true ∧ w.installHolds m (coreRegion c) = false
    let idle := ∀ e : Fin 5, (k.engine e).queue = []
    (reaches ∧ idle ∧ value.getLsbD 0 = true → goesTo (exec (.brkArmCount m c value) s) fun t =>
      t.look.r32 (Reg.CORE_BRK_SEEN c) = 0 ∧ t.look.flag (Reg.CORE_BRK_CTRL c) Fld.CORE_BRK_CTRL_EN_COUNT = true ∧
        sameBytes s t ∧ t.hw = s.hw ∧ t.pending = s.pending) ∧
    (reaches ∧ idle ∧ value.getLsbD 1 = true → goesTo (exec (.brkArmTag m c value) s) fun t =>
      t.look.flag (Reg.CORE_BRK_CTRL c) Fld.CORE_BRK_CTRL_EN_TAG = true ∧ sameBytes s t ∧ t.hw = s.hw ∧ t.pending = s.pending) ∧
    (∀ (e : Fin 5) (q : QEntry) (rest : List QEntry), reaches ∧ (k.engine e).queue = q :: rest ∧ (∀ f : Fin 5, f ≠ e → (k.engine f).queue = []) ∧
        value = BitVec.ofNat 32 (1 + 4 * e.val) ∧ w.r32 (Reg.CORE_BRK_COUNT c) = 1 → goesTo (exec (.brkArmCount m c value) s) fun t =>
      (t.look.core c).halt = .brk ∧ t.look.r32 (Reg.CORE_BRK_STAT c) = BitVec.ofNat 32 (3 + e.val * 8 + cmdTag q.cmd * 65536) ∧
        t.look.r32 (Reg.CORE_BRK_SEEN c) = 1 ∧ t.look.flag (Reg.CORE_BRK_CTRL c) Fld.CORE_BRK_CTRL_EN_COUNT = false ∧
        ((t.look.core c).engine e).queue = { q with held := true } :: rest ∧ (t.look.core c).pc = k.pc ∧ sameBytes s t ∧ sameCoresBut c s t) ∧
    (∀ (e : Fin 5) (q : QEntry) (rest : List QEntry), reaches ∧ (k.engine e).queue = q :: rest ∧ (∀ f : Fin 5, f ≠ e → (k.engine f).queue = []) ∧
        value = BitVec.ofNat 32 (2 + 4 * e.val) ∧
        (cmdTag q.cmd ^^^ w.fld (Reg.CORE_BRK_TAG c) Fld.CORE_BRK_TAG_TAG) &&& w.fld (Reg.CORE_BRK_TAG c) Fld.CORE_BRK_TAG_MASK = 0 →
      goesTo (exec (.brkArmTag m c value) s) fun t =>
        (t.look.core c).halt = .brk ∧ t.look.r32 (Reg.CORE_BRK_STAT c) = BitVec.ofNat 32 (5 + e.val * 8 + cmdTag q.cmd * 65536) ∧
          t.look.flag (Reg.CORE_BRK_CTRL c) Fld.CORE_BRK_CTRL_EN_TAG = false ∧
          ((t.look.core c).engine e).queue = { q with held := true } :: rest ∧ (t.look.core c).pc = k.pc ∧ sameBytes s t ∧ sameCoresBut c s t)) ∧
  (∀ (c : CoreIx) (s : State), let w := s.look; let k := w.core c
    (atInsn c (isSpecial 3) s → goesTo (exec (.brk c) s) fun t =>
      sameBytes s t ∧ sameWordsBut [Reg.CORE_BRK_CTRL c, Reg.CORE_BRK_STAT c] s t ∧ sameCoresBut c s t ∧ t.pending = s.pending ∧
        t.look.core c = { k with pc := k.pc + 4, halt := .brk } ∧ t.look.r32 (Reg.CORE_BRK_STAT c) = 1 ∧
        t.look.r32 (Reg.CORE_BRK_CTRL c) = BitVec.ofNat 32 (setBits (setBits (w.r32 (Reg.CORE_BRK_CTRL c)).toNat 0 1 0) 1 1 0) ∧
        t.hw = { s.hw with cores := t.hw.cores, dbgBreak := true })) ∧
  ((∀ (c : CoreIx) (i : Fin 15) (s : State) (v : BitVec 64), let w := s.look; let k := w.core c; let a := Reg.CORE_LINK_CFG c i
    s.powered = true ∧ w.clocked = true ∧ (k.link i).pending = some v ∧ k.linkIdle i = true → goesTo (exec (.linkCfgApply c i) s) fun t =>
      t.look.core c = k.setLink i { k.link i with pending := none } ∧ t.look.r64 a = v ∧ sameBytes s t ∧ sameWordsBut [a, a + 4] s t ∧
        sameCoresBut c s t ∧ t.hw = { s.hw with cores := t.hw.cores } ∧ t.pending = s.pending) ∧
  ∀ (r : RegionIx) (slot : Fin 16) (s : State), let w := s.look; let c := 17 * r.val + slot.val; let pend := Reg.SCH_CORE (coreGlobal c)
    let may := s.powered = true ∧ SMap.get 0 s.hw.spareIn r = 0 ∧ w.physDisabled r slot = true ∧ w.physDisabled r 16 = false
    (may ∧ w.placedCtx c = none → goesTo (exec (.spareSwap r slot) s) fun t =>
      SMap.get 0 t.hw.spareIn r = slot.val + 1 ∧ t.look.physOf c = 16 ∧ sameWords s t ∧
        sameBytesBut (fun a => spmBase c ≤ a ∧ a < spmBase c + 2 ^ 24) s t ∧ (∀ x, t.look.core x = w.core x) ∧ t.pending = s.pending) ∧
    (∀ x, may ∧ w.placedCtx c = some x → goesTo (exec (.spareSwap r slot) s) fun t =>
      t.look.flag pend Fld.SCH_CORE_PENDING = true ∧ onlyWords [pend] s t))

/-- An engine issues the command at the head of its queue (R83, R87, R90): its fields are clamped, it joins the commands the engine runs, ISSUED and
ISSUED_TAG follow; the control core, the other engines and every other core are as they were. -/
def Obligations.EngineIssuesHead : Prop :=
  ∀ (c : CoreIx) (e : EngIx) (s : State) (q : QEntry) (rest : List QEntry), let w := s.look; let k := w.core c
    let cmd := (clampCmd w c e q).2
    s.powered = true ∧ (k.engine e).queue = q :: rest ∧ w.coreRuns c = true ∧ q.held = false ∧ w.depMet c q.cmd = true ∧ w.engineFree c e = true →
    goesTo (exec (.commandIssue c e) s) fun t => let k' := t.look.core c
      (k'.engine e).running = (k.engine e).running ++ [{ Running.fresh cmd q.ctx with src := q.src, ready := !readsFirst e cmd }] ∧
      (k'.engine e).queue.map QEntry.cmd = rest.map QEntry.cmd ∧
      t.look.fld (Reg.CORE_QCNT c e) Fld.CORE_QCNT_ISSUED = (w.fld (Reg.CORE_QCNT c e) Fld.CORE_QCNT_ISSUED + 1) % 65536 ∧
      t.look.fld (Reg.CORE_QCNT c e) Fld.CORE_QCNT_DONE = w.fld (Reg.CORE_QCNT c e) Fld.CORE_QCNT_DONE ∧
      t.look.fld (Reg.CORE_QTAG c e) Fld.CORE_QTAG_ISSUED_TAG = cmdTag cmd ∧
      sameBytes s t ∧ sameCoresBut c s t ∧ t.pending = s.pending ∧
      k'.pc = k.pc ∧ k'.regs = k.regs ∧ k'.cabs = k.cabs ∧ k'.stall = k.stall ∧ k'.links = k.links ∧ k'.mtx = k.mtx ∧
      ∀ e', e' ≠ e.val → k'.engine e' = k.engine e'

/-- A repeat starts (R106, R107): it takes the half of its input link that CONS names and the half of its output link that PROD names, a VEC repeat
with ACCIN takes the oldest closed bank, and the pointers move on; nothing but the core changes. A half is marked full when the last write of the
repeat that fills it is visible, and empty when the last read of the repeat that drains it has returned (R106); the other half and the other
links stay. The oldest command of an engine completes (R90): DONE counts it, DONE_TAG takes its tag, and without SIG nothing else changes but the
core; a NOP issues, does no work and completes (R91). -/
def Obligations.EngineRunsAndCompletes : Prop :=
  (∀ (c : CoreIx) (e : EngIx) (s : State) (r : Running), let w := s.look; let k := w.core c
    let i := cmdInLink r.cmd; let o := cmdOutLink r.cmd
    let bank := if takesBank e r.cmd then w.fullBank c else none
    s.powered = true ∧ w.repeatDue c e = some r ∧ w.halvesReady c r = true ∧ (takesBank e r.cmd = true → (w.fullBank c).isSome = true) →
    goesTo (exec (.repeatStart c e) s) fun t => let k' := t.look.core c
      onlyCore c s t ∧
      (k'.engine e).queue = (k.engine e).queue ∧
      (k'.engine e).running = (k.engine e).running.dropLast ++ [{ r with
        started := r.started + 1, pos := 0
        inHeld := r.inHeld ++ (if cmdInEn r.cmd then [(k.link i).cons] else [])
        outHeld := r.outHeld ++ (if cmdOutEn r.cmd then [(k.link o).prod] else [])
        bankHeld := r.bankHeld ++ bank.toList }] ∧
      (cmdInEn r.cmd = true → (k'.link i).cons = 1 - (k.link i).cons) ∧
      (cmdOutEn r.cmd = true → (k'.link o).prod = 1 - (k.link o).prod) ∧
      (∀ l, ¬ (cmdInEn r.cmd = true ∧ l = i) → ¬ (cmdOutEn r.cmd = true ∧ l = o) → k'.link l = k.link l) ∧
      (bank ≠ none → k'.mtx.closed = k.mtx.closed.drop 1) ∧ (bank = none → k'.mtx = k.mtx) ∧
      k'.pc = k.pc ∧ k'.regs = k.regs ∧ k'.stall = k.stall ∧ ∀ e', e' ≠ e.val → k'.engine e' = k.engine e') ∧
  (∀ (c : CoreIx) (e : EngIx) (s : State) (r : Running), let w := s.look; let k := w.core c
    let marked (link half : Nat) (full : Bool) (f : Running → Running) (t : State) : Prop := let k' := t.look.core c
      onlyCore c s t ∧ (k'.link link).isFull half = full ∧
        (∀ h, h < 2 → half < 2 → h ≠ half → (k'.link link).isFull h = (k.link link).isFull h) ∧
        (k'.link link).prod = (k.link link).prod ∧ (k'.link link).cons = (k.link link).cons ∧
        (∀ l, l ≠ link → k'.link l = k.link l) ∧ k'.pc = k.pc ∧ k'.regs = k.regs ∧ k'.mtx = k.mtx ∧
        (k'.engine e).queue = (k.engine e).queue ∧ (k'.engine e).running = (k.engine e).running.map (fun y => if y = r then f y else y) ∧
        ∀ e', e' ≠ e.val → k'.engine e' = k.engine e'
    (s.powered = true ∧ w.coreUp c = true ∧ (k.engine e).running.find? (fun r => !r.outHeld.isEmpty) = some r ∧ r.stopped = false ∧
        w.outDone c e r = true → goesTo (exec (.halfMarkFull c e) s) (marked (cmdOutLink r.cmd) (r.outHeld.headD 0) true fun y => { y with outHeld := y.outHeld.drop 1 })) ∧
    (s.powered = true ∧ w.coreUp c = true ∧ (k.engine e).running.find? (fun r => !r.inHeld.isEmpty) = some r ∧ r.stopped = false ∧
        inDone e r = true → goesTo (exec (.halfMarkEmpty c e) s) (marked (cmdInLink r.cmd) (r.inHeld.headD 0) false fun y => { y with inHeld := y.inHeld.drop 1 }))) ∧
  (∀ (c : CoreIx) (e : EngIx) (s : State), let w := s.look; let k := w.core c; let cnt := Reg.CORE_QCNT c e; let tags := Reg.CORE_QTAG c e
    let counted (tag : Nat) (rest : List Running) (t : State) : Prop :=
      t.look.fld cnt Fld.CORE_QCNT_DONE = (w.fld cnt Fld.CORE_QCNT_DONE + 1) % 65536 ∧ t.look.fld tags Fld.CORE_QTAG_DONE_TAG = tag ∧
        ((t.look.core c).engine e).running = rest ∧ (t.look.core c).pc = k.pc ∧ (t.look.core c).regs = k.regs ∧ t.pending = s.pending
    let quiet (r : Running) (t : State) : Prop := cmdSig r.cmd = false →
      sameBytes s t ∧ sameWordsBut [cnt, tags] s t ∧ sameCoresBut c s t ∧ ((t.look.core c).engine e).queue = (k.engine e).queue ∧
        t.look.fld cnt Fld.CORE_QCNT_ISSUED = w.fld cnt Fld.CORE_QCNT_ISSUED
    (∀ r rest, s.powered = true ∧ w.coreUp c = true ∧ (k.engine e).running = r :: rest ∧ r.stopped = false ∧ w.workDone c e r = true →
      goesTo (exec (.commandComplete c e) s) fun t => counted (cmdTag r.cmd) rest t ∧ quiet r t) ∧
    (∀ r rest, s.powered = true ∧ w.coreUp c = true ∧ (k.engine e).running = r :: rest ∧ r.stopped = false ∧ cmdOpcode r.cmd = 0 →
      goesTo (exec (.engineNop c e) s) fun t => counted (cmdTag r.cmd) rest t ∧ quiet r t) ∧
    (∀ q rest, s.powered = true ∧ w.coreRuns c = true ∧ (k.engine e).running = [] ∧ (k.engine e).queue = q :: rest ∧ q.held = false ∧
        w.depMet c q.cmd = true ∧ w.engineFree c e = true ∧ (assigned (opcodesOf e) (cmdOpcode q.cmd)).1 = 0 →
      goesTo (exec (.engineNop c e) s) fun t => counted (cmdTag (clampCmd w c e q).2) [] t ∧
        ((t.look.core c).engine e).queue.map QEntry.cmd = rest.map QEntry.cmd ∧
        t.look.fld cnt Fld.CORE_QCNT_ISSUED = (w.fld cnt Fld.CORE_QCNT_ISSUED + 1) % 65536))

/-- One K group of the command that sends groups (R140, R141, R156, R160, R163, R176): an element it covers takes the exact sum of its products and,
unless the group is the first under ZERO, of the element's old value, rounded once to FP32; the other bank keeps its elements; the last group
under CLOSE closes the open bank and opens the other (R162). The commands that enter groups (R99, R172, R189): GROUP_ENTER one, MMA and MVM those
the running repeat has left; an accumulator element found bad is the core's fault. -/
def Obligations.MtxGroups : Prop :=
  (∀ (c : CoreIx) (w : Work) (r : Running), w.mtxSender c = some r →
    let m := w.mtx c; let b := m.opened % 2; let w' := w.enterGroup c; let m' := w'.mtx c
    let replaces := mtxZero r.cmd && decide (r.pos = 0)
    let closes := decide (r.pos + 1 = mtxGroups r.cmd) && mtxClose r.cmd
    m.opened < 2 →
    (∀ i j, i < 128 → j < 128 → (m'.bank b).elem (128 * i + j) =
      match (if i < mtxRowsA r.cmd ∧ j < mtxColsB r.cmd then w.operandBFor c r i else none) with
      | some o => toFp32 (if replaces then w.groupSum c r r.pos i j o else (numOf ((m.bank b).elem (128 * i + j))).add (w.groupSum c r r.pos i j o))
      | none => if replaces then 0 else (m.bank b).elem (128 * i + j)) ∧
    (∀ i, (m'.bank (1 - b)).elem i = (m.bank (1 - b)).elem i) ∧
    (m'.bank b).state = (if closes then .closing else .empty) ∧ m'.opened = (if closes then 1 - b else b) ∧
    m'.closed = (if closes then m.closed ++ [b] else m.closed) ∧
    (w'.engine c 0).last.map Running.pos = some (r.pos + 1) ∧
    (w.frozen (coreRegion c) = false → w'.r64 (Reg.MTX_GROUPS c) = w.r64 (Reg.MTX_GROUPS c) + 1) ∧
    (∀ a, a ≠ Reg.MTX_GROUPS c → a ≠ Reg.MTX_GROUPS c + 4 → w'.r32 a = w.r32 a) ∧ (∀ a, w'.rdB a = w.rdB a) ∧
    (∀ x, x ≠ c.val → w'.core x = w.core x) ∧ (w'.core c).pc = (w.core c).pc ∧ (w'.core c).regs = (w.core c).regs ∧
    w'.hw = { w.hw with cores := w'.hw.cores }) ∧
  (∀ (c : CoreIx) (s : State) (r : Running), let w := s.look
    s.powered = true ∧ w.mtxSender c = some r →
    (cmdOpcode r.cmd = 1 ∨ cmdOpcode r.cmd = 2 → exec (.groupEnter c none) s = done s (w.enterGroup c)) ∧
    (∀ row : Fin 128, exec (.groupEnter c (some row)) s = done s (((w.setFlag (Reg.MTX_ERR_STAT c) Fld.MTX_ERR_STAT_ACC_LASTING true).w32
      (Reg.MTX_ERR_INFO c) (BitVec.ofNat 32 (((w.mtx c).bank (w.mtx c).opened).lastTag + (w.mtx c).opened * 2 ^ 16 + row.val * 2 ^ 17 + 2 ^ 24))).cellFault
        c 0x07 1 ((w.mtx c).bank (w.mtx c).opened).lastTag (w.placedCtx c) none 0)) ∧
    (cmdOpcode r.cmd = 1 → goesTo (exec (.mma c) s) fun t =>
      t = Work.commit s (w.enterGroups c (mtxGroups r.cmd - r.pos)) ∧ (t.look.engine c 0).last.map Running.pos = some (mtxGroups r.cmd)) ∧
    (cmdOpcode r.cmd = 2 → goesTo (exec (.mvm c) s) fun t =>
      t = Work.commit s (w.enterGroups c (mtxGroups r.cmd - r.pos)) ∧ (t.look.engine c 0).last.map Running.pos = some (mtxGroups r.cmd)))

/-- ACLR, ACLOSE and PROOF (R165, R166, R184, R185): ACLR sets every element of the open bank to +0, ACLOSE closes it with its elements as they are,
a PROOF command that has reached its level begins its hold. A closing bank is marked full, the level moves one step of the ladder, and the hold
of array work expires (R159, R166, R181, R182): the matrix cell changes, and nothing outside the core. -/
def Obligations.MtxBanks : Prop :=
  (∀ (c : CoreIx) (s : State) (r : Running), let w := s.look; let k := w.core c; let m := k.mtx
    let counts (t : State) : Prop :=
      sameBytes s t ∧ sameWordsBut [Reg.MTX_GROUPS c, Reg.MTX_GROUPS c + 4] s t ∧ sameCoresBut c s t ∧ t.hw = { s.hw with cores := t.hw.cores } ∧
        t.pending = s.pending ∧ (w.frozen (coreRegion c) = false → t.look.r64 (Reg.MTX_GROUPS c) = w.r64 (Reg.MTX_GROUPS c) + 1) ∧
        (t.look.core c).pc = k.pc ∧ (t.look.core c).regs = k.regs ∧ (t.look.engine c 0).last.map Running.pos = some 1
    (s.powered = true ∧ w.senderOf c 3 = some r ∧ m.opened < 2 → goesTo (exec (.aclr c) s) fun t => let m' := t.look.mtx c
      counts t ∧ (∀ i, (m'.bank m.opened).elem i = 0) ∧ m'.bank (1 - m.opened) = m.bank (1 - m.opened) ∧
        (m'.bank m.opened).state = (m.bank m.opened).state ∧ m'.opened = m.opened ∧ m'.closed = m.closed) ∧
    (s.powered = true ∧ w.senderOf c 4 = some r ∧ m.opened < 2 → goesTo (exec (.aclose c) s) fun t => let m' := t.look.mtx c
      counts t ∧ (∀ i b, b < 2 → (m'.bank b).elem i = (m.bank b).elem i) ∧ (m'.bank m.opened).state = .closing ∧
        (m'.bank (1 - m.opened)).state = (m.bank (1 - m.opened)).state ∧ m'.opened = 1 - m.opened ∧ m'.closed = m.closed ++ [m.opened]) ∧
    (s.powered = true ∧ w.coreUp c = true ∧ (k.engine 0).running.find? (fun x => decide (cmdOpcode x.cmd = 8)) = some r ∧ m.proofLeft = none ∧
        w.mtxLevelNow c = min (mtxLevel r.cmd) (w.issueCap c) → goesTo (exec (.proof c) s) fun t =>
      coreBecomes c s t { k with mtx := { m with
        level := w.mtxLevelNow c, target := w.mtxTarget c, proofLeft := some (mtxLength r.cmd), lastFmt := mtxFmt r.cmd, proofSlot := true } })) ∧
  (∀ (c : CoreIx) (s : State), let w := s.look; let k := w.core c; let m := k.mtx
    (∀ b : Fin 2, s.powered = true ∧ w.coreUp c = true ∧ m.mayFill b = true → goesTo (exec (.bankFull c b) s) fun t => let m' := t.look.mtx c
      onlyCore c s t ∧ m'.bank b = { m.bank b with state := .full } ∧ m'.bank (1 - b.val) = m.bank (1 - b.val) ∧
        m'.opened = m.opened ∧ m'.closed = m.closed ∧ (t.look.core c).pc = k.pc ∧ (t.look.core c).regs = k.regs ∧
        (t.look.engine c 0).running.all (fun r => !r.bankHeld.contains b.val) = true) ∧
    (s.powered = true ∧ w.coreUp c = true → goesTo (exec (.levelStep c) s) fun t =>
      coreBecomes c s t { k with mtx := { m with level := ladderStep m.level (w.mtxTarget c), target := w.mtxTarget c } }) ∧
    (s.powered = true ∧ w.arrayWork c = false → goesTo (exec (.rampHoldExpire c) s) fun t =>
      coreBecomes c s t { k with mtx := { m with holding := false } }))

/-- The segment table and the feeders' parity (R175–R179, R188): the table is read once and kept without its empty segments; words found bad are
fetched again once; a clean refetch is a transient error of the core, any other a lasting one that stops the command. A write of MTX_PROOF_CTRL
(R182, R186): the level is settled as it stands, then the register takes the write. -/
def Obligations.MtxTablesAndProof : Prop :=
  (∀ (c : CoreIx) (s : State) (r : Running), let w := s.look; let k := w.core c
    let last (f : Running → Running) (t : State) : Prop := (t.look.engine c 0).running = (k.engine 0).running.dropLast ++ [f r]
    let by_ : ClampBy := match r.ctx with | some x => .program x | none => .firmware
    let table := w.readSegs c (mtxRowsA r.cmd) by_ (mtxSegCount r.cmd) (mtxSegTable r.cmd) 0
    let live := table.1.filter fun x => decide (0 < x.count)
    let refetched (clean : Bool) : Work := w.updEngine c 0 fun x => x.updLast fun r => { r with refetch := false, stopped := !clean }
    s.powered = true ∧ (k.engine 0).last = some r →
    (w.coreUp c = true ∧ mtxSeg r.cmd = true ∧ r.ready = false ∧ r.stopped = false ∧ r.refetch = false →
      goesTo (exec (.segTableReadDone c) s) fun t => last (fun r => { r with ready := true, segs := live }) t ∧
        t.look.r32 (Reg.MTX_SEG_STAT c) = BitVec.ofNat 32 (live.length + (if table.2.1 then 2 ^ 16 else 0) + (mtxSegCount r.cmd - 1) * 2 ^ 24) ∧
        (∀ a, a ≠ Reg.MTX_SEG_STAT c → t.look.r32 a = table.2.2.r32 a) ∧
        sameBytes s t ∧ sameCoresBut c s t ∧ t.hw = { s.hw with cores := t.hw.cores } ∧ t.pending = s.pending) ∧
    (w.coreUp c = true ∧ mtxFetching r = true → goesTo (exec (.feedParityError c) s) fun t =>
      onlyCore c s t ∧ last (fun r => { r with refetch := true }) t ∧ (t.look.core c).pc = k.pc ∧ (t.look.core c).mtx = k.mtx) ∧
    (r.refetch = true → exec (.feedRefetchEnd c true) s = done s ((refetched true).cellTransient c 0x06 1 (cmdTag r.cmd) r.ctx (Reg.MTX_ERR_STAT c)
      Fld.MTX_ERR_STAT_FEED_TRANSIENT Fld.MTX_ERR_STAT_TRANSIENT_CNT 0)) ∧
    (r.refetch = true → exec (.feedRefetchEnd c false) s = done s ((((refetched false).setFlag (Reg.MTX_ERR_STAT c) Fld.MTX_ERR_STAT_FEED_LASTING true).w32
      (Reg.MTX_ERR_INFO c) (BitVec.ofNat 32 (setBits (setBits (w.r32 (Reg.MTX_ERR_INFO c)).toNat 0 16 (cmdTag r.cmd)) 24 1 0))).cellFault
        c 0x06 1 (cmdTag r.cmd) r.ctx none 0))) ∧
  (∀ (m : Master) (c : CoreIx) (value : Word) (s : State), s.powered = true →
    exec (.proofCtrlWrite m c value) s = done s ((s.look.settleLevel c).regWrite m (Reg.MTX_PROOF_CTRL c) .w32 0xF value.toNat))

/-- The vector chain (R102, R196, R213, R218): RUN walks every element of the repeat that runs; it writes nowhere but into its own core's scratchpad,
VEC_ELEMS counts the elements, and nothing of the control core changes. The configuration block is read and clamped before the command runs; a
second bad read stops it (R197, R219); a bank whose last read has returned is empty again (R213). -/
def Obligations.VecRepeatsAndConfig : Prop :=
  (∀ (c : CoreIx) (s : State) (r : Running), let w := s.look; let k := w.core c; let n := r.vecCfg.elems
    s.powered = true ∧ (k.engine 1).last = some r ∧ w.coreUp c = true ∧ cmdOpcode r.cmd = 1 ∧ r.ready = true ∧ r.stopped = false ∧
        0 < r.started ∧ r.pos = 0 → goesTo (exec (.vecRun c none) s) fun t => let k' := t.look.core c
      (k'.engine 1).running = (k.engine 1).running.dropLast ++ [{ r with pos := n }] ∧
      (w.frozen (coreRegion c) = false → t.look.r64 (Reg.VEC_ELEMS c) = w.r64 (Reg.VEC_ELEMS c) + BitVec.ofNat 64 n) ∧
      sameBytesBut (fun a => spmBase c ≤ a ∧ a < spmBase c + 2 ^ 24) s t ∧
      sameWordsBut [Reg.VEC_SAT_ANCHOR c, Reg.VEC_SAT_FLOAT c, Reg.VEC_ELEMS c, Reg.VEC_ELEMS c + 4] s t ∧
      sameCoresBut c s t ∧ t.pending = s.pending ∧ k'.pc = k.pc ∧ k'.regs = k.regs ∧ k'.links = k.links ∧ k'.mtx = k.mtx ∧
      (k'.engine 1).queue = (k.engine 1).queue ∧ ∀ e, e ≠ 1 → k'.engine e = k.engine e) ∧
  (∀ (c : CoreIx) (s : State) (r : Running), let w := s.look; let k := w.core c
    let words := (List.range 80).map fun i => w.spmLE c (vecCfgAt r.cmd + 4 * i) 4
    let block : WordsClamp := (WordsClamp.mk w words (match r.ctx with | some x => .program x | none => .firmware)
      (fun i => spmAt c (vecCfgAt r.cmd + 4 * i))).vecBlock r.cmd
    let taken := block.work.updEngine c 1 fun x => x.updLast fun r => { r with ready := true, words := block.words }
    let reads := s.powered = true ∧ (k.engine 1).last = some r ∧ w.coreUp c = true ∧ cmdOpcode r.cmd = 1 ∧ r.ready = false ∧ r.stopped = false
    (reads → goesTo (exec (.vecCfgReadDone c .clean) s) fun t => t = Work.commit s taken ∧ let k' := t.look.core c
      (k'.engine 1).running = (k.engine 1).running.dropLast ++ [{ r with ready := true, words := block.words }] ∧
        sameBytes s t ∧ sameCoresBut c s t ∧ t.hw = { s.hw with cores := t.hw.cores } ∧ k'.pc = k.pc ∧ k'.regs = k.regs ∧ k'.mtx = k.mtx) ∧
    (reads → exec (.vecCfgReadDone c .transient) s = done s (taken.cellTransient c 0x08 2 (cmdTag r.cmd) r.ctx (Reg.VEC_ERR_STAT c)
      Fld.VEC_ERR_STAT_CFG_TRANSIENT Fld.VEC_ERR_STAT_TRANSIENT_CNT 0)) ∧
    (reads → exec (.vecCfgReadDone c .lasting) s = done s ((((w.updEngine c 1 fun x => x.updLast fun r => { r with stopped := true }).setFlag
      (Reg.VEC_ERR_STAT c) Fld.VEC_ERR_STAT_CFG_LASTING true).w32 (Reg.VEC_ERR_INFO c) (BitVec.ofNat 32 (cmdTag r.cmd))).cellFault
        c 0x08 2 (cmdTag r.cmd) r.ctx none 0)) ∧
    (s.powered = true ∧ w.coreUp c = true ∧ (k.engine 1).running.find? (fun r => !r.bankHeld.isEmpty) = some r ∧ r.bankHeld.headD 0 < 2 ∧
        (1 < r.bankHeld.length ∨ vecWalked r = true) → goesTo (exec (.bankEmpty c) s) fun t => let k' := t.look.core c; let b := r.bankHeld.headD 0
      onlyCore c s t ∧ k'.mtx.bank b = { k.mtx.bank b with state := .empty } ∧ k'.mtx.bank (1 - b) = k.mtx.bank (1 - b) ∧
        k'.mtx.opened = k.mtx.opened ∧ k'.mtx.closed = k.mtx.closed ∧ k'.pc = k.pc ∧ k'.regs = k.regs ∧
        (k'.engine 1).running.all (fun q => !q.bankHeld.contains b) = true))

/-- STR LOAD, STORE, GATHER and SCATTER read their descriptor (R228, R232, R234, R238, R245): a rearm sets its base and its position first; the
command keeps the eight words and, of a persistent descriptor, the first of REPEAT positions, which it reserves; a bad word stops it. -/
def Obligations.StrReadsDescriptor : Prop :=
  ∀ (c : CoreIx) (str : StrIx) (n : Fin 4) (word : Fin 8) (s : State) (r : Running), let w := s.look; let k := w.core c; let e := 2 + str.val
    let command (check : ReadCheck) : Instr :=
      match n with | 0 => .strLoad c str check word | 1 => .strStore c str check word | 2 => .strGather c str check word | 3 => .strScatter c str check word
    let d := descKey (coreRegion c) (strDesc r.cmd)
    let stored := (List.range 8).map (w.descWord d)
    let words := if strRearm r.cmd then (stored.set 0 (cmdWord r.cmd 4)).set 1 (setBits (stored.getD 1 0) 0 16 (cmdFld r.cmd 5 0 16)) else stored
    let bad := if strRearm r.cmd then SMap.get 0 s.hw.descBad d - SMap.get 0 s.hw.descBad d % 4 else SMap.get 0 s.hw.descBad d
    let first := if persists words then (if strRearm r.cmd then 0 else w.descPosOf d) else 0
    s.powered = true ∧ w.strUnread c str (n.val + 1) = some r →
    (bad = 0 ∧ (strRearm r.cmd = true ∨ persists words = false ∨ w.ownerAllows d (coreGlobal c) = true) →
      goesTo (exec (command .clean) s) fun t => let k' := t.look.core c
        (k'.engine e).running = (k.engine e).running.dropLast ++ [{ r with ready := true, words := words, first := first }] ∧
        (persists words = true → t.look.descPosOf d = (first + cmdRepeat r.cmd) % 2 ^ 32) ∧
        (∀ x, x ≠ d → t.look.descPosOf x = w.descPosOf x ∧ ∀ i, t.look.descWord x i = w.descWord x i) ∧
        (∀ i, i < 8 → t.look.descWord d i = words.getD i 0) ∧
        sameBytes s t ∧ sameWords s t ∧ sameCoresBut c s t ∧ t.pending = s.pending ∧ k'.pc = k.pc ∧ k'.regs = k.regs ∧ k'.mtx = k.mtx) ∧
    (strRearm r.cmd = false → exec (command .lasting) s = done s ((w.setDescBad d (bad ||| 2 ^ word.val)).descLasting c str r)) ∧
    (strRearm r.cmd = false ∧ bad ≠ 0 → exec (command .clean) s = done s ((w.setDescBad d bad).descLasting c str r)) ∧
    (strRearm r.cmd = false ∧ bad = 0 ∧ persists words = true ∧ w.ownerAllows d (coreGlobal c) = false →
      exec (command .clean) s = done s (w.sharedDesc c str r))

/-- STR_INSTALL (R225): a write is accepted behind the installations that wait; when the oldest of a region is done, its images stand in the store,
their reserved bits zero, their fields clamped, their positions zero, and no other descriptor has changed. -/
def Obligations.StrInstalls : Prop :=
  (∀ (m : Master) (c : CoreIx) (value : DWord) (s : State), let w := s.look; let v := value.toNat
    s.powered = true ∧ w.answers (coreWindow c + 0x30000) = .usual ∧ w.installHolds m (coreRegion c) = false ∧
        bits v 0 24 % 32 = 0 ∧ bits v 32 14 + bits v 48 10 ≤ 16383 → goesTo (exec (.strInstall m c value) s) fun t =>
      t.hw = { s.hw with installs := s.hw.installs ++ [⟨c, m, bits v 0 24, bits v 32 14, bits v 48 10 + 1, none⟩] } ∧
        sameBytes s t ∧ sameWords s t ∧ t.pending = s.pending) ∧
  ∀ (r : RegionIx) (s : State) (x : Install), let w := s.look
    let image (i : Nat) : List Nat := descReserved ((List.range 8).map fun j => w.spmLE x.core (x.src + 32 * i + 4 * j) 4)
    let taken (i : Nat) : List Nat := (WordsClamp.descriptor ⟨w, image i, w.clampBy x.master, fun j => spmAt x.core (x.src + 32 * i + 4 * j)⟩).words
    s.powered = true ∧ w.clocked = true ∧ w.installOf r = some x ∧ x.req = none ∧ x.index + x.count ≤ 16384 → goesTo (exec (.installDone r) s) fun t =>
      (∀ i, i < x.count → t.look.descPosOf (descKey r (x.index + i)) = 0 ∧
        ∀ j, j < 8 → t.look.descWord (descKey r (x.index + i)) j = (taken i).getD j 0 % 2 ^ 32) ∧
      (∀ d, (∀ i, i < x.count → d ≠ descKey r (x.index + i)) → t.look.descPosOf d = w.descPosOf d ∧ ∀ j, t.look.descWord d j = w.descWord d j) ∧
      t.hw.installs = dropFirst (fun y => decide (y = x)) s.hw.installs ∧ sameBytes s t ∧ t.hw.cores = s.hw.cores ∧ t.pending = s.pending

/-- STREAM_REQUEST (R229–R237): the running repeat takes up its next run, at most to the end of a 4 KiB block: a read or a write of the bytes at its
address, counted in STR_REQS; a skipped entry is filled with zeros, or passed over, with no request. STREAM_REPLY (R231, R241, R246): read data
lands at the places of its repeat in the scratchpad and nowhere else, a write is acknowledged; an error stops the command and is a fault. -/
def Obligations.StrMovesBytes : Prop :=
  (∀ (c : CoreIx) (str : StrIx) (s : State) (r : Running), let w := s.look; let k := w.core c; let e := 2 + str.val
    let rep := r.started - 1
    let here := w.strRun c r.desc (r.position rep) r.pos
    let advanced (n : Nat) (t : State) : Prop := ((t.look.core c).engine e).running =
      (k.engine e).running.dropLast ++ [{ r with pos := r.pos + n }]
    s.powered = true ∧ w.strDue c str = some r →
    (here.1 = none ∧ strLoads r.cmd = false → goesTo (exec (.streamRequest c str) s) fun t => onlyCore c s t ∧ advanced here.2 t) ∧
    (here.1 = none ∧ strLoads r.cmd = true → goesTo (exec (.streamRequest c str) s) fun t =>
      advanced here.2 t ∧ t.hw.reqs = s.hw.reqs ∧ sameWords s t ∧ sameCoresBut c s t ∧
        sameBytesBut (fun a => ∃ j, j < here.2 ∧ a = spmAt c (w.strSpm c r rep (r.pos + j))) s t ∧
        ∀ j, j < here.2 → t.look.rdB (spmAt c (w.strSpm c r rep (r.pos + j))) = 0) ∧
    (∀ a, here.1 = some a → let n := min here.2 (4096 - a % 4096)
      let op : ReqOp := if strLoads r.cmd then .read n else .write ((w.strTake c r rep r.pos n).map some)
      let node := if r.desc.isLocal then w.selfNode else r.desc.node
      let waits := w.accessHeld (.cell c (Fin.ofNat 4 (1 + str.val))) node a || w.syncHeld (.str c str) a op
      (waits = true → exec (.streamRequest c str) s = .next s) ∧
      (waits = false ∧ node = w.selfNode ∧ directDpa a = none → goesTo (exec (.streamRequest c str) s) fun t =>
        advanced n t ∧ sameBytes s t ∧ sameCoresBut c s t ∧ t.pending = s.pending ∧
          (w.frozen (coreRegion c) = false → t.look.r64 (Reg.STR_REQS c str) = w.r64 (Reg.STR_REQS c str) + 1) ∧
          t.hw.nextReq = s.hw.nextReq + 1 ∧
          t.hw.reqs = SMap.put s.hw.reqs s.hw.nextReq { Req.make (.str c str) op r.ctx node a s.hw.uptime (cmdTag r.cmd) (SMap.get 0 s.hw.genCore c) with
            rep := rep, off := r.pos }))) ∧
  (∀ (c str i : Nat) (s : State) (q : Req) (r : Running), let w := s.look
    s.powered = true ∧ w.req? i = some q ∧ q.src = .str c str ∧ q.stage = .replied ∧ ((w.core c).engine (2 + str)).first = some r →
    let place (j : Nat) : Nat := spmAt c (w.strSpm c r q.rep (q.off + j))
    let quiet (t : State) : Prop := t.hw = { s.hw with reqs := SMap.del s.hw.reqs i, wild := t.hw.wild } ∧ t.pending = s.pending
    (∀ n, q.bad = .ok ∧ q.op = .read n ∧ w.digesting q.ctx = false ∧ (∀ j l, j < n → l < n → place j = place l → j = l) →
      goesTo (exec (.streamReply i) s) fun t => quiet t ∧ (∀ j, j < n → t.look.rdB (place j) = q.byte j) ∧
        sameBytesBut (fun a => ∃ j, j < n ∧ a = place j) s t ∧ sameWordsBut [Reg.STR_BYTES c str, Reg.STR_BYTES c str + 4] s t) ∧
    (∀ d, q.bad = .ok ∧ q.op = .write d ∧ w.digesting q.ctx = false → goesTo (exec (.streamReply i) s) fun t =>
      t.hw = { s.hw with reqs := SMap.del s.hw.reqs i } ∧ t.pending = s.pending ∧ sameBytes s t ∧ sameWords s t) ∧
    (q.bad ≠ .ok → exec (.streamReply i) s = done s ((w.dropReq i).strFails c str r q)))

/-- An ATOMIC (R254) on a sync object, doorbell or interrupt word leaves the value of the table, with OP 8 to 15 as 7, and returns the value before
it: to SYN_RESULT of the cell whose command it is, or to the request that asked. -/
def Obligations.AtomicOnItsTarget : Prop :=
  let table (n : Nat) (v o p x : DWord) : Prop :=
    (n = 0 → x = o) ∧ (n = 1 → x = v + o) ∧ (n = 2 → x = v &&& o) ∧ (n = 3 → x = v ||| o) ∧ (n = 4 → x = v ^^^ o) ∧
    (n = 5 → x.toNat = max v.toNat o.toNat) ∧ (n = 6 → x.toNat = min v.toNat o.toNat) ∧ (7 ≤ n → x = if v = p then o else v)
  (∀ (c : CoreIx) (w : Work) (op : SynOp) (n : Nat), op.obj < 1024 ∧ op.kind = .atomic n →
    let v := w.r64 (Reg.SYN_OBJ c op.obj); let w' := w.cellPerform c op .clean
    table n v op.operand op.compare (w'.r64 (Reg.SYN_OBJ c op.obj)) ∧ (op.source = .own → w'.r64 (Reg.SYN_RESULT c) = v) ∧
    (∀ i q k j, op.source = .req i ∧ w.req? i = some q ∧ (q.src = .ctl k ∨ q.src = .str k j ∨ q.src = .syn k) →
      ∃ q', w'.req? i = some q' ∧ q'.value = v ∧ q'.stage = .replied)) ∧
  (∀ (w : Work) (d n : Nat) (o p : DWord), let v := w.r64 (Reg.HUB_DB 0 d); let r := w.hubOp (.db d) (.atomic n) o p
    r.1 = v ∧ table n v o p (r.2.r64 (Reg.HUB_DB 0 d))) ∧
  ∀ (w : Work) (h i n : Nat) (o p : DWord), let v := w.r64 (Reg.HUB_IW h i); let r := w.hubOp (.iw h i) (.atomic n) o p
    r.1 = v ∧ table n v o p (r.2.r64 (Reg.HUB_IW h i))

/-- A WAIT tests its target's value against OPERAND and COMPARE as the table of R258 states, OP 7 to 15 as 6. -/
def Obligations.WaitConditions : Prop :=
  ∀ (cmd : CmdBits) (v : DWord), let op := synOpCode cmd; let o := synOperand cmd; let p := synCompare cmd
    (op = 0 → (waitHolds cmd v = true ↔ v = o)) ∧ (op = 1 → (waitHolds cmd v = true ↔ v ≠ o)) ∧
    (op = 2 → (waitHolds cmd v = true ↔ o.toNat ≤ v.toNat)) ∧ (op = 3 → (waitHolds cmd v = true ↔ v.toNat < o.toNat)) ∧
    (op = 4 → (waitHolds cmd v = true ↔ v &&& p = o)) ∧ (op = 5 → (waitHolds cmd v = true ↔ v &&& p ≠ o)) ∧
    (6 ≤ op → (waitHolds cmd v = true ↔ ((v.toNat : Int) - o.toNat) % 2 ^ 64 < 2 ^ 63))

/-- A cell's own ATOMIC (R253–R257): a local one joins the cell's queue, a remote one becomes a request that the cell awaits, one whose target is no
sync word is a fault; its return sets SYN_RESULT and SYN_RESULT_TAG, and the command is done. A WAIT begins (R258–R260, R269): a local one is
tested at once and after every operation on its object; a remote one asks the holder of its target for a watch. -/
def Obligations.SynCommands : Prop :=
  (∀ (c : CoreIx) (s : State) (r : Running), let w := s.look; let k := w.core c
    let sent : Work := w.updEngine c 4 fun x => x.updFirst fun r => { r with started := 1 }
    s.powered = true ∧ w.synRuns c 1 = some r →
    (r.started = 0 ∧ synRemote r.cmd = false ∧ k.syn.incoming.length < 64 → goesTo (exec (.synAtomic c) s) fun t =>
      onlyCore c s t ∧ (t.look.engine c 4).first = some { r with started := 1 } ∧ (t.look.core c).pc = k.pc ∧ (t.look.core c).regs = k.regs ∧
        (t.look.core c).syn.incoming = k.syn.incoming ++
          [⟨synSidx r.cmd, .atomic (synOpCode r.cmd), synOperand r.cmd, synCompare r.cmd, r.ctx, .own⟩]) ∧
    (r.started = 0 ∧ synRemote r.cmd = false ∧ 64 ≤ k.syn.incoming.length → exec (.synAtomic c) s = .next s) ∧
    (r.started = 0 ∧ synRemote r.cmd = true ∧ synTarget r.cmd = none → exec (.synAtomic c) s = done s (w.synNonsync c r)) ∧
    (r.started = 0 ∧ synRemote r.cmd = true ∧ synTarget r.cmd ≠ none → goesTo (exec (.synAtomic c) s) fun t =>
      (t.look.core c).syn.awaiting = some s.hw.nextReq ∧
        t = Work.commit s (sent.synReq c r (.sync (.atomic (synOpCode r.cmd)) (synOperand r.cmd) (synCompare r.cmd)))) ∧
    (∀ i q, (List.find? (fun e => decide (e.2.src = .syn c) && decide (e.2.stage = .replied) && decide (k.syn.awaiting ≠ some e.1)) s.hw.reqs) = none ∧
        k.syn.awaiting = some i ∧ w.req? i = some q ∧ q.stage = .replied →
      (q.bad = .ok → goesTo (exec (.atomicReply c) s) fun t =>
        t.look.r64 (Reg.SYN_RESULT c) = q.value ∧ t.look.r32 (Reg.SYN_RESULT_TAG c) = BitVec.ofNat 32 (q.tag % 65536) ∧
          t.hw = { s.hw with cores := t.hw.cores, reqs := SMap.del s.hw.reqs i } ∧ (t.look.core c).syn.awaiting = none ∧
          (t.look.engine c 4).first = some { r with pos := 1 } ∧ sameBytes s t ∧ sameCoresBut c s t ∧
          sameWordsBut [Reg.SYN_RESULT c, Reg.SYN_RESULT c + 4, Reg.SYN_RESULT_TAG c] s t) ∧
      (q.bad.returns = false → exec (.atomicReply c) s = done s (((w.dropReq i).updSyn c fun y => { y with awaiting := none }).synStops c q)) ∧
      (q.bad ≠ .ok ∧ q.bad.returns = true → goesTo (exec (.atomicReply c) s) fun t =>
        t.look.r32 (Reg.SYN_RESULT_TAG c) = BitVec.ofNat 32 (q.tag % 65536 + 65536) ∧ (t.look.engine c 4).first = some { r with pos := 1 } ∧
          (t.look.core c).syn.awaiting = none ∧ sameBytes s t ∧ sameCoresBut c s t ∧
          sameWordsBut [Reg.SYN_RESULT c, Reg.SYN_RESULT c + 4, Reg.SYN_RESULT_TAG c] s t))) ∧
  (∀ (c : CoreIx) (s : State) (r : Running), let w := s.look; let k := w.core c
    s.powered = true ∧ w.synRuns c 2 = some r ∧ r.started = 0 →
    (synRemote r.cmd = false → goesTo (exec (.synWait c .clean) s) fun t =>
      onlyCore c s t ∧ (t.look.core c).syn = { k.syn with mode := .local } ∧ (t.look.core c).pc = k.pc ∧ (t.look.core c).regs = k.regs ∧
        (t.look.engine c 4).first = some { r with started := 1, pos := if waitHolds r.cmd (w.r64 (Reg.SYN_OBJ c (synSidx r.cmd))) then 1 else 0 }) ∧
    (synRemote r.cmd = false → exec (.synWait c .lasting) s = done s (
      let sent := (w.synSent c).updSyn c fun y => { y with mode := .local }
      (if waitHolds r.cmd 0 then sent.synDone c else sent).objLasting c ⟨synSidx r.cmd, .read, 0, 0, r.ctx, .own⟩)) ∧
    (∀ word check, synRemote r.cmd = true ∧ synTarget r.cmd = some word ∧ gNode (synGaddr r.cmd) = w.selfNode → goesTo (exec (.synWait c check) s) fun t =>
      (t.look.core c).syn = { k.syn with mode := .sent } ∧ (t.look.engine c 4).first = some { r with started := 1 } ∧
        t.hw = { s.hw with cores := t.hw.cores, watchMsgs := s.hw.watchMsgs ++ [⟨w.selfNode, coreGlobal c, globalSlot word.holder,
          gCva (synGaddr r.cmd) / 8 * 8, SMap.get 0 s.hw.genCore c, r.ctx, .register (synOpCode r.cmd) (synOperand r.cmd) (synCompare r.cmd)⟩] } ∧
        sameBytes s t ∧ sameWords s t ∧ sameCoresBut c s t) ∧
    (∀ check, synRemote r.cmd = true ∧ synTarget r.cmd = none → exec (.synWait c check) s = done s (w.synNonsync c r)))

/-- An operation on a sync object held in its cell (R252–R254, R256, R260): an ATOMIC stores its result and no other object changes; a read changes
none; SYN_OPS counts it. The cell performs its incoming operations in order, and a master's write of a sync word, or of its add alias, is one of
them (R251, R253, R256). The messages between a waiter and the holder of a sync word on this chip (R260–R266): REGISTER joins the holder's queue;
ACCEPTED, FULL, WAKE and ABSENT change what the waiter does; CANCEL clears the watch; a message that no WAIT expects is dropped. Through a port
with nothing in its buffer nothing comes. Polling, rechecks and long waits (R263, R264, R267): a WAIT reads its target, and the value that meets
its condition ends it; a long-wait notice is sent once for an unbroken wait. -/
def Obligations.SynObjectsAndWatches : Prop :=
  (∀ (c : CoreIx) (w : Work) (op : SynOp), op.obj < 1024 → let v := w.r64 (Reg.SYN_OBJ c op.obj); let w' := w.cellPerform c op .clean
    (∀ k, op.kind = .atomic k → w'.r64 (Reg.SYN_OBJ c op.obj) = atomicOp k v op.operand op.compare) ∧
    ((∀ k, op.kind ≠ .atomic k) → w'.r64 (Reg.SYN_OBJ c op.obj) = v) ∧
    (∀ i, i < 1024 → i ≠ op.obj → w'.r64 (Reg.SYN_OBJ c i) = w.r64 (Reg.SYN_OBJ c i)) ∧
    (w.frozen (coreRegion c) = false → w'.r64 (Reg.SYN_OPS c) = w.r64 (Reg.SYN_OPS c) + 1) ∧
    (∀ a, w'.rdB a = w.rdB a)) ∧
  (∀ (c : CoreIx) (s : State), let w := s.look; let k := w.core c
    (∀ op rest check, s.powered = true ∧ w.coreUp c = true ∧ k.syn.incoming = op :: rest → exec (.syncOpPerform c check) s =
      done s (((w.updSyn c fun y => { y with incoming := rest }).performOp c op check).syncPull c)) ∧
    (∀ (m : Master) (obj : Fin 1024) (v : DWord), let a := Reg.SYN_OBJ c obj
      let reaches := s.powered = true ∧ w.regTakes a = true ∧ w.installHolds m (coreRegion c) = false
      let here := k.syn.incoming = [] ∧ (w.masterCtx m = none ∨ w.masterCtx m = w.placedCtx c)
      let queued (n : Nat) (t : State) : Prop := onlyCore c s t ∧
        (t.look.core c).syn.incoming = k.syn.incoming ++ [⟨obj, .atomic n, v, 0, w.masterCtx m, .master⟩]
      (reaches ∧ here → goesTo (exec (.synObjWrite m c obj v) s) fun t => t.look.r64 a = v ∧ (t.look.core c).pc = k.pc ∧ sameCoresBut c s t) ∧
      (reaches ∧ here → goesTo (exec (.synAddWrite m c obj v) s) fun t =>
        t.look.r64 a = w.r64 a + v ∧ (t.look.core c).pc = k.pc ∧ sameCoresBut c s t) ∧
      (reaches ∧ k.syn.incoming ≠ [] → goesTo (exec (.synObjWrite m c obj v) s) (queued 0)) ∧
      (reaches ∧ k.syn.incoming ≠ [] → goesTo (exec (.synAddWrite m c obj v) s) (queued 1)))) ∧
  ((∀ (s : State) (m : WatchMsg) (later : List WatchMsg), let w := s.look; let c := m.here; let k := w.core c
    let takes (t : State) : Prop := t.hw = { s.hw with cores := t.hw.cores, watchMsgs := later } ∧ sameBytes s t ∧ sameCoresBut c s t
    let mode (x : WaitMode) (t : State) : Prop := (t.look.core c).syn = { k.syn with mode := x } ∧ (t.look.core c).engines = k.engines
    let falls (t : State) : Prop := takes t ∧ mode .polling t ∧
      (w.frozen (coreRegion c) = false → t.look.r64 (Reg.SYN_FALLBACKS c) = w.r64 (Reg.SYN_FALLBACKS c) + 1) ∧
      sameWordsBut [Reg.SYN_FALLBACKS c, Reg.SYN_FALLBACKS c + 4] s t
    let on (op : Nat) := s.powered = true ∧ w.clocked = true ∧ s.hw.watchMsgs = m :: later ∧ m.kind.op = op ∧ m.here < 272
    (∀ d i op o p, on 0 ∧ m.word = some (.obj d i) ∧ m.kind = .register op o p ∧ w.regTakes (Reg.SYN_OBJ d i) = true ∧
        (w.core d).syn.incoming.length < 64 → goesTo (exec (.watchRegister (.here 0)) s) fun t =>
      t.hw = { s.hw with cores := t.hw.cores, watchMsgs := later } ∧ sameBytes s t ∧ sameWords s t ∧ sameCoresBut d s t ∧
        (t.look.core d).syn.incoming = (w.core d).syn.incoming ++ [⟨i, .register op, o, p, m.ctx, .watch m.node m.core m.gen⟩]) ∧
    (on 1 ∧ w.waitExpects m .sent .sent = true → goesTo (exec (.watchAccepted (.here 0)) s) fun t => takes t ∧ mode .accepted t ∧ sameWords s t) ∧
    (on 1 ∧ w.waitExpects m .sent .sent = false ∧ m.gen ≠ SMap.get 0 s.hw.genCore c → goesTo (exec (.watchAccepted (.here 0)) s) fun t =>
      takes t ∧ t.look.r64 Reg.ERR_LATE_DROP = w.r64 Reg.ERR_LATE_DROP + 1 ∧ t.look.core c = k) ∧
    (on 2 ∧ w.waitExpects m .sent .sent = true → goesTo (exec (.watchFull (.here 0)) s) falls) ∧
    (on 3 ∧ w.waitExpects m .sent .accepted = true → goesTo (exec (.watchWake (.here 0)) s) fun t => takes t ∧ sameWords s t ∧
      (t.look.engine c 4).first.map Running.pos = some 1 ∧ (t.look.core c).syn = k.syn) ∧
    (on 3 ∧ w.waitExpects m .sent .accepted = false ∧ w.frozen (coreRegion c) = false → goesTo (exec (.watchWake (.here 0)) s) fun t =>
      takes t ∧ t.look.r64 (Reg.SYN_WAKE_DROP c) = w.r64 (Reg.SYN_WAKE_DROP c) + 1 ∧ t.look.core c = k) ∧
    (on 4 ∧ w.waitExpects m .sent .accepted = true → goesTo (exec (.watchAbsent (.here 0)) s) falls) ∧
    (∀ d i e, on 5 ∧ m.word = some (.obj d i) ∧ w.entryOf d i m.node m.core m.gen = some e → goesTo (exec (.watchCancel (.here 0)) s) fun t =>
      t.hw = { s.hw with watchMsgs := later } ∧ sameBytes s t ∧ t.look.r64 (Reg.SYN_WATCH_CTL d e) = 0)) ∧
  ∀ (s : State) (p : LinkIx) (v : Fin 8), s.powered = true ∧ s.look.rxHead p v = none →
    exec (.watchRegister (.port p v)) s = .next s ∧ exec (.watchAccepted (.port p v)) s = .next s ∧ exec (.watchFull (.port p v)) s = .next s ∧
    exec (.watchWake (.port p v)) s = .next s ∧ exec (.watchAbsent (.port p v)) s = .next s ∧ exec (.watchCancel (.port p v)) s = .next s) ∧
  (∀ (c : CoreIx) (s : State) (r : Running), let w := s.look; let k := w.core c
    let waits (x : WaitMode) := s.powered = true ∧ w.unmetWait c = some r ∧ k.syn.mode = x
    let reads : Work := (w.bump (Reg.SYN_POLLS c) 1).synReq c r (.read 8)
    (waits .polling ∧ k.syn.awaiting = none → exec (.pollRead c) s = done s reads) ∧
    (waits .accepted ∧ k.syn.awaiting = none → exec (.recheckRead c) s = done s reads) ∧
    (∀ i q, k.syn.awaiting = some i ∧ w.req? i = some q ∧ q.stage = .replied ∧ q.bad = .ok →
      let holds := waitHolds r.cmd (BitVec.ofNat 64 (q.number 8))
      let dropped : Work := (w.dropReq i).updSyn c fun y => { y with awaiting := none }
      (waits .polling → goesTo (exec (.pollRead c) s) fun t =>
        t.hw = { s.hw with cores := t.hw.cores, reqs := SMap.del s.hw.reqs i } ∧ sameBytes s t ∧ sameWords s t ∧ sameCoresBut c s t ∧
          (t.look.core c).syn = { k.syn with awaiting := none } ∧ (t.look.engine c 4).first = some (if holds then { r with pos := 1 } else r)) ∧
      (waits .accepted ∧ holds = true → exec (.recheckRead c) s = done s ((dropped.cancelWatch c).synDone c)) ∧
      (waits .accepted ∧ holds = false ∧ w.entryLost c r = true → exec (.recheckRead c) s = done s (dropped.waitFallBack c))) ∧
    (s.powered = true ∧ w.coreWaits c = true ∧ w.flag (Reg.SYN_LONGWAIT c) Fld.SYN_LONGWAIT_EN = true ∧ k.syn.waiting = false →
      goesTo (exec (.longwaitNotice c) s) fun t => (t.look.core c) = { k with syn := { k.syn with waiting := true } } ∧
        t.hw = { s.hw with cores := t.hw.cores, longWaits := s.hw.longWaits ++ [2 * c.val] } ∧ sameBytes s t ∧ sameWords s t ∧ sameCoresBut c s t))

/-- A channel admits the request its arbiter chooses (R275–R278, R281): it leaves the waiting requests and joins the reorder queue, stamped with the
channel's time; a read that queued writes cover, and a write of whole crumbs, complete at once. An access of a channel (R280–R284, R294, R296): a
read returns the bytes of memory to its request and answers it with its last part; a write of whole crumbs sets the bytes it carries and no
other; the cores are as they were. -/
def Obligations.MemAccesses : Prop :=
  (∀ (r : RegionIx) (n : Fin 64) (s : State) (input left i : Nat) (a : Access), let w := s.look; let ch := 64 * r.val + n.val; let k := w.chan ch
    let taken : Chan := { k with waiting := k.waiting.eraseIdx i, arb := ⟨input, left, if input = 0 then a.master else k.arb.master⟩ }
    let covered := taken.forwards a && !(taken.queue.any fun x => w.writesPoison x && x.meets a)
    s.powered = true ∧ w.memUp r = true ∧ w.memAdmits r = true ∧ w.flag (Reg.MEM_STATUS r) Fld.MEM_STATUS_TRAINED = true ∧
        w.fld Reg.CLK_STATUS Fld.CLK_STATUS_DOM_SRC = 0 ∧ k.queue.length < w.chDepth ch ∧ k.arbitrate (w.hotLimit ch) = some (input, left) ∧
        k.candidate input (w.hotLimit ch) = some (i, a) →
    (covered = false ∧ ¬ (a.wr.isSome = true ∧ a.wholeCrumbs = true) → goesTo (exec (.memRequestAdmit r n) s) fun t =>
      t.look.chan ch = { taken with queue := k.queue ++ [{ a with at_ := w.chNow ch }] } ∧ (∀ x, x ≠ ch → t.look.chan x = w.chan x) ∧
        t.hw = { s.hw with chans := t.hw.chans } ∧ sameBytes s t ∧ sameWords s t ∧ t.pending = s.pending) ∧
    (covered = false ∧ a.wr.isSome = true ∧ a.wholeCrumbs = true → exec (.memRequestAdmit r n) s = done s (
      ((w.updChan ch fun _ => taken).updChan ch fun k => { k with queue := k.queue ++ [{ a with at_ := w.chNow ch }] }).accessDone a
        (if w.chFailed ch then .poison a.lo else .ok))) ∧
    (covered = true → exec (.memRequestAdmit r n) s = done s (
      ((w.updChan ch fun _ => taken).accessData a ((List.range a.len).map fun j => taken.forwardByte (a.lo + j))).accessDone a .ok))) ∧
  (∀ (r : RegionIx) (n : Fin 64) (crumb : Fin 2) (s : State) (i : Nat) (batch : Bool) (a : Access), let w := s.look
    let ch := 64 * r.val + n.val; let k := w.chan ch
    let taken : Chan := { k with queue := k.queue.eraseIdx i, batch := batch }
    let turn := s.powered = true ∧ w.memUp r = true ∧ w.chServes ch = true ∧ w.chFailed ch = false ∧ w.nextAccess ch = (some i, batch) ∧
      k.queue[i]? = some a
    (∀ id q c, turn ∧ a.wr = none ∧ a.crumbList.any w.poisoned = false ∧ a.req = some id ∧ w.req? id = some q ∧ q.src = .ctl c ∧
        q.stage = .memory 1 ∧ q.bad = .ok → goesTo (exec (.memAccess r n crumb .clean) s) fun t =>
      (∃ q', t.look.req? id = some q' ∧ q'.stage = .replied ∧ q'.bad = .ok ∧ q'.src = q.src ∧ q'.off = q.off ∧
        ∀ j, j < a.len → q'.byte (a.off + j) = w.rdB (a.lo + j)) ∧
      (∀ x, x ≠ id → t.look.req? x = w.req? x) ∧ (t.look.chan ch).queue = taken.queue ∧ (t.look.chan ch).batch = batch ∧
        sameBytes s t ∧ t.hw.cores = s.hw.cores ∧ t.pending = s.pending) ∧
    (∀ d ecc, turn ∧ a.wr = some d ∧ d.length = a.len ∧ a.wholeCrumbs = true ∧ 0 < a.len ∧ w.writesPoison a = false ∧ ecc ≠ .cmdTransient ∧
        ecc ≠ .cmdLasting → goesTo (exec (.memAccess r n crumb ecc) s) fun t =>
      (∀ j v, j < a.len → d[j]? = some (some v) → t.look.rdB (a.lo + j) = v) ∧
      sameBytesBut (fun x => a.lo ≤ x ∧ x < a.lo + a.len) s t ∧ (t.look.chan ch).queue = taken.queue ∧ (t.look.chan ch).batch = batch ∧
        t.hw.cores = s.hw.cores ∧ t.hw.reqs = s.hw.reqs ∧ t.pending = s.pending) ∧
    (s.powered = true ∧ w.memUp r = true ∧ w.chServes ch = true ∧ w.nextAccess ch = (some i, batch) ∧ k.queue[i]? = some a →
      ∀ ecc, exec (.memAccess r n crumb ecc) s = done s ((w.updChan ch fun _ => taken).performAccess ch a crumb ecc)))

/-- A refresh closes the rows of a channel and is counted (R291); a scrub read of the next burst joins the queue (R297); a temperature sample keeps
the highest reading, its lowest layer and the peak, and turns the hot state on and off at its two limits (R292, R293). The channel self-test
(R300, R302): START begins one, and a second one meanwhile is a clamp; a first failure runs it again, a pass ends it, a pass of the second run is
a transient error, a second failure marks the channel failed. -/
def Obligations.MemUpkeep : Prop :=
  (∀ (r : RegionIx) (s : State), let w := s.look
    (∀ n : Fin 64, let ch := 64 * r.val + n.val; let k := w.chan ch; let cnt := Reg.MEM_CH_REF r n
      let cycles := w.fld (Reg.MEM_TIMING_3 r) Fld.MEM_TIMING_3_TRFC
      (s.powered = true ∧ w.memUp r = true ∧ w.chServes ch = true → goesTo (exec (.memRefresh r n) s) fun t =>
        t.look.chan ch = { k with rows := [] } ∧ (∀ x, x ≠ ch → t.look.chan x = w.chan x) ∧
          (w.frozen r = false → t.look.r64 cnt = w.r64 cnt + BitVec.ofNat 64 cycles) ∧ sameWordsBut [cnt, cnt + 4] s t ∧ sameBytes s t ∧
          t.hw = { s.hw with chans := t.hw.chans } ∧ t.pending = s.pending) ∧
      (s.powered = true ∧ w.memUp r = true ∧ w.flag (Reg.MEM_STATUS r) Fld.MEM_STATUS_TRAINED = true ∧
          w.flag (Reg.MEM_CTRL r) Fld.MEM_CTRL_SCRUB_EN = true ∧ k.queue.length < w.chDepth ch → goesTo (exec (.memScrubRead r n) s) fun t =>
        t.look.chan ch = { k with scrub := (k.scrub + 1) % 2 ^ 23
                                  queue := k.queue ++ [⟨none, r.val * 2 ^ 35 + scrubOffset n k.scrub, 64, 0, none, none, 0, 0, w.chNow ch⟩] } ∧
          (∀ x, x ≠ ch → t.look.chan x = w.chan x) ∧ t.hw = { s.hw with chans := t.hw.chans } ∧ sameBytes s t ∧ sameWords s t ∧
          t.pending = s.pending)) ∧
    ∀ layers : DWord, let temps := (List.range 8).map fun i => bits layers.toNat (8 * i) 8; let top := temps.foldl max 0; let a := Reg.MEM_TEMP r
      let on := w.fld (Reg.MEM_REF_CFG r) Fld.MEM_REF_CFG_HOT_ON; let off := w.fld (Reg.MEM_REF_CFG r) Fld.MEM_REF_CFG_HOT_OFF
      s.powered = true ∧ w.memUp r = true → goesTo (exec (.memTempSample r layers) s) fun t =>
        t.look.fld a Fld.MEM_TEMP_MAX = top ∧ t.look.fld a Fld.MEM_TEMP_LAYER = temps.findIdx (fun x => decide (x = top)) ∧
          t.look.fld a Fld.MEM_TEMP_PEAK = max top (w.fld a Fld.MEM_TEMP_PEAK) ∧
          t.look.flag (Reg.MEM_STATUS r) Fld.MEM_STATUS_HOT =
            (if on ≤ top then true else if top < off then false else w.flag (Reg.MEM_STATUS r) Fld.MEM_STATUS_HOT) ∧
          onlyWords [a, Reg.MEM_STATUS r] s t) ∧
  (∀ (r : RegionIx) (s : State), let w := s.look; let st := Reg.MEM_BIST_STAT r; let run := SMap.get 0 s.hw.bistRun r
    let ch := 64 * r.val + w.fld st Fld.MEM_BIST_STAT_CHAN
    (∀ (m : Master) (value : Word), s.powered = true ∧ w.regTakes (Reg.MEM_BIST_CTRL r) = true →
      (value.getLsbD 8 = true ∧ run = 0 → goesTo (exec (.memBistStart m r value) s) fun t =>
        SMap.get 0 t.hw.bistRun r = 1 ∧ t.look.fld st Fld.MEM_BIST_STAT_CHAN = bits value.toNat 0 6 ∧
          t.look.flag st Fld.MEM_BIST_STAT_BUSY = true ∧ t.look.flag (Reg.MEM_STATUS r) Fld.MEM_STATUS_BIST_BUSY = true ∧
          sameWordsBut [st, Reg.MEM_STATUS r] s t ∧ sameBytes s t ∧ t.hw = { s.hw with bistRun := t.hw.bistRun } ∧ t.pending = s.pending) ∧
      (value.getLsbD 8 = true ∧ run ≠ 0 → exec (.memBistStart m r value) s =
        done s (w.clamp (w.clampBy m) (Reg.MEM_BIST_CTRL r) 0 8 .joined)) ∧
      (value.getLsbD 8 = false → exec (.memBistStart m r value) s = .next s)) ∧
    (s.powered = true ∧ w.memUp r = true ∧ run = 1 → goesTo (exec (.memBistEnd r true) s) fun t =>
      SMap.get 0 t.hw.bistRun r = 0 ∧ t.look.flag st Fld.MEM_BIST_STAT_BUSY = false ∧ t.look.flag st Fld.MEM_BIST_STAT_PASS = true ∧
        t.look.flag st Fld.MEM_BIST_STAT_TRANSIENT = false ∧ t.look.flag (Reg.MEM_STATUS r) Fld.MEM_STATUS_BIST_BUSY = false ∧
        sameWordsBut [st, Reg.MEM_STATUS r] s t ∧ sameBytes s t ∧ t.hw = { s.hw with bistRun := t.hw.bistRun }) ∧
    (s.powered = true ∧ w.memUp r = true ∧ run = 1 → goesTo (exec (.memBistEnd r false) s) fun t =>
      SMap.get 0 t.hw.bistRun r = 2 ∧ sameWords s t ∧ sameBytes s t ∧ t.hw = { s.hw with bistRun := t.hw.bistRun }) ∧
    (s.powered = true ∧ w.memUp r = true ∧ run = 2 → exec (.memBistEnd r true) s = done s ((w.bistDone r true true).chTransientCount ch)) ∧
    (s.powered = true ∧ w.memUp r = true ∧ run = 2 → exec (.memBistEnd r false) s = done s (
      (((w.bistDone r false false).setFlag (Reg.MEM_ERR_STAT r) Fld.MEM_ERR_STAT_BIST_FAIL true).w32 (Reg.MEM_ERR_INFO r)
        (BitVec.ofNat 32 (ch % 64 + 3 * 2 ^ 8))).failChannel ch)))

/-- Capacity channels (R314–R318, R321–R323, R327): a request is admitted as at a stacked channel; the channel performs the access it chooses, and
one whose addresses went out of use returns zeros or is dropped, with a fault; a refresh closes one bank's row or all of them, and is counted.
The ports of a capacity die (R319, R322, R323): a valid temperature reading sets the refresh rate and the hot mark of its rank, none twice fails
the port; the scrubber reads the next burst of the port's backed range. Training a capacity die (R324–R327): GO begins it with no port trained or
failed, and is a clamp while one runs or the die is off; the ports that pass are trained, with the organisation and the usable capacity that they
report; clearing EN takes the die's ranges out of use. -/
def Obligations.CapPorts : Prop :=
  (∀ (d p : Fin 4) (n : Fin 8) (s : State), let w := s.look; let ch := 1024 + 8 * (4 * d.val + p.val) + n.val; let k := w.chan ch
    let cnt := Reg.CAP_P_REF d p; let ctl := Reg.CAP_CTRL d; let tm := Reg.CAP_TIMING_3 d
    let counted (cycles : Nat) (t : State) : Prop := (w.frozen (24 + d.val) = false → t.look.r64 cnt = w.r64 cnt + BitVec.ofNat 64 cycles) ∧
      sameWordsBut [cnt, cnt + 4] s t ∧ sameBytes s t ∧ (∀ x, x ≠ ch → t.look.chan x = w.chan x) ∧ t.hw = { s.hw with chans := t.hw.chans } ∧
      t.pending = s.pending
    let serves := s.powered = true ∧ w.clocked = true ∧ w.chServes ch = true
    (∀ input left i a, s.powered = true ∧ w.clocked = true ∧ w.capAdmits ch = true ∧ w.fld Reg.CLK_STATUS Fld.CLK_STATUS_DOM_SRC = 0 ∧
        k.queue.length < w.chDepth ch ∧ k.arbitrate (w.hotLimit ch) = some (input, left) ∧ k.candidate input (w.hotLimit ch) = some (i, a) ∧
        a.wr = none ∧ k.queue = [] ∧ a.crumbList ≠ [] → goesTo (exec (.capRequestAdmit d p n) s) fun t =>
      t.look.chan ch = { k with waiting := k.waiting.eraseIdx i, arb := ⟨input, left, if input = 0 then a.master else k.arb.master⟩
                                queue := [{ a with at_ := w.chNow ch }] } ∧
        (∀ x, x ≠ ch → t.look.chan x = w.chan x) ∧ t.hw = { s.hw with chans := t.hw.chans } ∧ sameBytes s t ∧ sameWords s t) ∧
    (∀ crumb ecc i batch a, serves ∧ w.capGone ch = false ∧ w.nextAccess ch = (some i, batch) ∧ k.queue[i]? = some a →
      exec (.capAccess d p n crumb ecc) s =
        done s ((w.updChan ch fun k => { k with queue := k.queue.eraseIdx i, batch := batch }).performAccess ch a crumb ecc)) ∧
    (∀ crumb ecc a rest id q, s.powered = true ∧ w.clocked = true ∧ w.capGone ch = true ∧ k.queue = a :: rest ∧ a.req = some id ∧ w.req? id = some q →
      exec (.capAccess d p n crumb ecc) s = done s (((w.updChan ch fun k => { k with queue := rest }).accessDone a .ok).reqFault
        { q with dpa := a.lo, isDpa := true } 0x01 0)) ∧
    (serves ∧ w.chFailed ch = false ∧ w.flag ctl Fld.CAP_CTRL_REF_PB = true → goesTo (exec (.capRefresh d p n) s) fun t =>
      t.look.chan ch = { k with rows := SMap.set 0 k.rows k.refBank 0, refBank := (k.refBank + 1) % 16 } ∧
        counted (w.fld tm Fld.CAP_TIMING_3_TRFCPB) t) ∧
    (serves ∧ w.chFailed ch = false ∧ w.flag ctl Fld.CAP_CTRL_REF_PB = false → goesTo (exec (.capRefresh d p n) s) fun t =>
      t.look.chan ch = { k with rows := [] } ∧ counted (16 * w.fld tm Fld.CAP_TIMING_3_TRFCAB) t)) ∧
  (∀ (d p : Fin 4) (s : State), let w := s.look; let port := 4 * d.val + p.val; let ch := 1024 + 8 * port; let info := Reg.CAP_PORT_INFO d p
    (∀ (rank : Fin 2) (rate : Fin 8) (hot : Bool), s.powered = true ∧ w.clocked = true ∧ bits (w.fld (Reg.CAP_STATUS d) Fld.CAP_STATUS_TRAINED) p 1 = 1 →
      (goesTo (exec (.capTempRead d p rank .clean rate hot) s) fun t =>
        t.look.fld info Fld.CAP_PORT_INFO_REF_RATE = rate.val ∧ SMap.get false t.hw.capHot (2 * port + rank.val) = hot ∧
          sameWordsBut [info] s t ∧ sameBytes s t ∧ t.hw = { s.hw with capHot := t.hw.capHot } ∧ t.pending = s.pending) ∧
      (let v := w.chTransient ch Fld.CAP_ERR_STAT_PORT_TRANSIENT;
        exec (.capTempRead d p rank .transient rate hot) s = done s { (v.setFld info Fld.CAP_PORT_INFO_REF_RATE rate.val) with
          hw := { v.hw with capHot := SMap.set false v.hw.capHot (2 * port + rank.val) hot } }) ∧
      exec (.capTempRead d p rank .lasting rate hot) s =
        done s ((w.setFlag (Reg.CAP_ERR_STAT d) Fld.CAP_ERR_STAT_PORT_FAIL true).capPortFails d p 2)) ∧
    let bursts := w.fld info Fld.CAP_PORT_INFO_USABLE * 2 ^ 23; let n := (w.chan ch).scrub
    let a := 0x20000000000 + port * 2 ^ 37 + 64 * (if n < bursts then n else 0); let on := w.chanOf a
    (s.powered = true ∧ w.clocked = true ∧ 0 < bursts ∧ w.flag (Reg.CAP_CTRL d) Fld.CAP_CTRL_SCRUB_EN = true ∧ w.chHasEcc on = true ∧
        w.capGone on = false ∧ w.chFailed on = false ∧ (w.chan on).queue.length < w.chDepth on → goesTo (exec (.capScrubRead d p) s) fun t =>
      (t.look.chan on).queue = (w.chan on).queue ++ [⟨none, a, 64, 0, none, none, 0, 0, w.chNow on⟩] ∧
        (t.look.chan ch).scrub = (if n < bursts then n else 0) + 1 ∧ (∀ x, x ≠ ch → x ≠ on → t.look.chan x = w.chan x) ∧
        t.hw = { s.hw with chans := t.hw.chans } ∧ sameBytes s t ∧ sameWords s t ∧ t.pending = s.pending)) ∧
  (∀ (m : Master) (d : Fin 4) (value : Word) (s : State), let w := s.look; let st := Reg.CAP_STATUS d; let ctl := Reg.CAP_CTRL d
    let busy := w.flag st Fld.CAP_STATUS_BUSY; let on := w.flag ctl Fld.CAP_CTRL_EN
    let ty := w.fld ctl Fld.CAP_CTRL_TYPE; let inline := w.fld ctl Fld.CAP_CTRL_INLINE_ECC; let rate := w.fld ctl Fld.CAP_CTRL_RATE
    let takes := s.powered = true ∧ w.regTakes (Reg.CAP_CMD d) = true
    (takes ∧ value.getLsbD 0 = true ∧ busy = false ∧ on = true → goesTo (exec (.capTrain m d value) s) fun t =>
      t.look.flag st Fld.CAP_STATUS_BUSY = true ∧ t.look.fld st Fld.CAP_STATUS_TRAINED = 0 ∧ t.look.fld st Fld.CAP_STATUS_FAILED = 0 ∧
        onlyWords [st] s t) ∧
    (takes ∧ value.getLsbD 0 = true ∧ (busy = true ∨ on = false) → exec (.capTrain m d value) s =
      done s (w.clamp (w.clampBy m) (Reg.CAP_CMD d) 0 0 .joined)) ∧
    (∀ p0 p1 p2 p3 : PortReport, let ps := [p0, p1, p2, p3]
      s.powered = true ∧ busy = true ∧ on = true ∧ w.capMismatch d ps = false ∧ (∀ p ∈ ps, portPasses p = true ∧ p.first = true) →
        goesTo (exec (.capTrainDone d p0 p1 p2 p3) s) fun t =>
          t.look.flag st Fld.CAP_STATUS_BUSY = false ∧ t.look.flag st Fld.CAP_STATUS_MISMATCH = false ∧
          bits (t.look.fld st Fld.CAP_STATUS_TRAINED) 0 4 = 15 ∧ SMap.get 0 t.hw.capMode d = 1 + ty + 4 * inline + 8 * rate ∧
          (∀ q : Fin 4, let p := ps.getD q p0; let n := p.installed.toNat
            t.look.fld (Reg.CAP_PORT_INFO d q) Fld.CAP_PORT_INFO_USABLE = (if ty ≠ 2 ∧ inline = 1 then n - n / 8 else n)) ∧
          sameWordsBut ([st] ++ (List.range 4).map (Reg.CAP_PORT_INFO d)) s t ∧ sameBytes s t ∧ t.hw.cores = s.hw.cores) ∧
    (s.powered = true ∧ w.regTakes ctl = true ∧ value.getLsbD 4 = false ∧ on = true → goesTo (exec (.capEnClear m d value) s) fun t =>
      t.look.flag ctl Fld.CAP_CTRL_EN = false ∧ t.look.fld st Fld.CAP_STATUS_TRAINED = 0 ∧ t.look.flag st Fld.CAP_STATUS_SELFREF = true ∧
        SMap.get 0 t.hw.capMode d = 0 ∧ sameBytes s t ∧ t.hw.cores = s.hw.cores))

/-- A paging unit takes up a request (R337, R338): a hit is counted and goes on through its leaf, a miss starts or joins a walk, a request of no live
context is a fault; a walk's end fills the buffer and sends every request that shares it on, to wait for a move, or into the fault it found.
Hints (R348, R349): the engine of the cell's region forwards each slab of a hint to the slab's target region, whose engine skips and counts a
slab of a context without policy, queues the promotions of PREPAGE, and clears the use counts for RELEASE. -/
def Obligations.PgeTranslates : Prop :=
  (∀ (req : Nat) (q : Req) (s : State), let w := s.look; let r := q.pge; let x := q.ctx.getD 0
    let turn := s.powered = true ∧ w.req? req = some q ∧ w.pgeUp r = true
    (turn ∧ q.stage = .translate ∧ w.behind req q = false →
      (∀ t, q.ctx = some x ∧ w.ctxLive x = true ∧ (w.pge r).lookup x q.page = some t → exec (.translate req) s =
        done s ((w.bump (Reg.PGE_TB_HIT r) 1).throughLeaf req q t.id t.leaf.toNat)) ∧
      (q.ctx = some x ∧ w.ctxLive x = true ∧ (w.pge r).lookup x q.page = none ∧ ((w.walks r).length < 64 ∨ (q.ctx, q.page) ∈ w.walks r) →
        exec (.translate req) s = done s ((w.bump (Reg.PGE_TB_MISS r) 1).setReq req { q with stage := .walk })) ∧
      (q.ctx = none ∨ w.ctxLive x = false → exec (.translate req) s = done s (w.xlateFault req q 1 0))) ∧
    ∀ (victim : Fin 4096) (v : Work), turn ∧ q.stage = .walk ∧ w.underInval x q.page = false →
      (∀ kind level, w.walkCount true r x q.page = (.fault kind level, v) → exec (.pageWalkDone req victim) s =
        done s (v.forEach (w.walkers r q.ctx q.page) fun w e => w.xlateFault e.1 e.2 kind level)) ∧
      ∀ id a e, w.walkCount true r x q.page = (.leaf id a e, v) →
        (leafMigrating e = true → exec (.pageWalkDone req victim) s =
          done s (v.forEach (w.walkers r q.ctx q.page) fun w p => w.setReq p.1 { p.2 with stage := .held })) ∧
        (leafMigrating e = false → exec (.pageWalkDone req victim) s =
          done s (((v.updPge r fun p => p.fill ⟨id, BitVec.ofNat 64 e⟩ victim).useLeaf id e).forEach (w.walkers r q.ctx q.page)
            fun w p => w.throughLeaf p.1 p.2 id e))) ∧
  (∀ (r : RegionIx) (h : Hint) (rest : List Hint) (s : State), let w := s.look; let p := w.pge r
    (s.powered = true ∧ w.engineUp r = true ∧ p.hints = h :: rest →
      let u := w.updPge r fun p => { p with hints := rest }
      exec (.hintReceive r) s = done s (u.forEach (List.range h.count) fun w i =>
        w.updPge (placeRegion (u.policy r h.ctx) r (32 * (h.slab + i))) fun p => { p with slabs := p.slabs ++ [⟨h.ctx, h.slab + i, 1, h.release⟩] })) ∧
    (s.powered = true ∧ w.engineUp r = true ∧ p.slabs = h :: rest →
      let u := w.updPge r fun p => { p with slabs := rest }; let pol := u.policy r h.ctx; let l := u.slabLeaves r h.ctx h.slab
      let skips := w.flag (Reg.PGE_CTRL r) Fld.PGE_CTRL_MIG_EN = false ∨ bits pol 0 1 = 0 ∨ bits pol 1 1 = 0 ∨ bits pol 2 1 = 0 ∨ l = []
      (skips → exec (.hintSlab r) s = done s (u.bump (Reg.PGE_HINT_SKIP r) 1)) ∧
      (∀ id e, ¬ skips ∧ l = [(id, e)] ∧ h.release = false ∧ leafTier e = 1 ∧ leafPin e = false → exec (.hintSlab r) s =
        done s (u.queueMove r ⟨id, BitVec.ofNat 64 e, true, r.val⟩ fun w => w.bump (Reg.PGE_HINT_DROP r) 1)) ∧
      (∀ id e, ¬ skips ∧ l = [(id, e)] ∧ h.release = true ∧ leafTier e = 0 ∧ w.flag (Reg.PGE_POLICY r) Fld.PGE_POLICY_RELEASE_NOW = false →
        let f := leafFrame id.slab e
        exec (.hintSlab r) s = done s (u.updPge (f / 524288) fun p => { p with use := SMap.set 0 p.use (f / 32) 0 }))))

/-- A write through a clean copy (R339): SHADOW_V is cleared in the entry and in the buffer, the shadow's frame goes back, and the write goes on;
where the entry is another one by now, the buffered leaf is dropped and the request is walked again. Shootdowns (R340): a write of PGE_INVAL
starts one over its pages; a paging unit drops the leaves it covers and acknowledges once it is drained; when all sixteen have acknowledged, the
change that it was for goes on. -/
def Obligations.PgeShootsDown : Prop :=
  (∀ (req : Nat) (q : Req) (t : TbEntry) (s : State) (v : Work), let w := s.look; let r := q.pge; let x := q.ctx.getD 0
    s.powered = true ∧ w.req? req = some q ∧ w.pgeUp r = true ∧ q.stage = .held ∧ q.op.isWrite = true ∧ (w.pge r).lookup x q.page = some t →
    (∀ a e, w.walk r x q.page = (.leaf t.id a e, v) ∧ leafTier e = 0 ∧ leafMigrating e = false ∧ leafShadowV e = true ∧
        leafFrame t.id.slab e = leafFrame t.id.slab t.leaf.toNat → let e' := setBits e 3 1 0
      exec (.shadowClear req) s = done s ((((v.unitPut a 8 e').releaseFrames 1 (leafShadow t.id.slab e) t.id.slab false).updPge r fun p =>
        { p with tb := p.tb.map fun y => if y.id = t.id then { y with leaf := BitVec.ofNat 64 e' } else y }).throughLeaf req
          { q with stage := .translate } t.id e')) ∧
    (let again := done s ((v.updPge r fun p => { p with tb := p.tb.filter fun y => decide (y.id ≠ t.id) }).setReq req { q with stage := .walk });
      (∀ kind level, w.walk r x q.page = (.fault kind level, v) → exec (.shadowClear req) s = again) ∧
      (∀ id a e, w.walk r x q.page = (.leaf id a e, v) ∧ (id ≠ t.id ∨ leafTier e = 1 ∨ leafMigrating e = true ∨
          leafFrame id.slab e ≠ leafFrame id.slab t.leaf.toNat) → exec (.shadowClear req) s = again))) ∧
  (∀ (r : RegionIx) (inval : Nat) (value : DWord) (s : State), let w := s.look
    (s.powered = true ∧ w.regTakes (Reg.PGE_INVAL r) = true → let v := value.toNat; let all := decide (bits v 10 1 = 1); let n := s.hw.nextInval
      let lo := if all then 0 else bits v 16 32; let hi := if all then 2 ^ 32 else lo + bits v 48 16 + 1
      goesTo (exec (.pgeInval r value) s) fun t => SMap.find? t.hw.invals n = some ⟨bits v 0 10, lo, hi, [], .write none⟩ ∧
        (∀ k, k ≠ n → SMap.find? t.hw.invals k = SMap.find? s.hw.invals k) ∧ sameBytes s t ∧ sameWords s t ∧
        t.hw = { s.hw with invals := t.hw.invals, nextInval := n + 1 } ∧ t.pending = s.pending) ∧
    ∀ v, s.powered = true ∧ SMap.find? s.hw.invals inval = some v →
      (w.pgeUp r = true ∧ v.acks.contains r.val = false → goesTo (exec (.shootdown r inval) s) fun t =>
        (t.look.pge r).tb = ((w.pge r).tb.filter fun t =>
          !(decide (t.id.ctx = v.ctx) && decide (t.id.page < v.hi) && decide (v.lo < t.id.page + t.id.pages))) ∧
        SMap.find? t.hw.invals inval = some (if w.drainedIn r v then { v with acks := v.acks ++ [r.val] } else v) ∧
        (∀ x, x ≠ r.val → t.look.pge x = w.pge x) ∧ sameBytes s t ∧ sameWords s t ∧
        t.hw = { s.hw with paging := t.hw.paging, invals := t.hw.invals } ∧ t.pending = s.pending) ∧
      (allAcked v = true → let u : Work := { w with hw := { w.hw with invals := SMap.del w.hw.invals inval } }
        (∀ i, v.purpose = .write (some i) → exec (.shootdownAck inval) s = done s (u.answer i .ok)) ∧
        (v.purpose = .write none → exec (.shootdownAck inval) s = done s u) ∧
        (∀ n, v.purpose = .move n → exec (.shootdownAck inval) s =
          done s (u.updPge n fun p => { p with move := p.move.map fun m => if m.inval = inval then { m with free := true } else m })) ∧
        (∀ n a rest, v.purpose = .unmap n ∧ (w.alc n).waiting = true ∧ (w.alc n).queue = a :: rest → exec (.shootdownAck inval) s =
          done s (u.finishUnmap n))))

/-- The migration engine (R342–R347): it takes the next queued leaf, marks it, takes its frame and sends the shootdown; a leaf with a clean copy
needs no frame; with no frame and no leaf to demote the move is dropped and counted; when the copy ends the leaf names the new frame and requests
go on. A paging unit handles a finding (R356, R358): a scrub finding that reads well is a transient error; a free frame is retired; one in the
reserve is poisoned and goes to the region level; a shadow is dropped; a leaf with a clean copy is restored from it, and any other is poisoned. -/
def Obligations.PgeMovesLeaves : Prop :=
  (∀ (r : RegionIx) (dest frame : Nat) (s : State) (v : Work), let w := s.look; let p := w.pge r
    let runs := s.powered = true ∧ w.engineUp r = true
    (∀ m rest a e, runs ∧ w.flag (Reg.PGE_CTRL r) Fld.PGE_CTRL_MIG_EN = true ∧ p.move = none ∧ p.queue = m :: rest ∧
        (w.updPge r fun p => { p with queue := rest }).walk r m.id.ctx m.id.page = (.leaf m.id a e, v) ∧ BitVec.ofNat 64 e = m.leaf ∧
        leafMigrating e = false →
      (m.promote = true ∧ leafTier e = 1 ∧ v.stackHasFree m.target m.id.slab = true ∧ dest / 524288 = m.target ∧ v.framesFree 0 dest m.id.slab = true →
        exec (.migrationMove r dest) s = done s (v.startMove r m a e (some dest) false)) ∧
      (m.promote = true ∧ leafTier e = 1 ∧ v.stackHasFree m.target m.id.slab = false ∧ v.demotable m.target = [] →
        exec (.migrationMove r dest) s = done s (v.bump (Reg.PGE_MIG_FAIL r) 1)) ∧
      (m.promote = false ∧ leafTier e = 0 ∧ leafShadowV e = true → exec (.migrationMove r dest) s = done s (v.startMove r m a e none false)) ∧
      (∀ port, m.promote = false ∧ leafTier e = 0 ∧ leafShadowV e = false ∧ v.demotePort r m.id.slab = some port ∧ dest / 2097152 = port ∧
          v.framesFree 1 dest m.id.slab = true →
        exec (.migrationMove r dest) s = done s (v.startMove r m a e (some dest) false))) ∧
    (∀ x d a e, runs ∧ p.move = some x ∧ x.free = true ∧ x.dest = some d ∧ x.entry.promote = true ∧
        w.walk r x.entry.id.ctx x.entry.id.page = (.leaf x.entry.id a e, v) →
      let id := x.entry.id; let f := leafFrame id.slab e
      let u := ((v.copyFrames (frameDpa (leafTier e) f) (frameDpa 0 d) id.pages).bump (Reg.PGE_COPY_BYTES r) (65536 * id.pages)).unitPut a 8
        (setBits (setBits (setBits (setBits (setBits e 6 1 0) 9 25 d) 34 25 f) 3 1 1) 2 1 0)
      exec (.migrationCopyDone r) s = done s (((((u.setRecords 1 f id.slab 2 id.ctx id.page).bump (Reg.PGE_PROMOTED r) 1).updPge r fun p =>
        { p with move := none }).touchLog r).wakeHeld id)) ∧
    (∀ id a e, let use (f : Nat) : Nat := SMap.get 0 p.use (f / 32); let l := w.demotable r
      runs ∧ w.flag (Reg.PGE_CTRL r) Fld.PGE_CTRL_MIG_EN = true ∧ p.move = none ∧ w.freeSlabs r < w.fld (Reg.PGE_EVICT_CFG r) Fld.PGE_EVICT_CFG_FREE_LOW ∧
        (l.find? fun e => decide (e.1 = frame) && decide (use frame = l.foldl (fun n e => min n (use e.1)) 255)) = some (frame, id, a, e) →
      exec (.demoteStart r frame dest) s = done s (w.beginDemotion r ⟨id, BitVec.ofNat 64 e, false, r.val⟩ a e dest true)) ∧
    (runs → goesTo (exec (.epochHalve r) s) fun t =>
      (t.look.pge r).access = p.access.map (fun a => { a with count := a.count / 2 }) ∧
        (t.look.pge r).queue = p.queue ∧ (t.look.pge r).tb = p.tb ∧ (∀ x, x ≠ r.val → t.look.pge x = w.pge x) ∧
        (t.look.pge r).use = (p.use.map fun e => (e.1, e.2 / 2)).filter (fun e => decide (e.2 ≠ 0)) ∧ sameBytes s t ∧ sameWords s t ∧
        t.hw = { s.hw with paging := t.hw.paging } ∧ t.pending = s.pending)) ∧
  (∀ (r : RegionIx) (reread : ReadCheck) (shadow : Bool) (u : UeReport) (rest : List UeReport) (s : State) (v : Work), let w := s.look
    let w1 : Work := { w with hw := { w.hw with ueReports := SMap.set [] w.hw.ueReports r rest } }
    let tier := if u.dpa < 0x20000000000 then 0 else 1; let f := if tier = 0 then u.dpa / 65536 else (u.dpa - 0x20000000000) / 65536
    let e0 : FaultInfo := { kind := 0x12, level := 2, lasting := false, ctx := none, die := r, unit := 8, core := 0, gen := 0, tag := 0, addr := none, detail := 0 }
    let runs := s.powered = true ∧ w.engineUp r = true ∧ SMap.get [] s.hw.ueReports r = u :: rest
    let lasts := runs ∧ ¬ (u.scrub = true ∧ reread ≠ .lasting) ∧ w1.alcOn (frameOwner tier f) = true ∧ w1.reserveShort (frameOwner tier f) = false
    (runs ∧ u.scrub = true ∧ reread ≠ .lasting → exec (.pgeUeReport r reread shadow) s =
      done s ((w1.pgeFinding r u 0 none Fld.PGE_ERR_STAT_SCRUB_TRANSIENT).transientCount e0 (Reg.PGE_ERR_STAT r) Fld.PGE_ERR_STAT_TRANSIENT_CNT)) ∧
    (∀ c p, lasts ∧ w1.record? tier f = (0, c, p) → exec (.pgeUeReport r reread shadow) s =
      done s ((w1.retireFrame tier f).pgeFinding r u 4 none Fld.PGE_ERR_STAT_RETIRED)) ∧
    (∀ c p, lasts ∧ w1.record? tier f = (3, c, p) → exec (.pgeUeReport r reread shadow) s =
      done s (((w1.poisonBurst u).pgeFinding r u 5 none Fld.PGE_ERR_STAT_RESERVE_UE).fault
        { e0 with kind := 0x13, lasting := true, addr := some (u.dpa, false) })) ∧
    (∀ c p id a e, lasts ∧ w1.record? tier f = (2, c, p) ∧ w1.walk r c p = (.leaf id a e, v) → exec (.pgeUeReport r reread shadow) s =
      done s ((((v.unitPut a 8 (setBits e 3 1 0)).releaseFrames 1 (leafShadow id.slab e) id.slab false).retireFrame tier f).pgeFinding r u 2
        (some c) Fld.PGE_ERR_STAT_SHADOW_DROPPED)) ∧
    (∀ c p id a e, lasts ∧ w1.record? tier f = (1, c, p) ∧ w1.walk r c p = (.leaf id a e, v) →
      ((leafShadowV e && v.flag (Reg.PGE_CTRL r) Fld.PGE_CTRL_RESTORE_EN) = false → exec (.pgeUeReport r reread shadow) s =
        done s (v.poisonLeaf r u (some c) (some (a, e)))) ∧
      (∀ b v', leafShadowV e = true ∧ v.flag (Reg.PGE_CTRL r) Fld.PGE_CTRL_RESTORE_EN = true ∧ shadow = true ∧
          v.unitRead (frameDpa 1 (leafShadow id.slab e) + u.dpa % (if id.slab then 2 ^ 21 else 65536)) 64 = (some b, v') →
        exec (.pgeUeReport r reread shadow) s = done s ((v'.unitWrite u.dpa b).pgeFinding r u 1 (some c) Fld.PGE_ERR_STAT_RESTORED))))

/-- A record written to ALC_SUBMIT is read, clamped and queued at the allocator that performs it, or turned away with STATUS 5 when that allocator is
off or its queue is full (R351–R353); a NOP completes with STATUS 1 and a QUERY returns the leaf entry that maps ARG, or zero. -/
def Obligations.AlcQueuesAndAnswers : Prop :=
  ∀ (m : Master) (r : RegionIx) (value : DWord) (s : State), let w := s.look
    (∀ n w1 body w2 w3 rec3, let who := w.clampBy m; let a : AlcRec := ⟨bits n 0 46, r, BitVec.ofNat 256 rec3⟩; let p := a.performer
      s.powered = true ∧ w.regTakes (Reg.ALC_SUBMIT r) = true ∧ w.woWrite who (Reg.ALC_SUBMIT r) value.toNat = (n, w1) ∧
          w1.unitLE (bits n 0 46) 32 = (some body, w2) ∧ w2.clampRecord who (bits n 0 46) body = (w3, rec3) →
        (w3.alcOn p = true ∧ (w3.alc p).queue.length < 64 → exec (.alcSubmit m r value) s =
          done s (w3.updAlc p fun x => { x with queue := x.queue ++ [a] })) ∧
        (w3.alcOn p = false ∨ 64 ≤ (w3.alc p).queue.length → exec (.alcSubmit m r value) s =
          done s ((w3.setFlag (Reg.ALC_ERR_STAT p) Fld.ALC_ERR_STAT_REJECTED true).recordDone p a 5 0))) ∧
    ∀ a rest v, s.powered = true ∧ w.alcOn r = true ∧ (w.alc r).queue = a :: rest ∧ (w.alc r).waiting = false →
      (a.op = 0 → exec (.alcNop r) s = done s (w.alcDone r a 1 0)) ∧
      (∀ id p e, a.op = 9 ∧ w.walk r a.ctx a.page = (.leaf id p e, v) → exec (.query r) s = done s (v.alcDone r a 1 e)) ∧
      (∀ k l, a.op = 9 ∧ w.walk r a.ctx a.page = (.fault k l, v) → exec (.query r) s = done s (v.alcDone r a 1 0))

/-- MAP_PAGES and MAP_SLABS (R353–R355): one leaf is mapped in the place and the frame chosen, and RESULT is the first frame; a range with a page
mapped completes with STATUS 3, an allocator without room with STATUS 2, and then nothing but the record has changed. UNMAP and UNMAP_CTX send
the shootdown of their pages, once no leaf migrates, and wait for it (R354); ALLOC_SPM and ALLOC_DESC give a free run to the context, FREE_SPM
and FREE_DESC take back what it holds, and a run that it does not hold completes with STATUS 6 (R352, R353). -/
def Obligations.AlcOperations : Prop :=
  (∀ (r : RegionIx) (choices : List Nat) (slab : Bool) (a : AlcRec) (rest : List AlcRec) (s : State), let w := s.look
    let cmd : Instr := if slab then .mapSlabs r choices else .mapPages r choices; let unit := if slab then 32 else 1
    s.powered = true ∧ w.alcOn r = true ∧ (w.alc r).queue = a :: rest ∧ (w.alc r).waiting = false ∧ a.op = (if slab then 2 else 1) →
      (w.reserveShort r = true → exec cmd s = done s (w.alcDone r a 2 0)) ∧
      (w.reserveShort r = false ∧ w.anyMapped r a.ctx a.page (a.count * unit) = true → exec cmd s = done s (w.alcDone r a 3 0)) ∧
      (∀ at_ v tier src f more, w.reserveShort r = false ∧ w.anyMapped r a.ctx a.page (a.count * unit) = false ∧ a.count = 1 ∧ a.zero = false ∧
          w.leafPlace r a.ctx a.page slab choices = (.going (f :: more) [], at_, v) ∧ v.mapSource a a.page slab [] = some (tier, src) ∧
          (if tier = 0 then f / 524288 else f / 2097152) = src ∧ v.framesFree tier f slab = true →
        exec cmd s = done s (((v.setRecords tier f slab 1 a.ctx a.page).unitPut at_ 8 (leafOf tier f a.pin)).alcDone r a 1 f)) ∧
      (∀ at_ v more t, w.reserveShort r = false ∧ w.anyMapped r a.ctx a.page (a.count * unit) = false ∧ a.count = 1 ∧
          w.leafPlace r a.ctx a.page slab choices = (.going more t, at_, v) ∧ v.mapSource a a.page slab [] = none →
        exec cmd s = done s (w.alcDone r a 2 0))) ∧
  (∀ (r : RegionIx) (g0 : Fin 256) (d0 : Fin 16384) (a : AlcRec) (rest : List AlcRec) (s : State), let w := s.look
    let g := a.arg % 256; let firstG := 256 * g + bits a.arg 8 24 / 65536; let firstD := 16384 * r.val + a.arg
    let freeD (i : Nat) : Bool := decide (SMap.get 0 s.hw.descOwner (16384 * r.val + i) = 0)
    let fill (m : SMap Nat) (b v : Nat) : SMap Nat := (List.range a.count).foldl (fun m i => SMap.set 0 m (b + i) v) m
    s.powered = true ∧ w.alcOn r = true ∧ (w.alc r).queue = a :: rest ∧ (w.alc r).waiting = false →
      (a.op = 3 ∧ ((w.unmapLeaves r a).any fun l => leafMigrating l.2.2) = false → exec (.unmap r) s =
        done s (((w.startInval a.ctx a.page (a.page + a.count) (.unmap r)).2).updAlc r fun x => { x with waiting := true })) ∧
      (a.op = 8 ∧ ((w.unmapLeaves r a).any fun l => leafMigrating l.2.2) = false → exec (.unmapCtx r) s =
        done s (((w.startInval a.ctx 0 (2 ^ 32) (.unmap r)).2).updAlc r fun x => { x with waiting := true })) ∧
      (a.op = 4 ∧ hasRun 256 a.count (w.granuleFree g) = false → exec (.allocSpm r g0) s = done s (w.alcDone r a 2 0)) ∧
      (a.op = 4 ∧ hasRun 256 a.count (w.granuleFree g) = true ∧ g0.val + a.count ≤ 256 ∧ (∀ i, i < a.count → w.granuleFree g (g0.val + i) = true) →
        exec (.allocSpm r g0) s = done s (({ w with hw := { w.hw with granules := fill w.hw.granules (256 * g + g0.val) (a.ctx + 1) } } : Work).alcDone r a 1
          (65536 * g0.val))) ∧
      (a.op = 5 ∧ (∀ i, i < a.count → SMap.get 0 s.hw.granules (firstG + i) = a.ctx + 1) → exec (.freeSpm r) s =
        done s (({ w with hw := { w.hw with granules := fill w.hw.granules firstG 0 } } : Work).alcDone r a 1 0)) ∧
      (a.op = 5 ∧ (∃ i, i < a.count ∧ SMap.get 0 s.hw.granules (firstG + i) ≠ a.ctx + 1) → exec (.freeSpm r) s = done s (w.alcDone r a 6 0)) ∧
      (a.op = 6 ∧ hasRun 16384 a.count freeD = false → exec (.allocDesc r d0) s = done s (w.alcDone r a 2 0)) ∧
      (a.op = 6 ∧ hasRun 16384 a.count freeD = true ∧ d0.val + a.count ≤ 16384 ∧ (∀ i, i < a.count → freeD (d0.val + i) = true) →
        exec (.allocDesc r d0) s = done s (({ w with hw := { w.hw with descOwner := fill w.hw.descOwner (16384 * r.val + d0.val) (a.ctx + 1) } } :
          Work).alcDone r a 1 d0)) ∧
      (a.op = 7 ∧ a.arg < 16384 ∧ (∀ i, i < a.count → SMap.get 0 s.hw.descOwner (firstD + i) = a.ctx + 1) → exec (.freeDesc r) s =
        done s (({ w with hw := { w.hw with descOwner := fill w.hw.descOwner firstD 0 } } : Work).alcDone r a 1 0)) ∧
      (a.op = 7 ∧ (16384 ≤ a.arg ∨ ∃ i, i < a.count ∧ SMap.get 0 s.hw.descOwner (firstD + i) ≠ a.ctx + 1) → exec (.freeDesc r) s =
        done s (w.alcDone r a 6 0)))

/-- The entry of a context (R361–R363): a FREE entry written 1 is admitted: its save slots are cleared, CONS is 0, STATE is 1; an IDLE or ACTIVE one
written 3 is withdrawn; an IDLE one, or a withdrawn one that is placed nowhere, written 0 is FREE; another transition is a clamp. Exits (R367,
R368, R375): a store to SCH_EXIT by the control core of a core with a launch in progress marks the core exiting; when its commands have
completed, its links and banks are emptied, its context saved and taken off, and LEFT counts down. -/
def Obligations.SchContexts : Prop :=
  (∀ (m : Master) (x : CtxIx) (value : Word) (s : State), let w := s.look; let a := Reg.SCH_CTX_CTRL x; let old := w.ctxState x
    let v (n : Nat) : Work := w.regWrite m a .w32 15 n; let n3 := setBits value.toNat 0 3 3; let n0 := setBits value.toNat 0 3 0
    let back (n : Nat) : Work := (v n).setFld a Fld.SCH_CTX_CTRL_STATE old
    s.powered = true →
      (old = 0 ∧ (v value.toNat).ctxState x = 1 → exec (.ctxAdmit m x value) s = done s ((back value.toNat).admitCtx x) ∧
        goesTo (exec (.ctxAdmit m x value) s) fun t => t.look.ctxState x = 1 ∧ t.look.cons x = 0) ∧
      ((old = 1 ∨ old = 2) ∧ (v n3).ctxState x = 3 → exec (.ctxWithdraw m x value) s = done s ((back n3).withdrawCtx x)) ∧
      ((v n0).ctxState x = 0 ∧ (old = 1 ∨ (old = 3 ∧ (v n0).isPlaced x = false)) → exec (.ctxFree m x value) s = done s (v n0) ∧
        goesTo (exec (.ctxFree m x value) s) fun t => t.look.ctxState x = 0) ∧
      ((v n0).ctxState x = 0 ∧ old = 2 → exec (.ctxFree m x value) s = done s (((back n0).clamp (w.clampBy m) a 0 0 .joined).schPend))) ∧
  (∀ (c : CoreIx) (value : Word) (s : State), let w := s.look; let g := coreGlobal c; let sc := Reg.SCH_CORE g
    (∀ x, s.powered = true ∧ w.regTakes Reg.SCH_EXIT = true ∧ w.placedCtx c = some x →
      (w.ctxState x = 2 ∧ exitKey x g ∉ s.hw.exited → goesTo (exec (.schExit (.cell c 0) value) s) fun t =>
        SMap.find? t.hw.exiting c = some (1 + value.toNat % 65536) ∧ (∀ d, d ≠ c.val → SMap.find? t.hw.exiting d = SMap.find? s.hw.exiting d) ∧
          sameBytes s t ∧ sameWords s t ∧ t.hw = { s.hw with exiting := t.hw.exiting } ∧ t.pending = s.pending) ∧
      (w.ctxState x ≠ 2 ∨ exitKey x g ∈ s.hw.exited → exec (.schExit (.cell c 0) value) s = .next s)) ∧
    (∀ h, exec (.schExit (.host h) value) s = .next s) ∧
    (∀ code x, s.powered = true ∧ SMap.find? s.hw.exiting c = some code ∧ w.placedCtx c = some x ∧ w.coreUp c = true ∧ (w.core c).drained = true ∧
        (w.core c).halt = .none ∧ w.openStep c = false →
      let u0 := w.updCore c fun k => { k with
          links := k.links.map fun l => (l.1, { l.2 with full0 := false, full1 := false, prod := 0, cons := 0 })
          mtx := { k.mtx with bank0 := { k.mtx.bank0 with state := .empty }, bank1 := { k.mtx.bank1 with state := .empty }, closed := [] } }
      let u1 := (u0.forEach (List.range 15) fun w i => w.applyLinkCfg c i).setFld sc Fld.SCH_CORE_EXIT_CODE (code - 1)
      let u2 := (u1.switchOut c x true).exitPhase x g
      let u3 : Work := { u2 with hw := { u2.hw with exiting := SMap.del u2.hw.exiting c, exited := exitKey x g :: u2.hw.exited } }
      let r := Reg.SCH_CTX_RUN x
      let u4 := (u3.setFld r Fld.SCH_CTX_RUN_LEFT (u3.fld r Fld.SCH_CTX_RUN_LEFT - 1)).launchEnds x
      exec (.exitFinish c) s = done s (if u4.schOn then u4.placeNext c else u4)))

/-- Work rings (R365–R368): the scheduler reads entry CONS of an IDLE context that has one, clamps it and keeps it; a NOP is consumed at once; a
LAUNCH makes the context ACTIVE, with LEFT its cores, every core's save state cleared, and its virtual time no lower than its peers'. The
scheduler's decisions (R372–R376): a quantum's end asks for the core when an equal waits; an idle core takes its next context; a gang reserves
its ready cores and is placed on all of them at once; a core overdue is reported. -/
def Obligations.SchRingsAndDecisions : Prop :=
  (∀ (x : CtxIx) (s : State), let w := s.look; let turn := s.powered = true ∧ w.schOn = true ∧ w.ctxState x = 1
    let cores := (List.range 256).filter fun g => w.ctxMask x g
    (∀ bytes v, turn ∧ w.producer x ≠ w.cons x ∧ SMap.find? s.hw.ringEntries x = none ∧ w.unitRead (w.ringAt x) 64 = (some bytes, v) →
      let k0 : Clamping := ⟨v, BitVec.ofNat 512 (leNat bytes), .program x, some (w.ringAt x)⟩
      let k := ((k0.field 0 0 4 (Legal.take 2 15 1).apply).field 4 0 24 (Legal.align 256).apply).field 5 0 24 (Legal.align 4).apply
      exec (.ringEntryRead x) s = done s { k.work with hw := { k.work.hw with ringEntries := SMap.put k.work.hw.ringEntries x k.cmd } }) ∧
    (∀ v, turn ∧ w.producer x ≠ w.cons x ∧ SMap.find? s.hw.ringEntries x = none ∧ w.unitRead (w.ringAt x) 64 = (none, v) →
      exec (.ringEntryRead x) s = done s (v.fault
        { kind := 0x03, level := 3, lasting := true, ctx := some x, die := 28, unit := 13, core := 0, gen := v.hw.genChip, tag := 0
          addr := some (w.ringAt x, false), detail := 0 })) ∧
    (∀ e, turn ∧ SMap.find? s.hw.ringEntries x = some e ∧ ringKind e = 0 → exec (.ringNop x) s = done s (w.consume x e)) ∧
    (∀ e, turn ∧ SMap.find? s.hw.ringEntries x = some e ∧ ringKind e = 1 → let u := (w.clearSlots x false).digestStart x cores
      let u1 : Work := { u with hw := { u.hw with exited := u.hw.exited.filter fun k => decide (k / 256 ≠ x.val) } }
      exec (.ringLaunch x) s = done s (((((u1.startVt x).setFld (Reg.SCH_CTX_CTRL x) Fld.SCH_CTX_CTRL_STATE 2).setFld (Reg.SCH_CTX_RUN x)
        Fld.SCH_CTX_RUN_LEFT (cores.filter fun g => !w.coreDisabled (globalSlot g)).length).launchEnds x).schPend))) ∧
  (∀ (c : CoreIx) (s : State), let w := s.look; let g := coreGlobal c; let sc := Reg.SCH_CORE g; let st := Reg.SCH_STATUS
    (∀ x y, s.powered = true ∧ w.placedCtx c = some x ∧ w.schOn = true ∧ coreSlot c < 16 ∧ y ∈ w.readyOn g ∧ y ≠ x ∧ w.prio x ≤ w.prio y →
      goesTo (exec (.quantumExpire c) s) fun t => t.look.flag sc Fld.SCH_CORE_PENDING = true ∧ onlyWords [sc] s t) ∧
    (s.powered = true ∧ w.schOn = true ∧ w.coreIdle c = true → exec (.contextPlace c) s = done s (w.placeNext c)) ∧
    (∀ y, s.powered = true ∧ w.schOn = true ∧ w.coreIdle c = true ∧ w.flag sc Fld.SCH_CORE_RESERVED = false ∧ w.nextCtx g = some y ∧ w.isGang y = false ∧
        w.firstOf (w.readyOn g) = some y ∧ w.wsConflict y g = false → exec (.contextPlace c) s = done s ((w.place_ c y).schPend)) ∧
    (∀ x, s.powered = true ∧ w.nextCtx g = some x ∧ w.schOn = true ∧ coreSlot c < 16 ∧ w.isGang x = true ∧ w.flag st Fld.SCH_STATUS_FORMING = false ∧
        w.placedCtx c ≠ some x → exec (.gangForm c) s =
      done s (((w.setFlag st Fld.SCH_STATUS_FORMING true).setFld st Fld.SCH_STATUS_GANG_CTX x).forEach
        ((List.range 256).filter fun g => w.ready x g && !w.wsConflict x g) fun w g =>
          (w.setFlag (Reg.SCH_CORE g) Fld.SCH_CORE_RESERVED true).setFlag (Reg.SCH_CORE g) Fld.SCH_CORE_PENDING true)) ∧
    (let x := w.fld st Fld.SCH_STATUS_GANG_CTX; let cores := (List.range 256).filter fun g => w.flag (Reg.SCH_CORE g) Fld.SCH_CORE_RESERVED
      s.powered = true ∧ w.schOn = true ∧ w.flag st Fld.SCH_STATUS_FORMING = true ∧
        (∀ g ∈ cores, w.coreIdle (globalSlot g) = true ∨ w.coreDisabled (globalSlot g) = true) → exec .gangPlace s =
      done s (((w.forEach cores fun w g =>
        let u := (w.setFlag (Reg.SCH_CORE g) Fld.SCH_CORE_RESERVED false).setFlag (Reg.SCH_CORE g) Fld.SCH_CORE_PENDING false
        if u.ready x g then u.place_ (globalSlot g) x else u).setFlag st Fld.SCH_STATUS_FORMING false).schPend)) ∧
    (∀ x, s.powered = true ∧ w.placedCtx c = some x ∧ w.clocked = true ∧ coreSlot c < 16 ∧ w.flag sc Fld.SCH_CORE_PENDING = true ∧
        w.flag sc Fld.SCH_CORE_OVERDUE = false → exec (.schOverdue c) s =
      done s ((w.setFlag sc Fld.SCH_CORE_OVERDUE true).schFault x g 1 0x21 Fld.SCH_ERR_STAT_OVERDUE)))

/-- Collective sets (R383): a write to an entry in LD(2a), on top of what waits, takes effect with its constraints and its copy when no lane holds an
open operation on the set; otherwise it waits and the entry reads as before, and it is applied when the last operation has closed. A COLL
(R386–R388, R415) opens the next operation of its set in its lane when the set is valid for its context, and is rejected otherwise; each repeat's
chunk is read out of the scratchpad and taken by the link dies when their stores have room; one that opens no operation is discarded. -/
def Obligations.ColSets : Prop :=
  (∀ (m : Master) (axis : Fin 4) (set : Fin 256) (off : Fin 24) (width : AccWidth) (be : BitVec 8) (data : DWord) (s : State), let w := s.look
    let c0 := Reg.COL_SET_CFG0 (2 * axis.val) set; let addrs := setOffsets.map (c0 + ·)
    let held := w.forEach addrs fun w x => match SMap.find? w.hw.setWrites x with | some v => w.w32 x v | none => w
    let u := held.regWrite m (c0 + off.val) width be.toNat data.toNat
    let effect (v : Work) : Work := let v := v.setTakesEffect axis set
      { v with hw := { v.hw with setWrites := addrs.foldl SMap.del v.hw.setWrites } }
    (s.powered = true ∧ u.setOpen axis set = false → exec (.colSetWrite m axis set off width be data) s = done s (effect u)) ∧
    (s.powered = true ∧ u.setOpen axis set = true → goesTo (exec (.colSetWrite m axis set off width be data) s) fun t =>
      ∀ x ∈ addrs, t.look.r32 x = w.r32 x ∧ (u.r32 x ≠ w.r32 x → SMap.find? t.hw.setWrites x = some (u.r32 x))) ∧
    (s.powered = true ∧ w.setOpen axis set = false ∧ (∃ o ∈ setOffsets, (SMap.find? s.hw.setWrites (c0 + o)).isSome = true) →
      exec (.colSetApply axis set) s = done s (effect held))) ∧
  (∀ (c : CoreIx) (str : StrIx) (check : ReadCheck) (r : Running) (s : State), let w := s.look; let d := 2 * collAxis r.cmd
    let c0 := Reg.COL_SET_CFG0 d (collSet r.cmd)
    let valid := w.flag c0 Fld.COL_SET_CFG0_VALID = true ∧ r.ctx = some (w.fld c0 Fld.COL_SET_CFG0_CTX) ∧ w.flag (Reg.COL_CTRL d) Fld.COL_CTRL_EN = true
    let due := s.powered = true ∧ (w.engine c (2 + str.val)).last = some r ∧ w.coreUp c = true ∧ cmdOpcode r.cmd = 8 ∧ r.ready = true ∧ r.stopped = false ∧
      0 < r.started ∧ r.pos = 0
    let taken (v : Work) : Work := v.updEngine c (2 + str.val) fun x => x.updLast fun r => { r with pos := 1 }
    (s.powered = true ∧ w.strUnread c str 8 = some r ∧ valid → exec (.strColl c str) s = done s (w.colOpen c str r)) ∧
    (s.powered = true ∧ w.strUnread c str 8 = some r ∧ ¬ valid → exec (.strColl c str) s = done s (w.colReject c str r)) ∧
    (due ∧ r.words = [0] → exec (.collChunkAccept c str check) s =
      done s (taken (w.bump (Reg.COL_DISCARD d) (if (w.colSetOf r.cmd).supplies then 1 else 0)))) ∧
    (∀ o v, due ∧ r.words ≠ [0] ∧ w.colOp? (collAxis r.cmd) (collSet r.cmd) (coreGlobal c) r.first = some o ∧ o.par.supplies = true →
      let n := chunkBytes o.par.src o.par.elems
      (w.colSupply o (r.started - 1) (w.strTake c r (r.started - 1) 0 n) check = some v → exec (.collChunkAccept c str check) s =
        done s (taken (v.bump (Reg.STR_BYTES c str) n))) ∧
      (w.colSupply o (r.started - 1) (w.strTake c r (r.started - 1) 0 n) check = none → exec (.collChunkAccept c str check) s = .next s)))

/-- Pieces and messages of collectives (R395–R400, R407, R408, R413): a packet for this chip leaves its receive buffer and is taken by its operation,
or goes on; a port sends its next packet; a CREDIT or BARRIER message reaches its operation; an idle operation ends as failed. -/
def Obligations.ColPiecesAndMessages : Prop :=
  ∀ (p : LinkIx) (bulk : Bool) (check : ReadCheck) (s : State), let w := s.look; let vc := if bulk then 3 else 2
    (∀ v k t, s.powered = true ∧ w.clocked = true ∧ w.rxHead p v = some k ∧ (w.rxTake p v k.flits).place (some p) (16 + p) k.pkt = (t, .delivered) →
      (v = vc ∧ k.pkt.ptype = 7 → exec (.collPiece p bulk check) s = done s (t.colDelivered p k.pkt check)) ∧
      (v = 1 ∧ k.pkt.ptype = 8 → exec (.colCredit p) s = done s (t.colMessageIn p k.pkt)) ∧
      (v = 1 ∧ k.pkt.ptype = 9 ∧ bits k.pkt.w7 8 1 = 0 → exec (.barrierArrive p) s = done s (t.colMessageIn p k.pkt)) ∧
      (v = 1 ∧ k.pkt.ptype = 9 ∧ bits k.pkt.w7 8 1 = 1 → exec (.barrierRelease p) s = done s (t.colMessageIn p k.pkt))) ∧
    (∀ o g, s.powered = true ∧ w.clocked = true ∧ ((w.port p).tx.any fun t => decide (t.pkt.vc = vc) && decide (t.input < 32)) = false ∧
        w.colNext p bulk = some (o, g) ∧ check ≠ .lasting → exec (.collPieceSend p bulk check) s = done s (w.colSendNext p bulk o g check)) ∧
    (∀ (set lane : Fin 256) o, s.powered = true ∧
        (s.hw.colOps.find? fun o => decide (o.axis = p.val / 2) && decide (o.set = set.val) && decide (o.lane = lane.val)) = some o →
      exec (.colWatchdog p set lane) s = done s (w.colFail o p 1 o.waitsFor))

/-- A flit received by an ACTIVE port (R421, R425–R431, R450) counts the corrected symbols; the check tells a data flit from a link flit; one that
passes neither, or that the decoder could not correct, is bad; an IDLE acknowledges and gives credit, a NAK replays, the eighth reset notice in a
row pauses. -/
def Obligations.LnkReceivesFlits : Prop :=
  ∀ (p : LinkIx) (flit : BitVec 1024) (corr : BitVec 16) (replay : Bool) (ack nak : BitVec 16) (credits : BitVec 128) (s : State), let w := s.look
    let u := w.bump (Reg.LNK_FEC_CORR p) corr.toNat; let seq := u.rxExpect p; let cred (v : Nat) : Nat := flitWord flit (8 + 2 * v)
    let given (v : Nat) : Nat := bits credits.toNat (16 * v) 16; let active := s.powered = true ∧ w.portActive p = true
    (active ∧ flitPasses flit seq 0 = true → exec (.flitReceive p flit corr false replay) s =
      done s (u.dataFlit p ((flitBody flit).map (BitVec.ofNat 8)))) ∧
    (active ∧ flitPasses flit seq 0 = false ∧ flitPasses flit seq 1 = true →
      (flitByte flit 0 = 0 → exec (.flitReceive p flit corr false replay) s = done s (u.idleFlit p (flitWord flit 2) cred)) ∧
      (flitByte flit 0 = 1 → exec (.flitReceive p flit corr false replay) s = done s (u.nakFlit p (flitWord flit 2) (flitWord flit 4) cred)) ∧
      (flitByte flit 0 = 2 → exec (.flitReceive p flit corr false replay) s = done s (u.noticeFlit p (flitWord flit 2) cred)) ∧
      (2 < flitByte flit 0 → exec (.flitReceive p flit corr false replay) s =
        done s ((u.clamp (.link p none) 0 0 0 .encoding).noticeFlit p (flitWord flit 2) cred))) ∧
    (active ∧ flitPasses flit seq 0 = false ∧ flitPasses flit seq 1 = false → exec (.flitReceive p flit corr false replay) s =
      done s (u.badFlit p replay)) ∧
    (active → exec (.flitReceive p flit corr true replay) s = done s ((u.bump (Reg.LNK_FEC_UNCORR p) 1).badFlit p replay)) ∧
    (active → exec (.linkFlit p ack credits) s = done s (w.idleFlit p ack.toNat given)) ∧
    (active → exec (.nakReceive p ack nak credits) s = done s (w.nakFlit p ack.toNat nak.toNat given)) ∧
    (active ∧ (w.port p).notices < 7 → exec (.resetNotice p ack credits) s =
      done s ((w.takeLinkFlit p ack.toNat given).updPort p fun k => { k with notices := k.notices + 1 }))

/-- Time-outs and sending of an ACTIVE port (R428, R431, R433, R444, R467, R475): the first ACK time-out replays all that is unacknowledged, a second
one takes the port down; silence drops the packet that is arriving; the next packet goes out when the replay buffer has room; a response without
credit moves to VC0. A packet at the head of a channel (R436–R443, R464, R468, R627) is served where it is for this chip: a read, a write or an
atomic as a request, a response or acknowledgement at its requester, a message into its mailbox; one that cannot be sent on is answered with the
status that says why. -/
def Obligations.LnkSendsAndServes : Prop :=
  (∀ (p : LinkIx) (s : State), let w := s.look; let k := w.port p; let active := s.powered = true ∧ w.portActive p = true
    (active ∧ k.replay ≠ [] ∧ k.replayed = false → exec (.ackTimeout p) s =
      done s ((w.replayFrom p (w.txOldest p)).updPort p fun k => { k with replayed := true })) ∧
    (active ∧ k.replay ≠ [] ∧ k.replayed = true → exec (.ackTimeout p) s =
      done s ((w.setFlag (Reg.LNK_ERR_STAT p) Fld.LNK_ERR_STAT_ACK_LASTING true).goDown p 2)) ∧
    (active → exec (.linkSilence p) s = done s (((w.setFlag (Reg.LNK_ERR_STAT p) Fld.LNK_ERR_STAT_SILENCE true).dropPart p).goDown p 3)) ∧
    (∀ v d x e, active ∧ w.nextVc p = some (v, d) ∧ w.vcReady p v = some (x, e) ∧ seqSub (w.txNext p) (w.txOldest p) + x.pkt.flits ≤ 32768 →
      exec (.packetSend p) s = done s (w.sendVc p v d)) ∧
    (∀ x, let waits (t : TxPkt) : Bool := decide (t.pkt.ptype = 5 ∨ t.pkt.ptype = 6) && decide (t.pkt.vc ≠ 0)
      s.powered = true ∧ w.clocked = true ∧ k.tx.find? waits = some x → goesTo (exec (.respEscape p) s) fun t =>
        (t.look.port p).tx = dropFirst waits k.tx ++ [{ x with pkt := { x.pkt with vc := 0, esc := true } }] ∧
          (∀ q, q ≠ p.val → t.look.port q = w.port q) ∧ sameBytes s t ∧ sameWordsBut [Reg.RTE_ESCAPED p, Reg.RTE_ESCAPED p + 4] s t ∧
          t.hw = { s.hw with ports := t.hw.ports } ∧ t.pending = s.pending)) ∧
  (∀ (p : LinkIx) (vc : Fin 8) (r : RxPkt) (t : Work) (s : State), let w := s.look; let k := r.pkt
    let comes := s.powered = true ∧ w.clocked = true ∧ w.rxHead p vc = some r
    let mine := comes ∧ (w.rxTake p vc r.flits).place (some p) (16 + p) k = (t, .delivered)
    let word (i : Nat) : DWord := BitVec.ofNat 64 (leNat ((k.data.drop i).take 8))
    (mine ∧ k.ptype = 1 → exec (.pktRd p vc) s = done s (t.packetServe p k (.read k.rlen))) ∧
    (mine ∧ k.ptype = 2 ∧ (k.poison = false ∨ k.data = []) → exec (.pktWr p vc) s = done s (t.packetServe p k (.write (k.data.map some)))) ∧
    (mine ∧ k.ptype = 2 ∧ k.poison = true ∧ k.data ≠ [] → exec (.pktWr p vc) s = done s (t.poisonedWr p k (.write (k.data.map some)))) ∧
    (mine ∧ k.ptype = 3 → exec (.pktAtomic p vc) s = done s (t.packetServe p k (.sync (.atomic (min 7 k.op)) (word 0) (word 8)))) ∧
    (mine ∧ k.ptype = 5 → exec (.pktResp p vc) s = done s ((t.respLen p k).respArrives k)) ∧
    (mine ∧ k.ptype = 6 → exec (.pktAck p vc) s = done s (t.respArrives k)) ∧
    (mine ∧ k.ptype = 10 ∧ k.w4 % 256 ≤ 8 → exec (.pktMgmt p vc) s = done s (t.mailbox (k.w4 % 256) k.src (bits k.w4 16 16) k.data)) ∧
    (∀ st, comes ∧ (w.rxTake p vc r.flits).place (some p) (16 + p) k = (t, .refused st) ∧ k.ptype = 1 →
      exec (.pktRd p vc) s = done s (t.injectAnswer (16 + p) k st [])))

/-- Training of a port (R445–R451, R454): setting EN trains it fresh and clearing EN disables it; LNK_CMD trains a port that is ABSENT or FAILED and
takes an ACTIVE one down; the steps DETECT, CONFIG, EQUALIZE and ALIGN follow each other; a step beyond its bound is a failed attempt, and after
2 s the training ends. Fences and shared routing registers (R485–R491, R493): RAISE floods an alert with the cause written, CLEAR ends it and
unlatches every port, an alert that arrives is applied once and not across a boundary; a new effective mode takes hold; a write of a shared
register reaches every link die. -/
def Obligations.LnkTrainsAndFences : Prop :=
  (∀ (m : Master) (p : LinkIx) (value : Word) (block : BitVec 128) (fails : BitVec 48) (s : State), let w := s.look; let st := Reg.LNK_STATUS p
    let ctl := Reg.LNK_CTRL p; let v := w.regWrite m ctl .w32 0xF value.toNat; let en := w.flag ctl Fld.LNK_CTRL_EN; let state := w.linkState p
    let takes := s.powered = true ∧ w.regTakes (Reg.LNK_CMD p) = true; let runs := s.powered = true ∧ w.clocked = true
    (s.powered = true ∧ value.getLsbD 0 = true ∧ en = false ∧ v.flag ctl Fld.LNK_CTRL_EN = true → exec (.linkEnable m p value) s =
      done s (v.trainFresh p)) ∧
    (s.powered = true ∧ value.getLsbD 0 = false ∧ en = true ∧ v.flag ctl Fld.LNK_CTRL_EN = false → exec (.linkDisable m p value) s =
      done s (v.disablePort p)) ∧
    (takes ∧ value.getLsbD 0 = true ∧ value.getLsbD 1 = false ∧ (state = 8 ∨ state = 9) ∧ en = true ∧ w.fenceMode p ≠ 2 →
      exec (.linkCmdTrain m p value) s = done s (w.startTraining p (decide (state = 8)))) ∧
    (takes ∧ value.getLsbD 0 = true ∧ value.getLsbD 1 = false ∧ ¬ ((state = 8 ∨ state = 9) ∧ en = true ∧ w.fenceMode p ≠ 2) →
      exec (.linkCmdTrain m p value) s = done s (w.clamp (w.clampBy m) (Reg.LNK_CMD p) 0 0 .joined)) ∧
    (takes ∧ value.getLsbD 0 = false ∧ value.getLsbD 1 = true ∧ state = 5 → exec (.linkCmdDown m p value) s = done s (w.goDown p 4)) ∧
    (runs ∧ blockGood block = true →
      (w.training p = true → exec (.trainingBlock p block) s = done s (w.takeBlock p block.toNat)) ∧
      (state = 7 → exec (.trainingBlock p block) s = done s ((w.startTraining p false).takeBlock p block.toNat)) ∧
      (state = 8 → exec (.trainingBlock p block) s = done s (((w.setFlag (Reg.LNK_ERR_STAT p) Fld.LNK_ERR_STAT_PARTNER_SEEN true).startTraining p
        true).takeBlock p block.toNat))) ∧
    (runs ∧ state = 1 → goesTo (exec (.trainStepDone p fails) s) fun t => t.look.linkState p = 2 ∧ (t.look.port p).train.passed = true ∧
      sameBytes s t ∧ sameWordsBut [st] s t ∧ t.hw = { s.hw with ports := t.hw.ports } ∧ t.pending = s.pending) ∧
    (runs ∧ state = 2 → exec (.trainStepDone p fails) s = done s (w.configDone p)) ∧
    (runs ∧ state = 3 → goesTo (exec (.trainStepDone p fails) s) fun t => t.look.linkState p = 4 ∧ onlyWords [st] s t) ∧
    (runs ∧ state = 4 → exec (.trainStepDone p fails) s = done s (w.alignDone p fails.toNat)) ∧
    (s.powered = true ∧ w.training p = true → exec (.trainStepBound p) s = done s (w.attemptFails p) ∧
      exec (.trainTimeout p) s = done s (w.endTraining p)) ∧
    (runs ∧ state = 7 → exec (.resetWaitExpire p) s = done s (w.failPort p 8))) ∧
  (∀ (m : Master) (p : LinkIx) (value : Word) (r : RxPkt) (off : BitVec 12) (width : AccWidth) (be : BitVec 8) (data : DWord) (s : State), let w := s.look
    let takes := s.powered = true ∧ w.regTakes (Reg.FEN_CMD p) = true; let origin := bits r.pkt.w5 0 16; let id := bits r.pkt.w4 16 16
    let u := w.rxTake p 7 r.flits; let comes := s.powered = true ∧ w.rxHead p 7 = some r ∧ r.pkt.ptype = 11
    let outside := u.flag (Reg.FEN_PORT_CFG p) Fld.FEN_PORT_CFG_BOUNDARY; let cfg := w.regWrite m (Reg.FEN_PORT_CFG p) .w32 0xF value.toNat
    (∀ n v, w.woWrite (w.clampBy m) (Reg.FEN_CMD p) value.toNat = (n, v) →
      (takes ∧ value.getLsbD 0 = true ∧ bits n 0 1 = 1 → exec (.fenRaise m p value) s =
        done s (v.raiseAlert p (bits n 16 16) (leBytes 8 (v.r64 (Reg.FEN_ALERT_CAUSE p)).toNat))) ∧
      (takes ∧ value.getLsbD 1 = true ∧ bits n 0 1 = 0 ∧ bits n 1 1 = 1 → exec (.fenClear m p value) s = done s v.clearAlert)) ∧
    (comes ∧ outside = true → exec (.fenceAlert p) s =
      done s ((u.bump (Reg.FEN_DROP_IN p) 1).setFlag (Reg.FEN_ERR_STAT p) Fld.FEN_ERR_STAT_OUTSIDE true)) ∧
    (comes ∧ outside = false ∧ (origin, id) ∈ u.hw.alertPairs → exec (.fenceAlert p) s = done s u) ∧
    (comes ∧ outside = false ∧ (origin, id) ∉ u.hw.alertPairs → exec (.fenceAlert p) s =
      done s ((u.setFlag (Reg.FEN_ERR_STAT p) Fld.FEN_ERR_STAT_ALERT_IN true).applyAlert p origin id r.pkt.data (some p))) ∧
    (s.powered = true →
      (cfg.fenceMode p = 2 ∧ w.fenceMode p ≠ 2 → exec (.fenModeChange m p value) s = done s (cfg.disablePort p)) ∧
      (cfg.fenceMode p ≠ 2 ∧ w.fenceMode p = 2 → exec (.fenModeChange m p value) s = done s (cfg.trainFresh p)) ∧
      ((cfg.fenceMode p = 2 ↔ w.fenceMode p = 2) → exec (.fenModeChange m p value) s = done s cfg)) ∧
    (let a := off.toNat / width.bytes * width.bytes;
      s.powered = true ∧ rteShared off.toNat = true → exec (.rteSharedWrite m off width be data) s =
        done s ((w.regWrite m (Reg.RTE_CTRL 0 + a) width be.toNat data.toNat).rteCopy a width.bytes)))

/-- Phase timers (R499–R501): a mark by the control core of a core of the timed context puts the core into its phase, and closes the step when the
last core is done; any other mark is dropped and counted; setting EN clears every phase and total. -/
def Obligations.JobPhases : Prop :=
  ∀ (m : Master) (c : CoreIx) (e : Fin 4) (value : Word) (s : State), let w := s.look; let ctl := Reg.SNP_PHASE_CTRL
    let takes := s.powered = true ∧ w.regTakes Reg.SNP_PHASE_MARK = true
    let timed := w.flag ctl Fld.SNP_PHASE_CTRL_EN = true ∧ w.placedCtx c = some (w.fld ctl Fld.SNP_PHASE_CTRL_CTX)
    let u := w.takeMark (coreGlobal c) (bits value.toNat 0 4) (decide (bits value.toNat 8 1 = 1))
    let closes := s.hw.phaseDone.length < u.hw.phaseDone.length ∧ u.hw.phaseDone.length = u.fld ctl Fld.SNP_PHASE_CTRL_CORES
    let v := w.regWrite m ctl .w32 15 (setBits value.toNat 0 1 1)
    (takes ∧ timed ∧ ¬ closes → exec (.phaseMark (.cell c 0) value) s = done s u) ∧
    (takes ∧ timed ∧ closes → exec (.phaseMark (.cell c 0) value) s = done s u.closeStep) ∧
    (takes ∧ (¬ timed ∨ e.val ≠ 0) → exec (.phaseMark (.cell c e) value) s = done s w.snpDrop) ∧
    (s.powered = true ∧ v.flag ctl Fld.SNP_PHASE_CTRL_EN = true ∧ w.flag ctl Fld.SNP_PHASE_CTRL_EN = false → exec (.phaseEnable m value) s =
      done s { v with hw := { v.hw with phases := [], phaseDone := [], phaseHeld := [], phaseSum := [], phaseWall := [], phaseOwn := [] } }) ∧
    (s.powered = true ∧ w.flag ctl Fld.SNP_PHASE_CTRL_EN = true → exec (.phaseEnable m value) s = done s v)

/-- Snapshot sets (R502, R503, R505, R508, R509, R511): setting VALID begins the checks and clearing it drops triggers; a trigger queues its range, a
second one is held, and a third is dropped; a set whose ranges are all done commits its step to every record; a restore begins only on a quiet
valid set. The snapshot engine's replies (R504, R508, R510, R511) and the deterministic mode (R518): a good reply goes on, a first failure is
sent again, a second one fails the set, one of an earlier life of the set is dropped; when every read of a range is back, it is signalled; a
waiting mode takes effect when no context is ACTIVE and no operation is open. -/
def Obligations.SnpSets : Prop :=
  (∀ (m : Master) (n : Fin 16) (value : Word) (s : State), let w := s.look; let a := Reg.SNP_SET_CFG n
    let v (b : Nat) : Work := w.regWrite m a .w32 15 (setBits value.toNat 0 1 b)
    let i := bits value.toNat 0 8; let rc := Reg.SNP_RANGE_CFG i; let set := w.rangeSet i
    let accepts := w.flag Reg.SNP_CTRL Fld.SNP_CTRL_EN = true ∧ w.flag rc Fld.SNP_RANGE_CFG_VALID = true ∧ w.takesTriggers set = true ∧
      w.triggers m (w.snpCtx set) = true
    let trig := w.flag rc Fld.SNP_RANGE_CFG_TRIG; let held := w.flag rc Fld.SNP_RANGE_CFG_HELD; let rs := setBits value.toNat 0 1 1; let k := bits rs 4 4
    let may := w.flag Reg.SNP_CTRL Fld.SNP_CTRL_EN = true ∧ w.snpValid k = true ∧ (w.snpSet k).stage = .idle ∧ (w.snpSet k).failed = false ∧
      w.restoring = false
    (s.powered = true ∧ w.snpValid n = false ∧ (v 1).snpValid n = true → exec (.snpSetEnable m n value) s =
      done s (((v 1).setFlag a Fld.SNP_SET_CFG_VALID false).snpAsk n)) ∧
    (s.powered = true ∧ w.snpValid n = true ∧ (v 0).snpValid n = false → exec (.snpSetDisable m n value) s = done s ((v 0).snpDisable n)) ∧
    (s.powered = true ∧ w.regTakes Reg.SNP_MIRROR = true →
      (accepts ∧ trig = false → exec (.snpTrigger m value) s = done s (w.triggerRange i).snpGo) ∧
      (accepts ∧ trig = true ∧ held = false → goesTo (exec (.snpTrigger m value) s) fun t =>
        t.look.flag rc Fld.SNP_RANGE_CFG_HELD = true ∧ onlyWords [rc] s t) ∧
      (¬ accepts ∨ (trig = true ∧ held = true) → exec (.snpTrigger m value) s = done s w.snpDrop)) ∧
    (s.powered = true ∧ w.commitReady n = true → exec (.snpCommit n) s =
      done s ((w.updSnpSet n fun t => { t with stage := .commit, left := (w.snpCopies n).length }).forEach (w.snpCopies n)
        fun u b => u.snpRecord .commit n b (w.openStepOf n))) ∧
    (s.powered = true ∧ w.regTakes Reg.SNP_CMD = true →
      (may → exec (.snpRestore value) s = done s ((w.updSnpSet k fun t => { t with
        stage := .restWait, step := (w.r64 Reg.SNP_RESTORE_STEP).toNat, buddy := decide (bits rs 1 1 = 1)
        other := decide (bits rs 2 1 = 1) }).restStart k)) ∧
      (¬ may → exec (.snpRestore value) s = done s w.snpDrop))) ∧
  (∀ (req : Nat) (q : Req) (i : Fin 256) (s : State), let w := s.look; let use := snpUse q.tag; let ix := q.rep % 256
    let n := if use.ofRange then w.rangeSet ix else ix; let u := w.dropReq req; let epoch := (u.snpSet n).epoch
    let comes := s.powered = true ∧ w.req? req = some q ∧ q.isSnp = true ∧ q.stage = .replied
    (comes ∧ q.rep / 256 = epoch ∧ q.bad = .ok ∧ q.tag / 16 % 2 = 0 → exec (.snpRequestReply req) s =
      done s ((u.snpContinue use n q).restStart n).snpGo) ∧
    (comes ∧ q.rep / 256 = epoch ∧ q.bad = .ok ∧ q.tag / 16 % 2 = 1 → exec (.snpRequestReply req) s =
      done s (((u.snpSecond n q.op.isWrite).snpContinue use n q).restStart n).snpGo) ∧
    (comes ∧ q.rep / 256 = epoch ∧ q.bad ≠ .ok ∧ q.tag / 16 % 2 = 0 → exec (.snpRequestReply req) s =
      done s ((u.snpSend { q with tag := q.tag + 16 }).restStart n).snpGo) ∧
    (comes ∧ q.rep / 256 = epoch ∧ q.bad ≠ .ok ∧ q.tag / 16 % 2 = 1 → exec (.snpRequestReply req) s =
      done s ((u.snpFails n (if use.ofRange then ix else 0) use q.op.isWrite q.bad.status).restStart n).snpGo) ∧
    (comes ∧ q.rep / 256 ≠ epoch → exec (.snpRequestReply req) s = done s (u.restStart n).snpGo) ∧
    (∀ j, s.powered = true ∧ (s.hw.snpJobs.find? fun j => decide (j.range = i.val) && !j.restore) = some j ∧ j.back = w.rangePieces i ∧
        j.signalled = false → exec (.snpRangeReadDone i) s =
      done s ((((w.unitSignal 28 13 (w.r64 (Reg.SNP_SET_READSIG (w.rangeSet i))).toNat 1).updJob i false fun j => { j with signalled := true }).jobDone
        i).restStart (w.rangeSet i))) ∧
    (s.powered = true ∧ w.flag Reg.DET_STATUS Fld.DET_STATUS_PENDING = true ∧ s.hw.colOps = [] ∧ (∀ x, x < 1024 → w.ctxState x ≠ 2) →
      goesTo (exec .detModeApply s) fun t =>
        t.look.flag Reg.DET_STATUS Fld.DET_STATUS_MODE_EFF = w.flag Reg.DET_CTRL Fld.DET_CTRL_MODE ∧
        t.look.flag Reg.DET_STATUS Fld.DET_STATUS_PENDING = false ∧ t.hw = { s.hw with red64 := w.flag Reg.DET_CTRL Fld.DET_CTRL_RED64 } ∧
        sameBytes s t ∧ sameWordsBut [Reg.DET_STATUS] s t ∧ t.pending = s.pending))

/-- Accesses from outside (R55–R65, R616–R621, R631, R632): a register write of a master is one access at its aligned address; a host access in a BAR
goes to the DPA, the MSI-X structure or nothing, as its target says, and one marked EP is dropped; a sideband frame reads or writes an always-on
register, and another address or a bad frame is answered with its status. -/
def Obligations.HostAndSidebandAccess : Prop :=
  ∀ (m : Master) (addr : BitVec 46) (width : AccWidth) (be : BitVec 8) (data : DWord) (port : Fin 2) (tag : Fin 1024) (bar2 : Bool) (off : BitVec 46)
      (d : List (Option Byte)) (n : Fin 4096) (sa : BitVec 48) (len : BitVec 8) (s : State), let w := s.look
    let k := width.bytes; let a := addr.toNat / k * k
    let tgt := w.hostTarget port bar2 off.toNat; let size := if bar2 then 2 ^ (w.pciPort port).bar2 else 2 ^ 28
    let reaches (q : ReqOp) : Prop := s.powered = true ∧ w.linkInL0 port = true ∧ off.toNat < size ∧ 0 < q.len ∧
      (match tgt with | .dpa x => w.hostHeld port tag x q | _ => false) = false
    let rx := w.bumpErr (Reg.HUB_RX_BYTES port) d.length
    let b := sbBytes len; let x := sa.toNat / b * b; let rd := w.readAccess .sideband x b; let st := w.readAccess .sideband (Reg.MGT_SB_STAT 1) 4
    (s.powered = true ∧ isCsr a = true ∧ w.installHolds m (csrDie a) = false → exec (.registerWrite m addr width be data) s =
      done s (w.writeAccess m a k (be.toNat % 2 ^ k) (data.toNat % 2 ^ (8 * k)) none)) ∧
    (reaches (.read (n.val + 1)) → exec (.hostAccess port tag bar2 off (.read n)) s = done s (w.hostServe port tag tgt (.read (n.val + 1)))) ∧
    (reaches (.write d) → exec (.hostAccess port tag bar2 off (.write d false)) s = done s (rx.hostServe port tag tgt (.write d))) ∧
    (reaches (.write d) → exec (.hostAccess port tag bar2 off (.write d true)) s =
      done s (rx.setFlag (Reg.HUB_ERR_STAT port) Fld.HUB_ERR_STAT_EP_IN true)) ∧
    (s.powered = true ∧ isAlwaysOn x = true → exec (.sbRead sa len) s = done s (rd.2.sbAnswer 0 (leBytes b rd.1)) ∧
      exec (.sbWrite sa len data) s = done s ((w.writeAccess .sideband x b (2 ^ b - 1) (data.toNat % 2 ^ (8 * b)) none).sbAnswer 0 [])) ∧
    (s.powered = true ∧ isAlwaysOn x = false → exec (.sbRead sa len) s = done s (w.sbAnswer 2 (List.replicate b 0)) ∧
      exec (.sbWrite sa len data) s = done s (w.sbAnswer 2 [])) ∧
    (s.powered = true → exec .sbStatus s = done s (st.2.sbAnswer 0 (leBytes 4 st.1)) ∧ exec (.sbBadCommand .command) s = done s (w.sbAnswer 4 []) ∧
      (w.flag (Reg.MGT_SB_CFG 1) Fld.MGT_SB_CFG_PEC = true → exec (.sbBadCommand .pec) s = done s (w.sbAnswer 3 [])))

/-- Commands of the error unit (R534, R539–R542, R546, R552, R553, R556): a cell or a core is reset, a link die fenced, a self-test ordered, a
context aborted, a heartbeat taken, and the chip or its units released, as the fields written say; `v` is the machine with the clamps of the
write counted. Self-tests (R545–R547) start on an idle core that has one ordered; a pass ends it and opens the core's port, a first failure runs
it again, a pass of the second run is a transient fault, a second failure withdraws the physical core. -/
def Obligations.ErrUnits : Prop :=
  (∀ (m : Master) (die : DieIx) (value : Word) (n : Nat) (v : Work) (s : State), let w := s.look; let who := w.clampBy m; let p := bits n 2 5
    let cmd (reset fence test : Nat) : Prop := s.powered = true ∧ w.woWrite who (Reg.ERR_CMD die) value.toNat = (n, v) ∧ bits n 10 1 = reset ∧
      bits n 11 1 = fence ∧ bits n 12 1 = test
    let link := die.val - 16; let escChip := Reg.ERR_ESC_CHIP
    (cmd 1 0 0 ∧ value.getLsbD 10 = true ∧ bits value.toNat 0 2 = 0 ∧ bits n 0 2 = 0 ∧ die.val < 16 ∧ v.physUp die p = true ∧ v.railsOn = true →
      exec (.cellReset m die value) s = done s (v.resetCell (v.slotOf die p) (bits n 7 3))) ∧
    (cmd 1 0 0 ∧ value.getLsbD 10 = true ∧ bits value.toNat 0 2 = 1 ∧ bits n 0 2 = 1 ∧ die.val < 16 ∧ v.physUp die p = true ∧ v.railsOn = true →
      exec (.coreReset m die value) s = done s (v.resetCore (v.slotOf die p) .command)) ∧
    (cmd 0 1 0 ∧ value.getLsbD 11 = true ∧ 16 ≤ die.val ∧ die.val < 24 → exec (.errFence m die value) s =
      done s ((v.setFld (Reg.FEN_PORT_CFG link) Fld.FEN_PORT_CFG_MODE 2).fenceChanged link (v.fenceMode link))) ∧
    (cmd 0 0 1 ∧ value.getLsbD 12 = true ∧ die.val < 16 ∧ v.physUp die p = true → let c := v.slotOf die p
      (v.core c).test = .none → (16 ≤ coreSlot c ∨ v.placedCtx c = none) → exec (.errSelftest m die value) s =
        done s (v.updCore c fun k => { k with test := .pending })) ∧
    (s.powered = true ∧ w.woWrite who Reg.ERR_ABORT value.toNat = (n, v) ∧ bits n 15 1 = 1 → exec (.contextAbort m value) s =
      done s (v.abortCtx (bits n 0 10))) ∧
    (s.powered = true ∧ w.woWrite who Reg.ERR_FW_HEART value.toNat = (n, v) →
      (SMap.get false v.hw.fwLate (bits n 0 3) = false → exec (.fwHeartbeat m value) s = done s v) ∧
      (SMap.get false v.hw.fwLate (bits n 0 3) = true → exec (.fwHeartbeat m value) s =
        done s (({ v with hw := { v.hw with fwLate := SMap.set false v.hw.fwLate (bits n 0 3) false } } : Work).countFault (v.fwFault false 0)))) ∧
    (s.powered = true ∧ w.woWrite who Reg.ERR_RELEASE value.toNat = (n, v) →
      (value.getLsbD 0 = true ∧ bits n 0 1 = 1 ∧ bits n 1 1 = 0 ∧ v.railsOn = true → goesTo (exec (.errReleaseChip m value) s) fun t =>
        t.look.flag escChip Fld.ERR_ESC_CHIP_DISABLED = false ∧ t.look.fld escChip Fld.ERR_ESC_CHIP_COUNT = 0 ∧
          t.look.flag (Reg.BOOT_STRAP 1) Fld.BOOT_STRAP_RECOVERY = false ∧ 48 ∈ t.hw.resetsDue ∧
          t.hw = { v.hw with escTimes := SMap.del v.hw.escTimes 288, resetsDue := t.hw.resetsDue }) ∧
      (value.getLsbD 1 = true ∧ bits n 0 1 = 0 ∧ bits n 1 1 = 1 → goesTo (exec (.errReleaseUnits m value) s) fun t =>
        t.hw.escTimes = [] ∧ t.look.fld escChip Fld.ERR_ESC_CHIP_COUNT = 0 ∧
          (∀ i, i < 272 → t.look.fld (Reg.ERR_ESC_CORE i) Fld.ERR_ESC_CORE_COUNT = 0) ∧
          ∀ r, r < 16 → t.look.fld (Reg.ERR_ESC_REGION r) Fld.ERR_ESC_REGION_COUNT = 0))) ∧
  (∀ (c : CoreIx) (s : State), let w := s.look; let runs := s.powered = true ∧ w.clocked = true; let off := w.updCore c fun k => { k with test := .none }
    (runs ∧ w.coreDisabled c = false ∧ (w.core c).test = .pending ∧ w.placedCtx c = none ∧ SMap.find? s.hw.exiting c = none ∧ (w.core c).drained = true →
      exec (.selftestStart c) s = done s (w.selfTestStart c)) ∧
    (runs ∧ (w.core c).test = .running false → exec (.selftestEnd c true) s = done s (off.openPort c)) ∧
    (runs ∧ (w.core c).test = .running false → exec (.selftestEnd c false) s = done s (w.updCore c fun k => { k with test := .running true })) ∧
    (runs ∧ (w.core c).test = .running true → exec (.selftestEnd c true) s =
      done s (((off.countFault (w.testFault c false)).record (w.testFault c false) false).openPort c)) ∧
    (runs ∧ (w.core c).test = .running true → let v := off.fault (w.testFault c true)
      exec (.selftestEnd c false) s = done s ((v.withdrawPhys (coreRegion c) (v.physOf c)).openPort c)))

/-- Watchdogs and orphans (R528, R536–R539, R544, R556): what hangs is a lasting fault of its kind; a request out of time ends with a time-out and
becomes an orphan, whose late reply is dropped, or which expires; a management core is restarted once from its image, and the second time the
fault is lasting. -/
def Obligations.ErrWatchdogs : Prop :=
  ∀ (s : State), let w := s.look
    (s.powered = true ∧ w.abortWaits = true → goesTo (exec .abortStuck s) fun t =>
      t.look.flag (Reg.ERR_STATUS 28) Fld.ERR_STATUS_ABORT_STUCK = true ∧ onlyWords [Reg.ERR_STATUS 28] s t) ∧
    (∀ (c : CoreIx) x, s.powered = true ∧ w.placedCtx c = some x ∧ w.coreUp c = true ∧ (w.core c).halt = .none → exec (.coreHang c) s =
      done s (w.cellFault c 0x0C 0 (w.hangTag c) (some x) none (w.core c).pc.toNat)) ∧
    (∀ req q, s.powered = true ∧ w.req? req = some q ∧ q.stage ≠ .replied ∧ q.src.core? ≠ none ∧ q.bad = .ok →
      goesTo (exec (.reqTimeout req) s) fun t => t.look.req? req = some { q with stage := .replied, bad := .timeout } ∧
        t.hw = { s.hw with reqs := t.hw.reqs, orphans := SMap.put s.hw.orphans req q } ∧ (∀ x, x ≠ req → t.look.req? x = w.req? x) ∧
        sameBytes s t ∧ sameWords s t ∧ t.pending = s.pending) ∧
    (∀ req q port tag, s.powered = true ∧ w.req? req = some q ∧ q.stage ≠ .replied ∧ q.src = .host port tag → exec (.reqTimeout req) s =
      done s (((({ w with hw := { w.hw with orphans := SMap.put w.hw.orphans req q } } : Work).setReq req { q with stage := .replied }).answer req
        .timeout).reqFault q 0x05 0)) ∧
    (∀ (r : RegionIx) (n : Fin 64), s.powered = true ∧ w.clocked = true ∧ w.regionDisabled r = false ∧ (w.chan (64 * r.val + n.val)).queue ≠ [] ∧
        SMap.get 0 s.hw.bistRun r = 0 → exec (.regionHang r n) s =
      done s (w.fault { kind := 0x15, level := 2, lasting := true, ctx := none, die := r, unit := 7, core := 0, gen := SMap.get 0 s.hw.genRegion r,
                        tag := 0, addr := none, detail := n.val })) ∧
    (∀ die : DieIx, let f : FaultInfo := { kind := 0x23, level := 3, lasting := false, ctx := none, die := die.val, unit := 14, core := 0,
                                           gen := s.hw.genChip, tag := 0, addr := none, detail := 0 }
      s.powered = true ∧ w.clocked = true → exec (.fabricLineRetry die true) s = done s ((w.countFault f).record f false) ∧
        exec (.fabricLineRetry die false) s = done s (w.fault { f with lasting := true })) ∧
    (∀ i q port tag, s.powered = true ∧ SMap.find? s.hw.orphans i = some q → let u := w.dropReply fun e => decide (e.1 = i)
      (q.src = .host port tag → exec (.lateReplyDrop i) s = done s (u.bumpErr (Reg.HUB_CPL_DROP port) 1).retryResets) ∧
      (q.src.core? ≠ none → exec (.lateReplyDrop i) s = done s u.retryResets)) ∧
    (∀ i, s.powered = true → exec (.orphanExpire i) s =
      done s ({ w with hw := { w.hw with orphans := SMap.del w.hw.orphans i } } : Work).retryResets) ∧
    (∀ (mc : Fin 8) (rd : ReadCheck), let src := w.fld (Reg.BOOT_STATUS 0) Fld.BOOT_STATUS_SOURCE; let m := mc.val
      s.powered = true ∧ w.fld (Reg.BOOT_STATUS 0) Fld.BOOT_STATUS_STAGE = 3 ∧ src ≠ 0 →
      (SMap.get false s.hw.fwLate m = true → exec (.fwHang mc rd) s =
        done s (({ w with hw := { w.hw with fwLate := SMap.set false w.hw.fwLate m false } } : Work).fault (w.fwFault true 0))) ∧
      (SMap.get false s.hw.fwLate m = false ∧ w.checkPasses (src - 1) 6 = true ∧ rd = .clean →
        let u := w.forEach ((w.sections (src - 1)).filter fun x => decide (x.type = 1 + m / 4)) fun w x => w.copySection (src - 1) x
        exec (.fwHang mc rd) s = done s (({ u with hw := { u.hw with fwLate := SMap.set false u.hw.fwLate m true } } : Work).record
          (u.fwFault false 0) false)) ∧
      (SMap.get false s.hw.fwLate m = false ∧ (w.checkPasses (src - 1) 6 = false ∨ rd = .lasting) ∧ rd ≠ .transient → exec (.fwHang mc rd) s =
        done s (w.fault (w.fwFault true 0))))

/-- Resets of a region and of the chip that are due (R540, R543, R548, R549, R553, R554): a region's cores and units, its training and the self-tests
of its cores; the chip with every level, its clocks and the training of its stacks, unless it has been reset too often or has no stable
reference. -/
def Obligations.ErrResets : Prop :=
  ∀ (r : RegionIx) (failed : DWord) (lateR : Bool) (failedC : BitVec 1024) (lateC : BitVec 16) (n : Nat) (s : State), let w := s.look
    let counted := decide (n / 32 % 2 = 0)
    let u := w.resetChip; let u := if counted then u.escAdd 288 Reg.ERR_ESC_CHIP 60 else u; let u := (u.setChipState 1).bootReset
    let often := counted && decide (4 ≤ u.escCount 288 60)
    (s.powered = true ∧ w.dueReset r = some n ∧ w.clocked = true ∧ w.regionDisabled r = false ∧ w.regionTagHeld r = false →
      exec (.regionReset r failed lateR) s = done s ((w.dropDue r).regionReset r failed.toNat lateR counted (decide (64 ≤ n)))) ∧
    (s.powered = true ∧ w.dueReset 16 = some n ∧ w.railsOn = true ∧ s.hw.starterOk = true →
      (often = true → exec (.chipReset failedC lateC) s = done s u.stopClocks.outOfService) ∧
      (often = false ∧ u.chooseRef = none → exec (.chipReset failedC lateC) s = done s u.haltClocks) ∧
      (∀ ref, often = false ∧ u.chooseRef = some ref → let l := u.lock ref
        let tr := l.forEach ((List.range 16).filter fun r => !l.regionDisabled r) fun w r =>
          w.trainRegion r (bits failedC.toNat (64 * r) 64) (lateC.getLsbD r)
        let up := (List.range 272).filter fun c => !tr.coreDisabled c
        exec (.chipReset failedC lateC) s = done s ((tr.makeWild 0x100000000000 0x100200000000).forEach up fun w c =>
          (w.updCore c fun k => { k with test := .running false }).proofForce c 3)))

/-- Clock sources (R562, R564–R572): CLK_CMD relocks a chip in service and is a clamp otherwise; a reference lost fails over, or halts the clocks; a
loss of lock halts them; a stable reference orders a reset that counts; each window judges the references; without MGMT nothing runs until it
returns. -/
def Obligations.ClkSources : Prop :=
  ∀ (m : Master) (value : Word) (n : Nat) (v : Work) (ref : Fin 2) (s : State), let w := s.look; let st := Reg.CLK_STATUS; let er := Reg.CLK_ERR_STAT
    let i := ref.val; let pres := if i = 0 then Fld.CLK_STATUS_A_PRESENT else Fld.CLK_STATUS_B_PRESENT
    let stab := if i = 0 then Fld.CLK_STATUS_A_STABLE else Fld.CLK_STATUS_B_STABLE; let lost := (w.setFlag st pres false).setFlag st stab false
    let u : Work := { lost with hw := { lost.hw with stableWins := SMap.set 0 lost.hw.stableWins i 0 } }
    (s.powered = true ∧ w.woWrite (w.clampBy m) Reg.CLK_CMD value.toNat = (n, v) →
      (bits n 0 1 = 0 → exec (.clkRelock m value) s = done s v) ∧
      (bits n 0 1 = 1 ∧ v.chipState = 0 → exec (.clkRelock m value) s = done s (v.relock v.refActive)) ∧
      (bits n 0 1 = 1 ∧ v.chipState ≠ 0 → exec (.clkRelock m value) s = done s (v.clamp (w.clampBy m) Reg.CLK_CMD 0 0 .joined))) ∧
    (s.powered = true →
      (u.refActive ≠ i ∨ u.clocked = false → exec (.refAbsent ref) s = done s u) ∧
      (u.refActive = i ∧ u.clocked = true ∧ u.chipState = 1 ∧ u.refStable (1 - i) = true → exec (.refAbsent ref) s =
        done s (u.stopClocks.orderReset 48)) ∧
      (u.refActive = i ∧ u.clocked = true ∧ ¬ (u.chipState = 1 ∧ u.refStable (1 - i) = true) →
        (u.refStable (1 - i) = true ∧ u.flag Reg.CLK_CTRL Fld.CLK_CTRL_FAILOVER = true → exec (.refAbsent ref) s = done s (u.failover (1 - i))) ∧
        (u.refStable (1 - i) = false ∨ u.flag Reg.CLK_CTRL Fld.CLK_CTRL_FAILOVER = false → exec (.refAbsent ref) s = done s u.haltClocks))) ∧
    (s.powered = true ∧ w.clocked = true ∧ w.flag st Fld.CLK_STATUS_LOCKED = true → exec .pllLockLoss s =
      done s (w.setFlag er Fld.CLK_ERR_STAT_LOCK_LOSS true).haltClocks) ∧
    (s.powered = true ∧ w.flag st Fld.CLK_STATUS_HALTED = true ∧ (w.refStable 0 = true ∨ w.refStable 1 = true) → exec .refStableReturn s =
      done s (w.orderReset 16)) ∧
    (∀ (ea eb : Bool) (da db dab : BitVec 16), let ok (d : BitVec 16) : Bool := decide (d.toInt.natAbs ≤ 10 * w.fld Reg.CLK_MON_CFG Fld.CLK_MON_CFG_TOL)
      let j := judge (ok da) (ok db) (ok dab); let need := w.fld Reg.CLK_MON_CFG Fld.CLK_MON_CFG_STABLE_N
      let wins (k : Nat) (edges off : Bool) : Nat := if edges && !off then min 15 (SMap.get 0 s.hw.stableWins k + 1) else 0
      s.powered = true → goesTo (exec (.clkMonWindow ea eb da db dab) s) fun t =>
        t.look.fld Reg.CLK_MON_A Fld.CLK_MON_A_DEV = da.toNat ∧ t.look.fld Reg.CLK_MON_B Fld.CLK_MON_B_DEV = db.toNat ∧
        t.look.fld Reg.CLK_MON_AB Fld.CLK_MON_AB_DEV = dab.toNat ∧ t.look.flag st Fld.CLK_STATUS_A_OFF = j.1 ∧
        t.look.flag st Fld.CLK_STATUS_B_OFF = j.2.1 ∧ t.look.flag st Fld.CLK_STATUS_XTAL_SUSPECT = j.2.2.1 ∧
        t.look.flag st Fld.CLK_STATUS_MARGINAL = j.2.2.2 ∧ t.look.flag st Fld.CLK_STATUS_A_STABLE = decide (need ≤ wins 0 ea j.1) ∧
        t.look.flag st Fld.CLK_STATUS_B_STABLE = decide (need ≤ wins 1 eb j.2.1) ∧
        sameWordsBut [Reg.CLK_MON_A, Reg.CLK_MON_B, Reg.CLK_MON_AB, st, er] s t ∧ sameBytes s t ∧ t.pending = s.pending) ∧
    (s.powered = true → exec .mgmtAbsent s = .next { s with hw := { s.hw with mgmtHere := false } }) ∧
    (s.hw.standby = true ∧ s.hw.mgmtHere = false → let u : Work := { w with hw := { w.hw with mgmtHere := true } }
      let l := (u.setFlag er Fld.CLK_ERR_STAT_MGMT_LOSS true).stopClocks
      exec .mgmtReturn s = done s ((l.loseCapacity.fault (clockFault true l.hw.genChip 0)).orderReset 16))

/-- Heat and supplies (R581–R584, R657, R658): a sample sets the region's ceiling by the ladder; a reading over the limit, or a loss of power-good,
trips the rails; PWR_CMD and the input's return let them power up; losing the standby input stops everything until it is good again. -/
def Obligations.PwrTripsAndSupplies : Prop :=
  ∀ (m : Master) (value : Word) (n : Nat) (v : Work) (die : DieIx) (j : Byte) (sd : Fin 2) (rails : Byte) (l0 l1 : LinkUp) (s : State), let w := s.look
    let d := die.val; let th := w.fld Reg.PWR_THERM_CFG; let hot := th Fld.PWR_THERM_CFG_THROT_J; let hotD := th Fld.PWR_THERM_CFG_THROT_D
    let hyst := th Fld.PWR_THERM_CFG_HYST_T; let stack := w.fld (Reg.MEM_TEMP d) Fld.MEM_TEMP_MAX; let a := Reg.PWR_RG_STATUS d
    let ceil := w.fld a Fld.PWR_RG_STATUS_CEIL
    let next := if hot ≤ j.toNat ∨ hotD ≤ stack then ladderStep ceil 1 else if j.toNat + hyst < hot ∧ stack + hyst < hotD then ladderStep ceil 8 else ceil
    let input := w.setFlag (Reg.PWR_SD_STATUS sd) Fld.PWR_SD_STATUS_PGOOD_IN false
    (s.powered = true ∧ d < 16 ∧ next = ceil ∧ ceil < 16 → goesTo (exec (.thermalSample die j) s) fun t =>
      t.look.junction d = j.toNat ∧ sameWords s t ∧ sameBytes s t ∧ t.hw = { s.hw with junction := t.hw.junction } ∧ t.pending = s.pending) ∧
    (s.powered = true ∧ d < 16 ∧ next ≠ ceil → let u : Work := { w with hw := { w.hw with junction := SMap.set 0 w.hw.junction d j.toNat } }
      exec (.thermalSample die j) s = done s ((u.setFld a Fld.PWR_RG_STATUS_CEIL next).forEach (List.range 16) fun w i => w.sendCap (17 * d + i))) ∧
    (s.powered = true ∧ 16 ≤ d ∧ d < 30 ∧ hot ≤ j.toNat → goesTo (exec (.thermalSample die j) s) fun t =>
      t.look.flag Reg.PWR_ERR_STAT Fld.PWR_ERR_STAT_EDGE_HOT = true ∧ sameWordsBut [Reg.PWR_ERR_STAT] s t ∧ sameBytes s t) ∧
    (s.powered = true ∧ 30 ≤ d → goesTo (exec (.thermalSample die j) s) fun t =>
      t.look.fld (Reg.PWR_SD_TEMP (d - 30)) Fld.PWR_SD_TEMP_C = j.toNat ∧ sameWordsBut [Reg.PWR_SD_TEMP (d - 30)] s t ∧ sameBytes s t) ∧
    (s.powered = true ∧ w.tripped = false ∧ w.railsOn = true →
      (d < 30 ∧ 110 ≤ w.junction d → exec (.thermalTrip die false) s = done s (w.trip 0 d (w.junction d) Fld.PWR_ERR_STAT_THERM_TRIP)) ∧
      (d < 16 ∧ 98 ≤ stack → exec (.thermalTrip die true) s = done s (w.trip 1 d stack Fld.PWR_ERR_STAT_THERM_TRIP)) ∧
      exec (.pgoodLoss sd false rails) s = done s ((w.setFld (Reg.PWR_SD_STATUS sd) Fld.PWR_SD_STATUS_RAIL_FAULT rails.toNat).trip 3 (30 + sd.val)
        (w.junction (30 + sd.val)) Fld.PWR_ERR_STAT_RAIL_FAULT) ∧
      exec (.pgoodLoss sd true rails) s = done s ((input.setFld (Reg.PWR_SD_STATUS sd) Fld.PWR_SD_STATUS_RAIL_FAULT rails.toNat).trip 2 (30 + sd.val)
        (w.junction (30 + sd.val)) Fld.PWR_ERR_STAT_PGOOD_LOSS)) ∧
    (s.powered = true → let good := w.forEach [0, 1] fun w d => w.setFlag (Reg.PWR_SD_STATUS d) Fld.PWR_SD_STATUS_PGOOD_IN true
      let due := good.tripped && decide (good.fld Reg.PWR_TRIP_INFO Fld.PWR_TRIP_INFO_CAUSE = 2)
      exec .inputGoodReturn s = done s (if due = true then { good with hw := { good.hw with railsDue := true } } else good)) ∧
    (s.powered = true ∧ w.woWrite (w.clampBy m) Reg.PWR_CMD value.toNat = (n, v) →
      let restarts := bits n 0 1 = 1 ∧ v.tripped = true ∧ v.fld Reg.PWR_TRIP_INFO Fld.PWR_TRIP_INFO_CAUSE ≠ 2 ∧ v.cool = true
      (restarts → exec (.pwrRestart m value) s = done s { v with hw := { v.hw with railsDue := true } }) ∧
      (¬ restarts → exec (.pwrRestart m value) s = done s v)) ∧
    (s.powered = true ∧ s.hw.railsDue = true ∧ s.hw.starterOk = true ∧ w.railsOn = false → goesTo (exec (.railsUp l0 l1) s) fun t =>
      t.look.railsOn = true ∧ t.look.tripped = false ∧ t.hw.railsDue = false ∧ t.hw.thermTrip = false ∧
        t.hw.resetsDue = [if w.tripped then 16 else 48] ∧ sameBytes s t) ∧
    exec .standbyLoss s = .next { s with hw := { s.hw with standby := false } } ∧
    (s.hw.standby = false → goesTo (exec .standbyGood s) fun t => t.hw.standby = State.reset.hw.standby ∧ t.hw.flash = s.hw.flash ∧
      t.look.r32 (Reg.BOOT_FUSE 0) = w.r32 (Reg.BOOT_FUSE 0) ∧ (∀ x, x ≠ Reg.BOOT_FUSE 0 → t.look.r32 x = csrReset x) ∧ t.hw.cores = [] ∧
      t.pending = s.pending)

/-- The Kiln (R574–R580): a period shares the new budget among the cores and lends what lenders leave; a long wait lends all but one unit of a core,
its end takes them back from the borrowers; a Proof schedule climbs the ladder to its hold level, and ends by falling to level 1. -/
def Obligations.KilnBudgetAndProof : Prop :=
  ∀ (power vin iin : Word) (est : BitVec 256) (c : CoreIx) (s : State), let w := s.look; let k := w.kilnCore c; let p := Reg.MTX_PROOF_CTRL c
    let watts := bits power.toNat 0 16 + bits power.toNat 16 16; let sustain := w.fld Reg.PWR_BUDGET Fld.PWR_BUDGET_SUSTAIN_W
    let level := max 1 (w.fld p Fld.MTX_PROOF_CTRL_LEVEL); let u := w.settleLevel c
    let at_ (l : Nat) : Work := (u.setFlag p Fld.MTX_PROOF_CTRL_FORCE true).setFld p Fld.MTX_PROOF_CTRL_LEVEL l
    (s.powered = true → goesTo (exec (.kilnPeriod power vin iin est) s) fun t =>
      t.hw.kilnE = s.hw.kilnE + watts - sustain ∧ t.look.fld Reg.PWR_INPUT Fld.PWR_INPUT_P_W = watts % 65536 ∧ sameBytes s t ∧ t.pending = s.pending) ∧
    (∀ v, s.powered = true ∧ w.takeNotice c false = some v →
      let kc := v.kilnCore c
      let may := v.flag Reg.PWR_CTRL Fld.PWR_CTRL_LEND_EN = true ∧ coreSlot c < 16 ∧ v.coreDisabled c = false ∧
        v.forced c = false ∧ kc.lent = false ∧ kc.back = none
      let l := (v.setKiln c { kc with loan := 0, lent := true }).bumpErr Reg.PWR_LOANS 1;
      (may → exec (.kilnLend c) s = done s ((l.setPool (l.pool + (kc.base - 1) + kc.loan)).lendPool)) ∧
      (¬ may → exec (.kilnLend c) s = done s v)) ∧
    (∀ v, s.powered = true ∧ w.takeNotice c true = some v → exec (.kilnReclaim c) s = done s (v.reclaim c)) ∧
    (∀ low, s.powered = true ∧ w.takeNotice c true = none ∧ k.back = some low ∧
        (∀ g ∈ low, w.mtxLevelNow (globalSlot g) ≤ w.capOf (globalSlot g)) → exec (.kilnReclaim c) s = done s (w.setKiln c { k with back := none })) ∧
    (s.powered = true ∧ w.forced c = true →
      (u.proofOver c = true ∧ level ≤ 1 → let f := u.setFlag p Fld.MTX_PROOF_CTRL_FORCE false;
        exec (.proofScheduleStep c) s = done s (({ f with hw := { f.hw with proof := SMap.del f.hw.proof c } } : Work).sendCap c)) ∧
      (u.proofOver c = true ∧ 1 < level → exec (.proofScheduleStep c) s = done s (at_ (ladderStep level 1))) ∧
      (u.proofOver c = false → exec (.proofScheduleStep c) s =
        done s (at_ (ladderStep level (u.fld Reg.PWR_PROOF_CFG Fld.PWR_PROOF_CFG_HOLD_LEVEL)))))

/-- Straps and the address chain (R587–R591): a round of eight equal samples is taken, a first round that differs is tried again, a second takes the
last sample and marks it unstable; the first good frame is latched with the block and hop that the next chip is sent, a later one that names
another block is a conflict; a bad frame is counted, and a second one, or 100 ms without a good one, is a lasting fault; a write of RELEARN
forgets the block. -/
def Obligations.BootStrapsAndChain : Prop :=
  ∀ (samples : BitVec 72) (frame : BitVec 19) (m : Master) (value : Word) (s : State), let w := s.look; let round := s.hw.strapRound
    let v (i : Nat) : Nat := bits samples.toNat (9 * i) 9; let agree := ∀ i, i < 8 → v i = v 7; let st := Reg.BOOT_ACHAIN_STAT 1
    let er := Reg.BOOT_ACHAIN_ERR 1; let block := bits frame.toNat 1 8; let hop := bits frame.toNat 9 8; let bad := s.hw.badFrame
    let strap (extra : Nat) : Work := w.w32 (Reg.BOOT_STRAP 1) (BitVec.ofNat 32 (bits (v 7) 0 8 + (1 - bits (v 7) 8 1) * 2 ^ 8 + extra))
    let took (extra : Nat) : Work := ({ strap extra with hw := { (strap extra).hw with strapRound := 2 } } : Work).showIds
    let good := s.powered = true ∧ frame.getLsbD 0 = false ∧ frameGood frame = true
    let passOn (u : Work) : Work := { u with hw := { u.hw with achainOut := some (block, min 255 (hop + 1)) } }
    (s.powered = true ∧ round = 2 → exec (.strapSample samples) s = .next s) ∧
    (s.powered = true ∧ round ≠ 2 ∧ agree → exec (.strapSample samples) s = done s (took 0)) ∧
    (s.powered = true ∧ round = 0 ∧ ¬ agree → exec (.strapSample samples) s = .next { s with hw := { s.hw with strapRound := 1 } }) ∧
    (s.powered = true ∧ round ≠ 0 ∧ round ≠ 2 ∧ ¬ agree → exec (.strapSample samples) s = done s (took (2 ^ 9))) ∧
    (good ∧ bad = false ∧ w.flag st Fld.BOOT_ACHAIN_STAT_VALID = false → exec (.achainFrame frame) s =
      done s ((passOn w).w32 st (BitVec.ofNat 32 (block + 2 ^ 8 + hop * 2 ^ 16))).showIds) ∧
    (good ∧ bad = false ∧ w.flag st Fld.BOOT_ACHAIN_STAT_VALID = true ∧ w.fld st Fld.BOOT_ACHAIN_STAT_BLOCK = block →
      exec (.achainFrame frame) s = .next { s with hw := { s.hw with achainOut := some (block, min 255 (hop + 1)) } }) ∧
    (good ∧ bad = false ∧ w.flag st Fld.BOOT_ACHAIN_STAT_VALID = true ∧ w.fld st Fld.BOOT_ACHAIN_STAT_BLOCK ≠ block →
      exec (.achainFrame frame) s = done s ((passOn w).setFlag er Fld.BOOT_ACHAIN_ERR_CONFLICT true)) ∧
    (good ∧ bad = true → goesTo (exec (.achainFrame frame) s) fun t => t.hw.badFrame = false ∧ t.hw.achainOut = some (block, min 255 (hop + 1)) ∧
      t.look.flag er Fld.BOOT_ACHAIN_ERR_PARITY_TRANSIENT = true ∧ sameBytes s t ∧ t.pending = s.pending) ∧
    (s.powered = true ∧ frame.getLsbD 0 = false ∧ frameGood frame = false ∧ bad = false → exec (.achainFrame frame) s =
      done s { (w.satAdd er Fld.BOOT_ACHAIN_ERR_BAD_FRAMES 1) with hw := { s.hw with badFrame := true } }) ∧
    (s.powered = true ∧ frame.getLsbD 0 = false ∧ frameGood frame = false ∧ bad = true → exec (.achainFrame frame) s =
      done s ((w.satAdd er Fld.BOOT_ACHAIN_ERR_BAD_FRAMES 1).chainError true)) ∧
    (s.powered = true ∧ bad = true → exec .achainBadTimeout s = done s (w.chainError true)) ∧
    (∀ n u, s.powered = true ∧ w.woWrite (w.clampBy m) (Reg.BOOT_ACHAIN_CMD 1) value.toNat = (n, u) ∧ bits n 0 1 = 1 →
      exec (.achainRelearn m value) s = done s (u.w32 st 0).showIds)

/-- Boots (R594, R598–R604): the Starter's region is checked at power-on; a boot loads the confirmed or still tried slot that the records point to,
the other slot, or none, and records an attempt or a fall-back; the release of the management cores ends it; the older record sector is erased
after a boot. -/
def Obligations.BootChoosesAndLoads : Prop :=
  ∀ (r1 r2 : Bool) (readA readB : ReadCheck) (badA badB : Fin 7) (s : State), let w := s.look; let st := Reg.BOOT_STATUS 0
    let digest := decide (sha384 (w.flBytes 0 0x200000) = Config.starterDigest)
    let fresh := s.powered = true ∧ s.hw.starterOk = false ∧ w.fld st Fld.BOOT_STATUS_STAGE = 0
    let passed (u : Work) : Work := { u with hw := { u.hw with starterOk := true } }
    let asked := s.powered = true ∧ s.hw.starterOk = true ∧ w.chipState = 1 ∧ w.fld st Fld.BOOT_STATUS_STAGE = 1
    let v := (((w.setFlag st Fld.BOOT_STATUS_NO_POINTER false).setFlag st Fld.BOOT_STATUS_REVERTED false).setFlag st
      Fld.BOOT_STATUS_NO_BLOCK false).scanRecords
    let read (i : Nat) : ReadCheck := if i = 0 then readA else readB
    let bad (i : Nat) : Nat := (if i = 0 then badA.val else badB.val) + 1
    let boots := asked ∧ w.flag (Reg.BOOT_STRAP 1) Fld.BOOT_STRAP_RECOVERY = false
    let load := exec (.bootImageLoad readA badA readB badB) s
    (fresh → exec (.starterCheck r1 r2) s = done s (
      if r1 && digest then passed w else if r2 && digest then passed (w.flashFault false)
      else (w.setFld st Fld.BOOT_STATUS_STAGE 5).setFlag (Reg.BOOT_ERR_STAT 0) Fld.BOOT_ERR_STAT_STARTER_BAD true)) ∧
    (asked ∧ w.flag (Reg.BOOT_STRAP 1) Fld.BOOT_STRAP_RECOVERY = true → load = done s (v.hostRecovery true)) ∧
    (boots ∧ pointerOf w.records = none → load = done s (let a := v.loadImage 0 false (read 0) (bad 0); let b := a.2.loadImage 1 false (read 1) (bad 1)
      if a.1 then a.2.setFlag st Fld.BOOT_STATUS_NO_POINTER true else if b.1 then b.2.setFlag st Fld.BOOT_STATUS_NO_POINTER true
      else b.2.hostRecovery false)) ∧
    (∀ p, boots ∧ pointerOf w.records = some p ∧ confirmed w.records p = false ∧ 3 ≤ attempts w.records p → load = done s (v.fallBack p.slot read bad)) ∧
    (∀ p, boots ∧ pointerOf w.records = some p ∧ (confirmed w.records p = true ∨ attempts w.records p < 3) → load = done s (
      let a := v.loadImage p.slot (decide (p.digest ≠ v.hdrDigest p.slot / 2 ^ (8 * 20))) (read p.slot) (bad p.slot)
      if a.1 = false then a.2.fallBack p.slot read bad else if confirmed w.records p then a.2 else a.2.appendRecord 2 p.slot false (some p.seq))) ∧
    (s.powered = true ∧ w.fld st Fld.BOOT_STATUS_STAGE = 2 ∧ s.hw.booted = true → goesTo (exec .bootRelease s) fun t =>
      t.look.fld st Fld.BOOT_STATUS_STAGE = 3 ∧ t.look.flag st Fld.BOOT_STATUS_COLD = false ∧
      t.look.flag st Fld.BOOT_STATUS_NO_BLOCK = !w.flag (Reg.BOOT_ACHAIN_STAT 1) Fld.BOOT_ACHAIN_STAT_VALID ∧
      t.hw = { s.hw with flashHeld := false } ∧ sameWordsBut [st] s t ∧ sameBytes s t ∧ t.pending = s.pending) ∧
    (∀ k, s.powered = true ∧ s.hw.recErase = some k ∧ 3 ≤ w.fld st Fld.BOOT_STATUS_STAGE →
      exec .recordSectorErase s = done s (({ w with hw := { w.hw with recErase := none } } : Work).flErase (0x200000 + 65536 * k)))

/-- Flash commands (R605–R608): a master that may write BOOT_CMD starts the operation of the code it writes, with the slot, key, argument and data
that stand then; a busy controller drops it; no other master has an effect. Flash commands complete (R606–R608) with the RESULT, and the effect
on fuses, records, flash and data, of their code; a command that a protection or a failed check turns away changes nothing else. -/
def Obligations.FlashCommands : Prop :=
  (∀ (m : Master) (value : Word) (s : State), let w := s.look; let op := bits value.toNat 0 4; let cs := Reg.BOOT_CMD_STAT 0; let who := w.clampBy m
    let outcomes (o : Host.Outcome State Fault Refusal) : Prop :=
      (s.powered = true ∧ w.bootTakes m = false → o = .next s) ∧
      (s.powered = true ∧ w.bootTakes m = true ∧ w.flag cs Fld.BOOT_CMD_STAT_BUSY = true →
        o = done s ((w.clamp who (Reg.BOOT_CMD 0) 0 0 .joined).setFlag (Reg.BOOT_ERR_STAT 0) Fld.BOOT_ERR_STAT_CMD_DROP true)) ∧
      (∀ n v, s.powered = true ∧ w.bootTakes m = true ∧ w.flag cs Fld.BOOT_CMD_STAT_BUSY = false ∧
          w.woWrite who (Reg.BOOT_CMD 0) value.toNat = (n, v) → goesTo o fun t =>
        t.look.flag cs Fld.BOOT_CMD_STAT_BUSY = true ∧ t.look.fld cs Fld.BOOT_CMD_STAT_OP = bits n 0 4 ∧
        t.hw = { v.hw with flashCmd := some ⟨bits n 0 4, bits n 4 1, bits n 5 2, (v.r32 (Reg.BOOT_CMD_ARG 0)).toNat,
          (List.range 64).flatMap fun i => leBytes 4 (v.r32 (Reg.BOOT_DATA 0 i)).toNat⟩ } ∧
        (∀ x, x ≠ cs → t.look.r32 x = v.r32 x) ∧ sameBytes s t ∧ t.pending = s.pending)
    (op = 0 → outcomes (exec (.flashNop m value) s)) ∧ (op = 1 → outcomes (exec (.raiseSvn m value) s)) ∧
    (op = 2 → outcomes (exec (.revokeKey m value) s)) ∧ (op = 3 → outcomes (exec (.flashConfirm m value) s)) ∧
    (op = 4 → outcomes (exec (.flashActivate m value) s)) ∧ (op = 5 → outcomes (exec (.flashErase m value) s)) ∧
    (op = 6 → outcomes (exec (.flashProgram m value) s)) ∧ (op = 7 → outcomes (exec (.flashVerify m value) s)) ∧
    (8 ≤ op → outcomes (exec (.flashRead m value) s))) ∧
  (∀ (f1 f2 : Bool) (read : ReadCheck) (bad : Fin 7) (c : FlashCmd) (s : State), let w := s.look; let o := exec (.flashCmdDone f1 f2 read bad) s
    let fuse := Reg.BOOT_FUSE 0; let runs (op : Nat) : Prop := s.powered = true ∧ s.hw.flashCmd = some c ∧ s.hw.flashHeld = false ∧ c.op = op
    let l := w.records; let sector := c.arg / 65536 * 65536; let page := c.arg / 256 * 256
    let opened (a : Nat) : Work := match slotOfOffset a with | some k => w.setFlag (Reg.BOOT_SLOT 0 k) Fld.BOOT_SLOT_VERIFIED false | none => w
    (s.powered = true ∧ s.hw.flashCmd = some c ∧ s.hw.flashHeld = true → o = .next s) ∧
    (runs 0 → o = done s (w.cmdResult 0 0)) ∧
    (∀ r, runs 1 ∧ w.runningSlot = some r → (w.fld fuse Fld.BOOT_FUSE_SVN_MIN < w.hdrSvn r → o =
      done s ((w.setFld fuse Fld.BOOT_FUSE_SVN_MIN (w.hdrSvn r)).cmdResult 0 0)) ∧ (w.hdrSvn r ≤ w.fld fuse Fld.BOOT_FUSE_SVN_MIN → o = done s (w.cmdResult 5 0))) ∧
    (runs 1 ∧ w.runningSlot = none → o = done s (w.cmdResult 5 0)) ∧
    (∀ r, runs 2 ∧ w.runningSlot = some r ∧ w.hdrKey r = c.key → o = done s (w.cmdResult 6 0)) ∧
    (runs 2 ∧ (w.runningSlot.all fun r => decide (w.hdrKey r ≠ c.key)) = true → o =
      done s ((w.setFld fuse Fld.BOOT_FUSE_KEY_REVOKED (w.fld fuse Fld.BOOT_FUSE_KEY_REVOKED ||| 2 ^ c.key)).cmdResult 0 0)) ∧
    (∀ p, runs 3 ∧ pointerOf l = some p ∧ confirmed l p = false ∧ w.runningSlot = some p.slot → o =
      done s ((w.appendRecord 3 p.slot false (some p.seq)).cmdResult 0 0)) ∧
    (runs 3 ∧ ((pointerOf l).all fun p => confirmed l p || decide (w.runningSlot ≠ some p.slot)) = true → o = done s (w.cmdResult 5 0)) ∧
    (runs 4 ∧ w.flag (Reg.BOOT_SLOT 0 c.slot) Fld.BOOT_SLOT_VERIFIED = true → o = done s ((w.appendRecord 1 c.slot false none).cmdResult 0 0)) ∧
    (runs 4 ∧ w.flag (Reg.BOOT_SLOT 0 c.slot) Fld.BOOT_SLOT_VERIFIED = false → o = done s (w.cmdResult 2 0)) ∧
    (runs 5 ∧ w.flProtected sector = true ∨ runs 6 ∧ w.flProtected page = true → o = done s (w.cmdResult 1 0)) ∧
    (runs 5 ∧ w.flProtected sector = false → (f1 = true → o = done s (((opened sector).flErase sector).cmdResult 0 0)) ∧
      (f1 = false ∧ f2 = true → o = done s ((((opened sector).flErase sector).flashFault false).cmdResult 0 0)) ∧
      (f1 = false ∧ f2 = false → o = done s ((((opened sector).flLose sector 65536).flashFault true).cmdResult 3 0))) ∧
    (runs 6 ∧ w.flProtected page = false → (f1 = true → o = done s (((opened page).flProgram page c.data).cmdResult 0 0)) ∧
      (f1 = false ∧ f2 = true → o = done s ((((opened page).flProgram page c.data).flashFault false).cmdResult 0 0)) ∧
      (f1 = false ∧ f2 = false → o = done s ((((opened page).flLose page 256).flashFault true).cmdResult 3 0))) ∧
    (runs 7 ∧ w.runningSlot = some c.slot → o = done s (w.cmdResult 1 0)) ∧
    (runs 7 ∧ w.runningSlot ≠ some c.slot → o = done s (
      let a := w.runChecks c.slot false read (bad.val + 1); if a.1 = 0 then a.2.cmdResult 0 0 else a.2.cmdResult 4 a.1)) ∧
    (∀ op, 8 ≤ op ∧ runs op → let filled := w.fillData (w.flBytes c.arg 256)
      (f1 = true → o = done s (filled.cmdResult 0 0)) ∧ (f1 = false ∧ f2 = true → o = done s ((filled.flashFault false).cmdResult 0 0)) ∧
      (f1 = false ∧ f2 = false → o = done s ((w.flashFault true).cmdResult 3 0))))

/-- The links of the host ports (R613, R615, R616, R617, R620, R622, R625): a fundamental reset, a hot reset and a function level reset drop what the
port had outstanding and reset its configuration space; a link that comes back is a transient error, one that does not marks the port failed; a
configuration write takes effect on its own part; a correctable error is counted. -/
def Obligations.HubLinks : Prop :=
  ∀ (h : Fin 2) (l : LinkUp) (s : State), let w := s.look; let e := Reg.HUB_ERR_STAT h; let up := s.powered = true ∧ w.linkInL0 h = true
    let p := w.pciPort h; let lost := hostPortFault h s.hw.genChip
    let quiet := (w.dropHost h).resetConfig h
    (s.powered = true → exec (.pcieFundamentalReset h l) s = done s ((w.dropHost h).linkTrains h { l with up := l.up && (w.dropHost h).railsOn })) ∧
    (up → goesTo (exec (.pcieHotReset h true l) s) fun t => t.look.fld (Reg.HUB_STATUS h) Fld.HUB_STATUS_LTSSM = 6 ∧ t.hw = quiet.hw ∧
      sameWordsBut [Reg.HUB_STATUS h] s t ∧ sameBytes s t ∧ t.pending = s.pending) ∧
    (up → exec (.pcieHotReset h false l) s = done s (quiet.linkSet h l)) ∧
    (up → goesTo (exec (.pcieFlr h) s) fun t => t.hw = quiet.hw ∧ sameWords s t ∧ sameBytes s t ∧ t.pending = s.pending) ∧
    (up ∧ l.up = true → exec (.pcieLinkDown h l) s =
      done s ((w.linkSet h l).transient (lost false) e Fld.HUB_ERR_STAT_LINK_TRANSIENT Fld.HUB_ERR_STAT_TRANSIENT_CNT)) ∧
    (up ∧ l.up = false → exec (.pcieLinkDown h l) s = done s ((((w.linkSet h l).setFlag e Fld.HUB_ERR_STAT_LINK_LASTING true).setFlag
      (Reg.HUB_STATUS h) Fld.HUB_STATUS_FAILED true).fault (lost true))) ∧
    (up → exec (.aerCorrectableError h) s =
      done s (w.transient (lost false) e Fld.HUB_ERR_STAT_LINK_TRANSIENT Fld.HUB_ERR_STAT_TRANSIENT_CNT)) ∧
    (∀ i, up → exec (.pcieConfigAccess h (.bar2Size i)) s = done s ((w.setPci h { p with bar2 := 30 + i.val }).alignBar2 h none)) ∧
    (∀ en mask, up → exec (.pcieConfigAccess h (.msix en mask)) s = done s (w.setPci h { p with msix := en, masked := mask })) ∧
    (∀ d3, up → exec (.pcieConfigAccess h (.power d3)) s = done s (w.setPci h { p with d3 := d3 }))

/-- Doorbell and interrupt words, completions and vectors (R619, R620, R623–R625): a write of a word stores or adds, one of an interrupt word pends
its vector and one of a doorbell reaches the context that waits on it; a read that waits too long completes with an abort; a pending vector is
sent once. -/
def Obligations.HubWordsAndVectors : Prop :=
  ∀ (value : DWord) (s : State), let w := s.look; let up := s.powered = true ∧ w.hubUp = true
    (∀ n : Fin 1024, up → exec (.hubDbWrite n false value) s = done s ((w.w64 (Reg.HUB_DB 0 n) value).doorbellInput n 0 value)) ∧
    (∀ n : Fin 1024, up → exec (.hubDbWrite n true value) s =
      done s ((w.w64 (Reg.HUB_DB 0 n) (w.r64 (Reg.HUB_DB 0 n) + value)).doorbellInput n 1 value)) ∧
    (∀ (h : Fin 2) (v : Fin 256), up ∧ 2 ≤ v.val → exec (.hubIwWrite h v false value) s = done s ((w.w64 (Reg.HUB_IW h v) value).pendVector h v)) ∧
    (∀ (h : Fin 2) (v : Fin 256), up ∧ 2 ≤ v.val → exec (.hubIwWrite h v true value) s =
      done s ((w.w64 (Reg.HUB_IW h v) (w.r64 (Reg.HUB_IW h v) + value)).pendVector h v)) ∧
    (∀ req q p tag n, s.powered = true ∧ w.req? req = some q ∧ q.src = .host p tag ∧ q.op = .read n ∧ q.stage ≠ .replied →
      goesTo (exec (.cplTimeout req) s) fun t => t.look.flag (Reg.HUB_ERR_STAT p) Fld.HUB_ERR_STAT_CPL_LATE = true ∧
        sameWordsBut [Reg.HUB_ERR_STAT p] s t ∧ sameBytes s t ∧ t.hw = { (w.dropReq req).hw with
          orphans := SMap.put (w.dropReq req).hw.orphans req q
          completions := SMap.put (w.dropReq req).hw.completions (1024 * p + tag) ⟨true, false, []⟩ } ∧ t.pending = s.pending) ∧
    (∀ (h : Fin 2) (v : Fin 256), s.powered = true ∧ w.msixReady h v = true → let k := 256 * h.val + v.val
      exec (.msixSend h v) s = done s { (w.bumpErr (Reg.HUB_TX_BYTES h) 4) with hw := { s.hw with
        msixPend := SMap.set false s.hw.msixPend k false, msixSent := SMap.set 0 s.hw.msixSent k (s.hw.uptime + 1) } })

/-- The host mailbox raises vector 1 on both ports (R629) whenever the VALID of a slot goes from 0 to 1: by a write of MGT_HMB_POST, and by a message
that is delivered to it. -/
def Obligations.HostMailboxRaisesVector : Prop :=
  let both (pend : SMap Bool) : Prop := SMap.get false pend 1 = true ∧ SMap.get false pend 257 = true
  (∀ (m : Master) (value : DWord) (k : Fin 8) (s : State), s.powered = true ∧ s.look.hmbValid k = false → goesTo (exec (.hmbPost m value) s) fun t =>
    (t.look.hmbValid k = true → both t.hw.msixPend)) ∧
  ∀ (w : Work) (mbox src msgid : Nat) (k : Fin 8) (data : List Byte), let u := w.mailbox mbox src msgid data
    w.hmbValid k = false ∧ u.hmbValid k = true → both u.hw.msixPend

/-- The management plane (R628, R630, R633, R634): a message posted to the host mailbox takes its slot and raises vector 1, or is counted where the
slot is taken; the host frees a slot; the sideband takes an assigned address in I3C mode, and an acknowledged interrupt ends; a telemetry copy
shows one moment. -/
def Obligations.MgtPlane : Prop :=
  ∀ (m : Master) (s : State), let w := s.look; let who := w.clampBy m; let st := Reg.MGT_SB_STAT 1
    (∀ (value : DWord) n v, s.powered = true ∧ w.woWrite who (Reg.MGT_HMB_POST 0) value.toNat = (n, v) → let k := bits n 0 3
      (v.flag (Reg.MGT_HMB_HDR 0 k) Fld.MGT_HMB_HDR_VALID = true → exec (.hmbPost m value) s = done s (v.mboxDrop 0)) ∧
      (v.flag (Reg.MGT_HMB_HDR 0 k) Fld.MGT_HMB_HDR_VALID = false → goesTo (exec (.hmbPost m value) s) fun t =>
        (t.look.r64 (Reg.MGT_HMB_HDR 0 k)).toNat = v.selfNode % 65536 + bits n 16 16 * 2 ^ 16 + bits n 3 13 * 2 ^ 32 + 2 ^ 63 ∧
        t.hw = (v.raiseVector 1).hw ∧ (∀ x, x ∉ [Reg.MGT_HMB_HDR 0 k, Reg.MGT_HMB_HDR 0 k + 4] → t.look.r32 x = v.r32 x) ∧ sameBytes s t ∧ t.pending = s.pending)) ∧
    (∀ k : Fin 8, s.powered = true → goesTo (exec (.hmbFree k) s) fun t => t.look.flag (Reg.MGT_HMB_HDR 0 k) Fld.MGT_HMB_HDR_VALID = false ∧
      onlyWords [Reg.MGT_HMB_HDR 0 k, Reg.MGT_HMB_HDR 0 k + 4] s t) ∧
    (∀ addr : BitVec 7, s.powered = true ∧ w.flag (Reg.MGT_SB_CFG 1) Fld.MGT_SB_CFG_MODE = true →
      goesTo (exec (.dynamicAddressAssignment addr) s) fun t => t.look.fld st Fld.MGT_SB_STAT_DYNAMIC = addr.toNat ∧ onlyWords [st] s t) ∧
    (s.powered = true → goesTo (exec .ibiAcknowledge s) fun t => t.look.flag st Fld.MGT_SB_STAT_IBI_PEND = false ∧ onlyWords [st] s t) ∧
    (∀ (value : Word) n v, s.powered = true ∧ w.woWrite who (Reg.MGT_TEL_CTRL 0) value.toNat = (n, v) →
      (bits n 0 1 = 0 → exec (.telSnap m value) s = done s v) ∧
      (bits n 0 1 = 1 → goesTo (exec (.telSnap m value) s) fun t =>
        (∀ k, k < 8 → t.look.r64 (Reg.MGT_TEL 0 k) = BitVec.ofNat 64 (v.telemetry k)) ∧
        t.look.r32 (Reg.MGT_TEL_SEQ 0) = v.r32 (Reg.MGT_TEL_SEQ 0) + 1 ∧ t.hw = v.hw ∧
        (∀ x, x ≠ Reg.MGT_TEL_SEQ 0 → (∀ k, k < 8 → x ≠ Reg.MGT_TEL 0 k ∧ x ≠ Reg.MGT_TEL 0 k + 4) → t.look.r32 x = v.r32 x) ∧ sameBytes s t ∧ t.pending = s.pending))

/-- The trigger unit and the trace (R641–R646): a firing does what the unit's control asks for and shows it, a write of FIRE fires an armed unit or
is counted as missed, the output falls on command or after its length, a cleared HIT arms it again; the capture starts anew with EN and freezes
after POST samples; an OBS that is enabled counts from zero; a change of FREEZE is stamped. An OCLK edge (R637–R645): without OCLK nothing is
sampled; with it, what the last sample called for comes first, then the pins show the word sampled 24 edges ago, with the strobe in bit 15, or
are held low; TRIG_IN and the unit's own copy of its registers are taken; the sample count wraps. -/
def Obligations.DbgTriggersAndSamples : Prop :=
  (∀ (m : Master) (value : Word) (die : DieIx) (s : State), let w := s.look; let who := w.clampBy m; let st := Reg.DBG_TRIG_STAT
    let tr := Reg.DBG_TRACE_STAT; let armed (u : Work) : Bool := u.trigCtl Fld.DBG_TRIG_CTRL_ARM
    let cfg := w.regWrite m Reg.DBG_OBS_CFG .w32 15 value.toNat; let trace := w.regWrite m Reg.DBG_TRACE_CFG .w32 15 value.toNat
    let cnt := w.regWrite m (Reg.DBG_CNT_CTRL die) .w32 15 value.toNat; let en (u : Work) : Bool := u.flag Reg.DBG_OBS_CFG Fld.DBG_OBS_CFG_EN
    (s.powered = true ∧ s.hw.trigConds = 0 → exec .triggerFire s = .next s) ∧
    (s.powered = true ∧ s.hw.trigConds ≠ 0 → goesTo (exec .triggerFire s) fun t => t.hw.trigConds = 0 ∧
      t.look.flag st Fld.DBG_TRIG_STAT_HIT = true ∧ t.look.fld st Fld.DBG_TRIG_STAT_BY = s.hw.trigConds % 32 ∧
      t.look.r64 Reg.DBG_TRIG_STAMP = BitVec.ofNat 64 s.hw.uptime ∧ t.pending = s.pending) ∧
    (∀ n v, s.powered = true ∧ value.getLsbD 0 = true ∧ w.woWrite who Reg.DBG_TRIG_CMD value.toNat = (n, v) ∧ bits n 0 1 = 1 →
      let after (u : Work) : Work := if bits n 1 1 = 1 then u.trigOutLow else u
      (armed v = false → exec (.trigCmdFire m value) s = done s (after v)) ∧
      (armed v = true ∧ v.flag st Fld.DBG_TRIG_STAT_HIT = true → exec (.trigCmdFire m value) s = done s (after (v.satAdd st Fld.DBG_TRIG_STAT_MISSED 1))) ∧
      (armed v = true ∧ v.flag st Fld.DBG_TRIG_STAT_HIT = false → exec (.trigCmdFire m value) s = done s (after (v.fire 16)))) ∧
    (∀ n v, s.powered = true ∧ value.getLsbD 1 = true ∧ w.woWrite who Reg.DBG_TRIG_CMD value.toNat = (n, v) ∧ bits n 0 1 = 0 ∧ bits n 1 1 = 1 →
      exec (.trigClearOut m value) s = done s v.trigOutLow) ∧
    (value.getLsbD 0 = true ∧ value.getLsbD 1 = true → exec (.trigClearOut m value) s = exec (.trigCmdFire m value) s) ∧
    (s.powered = true ∧ s.hw.trigLeft = 1 → goesTo (exec .trigOutEnd s) fun t => t.look.flag st Fld.DBG_TRIG_STAT_OUT = false ∧
      t.hw = { s.hw with trigLeft := 0 } ∧ sameWordsBut [st] s t ∧ sameBytes s t ∧ t.pending = s.pending) ∧
    (s.powered = true → goesTo (exec .trigRearm s) fun t => t.look.flag st Fld.DBG_TRIG_STAT_HIT = false ∧ onlyWords [st] s t) ∧
    (s.powered = true ∧ value.getLsbD 0 = true ∧ trace.flag Reg.DBG_TRACE_CFG Fld.DBG_TRACE_CFG_EN = true → exec (.traceEnable m value) s =
      done s { (trace.w32 tr 0) with hw := { trace.hw with traceOn := true, tracePost := none } }) ∧
    (s.powered = true ∧ s.hw.tracePost = some 0 → goesTo (exec .traceFreeze s) fun t => t.look.flag tr Fld.DBG_TRACE_STAT_FROZEN = true ∧
      t.hw = { s.hw with traceOn := false, tracePost := none } ∧ sameWordsBut [tr] s t ∧ sameBytes s t ∧ t.pending = s.pending) ∧
    (s.powered = true ∧ value.getLsbD 0 = true ∧ en cfg = true ∧ en w = false →
      exec (.obsEnable m value) s = done s { cfg with hw := { cfg.hw with obsCount := 0 } }) ∧
    (s.powered = true ∧ value.getLsbD 0 = true ∧ en cfg = true ∧ en w = true → exec (.obsEnable m value) s = done s cfg) ∧
    (s.powered = true → (cnt.frozen die = w.frozen die → exec (.cntFreeze m die value) s = done s cnt) ∧
      (cnt.frozen die ≠ w.frozen die → exec (.cntFreeze m die value) s =
        done s (cnt.w64 (Reg.DBG_FREEZE_STAMP die) (BitVec.ofNat 64 cnt.hw.uptime))))) ∧
  (∀ (lo hi : BitVec 16) (trigIn : Bool) (s : State), let w := s.look; let cfg := Reg.DBG_OBS_CFG; let due := s.look.fireDue.traceDue.outEndDue
    let word := due.obsWord lo.toNat hi.toNat; let out := (word :: s.hw.obsPipe).getD 24 0
    (s.powered = true ∧ w.oclkRuns = false → exec (.obsSample lo hi trigIn) s = .next s) ∧
    (s.powered = true ∧ w.oclkRuns = true ∧ s.hw.trigConds = 0 ∧ s.hw.tracePost ≠ some 0 ∧ s.hw.trigLeft ≠ 1 →
      goesTo (exec (.obsSample lo hi trigIn) s) fun t =>
        t.hw.obsPipe = (word :: s.hw.obsPipe).take 24 ∧ t.hw.obsToggle = !s.hw.obsToggle ∧ t.hw.obsCount = (s.hw.obsCount + 1) % 65536 ∧
        t.hw.trigIn = [trigIn, s.hw.trigIn.getD 0 false] ∧ t.hw.trigRegs = ⟨w.r32 Reg.DBG_TRIG_CTRL, w.r32 Reg.DBG_TRIG_MATCH, w.r32 Reg.DBG_TRIG_CFG⟩ ∧ t.hw.dbgBreak = false ∧ t.hw.dbgFault = false ∧
        (w.obsLow = true → t.hw.obsPins = 0) ∧
        (w.obsLow = false ∧ w.flag cfg Fld.DBG_OBS_CFG_STROBE = false → t.hw.obsPins = out) ∧
        (w.obsLow = false ∧ w.flag cfg Fld.DBG_OBS_CFG_STROBE = true → t.hw.obsPins = setBits out 15 1 (bit (!s.hw.obsToggle))) ∧
        sameBytes s t ∧ t.pending = s.pending))

/-- The test access port (R647, R648): with standby power and TRST_N high an instruction is in effect; one that takes the pins is refused, and
counted, unless the chip is out of service; TRST_N selects IDCODE and holds the port; nothing but the port's own state changes. -/
def Obligations.TapInstructions : Prop :=
  ∀ (pins : Nat) (low : Bool) (s : State), let w := s.look; let st := Reg.DBG_TAP_STAT; let ready := s.hw.standby = true ∧ s.hw.tapReset = false
    let ir (o : Host.Outcome State Fault Refusal) (code : Nat) : Prop :=
      goesTo o fun t => t.look.fld st Fld.DBG_TAP_STAT_IR = code ∧ onlyWords [st] s t
    let takes (o : Host.Outcome State Fault Refusal) (code : Nat) : Prop :=
      (w.chipState = 2 → ir o code) ∧ (w.chipState ≠ 2 → goesTo o fun t => t.look.fld st Fld.DBG_TAP_STAT_IR = 0xFF ∧
        t.look.fld st Fld.DBG_TAP_STAT_REFUSED = min (w.fld st Fld.DBG_TAP_STAT_REFUSED + 1) (2 ^ Fld.DBG_TAP_STAT_REFUSED.width - 1) ∧
        onlyWords [st] s t)
    (ready → ir (exec .tapIdcode s) 0x01 ∧ ir (exec .tapBypass s) 0xFF ∧ takes (exec .tapExtest s) 0x03 ∧ takes (exec .tapClamp s) 0x04 ∧
      takes (exec .tapHighz s) 0x05 ∧ takes (exec .tapExtestPulse s) 0x06 ∧ takes (exec .tapExtestTrain s) 0x07 ∧
      goesTo (exec (.tapSamplePreload pins) s) fun t => t.look.fld st Fld.DBG_TAP_STAT_IR = 0x02 ∧ t.hw = { s.hw with boundary := pins } ∧
        sameWordsBut [st] s t ∧ sameBytes s t ∧ t.pending = s.pending) ∧
    (s.hw.standby = true → goesTo (exec (.tapReset low) s) fun t => t.look.fld st Fld.DBG_TAP_STAT_IR = 0x01 ∧
      t.hw = { s.hw with tapReset := low } ∧ sameWordsBut [st] s t ∧ sameBytes s t ∧ t.pending = s.pending)

end Statements
end

