-- ==== Sys2Proof/Laws/SMap.lean ====
section
/-! SUPPORT. What reading a sparse map gives after a write, and that every write keeps the canonical form. -/

namespace Sys2Proof.Machine

variable {α : Type}

@[simp] theorem SMap.find?_nil (k : Nat) : SMap.find? ([] : List (Nat × α)) k = none := rfl

@[simp] theorem SMap.find?_put_self (m : List (Nat × α)) (k : Nat) (v : α) : SMap.find? (SMap.put m k v) k = some v := by
  induction m with
  | nil => simp [SMap.put, SMap.find?]
  | cons e m ih =>
    obtain ⟨j, u⟩ := e
    unfold SMap.put
    split
    · simp [SMap.find?]
    · split
      · simp [SMap.find?]
      · have h : j ≠ k := fun h => by simp_all
        simp [SMap.find?, h, ih]

theorem SMap.find?_put_other (m : List (Nat × α)) {k j : Nat} (v : α) (h : j ≠ k) :
    SMap.find? (SMap.put m k v) j = SMap.find? m j := by
  induction m with
  | nil => simp [SMap.put, SMap.find?, h.symm]
  | cons e m ih =>
    obtain ⟨i, u⟩ := e
    unfold SMap.put
    split
    · simp [SMap.find?, h.symm]
    · split
      · rename_i hk
        subst hk
        simp [SMap.find?, h.symm]
      · simp [SMap.find?, ih]

@[simp] theorem SMap.find?_del_self (m : List (Nat × α)) (k : Nat) : SMap.find? (SMap.del m k) k = none := by
  induction m with
  | nil => rfl
  | cons e m ih =>
    obtain ⟨i, u⟩ := e
    unfold SMap.del
    split
    · exact ih
    · rename_i hk
      simp [SMap.find?, hk, ih]

theorem SMap.find?_del_other (m : List (Nat × α)) {k j : Nat} (h : j ≠ k) : SMap.find? (SMap.del m k) j = SMap.find? m j := by
  induction m with
  | nil => rfl
  | cons e m ih =>
    obtain ⟨i, u⟩ := e
    unfold SMap.del
    split
    · rename_i hk
      subst hk
      simp [SMap.find?, h.symm, ih]
    · simp [SMap.find?, ih]

@[simp] theorem SMap.get_nil (d : α) (k : Nat) : SMap.get d [] k = d := rfl

/-- Reading a key after a write to it gives the value written. -/
@[simp] theorem SMap.get_set_self [DecidableEq α] (d : α) (m : List (Nat × α)) (k : Nat) (v : α) :
    SMap.get d (SMap.set d m k v) k = v := by
  unfold SMap.get SMap.set
  split
  · simp_all
  · simp

/-- A write leaves every other key as it was. -/
theorem SMap.get_set_other [DecidableEq α] (d : α) (m : List (Nat × α)) {k j : Nat} (v : α) (h : j ≠ k) :
    SMap.get d (SMap.set d m k v) j = SMap.get d m j := by
  unfold SMap.get SMap.set
  split
  · rw [SMap.find?_del_other m h]
  · rw [SMap.find?_put_other m v h]

/-- Reading any key after a write. -/
theorem SMap.get_set [DecidableEq α] (d : α) (m : List (Nat × α)) (k j : Nat) (v : α) :
    SMap.get d (SMap.set d m k v) j = if j = k then v else SMap.get d m j := by
  split
  · rename_i h; rw [h, SMap.get_set_self]
  · rename_i h; exact SMap.get_set_other d m v h

/-- A write of key k against the default of another key: the form that the register file has, where each key has its own default. -/
theorem SMap.get_set_at [DecidableEq α] (d e : α) (m : List (Nat × α)) {k j : Nat} (v : α) (h : j ≠ k) :
    SMap.get e (SMap.set d m k v) j = SMap.get e m j := by
  unfold SMap.get SMap.set
  split
  · rw [SMap.find?_del_other m h]
  · rw [SMap.find?_put_other m v h]

/-! ### The canonical form -/

theorem SMap.risingFrom_mono (m : List (Nat × α)) {a b : Nat} (h : a ≤ b) (r : SMap.risingFrom b m = true) : SMap.risingFrom a m = true := by
  cases m with
  | nil => rfl
  | cons e m =>
    obtain ⟨j, u⟩ := e
    simp only [SMap.risingFrom, Bool.and_eq_true, decide_eq_true_eq] at r ⊢
    exact ⟨by omega, r.2⟩

theorem SMap.risingFrom_put (m : List (Nat × α)) (k : Nat) (v : α) {lo : Nat} (h : lo ≤ k) (r : SMap.risingFrom lo m = true) :
    SMap.risingFrom lo (SMap.put m k v) = true := by
  induction m generalizing lo with
  | nil => simp [SMap.put, SMap.risingFrom, h]
  | cons e m ih =>
    obtain ⟨j, u⟩ := e
    simp only [SMap.risingFrom, Bool.and_eq_true, decide_eq_true_eq] at r
    unfold SMap.put
    split
    · simp only [SMap.risingFrom, Bool.and_eq_true, decide_eq_true_eq]
      exact ⟨h, by omega, r.2⟩
    · split
      · rename_i hk
        subst hk
        simp only [SMap.risingFrom, Bool.and_eq_true, decide_eq_true_eq]
        exact ⟨h, r.2⟩
      · simp only [SMap.risingFrom, Bool.and_eq_true, decide_eq_true_eq]
        exact ⟨r.1, ih (by omega) r.2⟩

theorem SMap.risingFrom_del (m : List (Nat × α)) (k : Nat) {lo : Nat} (r : SMap.risingFrom lo m = true) :
    SMap.risingFrom lo (SMap.del m k) = true := by
  induction m generalizing lo with
  | nil => rfl
  | cons e m ih =>
    obtain ⟨j, u⟩ := e
    simp only [SMap.risingFrom, Bool.and_eq_true, decide_eq_true_eq] at r
    unfold SMap.del
    split
    · exact ih (SMap.risingFrom_mono m (by omega) r.2)
    · simp only [SMap.risingFrom, Bool.and_eq_true, decide_eq_true_eq]
      exact ⟨r.1, ih r.2⟩

theorem SMap.mem_put (m : List (Nat × α)) (k : Nat) (v : α) {e : Nat × α} (h : e ∈ SMap.put m k v) : e = (k, v) ∨ e ∈ m := by
  induction m with
  | nil => simpa [SMap.put] using h
  | cons x m ih =>
    obtain ⟨j, u⟩ := x
    unfold SMap.put at h
    split at h
    · simpa using h
    · split at h
      · rcases List.mem_cons.mp h with h | h
        · exact .inl h
        · exact .inr (List.mem_cons_of_mem _ h)
      · rcases List.mem_cons.mp h with h | h
        · exact .inr (h ▸ List.mem_cons_self)
        · rcases ih h with h | h
          · exact .inl h
          · exact .inr (List.mem_cons_of_mem _ h)

theorem SMap.mem_del (m : List (Nat × α)) (k : Nat) {e : Nat × α} (h : e ∈ SMap.del m k) : e ∈ m := by
  induction m with
  | nil => exact h
  | cons x m ih =>
    obtain ⟨j, u⟩ := x
    unfold SMap.del at h
    split at h
    · exact List.mem_cons_of_mem _ (ih h)
    · rcases List.mem_cons.mp h with h | h
      · exact h ▸ List.mem_cons_self
      · exact List.mem_cons_of_mem _ (ih h)

/-- A write keeps the canonical form. -/
theorem SMap.canonical_set [DecidableEq α] (d : Nat → α) (m : List (Nat × α)) (k : Nat) (v : α) (h : SMap.canonical d m = true) :
    SMap.canonical d (SMap.set (d k) m k v) = true := by
  simp only [SMap.canonical, Bool.and_eq_true, List.all_eq_true, decide_eq_true_eq] at h ⊢
  unfold SMap.set
  split
  · exact ⟨SMap.risingFrom_del m k h.1, fun e he => h.2 e (SMap.mem_del m k he)⟩
  · refine ⟨SMap.risingFrom_put m k v (Nat.zero_le k) h.1, fun e he => ?_⟩
    rcases SMap.mem_put m k v he with rfl | he
    · assumption
    · exact h.2 e he

end Sys2Proof.Machine
end

