-- ==== Sys2Proof/Laws/Memory.lean ====
section
/-! SUPPORT. Read after write of memory and of the register file, one cell or a log at a time, and that every memory operation keeps the
canonical form. -/

namespace Sys2Proof.Machine

/-! ### One cell -/

@[simp] theorem Mem.read_write_self (m : List Host.Cell) (a : Nat) (v : Byte) : Mem.read (Mem.write m a v) a = v :=
  SMap.get_set_self memDefault m a v

theorem Mem.read_write_other (m : List Host.Cell) {a b : Nat} (v : Byte) (h : b ≠ a) : Mem.read (Mem.write m a v) b = Mem.read m b :=
  SMap.get_set_other memDefault m v h

@[simp] theorem Csr.read_write_self (m : SMap Word) (a : Nat) (v : Word) : Csr.read (Csr.write m a v) a = v :=
  SMap.get_set_self (csrReset a) m a v

theorem Csr.read_write_other (m : SMap Word) {a b : Nat} (v : Word) (h : b ≠ a) : Csr.read (Csr.write m a v) b = Csr.read m b :=
  SMap.get_set_at (csrReset a) (csrReset b) m v h

/-! ### Logs -/

@[simp] theorem lastWrite_nil {α : Type} (k : Nat) : lastWrite ([] : List (Nat × α)) k = none := rfl

@[simp] theorem lastWrite_self {α : Type} (k : Nat) (v : α) (l : List (Nat × α)) : lastWrite ((k, v) :: l) k = some v := by
  simp [lastWrite]

theorem lastWrite_other {α : Type} {j k : Nat} (v : α) (l : List (Nat × α)) (h : k ≠ j) : lastWrite ((j, v) :: l) k = lastWrite l k := by
  simp [lastWrite, h.symm]

theorem lastWrite_cons {α : Type} (j k : Nat) (v : α) (l : List (Nat × α)) :
    lastWrite ((j, v) :: l) k = if j = k then some v else lastWrite l k := rfl

/-- Reading memory after a log of writes: the last write to the address, or what was there. -/
theorem Mem.read_writeAll (m : List Host.Cell) (l : List (Nat × Byte)) (a : Nat) :
    Mem.read (Mem.writeAll m l) a = (lastWrite l a).getD (Mem.read m a) := by
  induction l with
  | nil => rfl
  | cons e l ih =>
    obtain ⟨b, v⟩ := e
    by_cases h : b = a
    · subst h; simp [Mem.writeAll]
    · simp only [Mem.writeAll, lastWrite_cons, h, if_false, ← ih]
      exact Mem.read_write_other _ v (fun x => h x.symm)

/-- Reading the register file after a log of writes. -/
theorem Csr.read_writeAll (m : SMap Word) (l : List (Nat × Word)) (a : Nat) :
    Csr.read (Csr.writeAll m l) a = (lastWrite l a).getD (Csr.read m a) := by
  induction l with
  | nil => rfl
  | cons e l ih =>
    obtain ⟨b, v⟩ := e
    by_cases h : b = a
    · subst h; simp [Csr.writeAll]
    · simp only [Csr.writeAll, lastWrite_cons, h, if_false, ← ih]
      exact Csr.read_write_other _ v (fun x => h x.symm)

/-! ### The canonical form -/

theorem Mem.wf_write (m : List Host.Cell) (a : Nat) (v : Byte) (h : Mem.wf m = true) : Mem.wf (Mem.write m a v) = true :=
  SMap.canonical_set (fun _ => memDefault) m a v h

theorem Mem.wf_writeAll (m : List Host.Cell) (l : List (Nat × Byte)) (h : Mem.wf m = true) : Mem.wf (Mem.writeAll m l) = true := by
  induction l with
  | nil => exact h
  | cons e l ih => exact Mem.wf_write _ _ _ ih

theorem Csr.wf_write (m : SMap Word) (a : Nat) (v : Word) (h : Csr.wf m = true) : Csr.wf (Csr.write m a v) = true :=
  SMap.canonical_set csrReset m a v h

theorem Csr.wf_writeAll (m : SMap Word) (l : List (Nat × Word)) (h : Csr.wf m = true) : Csr.wf (Csr.writeAll m l) = true := by
  induction l with
  | nil => exact h
  | cons e l ih => exact Csr.wf_write _ _ _ ih

end Sys2Proof.Machine
end

