-- ==== Sys2Proof/Laws/Work.lean ====
section
/-! SUPPORT. What the named operations on registers, memory and cores do, one lemma per operation and part, and what the state after a command
reads as. -/

namespace Sys2Proof.Machine

/-! ### Parts of a `Work` that an operation leaves alone -/

section Parts
variable (w : Work) (a : Nat) (v : Word) (d : DWord) (f : Fld) (n : Nat) (b : Bool) (y : Byte) (c : Nat) (k : Core)

@[simp] theorem w32_mem : (w.w32 a v).mem = w.mem := rfl
@[simp] theorem w32_csr : (w.w32 a v).csr = w.csr := rfl
@[simp] theorem w32_wr : (w.w32 a v).wr = w.wr := rfl
@[simp] theorem w32_cw : (w.w32 a v).cw = (a, v) :: w.cw := rfl
@[simp] theorem w32_hw : (w.w32 a v).hw = w.hw := rfl
@[simp] theorem w64_mem : (w.w64 a d).mem = w.mem := rfl
@[simp] theorem w64_csr : (w.w64 a d).csr = w.csr := rfl
@[simp] theorem w64_wr : (w.w64 a d).wr = w.wr := rfl
@[simp] theorem w64_hw : (w.w64 a d).hw = w.hw := rfl
@[simp] theorem setFld_mem : (w.setFld a f n).mem = w.mem := by unfold Work.setFld; split <;> [rfl; split <;> rfl]
@[simp] theorem setFld_csr : (w.setFld a f n).csr = w.csr := by unfold Work.setFld; split <;> [rfl; split <;> rfl]
@[simp] theorem setFld_wr : (w.setFld a f n).wr = w.wr := by unfold Work.setFld; split <;> [rfl; split <;> rfl]
@[simp] theorem setFld_hw : (w.setFld a f n).hw = w.hw := by unfold Work.setFld; split <;> [rfl; split <;> rfl]
@[simp] theorem setFlag_mem : (w.setFlag a f b).mem = w.mem := setFld_mem ..
@[simp] theorem setFlag_csr : (w.setFlag a f b).csr = w.csr := setFld_csr ..
@[simp] theorem setFlag_wr : (w.setFlag a f b).wr = w.wr := setFld_wr ..
@[simp] theorem setFlag_hw : (w.setFlag a f b).hw = w.hw := setFld_hw ..
@[simp] theorem satAdd_mem : (w.satAdd a f n).mem = w.mem := setFld_mem ..
@[simp] theorem satAdd_csr : (w.satAdd a f n).csr = w.csr := setFld_csr ..
@[simp] theorem satAdd_wr : (w.satAdd a f n).wr = w.wr := setFld_wr ..
@[simp] theorem satAdd_hw : (w.satAdd a f n).hw = w.hw := setFld_hw ..
@[simp] theorem bumpErr_mem : (w.bumpErr a n).mem = w.mem := rfl
@[simp] theorem bumpErr_csr : (w.bumpErr a n).csr = w.csr := rfl
@[simp] theorem bumpErr_wr : (w.bumpErr a n).wr = w.wr := rfl
@[simp] theorem bumpErr_hw : (w.bumpErr a n).hw = w.hw := rfl
@[simp] theorem bump_mem : (w.bump a n).mem = w.mem := by unfold Work.bump; split <;> rfl
@[simp] theorem bump_csr : (w.bump a n).csr = w.csr := by unfold Work.bump; split <;> rfl
@[simp] theorem bump_wr : (w.bump a n).wr = w.wr := by unfold Work.bump; split <;> rfl
@[simp] theorem bump_hw : (w.bump a n).hw = w.hw := by unfold Work.bump; split <;> rfl
@[simp] theorem wrB_mem : (w.wrB a y).mem = w.mem := rfl
@[simp] theorem wrB_csr : (w.wrB a y).csr = w.csr := rfl
@[simp] theorem wrB_cw : (w.wrB a y).cw = w.cw := rfl
@[simp] theorem setCore_mem : (w.setCore c k).mem = w.mem := rfl
@[simp] theorem setCore_csr : (w.setCore c k).csr = w.csr := rfl
@[simp] theorem setCore_wr : (w.setCore c k).wr = w.wr := rfl
@[simp] theorem setCore_cw : (w.setCore c k).cw = w.cw := rfl
@[simp] theorem setCore_wild : (w.setCore c k).hw.wild = w.hw.wild := rfl

end Parts

@[simp] theorem updCore_mem (w : Work) (c : Nat) (f : Core → Core) : (w.updCore c f).mem = w.mem := rfl
@[simp] theorem updCore_csr (w : Work) (c : Nat) (f : Core → Core) : (w.updCore c f).csr = w.csr := rfl
@[simp] theorem updCore_wr (w : Work) (c : Nat) (f : Core → Core) : (w.updCore c f).wr = w.wr := rfl
@[simp] theorem updCore_cw (w : Work) (c : Nat) (f : Core → Core) : (w.updCore c f).cw = w.cw := rfl
@[simp] theorem updCore_wild (w : Work) (c : Nat) (f : Core → Core) : (w.updCore c f).hw.wild = w.hw.wild := rfl

/-- The capture of a clamp writes registers and nothing else. -/
theorem clampNote_parts (v : Work) (p : Prop) [Decidable p] (x : DWord) (y : Word) :
    let n := if p then v else ((v.w64 Reg.DBG_CLAMP_LAST_ADDR x).w32 Reg.DBG_CLAMP_LAST_INFO y).setFlag
      Reg.DBG_CLAMP_STAT Fld.DBG_CLAMP_STAT_LAST_VALID true
    n.mem = v.mem ∧ n.csr = v.csr ∧ n.wr = v.wr ∧ n.hw = v.hw := by
  by_cases h : p <;> simp [h]

/-- Counting a clamp writes registers and nothing else. -/
theorem clamp_parts (w : Work) (who : ClampBy) (addr word lsb : Nat) (rule : ClampRule) : (w.clamp who addr word lsb rule).mem = w.mem ∧
    (w.clamp who addr word lsb rule).csr = w.csr ∧ (w.clamp who addr word lsb rule).wr = w.wr ∧ (w.clamp who addr word lsb rule).hw = w.hw := by
  unfold Work.clamp
  obtain ⟨a, b, c, d⟩ := clampNote_parts (w.satAdd (match who.ctx with
    | some x => Reg.DBG_CLAMP_CNT x
    | none => match who with
      | .link p _ => Reg.DBG_CLAMP_LINK p
      | _ => Reg.DBG_CLAMP_NOCTX) word32 1) ((w.satAdd (match who.ctx with
    | some x => Reg.DBG_CLAMP_CNT x
    | none => match who with
      | .link p _ => Reg.DBG_CLAMP_LINK p
      | _ => Reg.DBG_CLAMP_NOCTX) word32 1).flag Reg.DBG_CLAMP_STAT Fld.DBG_CLAMP_STAT_LAST_VALID = true) (BitVec.ofNat 64 addr)
    (BitVec.ofNat 32 (who.ctx.getD 0 + (if who.ctx.isSome then 1 else 0) * 2 ^ 10 + who.source * 2 ^ 11
      + (who.port / 2) * 2 ^ 14 + lsb % 32 * 2 ^ 16 + rule.code * 2 ^ 21 + (who.port % 2) * 2 ^ 23 + word % 256 * 2 ^ 24))
  exact ⟨a.trans (satAdd_mem ..), b.trans (satAdd_csr ..), c.trans (satAdd_wr ..), d.trans (satAdd_hw ..)⟩

@[simp] theorem clamp_mem (w : Work) (who : ClampBy) (addr word lsb : Nat) (rule : ClampRule) : (w.clamp who addr word lsb rule).mem = w.mem :=
  (clamp_parts ..).1
@[simp] theorem clamp_csr (w : Work) (who : ClampBy) (addr word lsb : Nat) (rule : ClampRule) : (w.clamp who addr word lsb rule).csr = w.csr :=
  (clamp_parts ..).2.1
@[simp] theorem clamp_wr (w : Work) (who : ClampBy) (addr word lsb : Nat) (rule : ClampRule) : (w.clamp who addr word lsb rule).wr = w.wr :=
  (clamp_parts ..).2.2.1
@[simp] theorem clamp_hw (w : Work) (who : ClampBy) (addr word lsb : Nat) (rule : ClampRule) : (w.clamp who addr word lsb rule).hw = w.hw :=
  (clamp_parts ..).2.2.2

/-! ### Register words and fields -/

@[simp] theorem r32_w32_self (w : Work) (a : Nat) (v : Word) : (w.w32 a v).r32 a = v := by simp [Work.r32]

theorem r32_w32_other (w : Work) {a b : Nat} (v : Word) (h : b ≠ a) : (w.w32 a v).r32 b = w.r32 b := by
  simp [Work.r32, lastWrite_cons, h.symm]

theorem r32_w32 (w : Work) (a b : Nat) (v : Word) : (w.w32 a v).r32 b = if b = a then v else w.r32 b := by
  split
  · rename_i h; rw [h, r32_w32_self]
  · rename_i h; exact r32_w32_other w v h

@[simp] theorem r64_w64_self (w : Work) (a : Nat) (v : DWord) : (w.w64 a v).r64 a = v := by
  have h : a ≠ a + 4 := by omega
  unfold Work.r64 Work.w64
  rw [r32_w32_self, r32_w32_other _ _ h, r32_w32_self]
  apply BitVec.eq_of_toNat_eq
  have := v.isLt
  simp only [BitVec.toNat_append, BitVec.toNat_ofNat, BitVec.truncate_eq_setWidth, BitVec.toNat_setWidth]
  have h1 : v.toNat % 2 ^ 32 < 2 ^ 32 := Nat.mod_lt _ (by norm_num)
  rw [← Nat.shiftLeft_add_eq_or_of_lt h1, Nat.shiftLeft_eq, Nat.shiftRight_eq_div_pow]
  omega

theorem r32_w64_other (w : Work) {a b : Nat} (v : DWord) (h : b ≠ a) (h4 : b ≠ a + 4) : (w.w64 a v).r32 b = w.r32 b := by
  unfold Work.w64
  rw [r32_w32_other _ _ h4, r32_w32_other _ _ h]

/-- A register word that a log of writes has not touched reads as the register file holds it. -/
theorem r32_of_cw (w w' : Work) (h : w'.cw = w.cw) (h' : w'.csr = w.csr) (a : Nat) : w'.r32 a = w.r32 a := by
  simp [Work.r32, h, h']

@[simp] theorem r32_setCore (w : Work) (c : Nat) (k : Core) (a : Nat) : (w.setCore c k).r32 a = w.r32 a := rfl
@[simp] theorem r32_updCore (w : Work) (c : Nat) (f : Core → Core) (a : Nat) : (w.updCore c f).r32 a = w.r32 a := rfl
@[simp] theorem fld_setCore (w : Work) (c : Nat) (k : Core) (a : Nat) (f : Fld) : (w.setCore c k).fld a f = w.fld a f := rfl
@[simp] theorem fld_updCore (w : Work) (c : Nat) (g : Core → Core) (a : Nat) (f : Fld) : (w.updCore c g).fld a f = w.fld a f := rfl
@[simp] theorem flag_updCore (w : Work) (c : Nat) (g : Core → Core) (a : Nat) (f : Fld) : (w.updCore c g).flag a f = w.flag a f := rfl
@[simp] theorem r32_wrB (w : Work) (x : Nat) (y : Byte) (a : Nat) : (w.wrB x y).r32 a = w.r32 a := rfl
@[simp] theorem fld_wrB (w : Work) (x : Nat) (y : Byte) (a : Nat) (f : Fld) : (w.wrB x y).fld a f = w.fld a f := rfl

/-- A field of a number after that field was replaced. -/
theorem bits_setBits_self (v lsb width x : Nat) : bits (setBits v lsb width x) lsb width = x % 2 ^ width := by
  unfold bits setBits
  have h1 : v % 2 ^ lsb < 2 ^ lsb := Nat.mod_lt _ (Nat.two_pow_pos lsb)
  have h2 : x % 2 ^ width < 2 ^ width := Nat.mod_lt _ (Nat.two_pow_pos width)
  rw [Nat.shiftRight_eq_div_pow,
    show v % 2 ^ lsb + x % 2 ^ width * 2 ^ lsb + (v >>> (lsb + width)) * 2 ^ (lsb + width) =
      v % 2 ^ lsb + (x % 2 ^ width + (v >>> (lsb + width)) * 2 ^ width) * 2 ^ lsb by rw [pow_add]; ring,
    Nat.add_mul_div_right _ _ (Nat.two_pow_pos lsb), Nat.div_eq_of_lt h1, Nat.zero_add, Nat.add_mul_mod_self_right,
    Nat.mod_eq_of_lt h2]

/-- Replacing a field keeps a number within its width. -/
theorem setBits_lt (v lsb width x n : Nat) (h : lsb + width ≤ n) (hv : v < 2 ^ n) : setBits v lsb width x < 2 ^ n := by
  unfold setBits
  have h1 : v % 2 ^ lsb < 2 ^ lsb := Nat.mod_lt _ (Nat.two_pow_pos lsb)
  have h2 : x % 2 ^ width < 2 ^ width := Nat.mod_lt _ (Nat.two_pow_pos width)
  have h3 : v >>> (lsb + width) < 2 ^ (n - (lsb + width)) := by
    rw [Nat.shiftRight_eq_div_pow, Nat.div_lt_iff_lt_mul (Nat.two_pow_pos _), ← pow_add]
    rwa [Nat.sub_add_cancel h]
  have h4 : v % 2 ^ lsb + x % 2 ^ width * 2 ^ lsb < 2 ^ (lsb + width) := by
    rw [pow_add]
    calc v % 2 ^ lsb + x % 2 ^ width * 2 ^ lsb < 2 ^ lsb + x % 2 ^ width * 2 ^ lsb := by omega
      _ = (x % 2 ^ width + 1) * 2 ^ lsb := by ring
      _ ≤ 2 ^ width * 2 ^ lsb := Nat.mul_le_mul_right _ h2
      _ = 2 ^ lsb * 2 ^ width := by ring
  calc _ < 2 ^ (lsb + width) + (v >>> (lsb + width)) * 2 ^ (lsb + width) := by omega
    _ = (v >>> (lsb + width) + 1) * 2 ^ (lsb + width) := by ring
    _ ≤ 2 ^ (n - (lsb + width)) * 2 ^ (lsb + width) := Nat.mul_le_mul_right _ h3
    _ = 2 ^ n := by rw [← pow_add, Nat.sub_add_cancel h]

/-- A field of a 32-bit register reads as it was set. -/
theorem fld_setFld_self (w : Work) (a : Nat) (f : Fld) (x : Nat) (h : f.lsb + f.width ≤ 32) : (w.setFld a f x).fld a f = x % 2 ^ f.width := by
  unfold Work.fld Work.setFld
  simp only [h, if_true, r32_w32_self, BitVec.toNat_ofNat]
  rw [Nat.mod_eq_of_lt (setBits_lt _ _ _ _ 32 h (w.r32 a).isLt), bits_setBits_self]

theorem fld_setFld_other (w : Work) {a b : Nat} (f g : Fld) (x : Nat) (h : f.lsb + f.width ≤ 32) (hg : g.lsb + g.width ≤ 32) (n : b ≠ a) :
    (w.setFld a f x).fld b g = w.fld b g := by
  unfold Work.fld
  simp only [hg, if_true]
  unfold Work.setFld
  simp only [h, if_true]
  rw [r32_w32_other _ _ n]

theorem r32_setFld_other (w : Work) {a b : Nat} (f : Fld) (x : Nat) (h : f.lsb + f.width ≤ 32) (n : b ≠ a) :
    (w.setFld a f x).r32 b = w.r32 b := by
  unfold Work.setFld
  simp only [h, if_true]
  exact r32_w32_other w _ n

/-! ### Cores -/

@[simp] theorem core_setCore_self (w : Work) (c : Nat) (k : Core) : (w.setCore c k).core c = k :=
  SMap.get_set_self Core.reset w.hw.cores c k

theorem core_setCore_other (w : Work) {c x : Nat} (k : Core) (h : x ≠ c) : (w.setCore c k).core x = w.core x :=
  SMap.get_set_other Core.reset w.hw.cores k h

@[simp] theorem core_updCore_self (w : Work) (c : Nat) (f : Core → Core) : (w.updCore c f).core c = f (w.core c) :=
  core_setCore_self ..

theorem core_updCore_other (w : Work) {c x : Nat} (f : Core → Core) (h : x ≠ c) : (w.updCore c f).core x = w.core x :=
  core_setCore_other w _ h

theorem core_of_cores (w w' : Work) (h : w'.hw.cores = w.hw.cores) (c : Nat) : w'.core c = w.core c := by simp [Work.core, h]

/-! ### What a command leaves -/

/-- With the always-on plane running, a command ends in the state that its work leaves. -/
theorem run_powered (s : State) (f : Work → Work) (h : s.powered = true) : run s f = .next (Work.commit s (f s.look)) := by
  simp [run, runAlways, h]

/-- Without it, a command that needs it leaves every byte, every register word and everything else as it was. -/
theorem run_unpowered (s : State) (f : Work → Work) (h : s.powered = false) : run s f = .next s := by
  simp [run, runAlways, h, Work.commit, Work.start, Mem.writeAll, Csr.writeAll]

/-- The state after a command reads as its work did. -/
theorem commit_r32 (s : State) (w : Work) (h : w.csr = s.csr) (a : Nat) : (Work.commit s w).look.r32 a = w.r32 a := by
  simp [Work.commit, Work.start, Work.r32, Csr.read_writeAll, h]

theorem commit_rdB (s : State) (w : Work) (h : w.mem = s.mem) (a : Nat) : (Work.commit s w).look.rdB a = w.rdB a := by
  simp [Work.commit, Work.start, Work.rdB, Mem.read_writeAll, h]

theorem commit_r64 (s : State) (w : Work) (h : w.csr = s.csr) (a : Nat) : (Work.commit s w).look.r64 a = w.r64 a := by
  simp only [Work.r64, commit_r32 s w h]

theorem commit_fld (s : State) (w : Work) (h : w.csr = s.csr) (a : Nat) (f : Fld) : (Work.commit s w).look.fld a f = w.fld a f := by
  simp only [Work.fld, Work.r64, commit_r32 s w h]

theorem commit_flag (s : State) (w : Work) (h : w.csr = s.csr) (a : Nat) (f : Fld) : (Work.commit s w).look.flag a f = w.flag a f := by
  simp only [Work.flag, commit_fld s w h]

@[simp] theorem commit_hw (s : State) (w : Work) : (Work.commit s w).hw = w.hw := rfl
@[simp] theorem commit_look_hw (s : State) (w : Work) : (Work.commit s w).look.hw = w.hw := rfl
@[simp] theorem commit_pending (s : State) (w : Work) : (Work.commit s w).pending = s.pending := rfl
@[simp] theorem commit_core (s : State) (w : Work) (c : Nat) : (Work.commit s w).look.core c = w.core c := rfl

/-- The work of a command that has changed core slot c and nothing else. -/
def Work.onlyCore (c : Nat) (w w' : Work) : Prop :=
  w'.mem = w.mem ∧ w'.csr = w.csr ∧ w'.wr = w.wr ∧ w'.cw = w.cw ∧ w'.hw = { w.hw with cores := w'.hw.cores } ∧
    ∀ x, x ≠ c → w'.core x = w.core x

theorem onlyCore_refl (c : Nat) (w : Work) : Work.onlyCore c w w := ⟨rfl, rfl, rfl, rfl, rfl, fun _ _ => rfl⟩

theorem onlyCore_updCore {c : Nat} {w w' : Work} (h : Work.onlyCore c w w') (f : Core → Core) : Work.onlyCore c w (w'.updCore c f) := by
  obtain ⟨h1, h2, h3, h4, h5, h6⟩ := h
  refine ⟨h1, h2, h3, h4, ?_, fun x hx => ?_⟩
  · unfold Work.updCore Work.setCore
    simp only
    rw [h5]
  · rw [core_updCore_other _ _ hx, h6 x hx]

/-- A command whose work changes one core slot changes nothing else of the state. -/
theorem onlyCore_commit {c : Nat} {s : State} {w : Work} (h : Work.onlyCore c s.look w) : Sys2Proof.Machine.onlyCore c s (Work.commit s w) := by
  obtain ⟨h1, h2, h3, h4, h5, h6⟩ := h
  refine ⟨fun x => ?_, fun x => ?_, fun x hx => h6 x hx, h5, rfl⟩
  · rw [commit_rdB s w h1]
    have hw : w.hw.wild = s.hw.wild := by rw [h5]; rfl
    simp [Work.rdB, h1, h3, hw, Work.start]
  · rw [commit_r32 s w h2]
    simp [Work.r32, h2, h4, Work.start]

theorem commit_onlyCore_refl (c : Nat) (s : State) : Sys2Proof.Machine.onlyCore c s (Work.commit s s.look) :=
  onlyCore_commit (onlyCore_refl c s.look)

/-- A command whose guard does not hold leaves registers and memory as they read. -/
theorem commit_look (s : State) : Work.commit s s.look = s := rfl

/-- Every command keeps the canonical form. -/
theorem run_wellKept (s : State) (f : Work → Work) (h : s.wellKept = true) {t : State} (e : run s f = .next t) : t.wellKept = true := by
  unfold run runAlways at e
  injection e with e
  subst e
  simp only [State.wellKept, Bool.and_eq_true] at h ⊢
  exact ⟨Mem.wf_writeAll _ _ h.1, Csr.wf_writeAll _ _ h.2⟩

theorem runAlways_wellKept (s : State) (f : Work → Work) (h : s.wellKept = true) {t : State} (e : runAlways s f = .next t) :
    t.wellKept = true := by
  unfold runAlways at e
  injection e with e
  subst e
  simp only [State.wellKept, Bool.and_eq_true] at h ⊢
  exact ⟨Mem.wf_writeAll _ _ h.1, Csr.wf_writeAll _ _ h.2⟩

end Sys2Proof.Machine
end

