-- ==== Sys2Proof/Laws/Ctl.lean ====
section
/-! SUPPORT. How a command runs: with the always-on plane powered, from the instruction at a program counter, on one core. -/

namespace Sys2Proof.Machine

/-- A command's next state has a property when the state its work leaves has it. -/
theorem goes {s : State} {f : Work → Work} {p : State → Prop} (h : s.powered = true) (hp : p (Work.commit s (f s.look))) : goesTo (run s f) p :=
  ⟨_, run_powered s f h, hp⟩

/-- The next state of a command that runs is the one its work leaves. -/
theorem run_done {s : State} {f : Work → Work} {w : Work} (h : s.powered = true) (hw : f s.look = w) : run s f = done s w := by
  rw [run_powered s f h, hw]; rfl

/-- A control core that runs executes the instruction of the row at its program counter. -/
theorem ctl_at {c : Nat} {row : Nat → Bool} {s : State} (h : atInsn c row s) (f : Work → Nat → Work) :
    s.look.ctl c row f = f s.look (s.look.insn c) := by
  simp only [Work.ctl, h.2.1, h.2.2, Bool.and_self, if_true]

/-- The next state of an instruction. -/
theorem ctl_done {c : Nat} {row : Nat → Bool} {s : State} {f : Work → Nat → Work} {w : Work} (h : atInsn c row s)
    (hw : f s.look (s.look.insn c) = w) : run s (fun w => w.ctl c row f) = done s w :=
  run_done h.1 (by rw [ctl_at h, hw])

/-- Work that has changed one core slot leaves a state in which that core slot alone has changed. -/
theorem becomes_of {c : Nat} {s : State} {w : Work} {k : Core} (h : Work.onlyCore c s.look w) (hk : w.core c = k) :
    coreBecomes c s (Work.commit s w) k := ⟨onlyCore_commit h, hk⟩

/-- An instruction that changes its core only, in one change. -/
theorem goes_ctl1 {s : State} {c : Nat} {row : Nat → Bool} {f : Work → Nat → Work} {g : Core → Core} {k : Core} (h : atInsn c row s)
    (hf : f s.look (s.look.insn c) = s.look.updCore c g) (hk : g (s.look.core c) = k) :
    goesTo (run s fun w => w.ctl c row f) (fun t => coreBecomes c s t k) := by
  refine goes h.1 ?_
  rw [ctl_at h, hf]
  exact becomes_of (onlyCore_updCore (onlyCore_refl _ _) _) (by rw [core_updCore_self, hk])

/-- An instruction that changes its core only, in two changes. -/
theorem goes_ctl2 {s : State} {c : Nat} {row : Nat → Bool} {f : Work → Nat → Work} {g g' : Core → Core} {k : Core} (h : atInsn c row s)
    (hf : f s.look (s.look.insn c) = (s.look.updCore c g).updCore c g') (hk : g' (g (s.look.core c)) = k) :
    goesTo (run s fun w => w.ctl c row f) (fun t => coreBecomes c s t k) := by
  refine goes h.1 ?_
  rw [ctl_at h, hf]
  exact becomes_of (onlyCore_updCore (onlyCore_updCore (onlyCore_refl _ _) _) _) (by rw [core_updCore_self, core_updCore_self, hk])

theorem nextPc_upd (w : Work) (c : Nat) : w.nextPc c = w.updCore c fun k => { k with pc := k.pc + 4 } := rfl
theorem setPc_upd (w : Work) (c : Nat) (p : BitVec 24) : w.setPc c p = w.updCore c fun k => { k with pc := p } := rfl
theorem setG_upd (w : Work) (c d : Nat) (v : DWord) : w.setG c d v = w.updCore c fun k => k.setG d v := rfl
theorem setStall_upd (w : Work) (c : Nat) (x : CtlStall) : w.setStall c x = w.updCore c fun k => { k with stall := x } := rfl
theorem setCab_upd (w : Work) (c n : Nat) (v : CmdBits) : w.setCab c n v = w.updCore c fun k => { k with cabs := SMap.set 0 k.cabs n v } := rfl

@[simp] theorem setG_pc (k : Core) (d : Nat) (v : DWord) : (k.setG d v).pc = k.pc := by unfold Core.setG; split <;> rfl
@[simp] theorem setG_stall (k : Core) (d : Nat) (v : DWord) : (k.setG d v).stall = k.stall := by unfold Core.setG; split <;> rfl
@[simp] theorem core_setG (w : Work) (c d : Nat) (v : DWord) : (w.setG c d v).core c = (w.core c).setG d v := core_updCore_self ..

/-- A general register other than g0 reads as written (R74). -/
theorem g_setG_self (k : Core) {d : Nat} (v : DWord) (h : d ≠ 0) : (k.setG d v).g d = v := by simp [Core.g, Core.setG, h]

/-- Register g0 reads as zero whatever is written (R74). -/
theorem g_zero (k : Core) : k.g 0 = 0 := rfl

/-- A write to one general register leaves the others. -/
theorem g_setG_other (k : Core) {d e : Nat} (v : DWord) (h : e ≠ d) : (k.setG d v).g e = k.g e := by
  unfold Core.g Core.setG
  split
  · rfl
  · split
    · rfl
    · exact SMap.get_set_other 0 k.regs v h

/-- A piece of work that writes no byte leaves every byte as it reads. -/
theorem sameBytes_of {s : State} {w : Work} (h1 : w.mem = s.mem) (h2 : w.wr = []) (h3 : w.hw.wild = s.hw.wild) : sameBytes s (Work.commit s w) := by
  intro x
  rw [commit_rdB _ _ h1]
  simp [Work.rdB, h1, h2, h3, Work.start]

/-- A piece of work that writes no register word leaves every word as it reads. -/
theorem sameWords_of {s : State} {w : Work} (h1 : w.csr = s.csr) (h2 : w.cw = []) : sameWords s (Work.commit s w) := by
  intro x
  rw [commit_r32 _ _ h1]
  simp [Work.r32, h1, h2, Work.start]

/-! ### Bytes -/

theorem wildAt_split_other (l : List Wild) {a x : Nat} (h : x ≠ a) : wildAt (wildSplit l a) x = none ∧ wildAt l x = none ∨
    ∃ y z, wildAt (wildSplit l a) x = some y ∧ wildAt l x = some z ∧ y.draw = z.draw := by
  induction l with
  | nil => left; exact ⟨rfl, rfl⟩
  | cons y ys ih =>
    have key : wildSplit (y :: ys) a = (if decide (y.lo ≤ a) && decide (a < y.hi) then
      (if y.lo < a then [{ y with hi := a }] else []) ++ (if a + 1 < y.hi then [{ y with lo := a + 1 }] else []) else [y]) ++ wildSplit ys a := by
      simp [wildSplit]
    rw [key]
    by_cases h1 : y.lo ≤ a ∧ a < y.hi
    · by_cases h2 : y.lo ≤ x ∧ x < y.hi
      · right
        rcases Nat.lt_or_gt_of_ne h with hlt | hgt
        · have : y.lo < a := by omega
          refine ⟨{ y with hi := a }, y, ?_, by simp [wildAt, h2], rfl⟩
          simp [h1, this, wildAt, h2.1, hlt]
        · have h3 : a + 1 < y.hi := by omega
          refine ⟨{ y with lo := a + 1 }, y, ?_, by simp [wildAt, h2], rfl⟩
          by_cases h4 : y.lo < a
          · have : ¬ x < a := by omega
            have h5 : a + 1 ≤ x := by omega
            simp [h1, h3, h4, wildAt, h2.2, this, h5]
          · have h5 : a + 1 ≤ x := by omega
            simp [h1, h3, h4, wildAt, h2.2, h5]
      · have e1 : wildAt (y :: ys) x = wildAt ys x := by
          have : (decide (y.lo ≤ x) && decide (x < y.hi)) = false := by simpa using h2
          simp [wildAt, this]
        rw [e1]
        have e2 : wildAt ((if decide (y.lo ≤ a) && decide (a < y.hi) then
          (if y.lo < a then [{ y with hi := a }] else []) ++ (if a + 1 < y.hi then [{ y with lo := a + 1 }] else []) else [y]) ++ wildSplit ys a) x
          = wildAt (wildSplit ys a) x := by
          by_cases h4 : y.lo < a <;> by_cases h3 : a + 1 < y.hi
          all_goals simp only [h1, decide_true, Bool.and_self, if_true, h3, h4, if_false, List.cons_append, List.nil_append, wildAt]
          · have a1 : (decide (y.lo ≤ x) && decide (x < a)) = false := by simp; omega
            have a2 : (decide (a + 1 ≤ x) && decide (x < y.hi)) = false := by simp; omega
            simp only [a1, a2, Bool.false_eq_true, if_false]
          · have a1 : (decide (y.lo ≤ x) && decide (x < a)) = false := by simp; omega
            simp only [a1, Bool.false_eq_true, if_false]
          · have a2 : (decide (a + 1 ≤ x) && decide (x < y.hi)) = false := by simp; omega
            simp only [a2, Bool.false_eq_true, if_false]
        rw [e2]
        exact ih
    · have h1' : (decide (y.lo ≤ a) && decide (a < y.hi)) = false := by simpa using h1
      simp only [h1', Bool.false_eq_true, if_false, List.cons_append, List.nil_append, wildAt]
      by_cases h2 : (decide (y.lo ≤ x) && decide (x < y.hi)) = true
      · right; exact ⟨y, y, by simp [h2], by simp [h2], rfl⟩
      · simp only [h2, Bool.false_eq_true, if_false]
        exact ih

theorem wildAt_split_self (l : List Wild) (a : Nat) : wildAt (wildSplit l a) a = none := by
  induction l with
  | nil => rfl
  | cons y ys ih =>
    have key : wildSplit (y :: ys) a = (if decide (y.lo ≤ a) && decide (a < y.hi) then
      (if y.lo < a then [{ y with hi := a }] else []) ++ (if a + 1 < y.hi then [{ y with lo := a + 1 }] else []) else [y]) ++ wildSplit ys a := by
      simp [wildSplit]
    rw [key]
    by_cases h1 : y.lo ≤ a ∧ a < y.hi
    · by_cases h4 : y.lo < a <;> by_cases h3 : a + 1 < y.hi <;> simp [h1, h3, h4, wildAt, ih]
    · have h1' : (decide (y.lo ≤ a) && decide (a < y.hi)) = false := by simpa using h1
      simp [h1', wildAt, ih]

/-- A byte reads as it was written. -/
@[simp] theorem rdB_wrB_self (w : Work) (a : Nat) (v : Byte) : (w.wrB a v).rdB a = v := by
  simp [Work.rdB, Work.wrB, wildAt_split_self]

/-- A write leaves every other byte. -/
theorem rdB_wrB_other (w : Work) {a x : Nat} (v : Byte) (h : x ≠ a) : (w.wrB a v).rdB x = w.rdB x := by
  unfold Work.rdB Work.wrB
  simp only
  rcases wildAt_split_other w.hw.wild h with ⟨h1, h2⟩ | ⟨y, z, h1, h2, h3⟩
  · simp [h1, h2, lastWrite_other _ _ h]
  · simp [h1, h2, h3]

@[simp] theorem rdB_updCore (w : Work) (c : Nat) (f : Core → Core) (a : Nat) : (w.updCore c f).rdB a = w.rdB a := rfl
@[simp] theorem rdB_w32 (w : Work) (x : Nat) (v : Word) (a : Nat) : (w.w32 x v).rdB a = w.rdB a := rfl
@[simp] theorem rdB_w64 (w : Work) (x : Nat) (v : DWord) (a : Nat) : (w.w64 x v).rdB a = w.rdB a := rfl
@[simp] theorem rdB_setFld (w : Work) (x : Nat) (f : Fld) (n : Nat) (a : Nat) : (w.setFld x f n).rdB a = w.rdB a := by simp [Work.rdB]

end Sys2Proof.Machine
end

