-- ==== Sys2Proof/Laws/Parts.lean ====
section
/-! SUPPORT. The sparse parts of the machine: what setting one entry does to it, to the other entries, and to registers and memory; and what a write of
write-only fields does. -/

namespace Sys2Proof.Machine

/-! ### One entry of a part -/

/-- The generator of a core. -/
@[simp] theorem seed_setSeed_self (w : Work) (k : Nat) (x : Seed) : (w.setSeed k x).seed k = x := SMap.get_set_self ..

theorem seed_setSeed_other (w : Work) {k j : Nat} (x : Seed) (h : j ≠ k) : (w.setSeed k x).seed j = w.seed j := SMap.get_set_other _ _ _ h

@[simp] theorem setSeed_mem (w : Work) (k : Nat) (x : Seed) : (w.setSeed k x).mem = w.mem := rfl
@[simp] theorem setSeed_csr (w : Work) (k : Nat) (x : Seed) : (w.setSeed k x).csr = w.csr := rfl
@[simp] theorem setSeed_wr (w : Work) (k : Nat) (x : Seed) : (w.setSeed k x).wr = w.wr := rfl
@[simp] theorem setSeed_cw (w : Work) (k : Nat) (x : Seed) : (w.setSeed k x).cw = w.cw := rfl

/-- The configuration space of a host port. -/
@[simp] theorem pciPort_setPci_self (w : Work) (k : Nat) (x : PciPort) : (w.setPci k x).pciPort k = x := SMap.get_set_self ..

theorem pciPort_setPci_other (w : Work) {k j : Nat} (x : PciPort) (h : j ≠ k) : (w.setPci k x).pciPort j = w.pciPort j := SMap.get_set_other _ _ _ h

@[simp] theorem setPci_mem (w : Work) (k : Nat) (x : PciPort) : (w.setPci k x).mem = w.mem := rfl
@[simp] theorem setPci_csr (w : Work) (k : Nat) (x : PciPort) : (w.setPci k x).csr = w.csr := rfl
@[simp] theorem setPci_wr (w : Work) (k : Nat) (x : PciPort) : (w.setPci k x).wr = w.wr := rfl
@[simp] theorem setPci_cw (w : Work) (k : Nat) (x : PciPort) : (w.setPci k x).cw = w.cw := rfl

/-- The position of a stored descriptor. -/
@[simp] theorem descPosOf_setDescPos_self (w : Work) (k : Nat) (x : Nat) : (w.setDescPos k x).descPosOf k = x := SMap.get_set_self ..

theorem descPosOf_setDescPos_other (w : Work) {k j : Nat} (x : Nat) (h : j ≠ k) : (w.setDescPos k x).descPosOf j = w.descPosOf j := SMap.get_set_other _ _ _ h

@[simp] theorem setDescPos_mem (w : Work) (k : Nat) (x : Nat) : (w.setDescPos k x).mem = w.mem := rfl
@[simp] theorem setDescPos_csr (w : Work) (k : Nat) (x : Nat) : (w.setDescPos k x).csr = w.csr := rfl
@[simp] theorem setDescPos_wr (w : Work) (k : Nat) (x : Nat) : (w.setDescPos k x).wr = w.wr := rfl
@[simp] theorem setDescPos_cw (w : Work) (k : Nat) (x : Nat) : (w.setDescPos k x).cw = w.cw := rfl

/-- A link port. -/
@[simp] theorem port_updPort_self (w : Work) (k : Nat) (f : Port → Port) : (w.updPort k f).port k = f (w.port k) := SMap.get_set_self ..

theorem port_updPort_other (w : Work) {k j : Nat} (f : Port → Port) (h : j ≠ k) : (w.updPort k f).port j = w.port j := SMap.get_set_other _ _ _ h

@[simp] theorem updPort_mem (w : Work) (k : Nat) (f : Port → Port) : (w.updPort k f).mem = w.mem := rfl
@[simp] theorem updPort_csr (w : Work) (k : Nat) (f : Port → Port) : (w.updPort k f).csr = w.csr := rfl
@[simp] theorem updPort_wr (w : Work) (k : Nat) (f : Port → Port) : (w.updPort k f).wr = w.wr := rfl
@[simp] theorem updPort_cw (w : Work) (k : Nat) (f : Port → Port) : (w.updPort k f).cw = w.cw := rfl

/-- A memory channel. -/
@[simp] theorem chan_updChan_self (w : Work) (k : Nat) (f : Chan → Chan) : (w.updChan k f).chan k = f (w.chan k) := SMap.get_set_self ..

theorem chan_updChan_other (w : Work) {k j : Nat} (f : Chan → Chan) (h : j ≠ k) : (w.updChan k f).chan j = w.chan j := SMap.get_set_other _ _ _ h

@[simp] theorem updChan_mem (w : Work) (k : Nat) (f : Chan → Chan) : (w.updChan k f).mem = w.mem := rfl
@[simp] theorem updChan_csr (w : Work) (k : Nat) (f : Chan → Chan) : (w.updChan k f).csr = w.csr := rfl
@[simp] theorem updChan_wr (w : Work) (k : Nat) (f : Chan → Chan) : (w.updChan k f).wr = w.wr := rfl
@[simp] theorem updChan_cw (w : Work) (k : Nat) (f : Chan → Chan) : (w.updChan k f).cw = w.cw := rfl

/-- An allocator. -/
@[simp] theorem alc_updAlc_self (w : Work) (k : Nat) (f : Alc → Alc) : (w.updAlc k f).alc k = f (w.alc k) := SMap.get_set_self ..

theorem alc_updAlc_other (w : Work) {k j : Nat} (f : Alc → Alc) (h : j ≠ k) : (w.updAlc k f).alc j = w.alc j := SMap.get_set_other _ _ _ h

@[simp] theorem updAlc_mem (w : Work) (k : Nat) (f : Alc → Alc) : (w.updAlc k f).mem = w.mem := rfl
@[simp] theorem updAlc_csr (w : Work) (k : Nat) (f : Alc → Alc) : (w.updAlc k f).csr = w.csr := rfl
@[simp] theorem updAlc_wr (w : Work) (k : Nat) (f : Alc → Alc) : (w.updAlc k f).wr = w.wr := rfl
@[simp] theorem updAlc_cw (w : Work) (k : Nat) (f : Alc → Alc) : (w.updAlc k f).cw = w.cw := rfl

/-- A paging unit. -/
@[simp] theorem pge_updPge_self (w : Work) (k : Nat) (f : Paging → Paging) : (w.updPge k f).pge k = f (w.pge k) := SMap.get_set_self ..

theorem pge_updPge_other (w : Work) {k j : Nat} (f : Paging → Paging) (h : j ≠ k) : (w.updPge k f).pge j = w.pge j := SMap.get_set_other _ _ _ h

@[simp] theorem updPge_mem (w : Work) (k : Nat) (f : Paging → Paging) : (w.updPge k f).mem = w.mem := rfl
@[simp] theorem updPge_csr (w : Work) (k : Nat) (f : Paging → Paging) : (w.updPge k f).csr = w.csr := rfl
@[simp] theorem updPge_wr (w : Work) (k : Nat) (f : Paging → Paging) : (w.updPge k f).wr = w.wr := rfl
@[simp] theorem updPge_cw (w : Work) (k : Nat) (f : Paging → Paging) : (w.updPge k f).cw = w.cw := rfl

/-- A snapshot set. -/
@[simp] theorem snpSet_updSnpSet_self (w : Work) (k : Nat) (f : SnpSet → SnpSet) : (w.updSnpSet k f).snpSet k = f (w.snpSet k) := SMap.get_set_self ..

theorem snpSet_updSnpSet_other (w : Work) {k j : Nat} (f : SnpSet → SnpSet) (h : j ≠ k) : (w.updSnpSet k f).snpSet j = w.snpSet j := SMap.get_set_other _ _ _ h

@[simp] theorem updSnpSet_mem (w : Work) (k : Nat) (f : SnpSet → SnpSet) : (w.updSnpSet k f).mem = w.mem := rfl
@[simp] theorem updSnpSet_csr (w : Work) (k : Nat) (f : SnpSet → SnpSet) : (w.updSnpSet k f).csr = w.csr := rfl
@[simp] theorem updSnpSet_wr (w : Work) (k : Nat) (f : SnpSet → SnpSet) : (w.updSnpSet k f).wr = w.wr := rfl
@[simp] theorem updSnpSet_cw (w : Work) (k : Nat) (f : SnpSet → SnpSet) : (w.updSnpSet k f).cw = w.cw := rfl

/-! ### Requests -/

/-- A request that is stored is found. -/
@[simp] theorem req_setReq_self (w : Work) (i : Nat) (q : Req) : (w.setReq i q).req? i = some q := SMap.find?_put_self ..

theorem req_setReq_other (w : Work) {i j : Nat} (q : Req) (h : j ≠ i) : (w.setReq i q).req? j = w.req? j := SMap.find?_put_other _ _ h

/-- A request that is dropped is gone. -/
@[simp] theorem req_dropReq_self (w : Work) (i : Nat) : (w.dropReq i).req? i = none := SMap.find?_del_self ..

theorem req_dropReq_other (w : Work) {i j : Nat} (h : j ≠ i) : (w.dropReq i).req? j = w.req? j := SMap.find?_del_other _ h

@[simp] theorem setReq_mem (w : Work) (i : Nat) (q : Req) : (w.setReq i q).mem = w.mem := rfl
@[simp] theorem setReq_csr (w : Work) (i : Nat) (q : Req) : (w.setReq i q).csr = w.csr := rfl
@[simp] theorem setReq_wr (w : Work) (i : Nat) (q : Req) : (w.setReq i q).wr = w.wr := rfl
@[simp] theorem setReq_cw (w : Work) (i : Nat) (q : Req) : (w.setReq i q).cw = w.cw := rfl

@[simp] theorem dropReq_mem (w : Work) (i : Nat) : (w.dropReq i).mem = w.mem := rfl
@[simp] theorem dropReq_csr (w : Work) (i : Nat) : (w.dropReq i).csr = w.csr := rfl
@[simp] theorem dropReq_wr (w : Work) (i : Nat) : (w.dropReq i).wr = w.wr := rfl
@[simp] theorem dropReq_cw (w : Work) (i : Nat) : (w.dropReq i).cw = w.cw := rfl

/-! ### Engines and sync cells -/

/-- An engine after a change of it. -/
@[simp] theorem engine_updEngine_self (w : Work) (c e : Nat) (f : Engine → Engine) : (w.updEngine c e f).engine c e = f (w.engine c e) := by
  unfold Work.engine Work.updEngine
  rw [core_updCore_self]
  exact SMap.get_set_self ..

theorem engine_updEngine_other (w : Work) (c : Nat) {e x : Nat} (f : Engine → Engine) (h : x ≠ e) :
    (w.updEngine c e f).engine c x = w.engine c x := by
  unfold Work.engine Work.updEngine
  rw [core_updCore_self]
  exact SMap.get_set_other _ _ _ h

/-- A sync cell after a change of it. -/
@[simp] theorem syn_updSyn (w : Work) (c : Nat) (f : Syn → Syn) : ((w.updSyn c f).core c).syn = f (w.core c).syn := by
  unfold Work.updSyn
  rw [core_updCore_self]

/-! ### Writes of write-only fields -/

/-- Counting clamps writes registers and nothing else. -/
theorem countClamps_parts (who : ClampBy) (addr : Nat) (vs : List FieldVal) : ∀ w : Work, (w.countClamps who addr vs).mem = w.mem ∧
    (w.countClamps who addr vs).csr = w.csr ∧ (w.countClamps who addr vs).wr = w.wr ∧ (w.countClamps who addr vs).hw = w.hw := by
  induction vs with
  | nil => intro w; exact ⟨rfl, rfl, rfl, rfl⟩
  | cons v vs ih =>
    intro w
    have step : ∀ u : Work, (u.mem = w.mem ∧ u.csr = w.csr ∧ u.wr = w.wr ∧ u.hw = w.hw) →
        (u.countClamps who addr vs).mem = w.mem ∧ (u.countClamps who addr vs).csr = w.csr ∧ (u.countClamps who addr vs).wr = w.wr ∧
          (u.countClamps who addr vs).hw = w.hw := by
      rintro u ⟨h1, h2, h3, h4⟩
      obtain ⟨a, b, c, d⟩ := ih u
      exact ⟨a.trans h1, b.trans h2, c.trans h3, d.trans h4⟩
    refine step (match v.rule with
      | some r => if v.value = v.written then w else w.clamp who (addr + v.row.lsb / 32 * 4) 0 v.row.lsb r
      | none => w) ?_
    split
    · split
      · exact ⟨rfl, rfl, rfl, rfl⟩
      · exact clamp_parts ..
    · exact ⟨rfl, rfl, rfl, rfl⟩

/-- A write of write-only fields answers the clamped value, counts clamps in registers, and changes nothing else. -/
theorem woWrite_parts (w : Work) (who : ClampBy) (addr data : Nat) : (w.woWrite who addr data).2.mem = w.mem ∧
    (w.woWrite who addr data).2.csr = w.csr ∧ (w.woWrite who addr data).2.wr = w.wr ∧ (w.woWrite who addr data).2.hw = w.hw := by
  unfold Work.woWrite
  split
  · exact countClamps_parts ..
  · exact ⟨rfl, rfl, rfl, rfl⟩

end Sys2Proof.Machine
end

