-- ==== Sys2Proof/Laws/State.lean ====
section
/-! SUPPORT. The parts of a state after each update of it, one lemma per field and update, so that no proof unfolds a record. -/

namespace Sys2Proof.Machine

section Updates
variable (s : State) (q : List Instr) (w : Work) (h : Hw)

@[simp] theorem State.withPending_pending : ({ s with pending := q } : State).pending = q := rfl
@[simp] theorem State.withPending_mem : ({ s with pending := q } : State).mem = s.mem := rfl
@[simp] theorem State.withPending_csr : ({ s with pending := q } : State).csr = s.csr := rfl
@[simp] theorem State.withPending_hw : ({ s with pending := q } : State).hw = s.hw := rfl
@[simp] theorem State.withHw_pending : ({ s with hw := h } : State).pending = s.pending := rfl
@[simp] theorem State.withHw_mem : ({ s with hw := h } : State).mem = s.mem := rfl
@[simp] theorem State.withHw_csr : ({ s with hw := h } : State).csr = s.csr := rfl
@[simp] theorem State.withHw_hw : ({ s with hw := h } : State).hw = h := rfl
@[simp] theorem State.commit_pending : (Work.commit s w).pending = s.pending := rfl
@[simp] theorem State.commit_mem : (Work.commit s w).mem = Mem.writeAll s.mem w.wr := rfl
@[simp] theorem State.commit_csr : (Work.commit s w).csr = Csr.writeAll s.csr w.cw := rfl
@[simp] theorem State.commit_hw : (Work.commit s w).hw = w.hw := rfl

@[simp] theorem Work.start_mem : (Work.start s).mem = s.mem := rfl
@[simp] theorem Work.start_csr : (Work.start s).csr = s.csr := rfl
@[simp] theorem Work.start_wr : (Work.start s).wr = [] := rfl
@[simp] theorem Work.start_cw : (Work.start s).cw = [] := rfl
@[simp] theorem Work.start_hw : (Work.start s).hw = s.hw := rfl

@[simp] theorem State.powered_withPending : ({ s with pending := q } : State).powered = s.powered := rfl
@[simp] theorem State.start_withPending : Work.start { s with pending := q } = Work.start s := rfl

@[simp] theorem State.reset_pending : State.reset.pending = [] := rfl
@[simp] theorem State.reset_mem : State.reset.mem = [] := rfl
@[simp] theorem State.reset_csr : State.reset.csr = [] := rfl
@[simp] theorem State.reset_hw : State.reset.hw = Hw.reset := rfl

/-- No word spells a command: the queue stays. -/
@[simp] theorem State.withFetchWord_eq (nbits x : Nat) : s.withFetchWord nbits x = s := rfl

end Updates

end Sys2Proof.Machine
end

