-- ==== Sys2Proof/WellFormed.lean ====
section
/-! DEFINITION. Which commands can occur: the bounds on operands that their types do not state. -/

namespace Sys2Proof

/-- A host TLP carries 1 to 4,096 bytes of write data, and a BAR0 offset lies in its 256 MiB (R616). -/
def hostAccessWf (bar2 : Bool) (offset : BitVec 46) (op : HostOp) : Bool :=
  (bar2 || decide (offset.toNat < 2 ^ 28)) &&
    match op with
    | .read _ => true
    | .write d _ => decide (1 ≤ d.length) && decide (d.length ≤ 4096)

/-- Can a command occur? Interrupt words 0 and 1 do not exist (R624); a frame number names one of the 2²³ stacked or 2²⁵ capacity frames (R342). -/
def Instr.wellFormed : Instr → Bool
  | .hostAccess _ _ bar2 offset op => hostAccessWf bar2 offset op
  | .hubIwWrite _ vector _ _ => decide (2 ≤ vector.val)
  | .migrationMove _ dest => decide (dest < 2 ^ 25)
  | .demoteStart _ frame dest => decide (frame < 2 ^ 23) && decide (dest < 2 ^ 25)
  | _ => true

end Sys2Proof
end

