-- ==== Sys2Proof/Tests/Slice0.lean ====
section
/-! SUPPORT. The tests: ill-formed commands are refused, results that the spec or a published standard gives, and for every statement with
hypotheses a state and operands that meet them. -/

namespace Sys2Proof.Machine.Tests

open Sys2Proof Sys2Proof.Machine

set_option maxRecDepth 100000
set_option Elab.async false

/-! ### States for tests -/

/-- The machine right after reset, changed by some work. -/
def after (f : Work → Work) : State := Work.commit State.reset (f State.reset.look)

/-- In service: rails on, clocks locked, the chip's state 0. -/
def live (w : Work) : Work :=
  let w := (w.setFlag (Reg.PWR_SD_STATUS 0) Fld.PWR_SD_STATUS_RAILS_ON true).setFlag (Reg.PWR_SD_STATUS 1) Fld.PWR_SD_STATUS_RAILS_ON true
  let w := (w.setFld Reg.CLK_STATUS Fld.CLK_STATUS_DOM_SRC 0).setFlag Reg.CLK_STATUS Fld.CLK_STATUS_LOCKED true
  let w := w.setFld Reg.ERR_CHIP Fld.ERR_CHIP_STATE 0
  { w with hw := { w.hw with starterOk := true, strapRound := 2, booted := true, railsDue := false } }

/-- A context placed on a core. -/
def placed (c x : Nat) (w : Work) : Work :=
  (w.setFlag (Reg.CORE_CTX c) Fld.CORE_CTX_VALID true).setFld (Reg.CORE_CTX c) Fld.CORE_CTX_CTX x

/-- Core 0 of a machine in service, with context 5 placed and an instruction at its program counter. -/
def ctl (i : Nat) (f : Work → Work := id) : State := after fun w => f ((placed 0 5 (live w)).spmWrite 0 0 (leBytes 4 i))

/-- A command with some fields set: word, lowest bit, width, value. -/
def cmd (l : List (Nat × Nat × Nat × Nat)) : CmdBits := l.foldl (fun c x => cmdSet c x.1 x.2.1 x.2.2.1 x.2.2.2) 0

/-- An engine of core 0 runs a command, in service. -/
def running (e : Nat) (r : Running) (w : Work) : Work := (live w).updEngine 0 e fun x => { x with running := [r] }

/-- A command of an opcode whose first repeat runs. -/
def run1 (op : Nat) : Running := { Running.fresh (cmd [(0, 0, 8, op), (1, 16, 16, 1)]) none with started := 1 }

/-- Page tables of context 5 for page 0 in the stack of region 0, with these entries at the slab table and the page table. -/
def paged (l3 l4 : Nat) (w : Work) : Work :=
  let w := w.setFld (Reg.PGE_ROOT_BASE 0) Fld.PGE_ROOT_BASE_BASE 128
  [(0x100028, 0x102007), (0x102000, 0x103001), (0x103000, 0x104001), (0x104000, l3), (0x105000, l4)].foldl
    (fun w e => w.wrBytes e.1 (leBytes 8 e.2)) w

/-- The allocator of a region on, with a reserve of 128 MiB at offset 1 GiB of its stack. -/
def allotted (r : Nat) (w : Work) : Work :=
  ((w.setFlag (Reg.ALC_CTRL r) Fld.ALC_CTRL_EN true).setFld (Reg.ALC_RESERVE_BASE r) Fld.ALC_RESERVE_BASE_BASE (16384 * r + 512)).setFld
    (Reg.ALC_RESERVE_SLABS r) Fld.ALC_RESERVE_SLABS_SLABS 64

/-- A slot-pointer record of slot A in place i, with sequence number i + 1 (R599). -/
def record (i type act : Nat) (w : Work) : Work :=
  let body := leBytes 4 0x52505452 ++ leBytes 1 type ++ leBytes 3 0 ++ leBytes 4 (i + 1) ++ leBytes 4 act ++ List.replicate 44 255
  w.flProgram (recAt i) (body ++ leBytes 4 (crc32 body))

/-- What a boot reads in a place of the record sectors. -/
def recordAt (w : Work) (i : Nat) : Option SlotRec :=
  if w.flLE (recAt i) 4 = 0x52505452 ∧ w.recCrc i then
    some ⟨i, w.flLE (recAt i + 4) 1, w.flLE (recAt i + 5) 1 % 2, decide (w.flLE (recAt i + 6) 2 % 2 = 1), w.flLE (recAt i + 8) 4,
      w.flLE (recAt i + 12) 4, beNat (w.flBytes (recAt i + 0x20) 28)⟩
  else none

theorem find?_eq_none_of_forall_ne {α : Type} (m : List (Nat × α)) (k : Nat) (h : ∀ e ∈ m, e.1 ≠ k) : SMap.find? m k = none := by
  induction m with
  | nil => rfl
  | cons e m ih =>
    rw [SMap.find?, if_neg (h e (by simp))]
    exact ih fun x hx => h x (by simp [hx])

/-- Only the first n places hold records when nothing else is programmed in the record sectors. -/
theorem records_eq (w : Work) (n : Nat) (hn : n ≤ 2048) (h : ∀ e ∈ w.hw.flash, e.1 < 0x200000 + 64 * n ∨ 0x220000 ≤ e.1) :
    w.records = (List.range n).filterMap (recordAt w) := by
  have blank : ∀ a, 0x200000 + 64 * n ≤ a → a < 0x220000 → w.flB a = 0xFF := fun a h1 h2 => by
    rw [Work.flB, SMap.get, find?_eq_none_of_forall_ne _ _ fun e he => by have := h e he; omega]; rfl
  have none_ : ∀ i, n ≤ i → i < 2048 → recordAt w i = none := fun i h1 h2 => by
    have e : w.flLE (recAt i) 4 = 0xFFFFFFFF := by
      have b : ∀ j, j < 4 → w.flB (recAt i + j) = 0xFF := fun j hj => blank _ (by simp only [recAt]; omega) (by simp only [recAt]; omega)
      simp only [Work.flLE, Work.flBytes, List.range_succ, List.range_zero, List.nil_append, List.cons_append, List.map_cons, List.map_nil,
        b 0 (by omega), b 1 (by omega), b 2 (by omega), b 3 (by omega)]
      rfl
    rw [recordAt, e, if_neg (fun x => by simp at x)]
  show (List.range 2048).filterMap (recordAt w) = _
  rw [show 2048 = n + (2048 - n) by omega, List.range_add, List.filterMap_append]
  rw [show ((List.range (2048 - n)).map (n + ·)).filterMap (recordAt w) = [] from ?_, List.append_nil]
  rw [List.filterMap_eq_nil_iff]
  intro x hx
  obtain ⟨i, hi, rfl⟩ := List.mem_map.1 hx
  exact none_ _ (by omega) (by have := List.mem_range.1 hi; omega)

/-- The chip in reset, a boot due, and CONFIRM in progress; these records in the flash. -/
def booting (l : List (Nat × Nat)) : State := after fun w =>
  let w := (((live w).setFld Reg.ERR_CHIP Fld.ERR_CHIP_STATE 1).setFld (Reg.BOOT_STATUS 0) Fld.BOOT_STATUS_STAGE 1).setFld (Reg.BOOT_STATUS 0)
    Fld.BOOT_STATUS_SOURCE 1
  let w := { w with hw := { w.hw with flashCmd := some ⟨3, 0, 0, 0, []⟩ } }
  l.zipIdx.foldl (fun w e => record e.2 e.1.1 e.1.2 w) w

/-- A pointer to slot A. -/
def pointer : SlotRec := ⟨0, 1, 0, false, 1, 1, 2 ^ 224 - 1⟩

theorem no_record : (booting []).look.records = [] := records_eq _ 0 (by omega) (by decide +kernel)
theorem one_record : (booting [(1, 1)]).look.records = [pointer] := (records_eq _ 1 (by omega) (by decide +kernel)).trans (by decide +kernel)
theorem four_records : (booting [(1, 1), (2, 1), (2, 1), (2, 1)]).look.records =
    [pointer, { pointer with index := 1, type := 2, seq := 2 }, { pointer with index := 2, type := 2, seq := 3 },
      { pointer with index := 3, type := 2, seq := 4 }] := (records_eq _ 4 (by omega) (by decide +kernel)).trans (by decide +kernel)

/-! ### Commands that cannot occur -/

theorem test_wf_bar0_offset : Instr.wellFormed (.hostAccess 0 0 false 0x10000000 (.read 8)) = false := by decide
theorem test_wf_write_empty : Instr.wellFormed (.hostAccess 0 0 true 0 (.write [] false)) = false := by decide
theorem test_wf_write_long : Instr.wellFormed (.hostAccess 0 0 true 0 (.write (List.replicate 4097 (some 0)) false)) = false := by decide +kernel
theorem test_wf_vector_1 : Instr.wellFormed (.hubIwWrite 0 1 false 0) = false := by decide
theorem test_wf_move_frame : Instr.wellFormed (.migrationMove 0 (2 ^ 25)) = false := by decide
theorem test_wf_demote_frame : Instr.wellFormed (.demoteStart 0 (2 ^ 23) 0) = false := by decide
theorem test_wf_demote_dest : Instr.wellFormed (.demoteStart 0 0 (2 ^ 25)) = false := by decide
theorem test_wf_vector_2 : Instr.wellFormed (.hubIwWrite 0 2 false 0) = true := by decide

/-! ### Results -/

/-- The form holds at reset, with no command waiting. -/
theorem test_reset_kept : State.reset.wellKept = true ∧ State.reset.pending = [] := by decide +kernel

/-- The state a command leads to. -/
def next (c : Instr) (s : State) : State :=
  match exec c s with
  | .next t => t
  | _ => s

/-- ADD g3 ← g1 + g2 wraps (R75, R76). -/
theorem test_add_wraps :
    let s := ctl (0x01 + 2 * 2 ^ 17 + 1 * 2 ^ 22 + 3 * 2 ^ 27) fun w => ((w.setG 0 1 0xFFFFFFFFFFFFFFFF).setG 0 2 1).setG 0 3 7
    (next (.aluReg 0) s).look.g 0 3 = 0 := by decide +kernel

/-- SRAI g2 ← g1 by 4 keeps the sign (R76). -/
theorem test_srai :
    let s := ctl (0x02 + 6 * 2 ^ 7 + 4 * 2 ^ 10 + 1 * 2 ^ 22 + 2 * 2 ^ 27) fun w => w.setG 0 1 0x8000000000000000
    (next (.aluImm 0) s).look.g 0 2 = 0xF800000000000000 := by decide +kernel

/-- LHI sign-extends (R76). -/
theorem test_lhi :
    (next (.lhi 0) (ctl (0x04 + 0x80000 * 2 ^ 7 + 5 * 2 ^ 27))).look.g 0 5 = 0xFFFFFFFF80000000 := by decide +kernel

/-- CALL links pc + 4 in g1 and jumps back by one word (R76). -/
theorem test_call :
    let t := (next (.call 0) (ctl (0x11 + 0xFFFFF * 2 ^ 7))).look
    t.g 0 1 = 4 ∧ (t.core 0).pc = 0xFFFFFFFFFFFC := by decide +kernel

/-- CWF writes W0.SIG_IDX of CAB1 from g2 (R81, R82, R94). -/
theorem test_cwf :
    let s := ctl (0x5B + 1 * 2 ^ 7 + 1 * 2 ^ 10 + 2 * 2 ^ 12 + 0 * 2 ^ 17 + 18 * 2 ^ 21 + 9 * 2 ^ 26) fun w => w.setG 0 2 0xFFFF
    cmdSigIdx (((next (.cwf 0) s).look.core 0).cabs |> (SMap.get 0 · 1)) = 1023 := by decide +kernel

/-- The worked MMA command of the spec's chapter on cores. -/
def worked : CmdBits :=
  cmd [(0, 0, 6, 1), (0, 7, 1, 1), (0, 18, 10, 5), (1, 0, 16, 0x0A17), (1, 16, 16, 1), (2, 0, 16, 0x0042), (2, 16, 3, 2), (2, 19, 1, 1),
    (3, 4, 7, 127), (3, 11, 7, 23), (3, 18, 1, 1), (3, 19, 1, 1), (3, 22, 1, 1), (3, 24, 8, 1), (4, 0, 24, 0x00F000), (5, 0, 24, 0x200000),
    (6, 0, 12, 127), (6, 12, 20, 8), (7, 0, 12, 35), (7, 12, 20, 1024), (11, 0, 12, 127), (11, 12, 20, 2), (12, 0, 12, 35), (12, 12, 20, 256)]

/-- Its words are those of the spec's table, and its fields read back. -/
theorem test_worked_command :
    (List.range 16).map (cmdWord worked) = [0x00140081, 0x00010A17, 0x000A0042, 0x014CBFF0, 0x0000F000, 0x00200000, 0x0000807F, 0x00400023, 0, 0, 0,
      0x0000207F, 0x00100023, 0, 0, 0] ∧ cmdOpcode worked = 1 ∧ cmdSig worked = true ∧ cmdSigIdx worked = 5 ∧ cmdTag worked = 0x0A17 ∧
      cmdRepeat worked = 1 ∧ cmdDepCount worked = 0x42 ∧ cmdDepEng worked = 2 ∧ cmdDepEn worked = true := by decide +kernel

/-- The largest finite values of the formats' table (R121), as codes. -/
theorem test_largest : e4m3.decode 0x7E = .fin false 14 5 ∧ e5m2.decode 0x7B = .fin false 7 13 ∧ e3m2.decode 0x1F = .fin false 7 2 ∧
    e2m3.decode 0x1F = .fin false 15 (-1) ∧ e2m1.decode 7 = .fin false 3 1 := by decide

/-- E4M3 saturates at 448 and E5M2 at 57,344; FP16 becomes infinite (R129). -/
theorem test_overflow : e4m3.encode .rne (.fin false 1 20) = 0x7E ∧ e5m2.encode .rne (.fin true 1 40) = 0xFB ∧
    fp16.encode .rne (.fin false 1 16) = 0x7C00 := by decide

/-- Ties go to even: 1 + 2⁻⁸ rounds to 1 in BF16 and 1 + 3 × 2⁻⁸ to 1 + 2⁻⁶ (R131). -/
theorem test_ties : bf16.encode .rne (.fin false 257 (-8)) = 0x3F80 ∧ bf16.encode .rne (.fin false 259 (-8)) = 0x3F82 := by decide

/-- A32 addition wraps (R147). -/
theorem test_anchored_clamp : toAnchored 32 0 (.fin false 1 31) = (2147483647, true) ∧ toAnchored 32 0 (.fin true 1 31) = (-2147483648, false) := by
  decide

/-- SHA-384 of "abc", from FIPS 180-4. -/
theorem test_sha384 : sha384 [0x61, 0x62, 0x63] =
    0xCB00753F45A35E8BB5A03D699AC65007272C32AB0EDED1631A8B605A43FF5BED8086072BA1E7CC2358BAECA134C825A7 := by decide +kernel

/-- The check value of CRC-32, over "123456789". -/
theorem test_crc32 : crc32 [0x31, 0x32, 0x33, 0x34, 0x35, 0x36, 0x37, 0x38, 0x39] = 0xCBF43926 := by decide +kernel

/-- The base point of P-384 lies on the curve, and its multiple by the order is the point at infinity. -/
theorem test_p384 : onCurve p384G.1 p384G.2 = true := by decide +kernel

/-- A doorbell's add alias adds (R622). -/
theorem test_doorbell_add :
    let t := next (.hubDbWrite 3 true 5) (after fun w => (live w).w64 (Reg.HUB_DB 0 3) 7)
    t.look.r64 (Reg.HUB_DB 0 3) = 12 := by decide +kernel

/-- A count has reached a value across the wrap (R84). -/
theorem test_reached : hasReached 3 0xFFFE = true ∧ hasReached 0xFFFE 3 = false ∧ hasReached 5 5 = true := by decide

/-! ### The hypotheses of the statements are met -/

/-- The hypotheses of `Obligations.StepTakesTheFront` are met. -/
theorem test_hyps_StepTakesTheFront :
    let s : State := { after live with pending := [.tapBypass, .tapIdcode] }; let c : Instr := (Instr.tapBypass);
    let rest : List Instr := [.tapIdcode];
    s.pending = c :: rest :=
  by decide +kernel

/-- The hypotheses of `Obligations.EveryStepKeepsTheForm` are met. -/
theorem test_hyps_EveryStepKeepsTheForm :
    let s : State := after live; s.wellKept = true :=
  by decide +kernel

/-- The hypotheses of `Obligations.WithoutCommandsOrPower`, of its part EmptyQueuePassesACycle, are met. -/
theorem test_hyps_EmptyQueuePassesACycle :
    (let s : State := after fun w => { w with hw := { w.hw with standby := false } }; s.pending = [] ∧ s.powered = false) ∧
    (let s : State := State.reset; let w := s.look; s.pending = [] ∧ (s.powered = true ∧ w.clocked = false)) ∧
    (let s : State := after live; let w := s.look; s.pending = [] ∧ (s.powered = true ∧ w.clocked = true)) :=
  ⟨by decide +kernel,
    by decide +kernel,
    by decide +kernel⟩

/-- The hypotheses of `Obligations.WithoutCommandsOrPower`, of its part UnpoweredMachineStays, are met. -/
theorem test_hyps_UnpoweredMachineStays :
    let s : State := after fun w => { w with hw := { w.hw with standby := false } }; s.powered = false :=
  by decide +kernel

/-- The hypotheses of `Obligations.CtlIntegerResults` are met. -/
theorem test_hyps_CtlIntegerResults :
    (let s : State := ctl 0x01; let c : CoreIx := 0; atInsn c isAluReg s) ∧
    (let s : State := ctl 0x02; let c : CoreIx := 0; atInsn c isAluImm s) ∧
    (let s : State := ctl 0x04; let c : CoreIx := 0; atInsn c isLhi s) ∧
    (let s : State := ctl (0x10 + 5 * 2 ^ 7); let c : CoreIx := 0; atInsn c isBranch s) ∧
    (let s : State := ctl 0x11; let c : CoreIx := 0; atInsn c isCall s) ∧
    (let s : State := ctl 0x12; let c : CoreIx := 0; atInsn c isJmp s) ∧
    (let s : State := ctl 0x13; let c : CoreIx := 0; atInsn c isJmpr s) ∧
    (let s : State := ctl 0x20; let c : CoreIx := 0; atInsn c (isSpecial 0) s) :=
  ⟨by unfold atInsn; decide +kernel,
    by unfold atInsn; decide +kernel,
    by unfold atInsn; decide +kernel,
    by unfold atInsn; decide +kernel,
    by unfold atInsn; decide +kernel,
    by unfold atInsn; decide +kernel,
    by unfold atInsn; decide +kernel,
    by unfold atInsn; decide +kernel⟩

/-- The hypotheses of `Obligations.CtlMemoryAccess` are met. -/
theorem test_hyps_CtlMemoryAccess :
    (let s : State := ctl (0x08 + 3 * 2 ^ 7 + 2 ^ 22); let c : CoreIx := 0; let w := s.look; let i := w.insn c; let a := w.memOperand c i;
     let held := w.accessHeld (.cell c 0) w.selfNode a;
     atInsn c isMemLoad s ∧ held = false ∧ directDpa a = none) ∧
    (let s : State := ctl (0x09 + 3 * 2 ^ 7 + 2 ^ 22); let c : CoreIx := 0; let w := s.look; let i := w.insn c; let a := w.memOperand c i;
     let held := w.accessHeld (.cell c 0) w.selfNode a;
     atInsn c isMemStore s ∧ held = false ∧ directDpa a = none) ∧
    (let s : State := ctl (0x08 + 3 * 2 ^ 7 + 2 ^ 22) (fun w => w.setG 0 1 0xC00000000000); let c : CoreIx := 0; let w := s.look;
     let i := w.insn c; let a := w.memOperand c i; let held := w.accessHeld (.cell c 0) w.selfNode a; let d := 0;
     atInsn c isMemLoad s ∧ held = false ∧ directDpa a = some d) ∧
    (let s : State := ctl (0x09 + 3 * 2 ^ 7 + 2 ^ 22) (fun w => w.setG 0 1 0xC00000000000); let c : CoreIx := 0; let w := s.look;
     let i := w.insn c; let a := w.memOperand c i; let held := w.accessHeld (.cell c 0) w.selfNode a; let d := 0;
     atInsn c isMemStore s ∧ held = false ∧ directDpa a = some d) ∧
    (let s : State := ctl (0x08 + 3 * 2 ^ 7 + 2 ^ 22) (fun w => { w.setG 0 1 0xFF0000000000 with hw := { w.hw with cores := (w.setG 0 1 0xFF0000000000).hw.cores, installs := [⟨0, .cell 0 0, 0, 0, 1, none⟩] } });
     let c : CoreIx := 0; let w := s.look; let i := w.insn c; let a := w.memOperand c i; let held := w.accessHeld (.cell c 0) w.selfNode a;
     atInsn c isMemLoad s ∧ held = true) ∧
    (let s : State := ctl (0x09 + 3 * 2 ^ 7 + 2 ^ 22) (fun w => { w.setG 0 1 0xFF0000000000 with hw := { w.hw with cores := (w.setG 0 1 0xFF0000000000).hw.cores, installs := [⟨0, .cell 0 0, 0, 0, 1, none⟩] } });
     let c : CoreIx := 0; let w := s.look; let i := w.insn c; let a := w.memOperand c i; let held := w.accessHeld (.cell c 0) w.selfNode a;
     atInsn c isMemStore s ∧ held = true) :=
  ⟨by unfold atInsn; decide +kernel,
    by unfold atInsn; decide +kernel,
    by unfold atInsn; decide +kernel,
    by unfold atInsn; decide +kernel,
    by unfold atInsn; decide +kernel,
    by unfold atInsn; decide +kernel⟩

/-- The hypotheses of `Obligations.CtlMemoryAccess`, of its part CtlAccessReply, are met. -/
theorem test_hyps_CtlAccessReply :
    (let s : State := after fun w => let w := live w; (w.setReq 0 { Req.make (.ctl 0) (.read 8) none 0 0 0 0 0 with stage := .replied }).updCore 0 fun k => { k with stall := .access 0 };
     let c : CoreIx := 0; let n : Nat := 0; let q : Req := { Req.make (.ctl 0) (.read 8) none 0 0 0 0 0 with stage := .replied };
     let k := s.look.core c;
     (s.powered = true ∧ k.stall = .access n ∧ s.look.req? n = some q ∧ q.stage = .replied ∧ s.look.coreUp c = true) ∧ q.bad = .ok) ∧
    (let s : State := after fun w => let w := live w; (w.setReq 0 { Req.make (.ctl 0) (.read 8) none 0 0 0 0 0 with stage := .replied, bad := .timeout }).updCore 0 fun k => { k with stall := .access 0 };
     let c : CoreIx := 0; let n : Nat := 0;
     let q : Req := { Req.make (.ctl 0) (.read 8) none 0 0 0 0 0 with stage := .replied, bad := .timeout }; let k := s.look.core c;
     (s.powered = true ∧ k.stall = .access n ∧ s.look.req? n = some q ∧ q.stage = .replied ∧ s.look.coreUp c = true) ∧ q.bad ≠ .ok) :=
  ⟨by decide +kernel,
    by decide +kernel⟩

/-- The hypotheses of `Obligations.CtlMemoryAccess`, of its part CtlScratchpadAccess, are met. -/
theorem test_hyps_CtlScratchpadAccess :
    (let s : State := ctl (0x0A + 3 * 2 ^ 7); let c : CoreIx := 0; atInsn c isSpmLoad s) ∧
    (let s : State := ctl (0x0B + 3 * 2 ^ 7); let c : CoreIx := 0; atInsn c isSpmStore s) :=
  ⟨by unfold atInsn; decide +kernel,
    by unfold atInsn; decide +kernel⟩

/-- The hypotheses of `Obligations.CtlSpecialRegisters` are met. -/
theorem test_hyps_CtlSpecialRegisters :
    (let s : State := ctl (0x20 + 2 ^ 7 + 8 * 2 ^ 17); let c : CoreIx := 0; let w := s.look; let i := w.insn c;
     let waits := decide (insB i = 8) && !w.vecDrained c;
     atInsn c (isSpecial 1) s ∧ waits = false) ∧
    (let s : State := ctl (0x20 + 2 ^ 7 + 8 * 2 ^ 17) (fun (w : Work) => w.updEngine 0 1 fun x => { x with queue := [⟨0, none, none, false⟩] });
     let c : CoreIx := 0; let w := s.look; let i := w.insn c; let waits := decide (insB i = 8) && !w.vecDrained c;
     atInsn c (isSpecial 1) s ∧ waits = true) ∧
    (let s : State := ctl (0x20 + 2 * 2 ^ 7 + 9 * 2 ^ 17); let c : CoreIx := 0; let w := s.look; let i := w.insn c;
     atInsn c (isSpecial 2) s ∧ insB i ≠ 8) ∧
    (let s : State := ctl (0x20 + 2 * 2 ^ 7 + 8 * 2 ^ 17); let c : CoreIx := 0; let w := s.look; let i := w.insn c;
     atInsn c (isSpecial 2) s ∧ insB i = 8 ∧ w.vecDrained c = true) ∧
    (let s : State := ctl (0x20 + 2 * 2 ^ 7 + 8 * 2 ^ 17) (fun (w : Work) => w.updEngine 0 1 fun x => { x with queue := [⟨0, none, none, false⟩] });
     let c : CoreIx := 0; let w := s.look; let i := w.insn c; let waits := decide (insB i = 8) && !w.vecDrained c;
     atInsn c (isSpecial 2) s ∧ waits = true) ∧
    (let s : State := after fun w => ((placed 0 5 (live w)).spmWrite 0 0 (leBytes 4 (0x20 + 2 ^ 7))).setStall 0 .seed; let c : CoreIx := 0;
     let w := s.look; let k := w.core c; let i := w.insn c;
     let resumes := s.powered = true ∧ w.coreUp c = true ∧ k.stall = .seed ∧ w.vecDrained c = true;
     resumes ∧ isSpecial 1 i = true) ∧
    (let s : State := after fun w => ((placed 0 5 (live w)).spmWrite 0 0 (leBytes 4 (0x20 + 2 * 2 ^ 7 + 8 * 2 ^ 17))).setStall 0 .seed;
     let c : CoreIx := 0; let w := s.look; let k := w.core c; let i := w.insn c;
     let resumes := s.powered = true ∧ w.coreUp c = true ∧ k.stall = .seed ∧ w.vecDrained c = true;
     resumes ∧ isSpecial 2 i = true ∧ insB i = 8) ∧
    (let x := 9; 9 ≤ x) :=
  ⟨by unfold atInsn; decide +kernel,
    by unfold atInsn; decide +kernel,
    by unfold atInsn; decide +kernel,
    by unfold atInsn; decide +kernel,
    by unfold atInsn; decide +kernel,
    by decide +kernel,
    by decide +kernel,
    by decide +kernel⟩

/-- The hypotheses of `Obligations.CtlCommandAssembly` are met. -/
theorem test_hyps_CtlCommandAssembly :
    (let s : State := ctl (0x5B + 0 * 2 ^ 7); let c : CoreIx := 0; atInsn c (isQueue 0) s) ∧
    (let s : State := ctl (0x5B + 1 * 2 ^ 7 + 31 * 2 ^ 26); let c : CoreIx := 0; let w := s.look; let i := w.insn c;
     atInsn c (isQueue 1) s ∧ insWidth i ≤ 31 - insLsb i) ∧
    (let s : State := ctl (0x5B + 1 * 2 ^ 7 + 31 * 2 ^ 26 + 2 ^ 21); let c : CoreIx := 0; let w := s.look; let i := w.insn c;
     atInsn c (isQueue 1) s ∧ 31 - insLsb i < insWidth i) ∧
    (let s : State := ctl (0x5B + 2 * 2 ^ 7); let c : CoreIx := 0; atInsn c (isQueue 2) s) ∧
    (let s : State := ctl (0x5B + 4 * 2 ^ 7 + 4 * 2 ^ 17); let c : CoreIx := 0; let w := s.look; let i := w.insn c;
     atInsn c (isQueue 4) s ∧ insEng i ≤ 4) ∧
    (let s : State := ctl (0x5B + 4 * 2 ^ 7 + 5 * 2 ^ 17); let c : CoreIx := 0; let w := s.look; let i := w.insn c;
     atInsn c (isQueue 4) s ∧ 4 < insEng i) :=
  ⟨by unfold atInsn; decide +kernel,
    by unfold atInsn; decide +kernel,
    by unfold atInsn; decide +kernel,
    by unfold atInsn; decide +kernel,
    by unfold atInsn; decide +kernel,
    by unfold atInsn; decide +kernel⟩

/-- The hypotheses of `Obligations.CtlQueueInstructions`, of its part CtlPushAndWait, are met. -/
theorem test_hyps_CtlPushAndWait :
    (let s : State := ctl (0x5B + 3 * 2 ^ 7) (fun (w : Work) => w.updEngine 0 0 fun x => { x with queue := [⟨0, none, none, false⟩] });
     let c : CoreIx := 0; let w := s.look; let k := w.core c; let i := w.insn c; let e := min (insEng i) 4;
     let room := insEng i ≤ 4 ∧ w.pushWaits c e = false;
     atInsn c (isQueue 3) s ∧ room ∧ (k.engine e).queue ≠ []) ∧
    (let s : State := ctl (0x5B + 3 * 2 ^ 7 + 4 * 2 ^ 17); let c : CoreIx := 0; let w := s.look; let k := w.core c; let i := w.insn c;
     let e := min (insEng i) 4; let room := insEng i ≤ 4 ∧ w.pushWaits c e = false;
     atInsn c (isQueue 3) s ∧ room ∧ (k.engine e).queue = []) ∧
    (let s : State := ctl (0x5B + 7 * 2 ^ 7) (fun (w : Work) => w.updEngine 0 0 fun x => { x with queue := [⟨0, none, none, false⟩] });
     let c : CoreIx := 0; let w := s.look; let k := w.core c; let i := w.insn c; let e := min (insEng i) 4;
     let room := insEng i ≤ 4 ∧ w.pushWaits c e = false;
     atInsn c (isQueue 7) s ∧ room ∧ (k.engine e).queue ≠ []) ∧
    (let s : State := ctl (0x5B + 7 * 2 ^ 7); let c : CoreIx := 0; let w := s.look; let k := w.core c; let i := w.insn c;
     let e := min (insEng i) 4; let room := insEng i ≤ 4 ∧ w.pushWaits c e = false;
     atInsn c (isQueue 7) s ∧ room ∧ (k.engine e).queue = []) ∧
    (let s : State := ctl (0x5B + 3 * 2 ^ 7) (fun (w : Work) => w.updEngine 0 0 fun x => { x with queue := List.replicate 64 ⟨0, none, none, false⟩ });
     let c : CoreIx := 0; let w := s.look; let i := w.insn c; let e := min (insEng i) 4;
     atInsn c (isQueue 3) s ∧ insEng i ≤ 4 ∧ w.pushWaits c e = true) ∧
    (let s : State := ctl (0x5B + 7 * 2 ^ 7) (fun (w : Work) => w.updEngine 0 0 fun x => { x with queue := List.replicate 64 ⟨0, none, none, false⟩ });
     let c : CoreIx := 0; let w := s.look; let i := w.insn c; let e := min (insEng i) 4;
     atInsn c (isQueue 7) s ∧ insEng i ≤ 4 ∧ w.pushWaits c e = true) ∧
    (let s : State := after fun w => ((fun (w : Work) => w.updEngine 0 0 fun x => { x with queue := [⟨0, none, none, false⟩] }) ((placed 0 5 (live w)).spmWrite 0 0 (leBytes 4 (0x5B + 3 * 2 ^ 7)))).setStall 0 (.push 0);
     let c : CoreIx := 0; let w := s.look; let k := w.core c; let i := w.insn c; let e := min (insEng i) 4;
     let stalled := s.powered = true ∧ w.coreUp c = true ∧ k.stall = .push e ∧ w.pushWaits c e = false;
     stalled ∧ isQueue 3 i = true ∧ (k.engine e).queue ≠ []) ∧
    (let s : State := after fun w => ((fun (w : Work) => w.updEngine 0 0 fun x => { x with queue := [⟨0, none, none, false⟩] }) ((placed 0 5 (live w)).spmWrite 0 0 (leBytes 4 (0x5B + 7 * 2 ^ 7)))).setStall 0 (.push 0);
     let c : CoreIx := 0; let w := s.look; let k := w.core c; let i := w.insn c; let e := min (insEng i) 4;
     let stalled := s.powered = true ∧ w.coreUp c = true ∧ k.stall = .push e ∧ w.pushWaits c e = false;
     stalled ∧ isQueue 7 i = true ∧ (k.engine e).queue ≠ []) ∧
    (let s : State := ctl (0x5B + 5 * 2 ^ 7); let c : CoreIx := 0; let w := s.look; let k := w.core c; let i := w.insn c;
     let e := min (insEng i) 4; let value := (k.g (insGA i)).toNat % 65536;
     atInsn c (isQueue 5) s ∧ insEng i ≤ 4 ∧ hasReached (w.doneCount c e) value = true) ∧
    (let s : State := ctl (0x5B + 5 * 2 ^ 7 + 2 ^ 12) (fun w => w.setG 0 1 1); let c : CoreIx := 0; let w := s.look; let k := w.core c;
     let i := w.insn c; let e := min (insEng i) 4; let value := (k.g (insGA i)).toNat % 65536;
     atInsn c (isQueue 5) s ∧ insEng i ≤ 4 ∧ hasReached (w.doneCount c e) value = false) ∧
    (let s : State := after fun w => (live w).setStall 0 (.wait 0 0); let c : CoreIx := 0; let w := s.look; let k := w.core c;
     let e' := (0 : Nat); let v := (0 : Nat);
     s.powered = true ∧ w.coreUp c = true ∧ k.stall = .wait e' v ∧ hasReached (w.doneCount c e') v = true) :=
  ⟨by unfold atInsn; decide +kernel,
    by unfold atInsn; decide +kernel,
    by unfold atInsn; decide +kernel,
    by unfold atInsn; decide +kernel,
    by unfold atInsn; decide +kernel,
    by unfold atInsn; decide +kernel,
    by decide +kernel,
    by decide +kernel,
    by unfold atInsn; decide +kernel,
    by unfold atInsn; decide +kernel,
    by decide +kernel⟩

/-- The hypotheses of `Obligations.CtlQueueInstructions`, of its part CtlEngineNumberClamped, are met. -/
theorem test_hyps_CtlEngineNumberClamped :
    (let s : State := ctl (0x5B + 3 * 2 ^ 7 + 5 * 2 ^ 17); let c : CoreIx := 0; let w := s.look; let i := w.insn c;
     4 < insEng i ∧ atInsn c (isQueue 3) s) ∧
    (let s : State := ctl (0x5B + 7 * 2 ^ 7 + 7 * 2 ^ 17); let c : CoreIx := 0; let w := s.look; let i := w.insn c;
     4 < insEng i ∧ atInsn c (isQueue 7) s) ∧
    (let s : State := ctl (0x5B + 5 * 2 ^ 7 + 6 * 2 ^ 17); let c : CoreIx := 0; let w := s.look; let i := w.insn c;
     4 < insEng i ∧ atInsn c (isQueue 5) s) :=
  ⟨by unfold atInsn; decide +kernel,
    by unfold atInsn; decide +kernel,
    by unfold atInsn; decide +kernel⟩

/-- The hypotheses of `Obligations.CtlQueueInstructions`, of its part CtlChainBoundary, are met. -/
theorem test_hyps_CtlChainBoundary :
    (let s : State := ctl (0x5B + 6 * 2 ^ 7); let c : CoreIx := 0; let w := s.look; let k := w.core c;
     atInsn c (isQueue 6) s ∧ k.drained = true ∧ k.handoverIdle = true) ∧
    (let s : State := ctl (0x5B + 6 * 2 ^ 7) (fun (w : Work) => w.updCore 0 fun k => k.setLink 14 { Link.reset with full1 := true });
     let c : CoreIx := 0; let w := s.look; let k := w.core c;
     atInsn c (isQueue 6) s ∧ k.drained = true ∧ k.handoverIdle = false) ∧
    (let s : State := ctl (0x5B + 6 * 2 ^ 7) (fun (w : Work) => w.updEngine 0 0 fun x => { x with queue := [⟨0, none, none, false⟩] });
     let c : CoreIx := 0; let w := s.look; let k := w.core c;
     atInsn c (isQueue 6) s ∧ k.drained = false) ∧
    (let s : State := after fun w => (id) ((live w).setStall 0 .boundary); let c : CoreIx := 0; let w := s.look; let k := w.core c;
     let completes := s.powered = true ∧ w.coreUp c = true ∧ k.stall = .boundary ∧ k.drained = true;
     completes ∧ k.handoverIdle = true) ∧
    (let s : State := after fun w => (fun (w : Work) => w.updCore 0 fun k => k.setLink 14 { Link.reset with full1 := true }) ((live w).setStall 0 .boundary);
     let c : CoreIx := 0; let w := s.look; let k := w.core c;
     let completes := s.powered = true ∧ w.coreUp c = true ∧ k.stall = .boundary ∧ k.drained = true;
     completes ∧ k.handoverIdle = false) :=
  ⟨by unfold atInsn; decide +kernel,
    by unfold atInsn; decide +kernel,
    by unfold atInsn; decide +kernel,
    by decide +kernel,
    by decide +kernel⟩

/-- The hypotheses of `Obligations.CountHasReached` are met. -/
theorem test_hyps_CountHasReached :
    (let s : State := ctl (0x5B + 5 * 2 ^ 7); let c : CoreIx := 0; let w := s.look; let i := w.insn c; let e := insEng i;
     let v := (w.g c (insGA i)).toNat % 65536; let reached := ((w.doneCount c e : Int) - v) % 65536 < 32768;
     (atInsn c (isQueue 5) s ∧ e ≤ 4) ∧ reached) ∧
    (let s : State := ctl (0x5B + 5 * 2 ^ 7 + 2 ^ 12) (fun w => w.setG 0 1 1); let c : CoreIx := 0; let w := s.look; let i := w.insn c;
     let e := insEng i; let v := (w.g c (insGA i)).toNat % 65536; let reached := ((w.doneCount c e : Int) - v) % 65536 < 32768;
     (atInsn c (isQueue 5) s ∧ e ≤ 4) ∧ ¬ reached) ∧
    (let cmd : CmdBits := cmd [(2, 19, 1, 1), (2, 16, 3, 2)]; cmdDepEn cmd = true ∧ cmdDepEng cmd ≤ 4) :=
  ⟨by unfold atInsn; decide +kernel,
    by unfold atInsn; decide +kernel,
    by decide +kernel⟩

/-- The hypotheses of `Obligations.CoreHaltsBreaksAndLinks`, of its part CoreHaltAndResume, are met. -/
theorem test_hyps_CoreHaltAndResume :
    (let s : State := after live; let m : Master := .firmware 0; let c : CoreIx := 0; let w := s.look; let k := w.core c;
     let reaches := s.powered = true ∧ w.regTakes (Reg.CORE_RUN c) = true ∧ w.installHolds m (coreRegion c) = false;
     reaches ∧ k.halt = .none) ∧
    (let s : State := after fun w => (live w).updCore 0 fun k => { k with halt := .run }; let m : Master := .firmware 0; let c : CoreIx := 0;
     let w := s.look; let k := w.core c;
     let reaches := s.powered = true ∧ w.regTakes (Reg.CORE_RUN c) = true ∧ w.installHolds m (coreRegion c) = false;
     reaches ∧ k.halt ≠ .none) :=
  ⟨by decide +kernel,
    by decide +kernel⟩

/-- The hypotheses of `Obligations.CoreHaltsBreaksAndLinks`, of its part CoreArmsBreaks, are met. -/
theorem test_hyps_CoreArmsBreaks :
    (let s : State := after live; let m : Master := .firmware 0; let c : CoreIx := 0; let value : Word := 1; let w := s.look; let k := w.core c;
     let reaches := s.powered = true ∧ w.regTakes (Reg.CORE_BRK_CTRL c) = true ∧ w.installHolds m (coreRegion c) = false;
     let idle := ∀ e : Fin 5, (k.engine e).queue = [];
     reaches ∧ idle ∧ value.getLsbD 0 = true) ∧
    (let s : State := after live; let m : Master := .firmware 0; let c : CoreIx := 0; let value : Word := 2; let w := s.look; let k := w.core c;
     let reaches := s.powered = true ∧ w.regTakes (Reg.CORE_BRK_CTRL c) = true ∧ w.installHolds m (coreRegion c) = false;
     let idle := ∀ e : Fin 5, (k.engine e).queue = [];
     reaches ∧ idle ∧ value.getLsbD 1 = true) ∧
    (let s : State := after fun w => ((fun (w : Work) => w.updEngine 0 0 fun x => { x with queue := [⟨0, none, none, false⟩] }) (live w)).w32 (Reg.CORE_BRK_COUNT 0) 1;
     let m : Master := .firmware 0; let c : CoreIx := 0; let value : Word := 1; let w := s.look; let k := w.core c;
     let reaches := s.powered = true ∧ w.regTakes (Reg.CORE_BRK_CTRL c) = true ∧ w.installHolds m (coreRegion c) = false; let e : Fin 5 := 0;
     let q : QEntry := ⟨0, none, none, false⟩; let rest : List QEntry := [];
     reaches ∧ (k.engine e).queue = q :: rest ∧ (∀ f : Fin 5, f ≠ e → (k.engine f).queue = []) ∧ value = BitVec.ofNat 32 (1 + 4 * e.val) ∧
       w.r32 (Reg.CORE_BRK_COUNT c) = 1) ∧
    (let s : State := after fun w => (fun (w : Work) => w.updEngine 0 0 fun x => { x with queue := [⟨0, none, none, false⟩] }) (live w);
     let m : Master := .firmware 0; let c : CoreIx := 0; let value : Word := 2; let w := s.look; let k := w.core c;
     let reaches := s.powered = true ∧ w.regTakes (Reg.CORE_BRK_CTRL c) = true ∧ w.installHolds m (coreRegion c) = false; let e : Fin 5 := 0;
     let q : QEntry := ⟨0, none, none, false⟩; let rest : List QEntry := [];
     reaches ∧ (k.engine e).queue = q :: rest ∧ (∀ f : Fin 5, f ≠ e → (k.engine f).queue = []) ∧ value = BitVec.ofNat 32 (2 + 4 * e.val) ∧
       (cmdTag q.cmd ^^^ w.fld (Reg.CORE_BRK_TAG c) Fld.CORE_BRK_TAG_TAG) &&& w.fld (Reg.CORE_BRK_TAG c) Fld.CORE_BRK_TAG_MASK = 0) :=
  ⟨by decide +kernel,
    by decide +kernel,
    by decide +kernel,
    by decide +kernel⟩

/-- The hypotheses of `Obligations.CoreHaltsBreaksAndLinks`, of its part CoreBreakInstruction, are met. -/
theorem test_hyps_CoreBreakInstruction :
    let s : State := ctl (0x20 + 3 * 2 ^ 7); let c : CoreIx := 0; atInsn c (isSpecial 3) s :=
  by unfold atInsn; decide +kernel

/-- The hypotheses of `Obligations.CoreHaltsBreaksAndLinks`, of its part CoreLinkAndSpare, are met. -/
theorem test_hyps_CoreLinkAndSpare :
    (let s : State := after fun w => (live w).updCore 0 fun k => k.setLink 14 { Link.reset with pending := some 1 }; let c : CoreIx := 0;
     let i : Fin 15 := 14; let v : BitVec 64 := 1; let w := s.look; let k := w.core c;
     s.powered = true ∧ w.clocked = true ∧ (k.link i).pending = some v ∧ k.linkIdle i = true) ∧
    (let s : State := after fun w => (live w).setFlag (Reg.ERR_ESC_CORE 3) Fld.ERR_ESC_CORE_DISABLED true; let r : RegionIx := 0;
     let slot : Fin 16 := 3; let w := s.look; let c := 17 * r.val + slot.val;
     let may := s.powered = true ∧ SMap.get 0 s.hw.spareIn r = 0 ∧ w.physDisabled r slot = true ∧ w.physDisabled r 16 = false;
     may ∧ w.placedCtx c = none) ∧
    (let s : State := after fun w => placed 3 5 ((live w).setFlag (Reg.ERR_ESC_CORE 3) Fld.ERR_ESC_CORE_DISABLED true); let r : RegionIx := 0;
     let slot : Fin 16 := 3; let w := s.look; let c := 17 * r.val + slot.val;
     let may := s.powered = true ∧ SMap.get 0 s.hw.spareIn r = 0 ∧ w.physDisabled r slot = true ∧ w.physDisabled r 16 = false;
     let x := (5 : Nat);
     may ∧ w.placedCtx c = some x) :=
  ⟨by decide +kernel,
    by decide +kernel,
    by decide +kernel⟩

/-- The hypotheses of `Obligations.EngineIssuesHead` are met. -/
theorem test_hyps_EngineIssuesHead :
    let s : State := after fun w => (fun (w : Work) => w.updEngine 0 0 fun x => { x with queue := [⟨0, none, none, false⟩] }) (live w);
    let c : CoreIx := 0; let e : EngIx := 0; let q : QEntry := ⟨0, none, none, false⟩; let rest : List QEntry := []; let w := s.look;
    let k := w.core c;
    s.powered = true ∧ (k.engine e).queue = q :: rest ∧ w.coreRuns c = true ∧ q.held = false ∧ w.depMet c q.cmd = true ∧ w.engineFree c e = true :=
  by decide +kernel

/-- The hypotheses of `Obligations.EngineRunsAndCompletes`, of its part EngineStartsRepeat, are met. -/
theorem test_hyps_EngineStartsRepeat :
    let s : State := after (running 1 { run1 1 with started := 0 }); let c : CoreIx := 0; let e : EngIx := 1;
    let r : Running := { run1 1 with started := 0 }; let w := s.look;
    s.powered = true ∧ w.repeatDue c e = some r ∧ w.halvesReady c r = true ∧ (takesBank e r.cmd = true → (w.fullBank c).isSome = true) :=
  by decide +kernel

/-- The hypotheses of `Obligations.EngineRunsAndCompletes`, of its part EngineMarksHalves, are met. -/
theorem test_hyps_EngineMarksHalves :
    (let s : State := after (running 1 { run1 1 with outHeld := [0, 1] }); let c : CoreIx := 0; let e : EngIx := 1;
     let r : Running := { run1 1 with outHeld := [0, 1] }; let w := s.look; let k := w.core c;
     s.powered = true ∧ w.coreUp c = true ∧ (k.engine e).running.find? (fun r => !r.outHeld.isEmpty) = some r ∧ r.stopped = false ∧
       w.outDone c e r = true) ∧
    (let s : State := after (running 1 { run1 1 with inHeld := [1, 0] }); let c : CoreIx := 0; let e : EngIx := 1;
     let r : Running := { run1 1 with inHeld := [1, 0] }; let w := s.look; let k := w.core c;
     s.powered = true ∧ w.coreUp c = true ∧ (k.engine e).running.find? (fun r => !r.inHeld.isEmpty) = some r ∧ r.stopped = false ∧
       inDone e r = true) :=
  ⟨by decide +kernel,
    by decide +kernel⟩

/-- The hypotheses of `Obligations.EngineRunsAndCompletes`, of its part EngineCompletesCommand, are met. -/
theorem test_hyps_EngineCompletesCommand :
    (let s : State := after (running 4 { run1 1 with pos := 1 }); let c : CoreIx := 0; let e : EngIx := 4; let w := s.look; let k := w.core c;
     let r := { run1 1 with pos := 1 }; let rest := ([] : List Running);
     s.powered = true ∧ w.coreUp c = true ∧ (k.engine e).running = r :: rest ∧ r.stopped = false ∧ w.workDone c e r = true) ∧
    (let s : State := after (running 0 (run1 0)); let c : CoreIx := 0; let e : EngIx := 0; let w := s.look; let k := w.core c; let r := run1 0;
     let rest := ([] : List Running);
     s.powered = true ∧ w.coreUp c = true ∧ (k.engine e).running = r :: rest ∧ r.stopped = false ∧ cmdOpcode r.cmd = 0) ∧
    (let s : State := after fun w => (fun (w : Work) => w.updEngine 0 0 fun x => { x with queue := [⟨0, none, none, false⟩] }) (live w);
     let c : CoreIx := 0; let e : EngIx := 0; let w := s.look; let k := w.core c; let q := (⟨0, none, none, false⟩ : QEntry);
     let rest := ([] : List QEntry);
     s.powered = true ∧ w.coreRuns c = true ∧ (k.engine e).running = [] ∧ (k.engine e).queue = q :: rest ∧ q.held = false ∧
       w.depMet c q.cmd = true ∧ w.engineFree c e = true ∧ (assigned (opcodesOf e) (cmdOpcode q.cmd)).1 = 0) :=
  ⟨by decide +kernel,
    by decide +kernel,
    by decide +kernel⟩

/-- The hypotheses of `Obligations.MtxGroups`, of its part MtxGroupResult, are met. -/
theorem test_hyps_MtxGroupResult :
    (let c : CoreIx := 0; let w : Work := (after (running 0 (run1 1))).look; let r : Running := run1 1; let m := w.mtx c; let i := (127 : Nat);
     let j := (127 : Nat);
     w.mtxSender c = some r ∧ m.opened < 2 ∧ i < 128 ∧ j < 128) ∧
    (let c : CoreIx := 0; let w : Work := (after (running 0 (run1 1))).look; let r : Running := run1 1; let m := w.mtx c;
     w.mtxSender c = some r ∧ m.opened < 2 ∧ w.frozen (coreRegion c) = false) ∧
    (let c : CoreIx := 0; let w : Work := (after (running 0 (run1 1))).look; let r : Running := run1 1; let m := w.mtx c; let a := (0 : Nat);
     w.mtxSender c = some r ∧ m.opened < 2 ∧ a ≠ Reg.MTX_GROUPS c ∧ a ≠ Reg.MTX_GROUPS c + 4) ∧
    (let c : CoreIx := 0; let w : Work := (after (running 0 (run1 1))).look; let r : Running := run1 1; let m := w.mtx c; let x := (1 : Nat);
     w.mtxSender c = some r ∧ m.opened < 2 ∧ x ≠ c.val) :=
  ⟨by decide +kernel,
    by decide +kernel,
    by decide +kernel,
    by decide +kernel⟩

/-- The hypotheses of `Obligations.MtxGroups`, of its part MtxGroupCommands, are met. -/
theorem test_hyps_MtxGroupCommands :
    (let s : State := after (running 0 (run1 2)); let c : CoreIx := 0; let r : Running := run1 2; let w := s.look;
     (s.powered = true ∧ w.mtxSender c = some r) ∧ (cmdOpcode r.cmd = 1 ∨ cmdOpcode r.cmd = 2)) ∧
    (let s : State := after (running 0 (run1 1)); let c : CoreIx := 0; let r : Running := run1 1; let w := s.look;
     s.powered = true ∧ w.mtxSender c = some r ∧ (s.powered = true ∧ w.mtxSender c = some r) ∧ cmdOpcode r.cmd = 1) ∧
    (let s : State := after (running 0 (run1 2)); let c : CoreIx := 0; let r : Running := run1 2; let w := s.look;
     (s.powered = true ∧ w.mtxSender c = some r) ∧ cmdOpcode r.cmd = 2) :=
  ⟨by decide +kernel,
    by decide +kernel,
    by decide +kernel⟩

/-- The hypotheses of `Obligations.MtxBanks`, of its part MtxBankCommands, are met. -/
theorem test_hyps_MtxBankCommands :
    (let s : State := after (running 0 (run1 3)); let c : CoreIx := 0; let r : Running := run1 3; let w := s.look; let k := w.core c;
     let m := k.mtx;
     s.powered = true ∧ w.senderOf c 3 = some r ∧ m.opened < 2) ∧
    (let s : State := after (running 0 (run1 4)); let c : CoreIx := 0; let r : Running := run1 4; let w := s.look; let k := w.core c;
     let m := k.mtx;
     s.powered = true ∧ w.senderOf c 4 = some r ∧ m.opened < 2) ∧
    (let s : State := after (running 0 (run1 8)); let c : CoreIx := 0; let r : Running := run1 8; let w := s.look; let k := w.core c;
     let m := k.mtx;
     s.powered = true ∧ w.coreUp c = true ∧ (k.engine 0).running.find? (fun x => decide (cmdOpcode x.cmd = 8)) = some r ∧ m.proofLeft = none ∧
       w.mtxLevelNow c = min (mtxLevel r.cmd) (w.issueCap c)) :=
  ⟨by decide +kernel,
    by decide +kernel,
    by decide +kernel⟩

/-- The hypotheses of `Obligations.MtxBanks`, of its part MtxBankFullAndLevel, are met. -/
theorem test_hyps_MtxBankFullAndLevel :
    (let s : State := after fun w => (live w).updMtx 0 fun m => m.setBank 1 { m.bank 1 with state := .closing, fast := true };
     let c : CoreIx := 0; let w := s.look; let k := w.core c; let m := k.mtx; let b : Fin 2 := 1;
     s.powered = true ∧ w.coreUp c = true ∧ m.mayFill b = true) ∧
    (let s : State := after live; let c : CoreIx := 0; let w := s.look; s.powered = true ∧ w.coreUp c = true ∧ w.arrayWork c = false) :=
  ⟨by decide +kernel,
    by decide +kernel⟩

/-- The hypotheses of `Obligations.MtxTablesAndProof`, of its part MtxTableAndParity, are met. -/
theorem test_hyps_MtxTableAndParity :
    (let s : State := after (running 0 { Running.fresh (cmd [(0, 0, 8, 1), (3, 22, 1, 1)]) none with ready := false }); let c : CoreIx := 0;
     let r : Running := { Running.fresh (cmd [(0, 0, 8, 1), (3, 22, 1, 1)]) none with ready := false }; let w := s.look; let k := w.core c;
     (s.powered = true ∧ (k.engine 0).last = some r) ∧ (w.coreUp c = true ∧ mtxSeg r.cmd = true ∧ r.ready = false ∧ r.stopped = false ∧
       r.refetch = false)) ∧
    (let s : State := after (running 0 (run1 1)); let c : CoreIx := 0; let r : Running := run1 1; let w := s.look; let k := w.core c;
     (s.powered = true ∧ (k.engine 0).last = some r) ∧ (w.coreUp c = true ∧ mtxFetching r = true)) ∧
    (let s : State := after (running 0 { run1 1 with refetch := true }); let c : CoreIx := 0;
     let r : Running := { run1 1 with refetch := true }; let w := s.look; let k := w.core c;
     (s.powered = true ∧ (k.engine 0).last = some r) ∧ r.refetch = true) :=
  ⟨by decide +kernel,
    by decide +kernel,
    by decide +kernel⟩

/-- The hypotheses of `Obligations.MtxTablesAndProof`, of its part MtxProofControl, are met. -/
theorem test_hyps_MtxProofControl :
    let s : State := after live; s.powered = true :=
  by decide +kernel

/-- The hypotheses of `Obligations.VecRepeatsAndConfig`, of its part VecRunsRepeat, are met. -/
theorem test_hyps_VecRunsRepeat :
    let s : State := after (running 1 (run1 1)); let c : CoreIx := 0; let r : Running := run1 1; let w := s.look; let k := w.core c;
    s.powered = true ∧ (k.engine 1).last = some r ∧ w.coreUp c = true ∧ cmdOpcode r.cmd = 1 ∧ r.ready = true ∧ r.stopped = false ∧
      0 < r.started ∧ r.pos = 0 :=
  by decide +kernel

/-- The hypotheses of `Obligations.VecRepeatsAndConfig`, of its part VecConfigAndBank, are met. -/
theorem test_hyps_VecConfigAndBank :
    (let s : State := after (running 1 { run1 1 with ready := false }); let c : CoreIx := 0; let r : Running := { run1 1 with ready := false };
     let w := s.look; let k := w.core c;
     let reads := s.powered = true ∧ (k.engine 1).last = some r ∧ w.coreUp c = true ∧ cmdOpcode r.cmd = 1 ∧ r.ready = false ∧ r.stopped = false;
     reads) ∧
    (let s : State := after (running 1 { run1 1 with bankHeld := [1, 0] }); let c : CoreIx := 0;
     let r : Running := { run1 1 with bankHeld := [1, 0] }; let w := s.look; let k := w.core c;
     s.powered = true ∧ w.coreUp c = true ∧ (k.engine 1).running.find? (fun r => !r.bankHeld.isEmpty) = some r ∧ r.bankHeld.headD 0 < 2 ∧
       (1 < r.bankHeld.length ∨ vecWalked r = true)) :=
  ⟨by decide +kernel,
    by decide +kernel⟩

/-- The hypotheses of `Obligations.StrReadsDescriptor` are met. -/
theorem test_hyps_StrReadsDescriptor :
    (let s : State := after fun w => let w := running 2 { run1 1 with ready := false, started := 0 } w; w; let c : CoreIx := 0;
     let str : StrIx := 0; let n : Fin 4 := 0; let r : Running := { run1 1 with ready := false, started := 0 }; let w := s.look;
     let d := descKey (coreRegion c) (strDesc r.cmd); let stored := (List.range 8).map (w.descWord d);
     let words := if strRearm r.cmd then (stored.set 0 (cmdWord r.cmd 4)).set 1 (setBits (stored.getD 1 0) 0 16 (cmdFld r.cmd 5 0 16)) else stored;
     let bad := if strRearm r.cmd then SMap.get 0 s.hw.descBad d - SMap.get 0 s.hw.descBad d % 4 else SMap.get 0 s.hw.descBad d;
     (s.powered = true ∧ w.strUnread c str (n.val + 1) = some r) ∧ (bad = 0 ∧
       (strRearm r.cmd = true ∨ persists words = false ∨ w.ownerAllows d (coreGlobal c) = true))) ∧
    (let s : State := after fun w => let w := running 2 { run1 1 with ready := false, started := 0 } w; w; let c : CoreIx := 0;
     let str : StrIx := 0; let n : Fin 4 := 0; let r : Running := { run1 1 with ready := false, started := 0 }; let w := s.look;
     (s.powered = true ∧ w.strUnread c str (n.val + 1) = some r) ∧ strRearm r.cmd = false) ∧
    (let s : State := after fun w => let w := running 2 { run1 1 with ready := false, started := 0 } w; w.setDescBad 0 128; let c : CoreIx := 0;
     let str : StrIx := 0; let n : Fin 4 := 0; let r : Running := { run1 1 with ready := false, started := 0 }; let w := s.look;
     let d := descKey (coreRegion c) (strDesc r.cmd);
     let bad := if strRearm r.cmd then SMap.get 0 s.hw.descBad d - SMap.get 0 s.hw.descBad d % 4 else SMap.get 0 s.hw.descBad d;
     (s.powered = true ∧ w.strUnread c str (n.val + 1) = some r) ∧ (strRearm r.cmd = false ∧ bad ≠ 0)) ∧
    (let s : State := after fun w => let w := running 2 { run1 1 with ready := false, started := 0 } w; { w.setFlag Reg.DET_STATUS Fld.DET_STATUS_MODE_EFF true with hw := { w.hw with descs := [(0, 2 ^ 67)], descFirst := [(0, 2)] } };
     let c : CoreIx := 0; let str : StrIx := 0; let n : Fin 4 := 0; let r : Running := { run1 1 with ready := false, started := 0 };
     let w := s.look; let d := descKey (coreRegion c) (strDesc r.cmd); let stored := (List.range 8).map (w.descWord d);
     let words := if strRearm r.cmd then (stored.set 0 (cmdWord r.cmd 4)).set 1 (setBits (stored.getD 1 0) 0 16 (cmdFld r.cmd 5 0 16)) else stored;
     let bad := if strRearm r.cmd then SMap.get 0 s.hw.descBad d - SMap.get 0 s.hw.descBad d % 4 else SMap.get 0 s.hw.descBad d;
     (s.powered = true ∧ w.strUnread c str (n.val + 1) = some r) ∧ (strRearm r.cmd = false ∧ bad = 0 ∧ persists words = true ∧
       w.ownerAllows d (coreGlobal c) = false)) :=
  ⟨by decide +kernel,
    by decide +kernel,
    by decide +kernel,
    by decide +kernel⟩

/-- The hypotheses of `Obligations.StrInstalls` are met. -/
theorem test_hyps_StrInstalls :
    (let s : State := after live; let m : Master := .firmware 0; let c : CoreIx := 0; let value : DWord := 0; let w := s.look;
     let v := value.toNat;
     s.powered = true ∧ w.answers (coreWindow c + 0x30000) = .usual ∧ w.installHolds m (coreRegion c) = false ∧ bits v 0 24 % 32 = 0 ∧
       bits v 32 14 + bits v 48 10 ≤ 16383) ∧
    (let s : State := after fun w => let w := live w; { w with hw := { w.hw with installs := [⟨0, .firmware 0, 0, 16383, 1, none⟩] } };
     let r : RegionIx := 0; let x : Install := ⟨0, .firmware 0, 0, 16383, 1, none⟩; let w := s.look;
     s.powered = true ∧ w.clocked = true ∧ w.installOf r = some x ∧ x.req = none ∧ x.index + x.count ≤ 16384) :=
  ⟨by decide +kernel,
    by decide +kernel⟩

/-- The hypotheses of `Obligations.StrMovesBytes`, of its part StrRequests, are met. -/
theorem test_hyps_StrRequests :
    (let s : State := after fun w => let w := running 2 { run1 4 with words := [0, 0, 2, 0, 32, 0] } w; (w.wrBytes 0x100000000000 [255, 255, 255, 255]);
     let c : CoreIx := 0; let str : StrIx := 0; let r : Running := { run1 4 with words := [0, 0, 2, 0, 32, 0] }; let w := s.look;
     let rep := r.started - 1; let here := w.strRun c r.desc (r.position rep) r.pos;
     (s.powered = true ∧ w.strDue c str = some r) ∧ (here.1 = none ∧ strLoads r.cmd = false)) ∧
    (let s : State := after fun w => let w := running 2 { run1 3 with words := [0, 0, 2, 0, 32, 0] } w; (w.wrBytes 0x100000000000 [255, 255, 255, 255]);
     let c : CoreIx := 0; let str : StrIx := 0; let r : Running := { run1 3 with words := [0, 0, 2, 0, 32, 0] }; let w := s.look;
     let rep := r.started - 1; let here := w.strRun c r.desc (r.position rep) r.pos;
     (s.powered = true ∧ w.strDue c str = some r) ∧ (here.1 = none ∧ strLoads r.cmd = true)) ∧
    (let s : State := after fun w => let w := running 2 { run1 1 with words := [0, 0xFF00, 4, 0, 32] } w; { w with hw := { w.hw with installs := [⟨0, .cell 0 1, 0, 0, 1, none⟩] } };
     let c : CoreIx := 0; let str : StrIx := 0; let r : Running := { run1 1 with words := [0, 0xFF00, 4, 0, 32] }; let w := s.look;
     let rep := r.started - 1; let here := w.strRun c r.desc (r.position rep) r.pos; let a := 0xFF0000000000;
     let n := min here.2 (4096 - a % 4096); let op : ReqOp := if strLoads r.cmd then .read n else .write ((w.strTake c r rep r.pos n).map some);
     let node := if r.desc.isLocal then w.selfNode else r.desc.node;
     let waits := w.accessHeld (.cell c (Fin.ofNat 4 (1 + str.val))) node a || w.syncHeld (.str c str) a op;
     (s.powered = true ∧ w.strDue c str = some r) ∧ here.1 = some a ∧ waits = true) ∧
    (let s : State := after fun w => let w := running 2 { run1 1 with words := [0, 0, 4, 0, 32] } w; w; let c : CoreIx := 0;
     let str : StrIx := 0; let r : Running := { run1 1 with words := [0, 0, 4, 0, 32] }; let w := s.look; let rep := r.started - 1;
     let here := w.strRun c r.desc (r.position rep) r.pos; let a := (0 : Nat); let n := min here.2 (4096 - a % 4096);
     let op : ReqOp := if strLoads r.cmd then .read n else .write ((w.strTake c r rep r.pos n).map some);
     let node := if r.desc.isLocal then w.selfNode else r.desc.node;
     let waits := w.accessHeld (.cell c (Fin.ofNat 4 (1 + str.val))) node a || w.syncHeld (.str c str) a op;
     (s.powered = true ∧ w.strDue c str = some r) ∧ here.1 = some a ∧ (waits = false ∧ node = w.selfNode ∧ directDpa a = none)) :=
  ⟨by decide +kernel,
    by decide +kernel,
    by decide +kernel,
    by decide +kernel⟩

/-- The hypotheses of `Obligations.StrMovesBytes`, of its part StrReplies, are met. -/
theorem test_hyps_StrReplies :
    (let s : State := after fun w => let w := running 3 (run1 1) w; w.setReq 7 { Req.make (.str 0 1) (.read 1) none 0 0 0 0 0 with stage := .replied };
     let c : Nat := 0; let str : Nat := 1; let i : Nat := 7;
     let q : Req := { Req.make (.str 0 1) (.read 1) none 0 0 0 0 0 with stage := .replied }; let r : Running := run1 1; let w := s.look;
     let place (j : Nat) : Nat := spmAt c (w.strSpm c r q.rep (q.off + j)); let n := (1 : Nat);
     (s.powered = true ∧ w.req? i = some q ∧ q.src = .str c str ∧ q.stage = .replied ∧ ((w.core c).engine (2 + str)).first = some r) ∧
       (q.bad = .ok ∧ q.op = .read n ∧ w.digesting q.ctx = false ∧ (∀ j l, j < n → l < n → place j = place l → j = l))) ∧
    (let s : State := after fun w => let w := running 3 (run1 1) w; w.setReq 7 { Req.make (.str 0 1) (.write []) none 0 0 0 0 0 with stage := .replied };
     let c : Nat := 0; let str : Nat := 1; let i : Nat := 7;
     let q : Req := { Req.make (.str 0 1) (.write []) none 0 0 0 0 0 with stage := .replied }; let r : Running := run1 1; let w := s.look;
     let d := ([] : List (Option Byte));
     (s.powered = true ∧ w.req? i = some q ∧ q.src = .str c str ∧ q.stage = .replied ∧ ((w.core c).engine (2 + str)).first = some r) ∧
       (q.bad = .ok ∧ q.op = .write d ∧ w.digesting q.ctx = false)) ∧
    (let s : State := after fun w => let w := running 3 (run1 1) w; w.setReq 7 { Req.make (.str 0 1) (.read 1) none 0 0 0 0 0 with stage := .replied, bad := .timeout };
     let c : Nat := 0; let str : Nat := 1; let i : Nat := 7;
     let q : Req := { Req.make (.str 0 1) (.read 1) none 0 0 0 0 0 with stage := .replied, bad := .timeout }; let r : Running := run1 1;
     let w := s.look;
     (s.powered = true ∧ w.req? i = some q ∧ q.src = .str c str ∧ q.stage = .replied ∧ ((w.core c).engine (2 + str)).first = some r) ∧
       q.bad ≠ .ok) :=
  ⟨by
    refine ⟨by decide +kernel, rfl, rfl, by decide +kernel, fun j l hj hl _ => ?_⟩
    omega,
    by decide +kernel,
    by decide +kernel⟩

/-- The hypotheses of `Obligations.AtomicOnItsTarget` are met. -/
theorem test_hyps_AtomicOnItsTarget :
    (let op : SynOp := (⟨1023, .atomic 1, 0, 0, none, .own⟩ : SynOp); let n : Nat := 1;
     op.obj < 1024 ∧ op.kind = .atomic n ∧ (op.obj < 1024 ∧ op.kind = .atomic n) ∧ op.source = .own) ∧
    (let w : Work := (State.reset.look.setReq 3 { Req.make (.ctl 0) (.read 8) none 0 0 0 0 0 with stage := .translate });
     let op : SynOp := (⟨1023, .atomic 1, 0, 0, none, (.req 3)⟩ : SynOp); let n : Nat := 1; let i := 3;
     let q := ({ Req.make (.ctl 0) (.read 8) none 0 0 0 0 0 with stage := .translate } : Req); let k := 0; let j := 0;
     (op.obj < 1024 ∧ op.kind = .atomic n) ∧ (op.source = .req i ∧ w.req? i = some q ∧ (q.src = .ctl k ∨ q.src = .str k j ∨ q.src = .syn k))) :=
  ⟨by decide +kernel,
    by decide +kernel⟩

/-- The hypotheses of `Obligations.WaitConditions` are met. -/
theorem test_hyps_WaitConditions :
    (let cmd : CmdBits := cmd [(3, 16, 4, 0)]; let op := synOpCode cmd; op = 0) ∧
    (let cmd : CmdBits := cmd [(3, 16, 4, 1)]; let op := synOpCode cmd; op = 1) ∧
    (let cmd : CmdBits := cmd [(3, 16, 4, 2)]; let op := synOpCode cmd; op = 2) ∧
    (let cmd : CmdBits := cmd [(3, 16, 4, 3)]; let op := synOpCode cmd; op = 3) ∧
    (let cmd : CmdBits := cmd [(3, 16, 4, 4)]; let op := synOpCode cmd; op = 4) ∧
    (let cmd : CmdBits := cmd [(3, 16, 4, 5)]; let op := synOpCode cmd; op = 5) ∧
    (let cmd : CmdBits := cmd [(3, 16, 4, 6)]; let op := synOpCode cmd; 6 ≤ op) :=
  ⟨by decide +kernel,
    by decide +kernel,
    by decide +kernel,
    by decide +kernel,
    by decide +kernel,
    by decide +kernel,
    by decide +kernel⟩

/-- The hypotheses of `Obligations.SynCommands`, of its part SynAtomicCommand, are met. -/
theorem test_hyps_SynAtomicCommand :
    (let s : State := after fun w => let w := running 4 { Running.fresh (cmd [(0, 0, 8, 1)]) none with started := 0 } w; w; let c : CoreIx := 0;
     let r : Running := { Running.fresh (cmd [(0, 0, 8, 1)]) none with started := 0 }; let w := s.look; let k := w.core c;
     (s.powered = true ∧ w.synRuns c 1 = some r) ∧ (r.started = 0 ∧ synRemote r.cmd = false ∧ k.syn.incoming.length < 64)) ∧
    (let s : State := after fun w => let w := running 4 { Running.fresh (cmd [(0, 0, 8, 1)]) none with started := 0 } w; w.updSyn 0 fun y => { y with incoming := List.replicate 64 ⟨0, .read, 0, 0, none, .own⟩ };
     let c : CoreIx := 0; let r : Running := { Running.fresh (cmd [(0, 0, 8, 1)]) none with started := 0 }; let w := s.look; let k := w.core c;
     (s.powered = true ∧ w.synRuns c 1 = some r) ∧ (r.started = 0 ∧ synRemote r.cmd = false ∧ 64 ≤ k.syn.incoming.length)) ∧
    (let s : State := after fun w => let w := running 4 { Running.fresh (cmd [(0, 0, 8, 1), (3, 10, 1, 1)]) none with started := 0 } w; w;
     let c : CoreIx := 0; let r : Running := { Running.fresh (cmd [(0, 0, 8, 1), (3, 10, 1, 1)]) none with started := 0 }; let w := s.look;
     (s.powered = true ∧ w.synRuns c 1 = some r) ∧ (r.started = 0 ∧ synRemote r.cmd = true ∧ synTarget r.cmd = none)) ∧
    (let s : State := after fun w => let w := running 4 { Running.fresh (cmd [(0, 0, 8, 1), (3, 10, 1, 1), (4, 0, 32, 0x48000), (5, 0, 32, 0xFF00)]) none with started := 0 } w; w;
     let c : CoreIx := 0;
     let r : Running := { Running.fresh (cmd [(0, 0, 8, 1), (3, 10, 1, 1), (4, 0, 32, 0x48000), (5, 0, 32, 0xFF00)]) none with started := 0 };
     let w := s.look;
     (s.powered = true ∧ w.synRuns c 1 = some r) ∧ (r.started = 0 ∧ synRemote r.cmd = true ∧ synTarget r.cmd ≠ none)) ∧
    (let s : State := after fun w => let w := running 4 { Running.fresh (cmd [(0, 0, 8, 1)]) none with started := 0 } w; (w.setReq 3 { Req.make (.syn 0) (.read 8) none 0 0 0 0 0 with stage := .replied }).updSyn 0 fun y => { y with awaiting := some 3 };
     let c : CoreIx := 0; let r : Running := { Running.fresh (cmd [(0, 0, 8, 1)]) none with started := 0 }; let w := s.look; let k := w.core c;
     let i := (3 : Nat); let q := ({ Req.make (.syn 0) (.read 8) none 0 0 0 0 0 with stage := .replied } : Req);
     (s.powered = true ∧ w.synRuns c 1 = some r) ∧
       ((List.find? (fun e => decide (e.2.src = .syn c) && decide (e.2.stage = .replied) && decide (k.syn.awaiting ≠ some e.1)) s.hw.reqs) = none ∧ k.syn.awaiting = some i ∧ w.req? i = some q ∧ q.stage = .replied) ∧ q.bad = .ok) ∧
    (let s : State := after fun w => let w := running 4 { Running.fresh (cmd [(0, 0, 8, 1)]) none with started := 0 } w; (w.setReq 3 { Req.make (.syn 0) (.read 8) none 0 0 0 0 0 with stage := .replied, bad := .timeout }).updSyn 0 fun y => { y with awaiting := some 3 };
     let c : CoreIx := 0; let r : Running := { Running.fresh (cmd [(0, 0, 8, 1)]) none with started := 0 }; let w := s.look; let k := w.core c;
     let i := (3 : Nat); let q := ({ Req.make (.syn 0) (.read 8) none 0 0 0 0 0 with stage := .replied, bad := .timeout } : Req);
     (s.powered = true ∧ w.synRuns c 1 = some r) ∧
       ((List.find? (fun e => decide (e.2.src = .syn c) && decide (e.2.stage = .replied) && decide (k.syn.awaiting ≠ some e.1)) s.hw.reqs) = none ∧ k.syn.awaiting = some i ∧ w.req? i = some q ∧ q.stage = .replied) ∧ q.bad.returns = false) ∧
    (let s : State := after fun w => let w := running 4 { Running.fresh (cmd [(0, 0, 8, 1)]) none with started := 0 } w; (w.setReq 3 { Req.make (.syn 0) (.read 8) none 0 0 0 0 0 with stage := .replied, bad := .nonsync }).updSyn 0 fun y => { y with awaiting := some 3 };
     let c : CoreIx := 0; let r : Running := { Running.fresh (cmd [(0, 0, 8, 1)]) none with started := 0 }; let w := s.look; let k := w.core c;
     let i := (3 : Nat); let q := ({ Req.make (.syn 0) (.read 8) none 0 0 0 0 0 with stage := .replied, bad := .nonsync } : Req);
     (s.powered = true ∧ w.synRuns c 1 = some r) ∧
       ((List.find? (fun e => decide (e.2.src = .syn c) && decide (e.2.stage = .replied) && decide (k.syn.awaiting ≠ some e.1)) s.hw.reqs) = none ∧ k.syn.awaiting = some i ∧ w.req? i = some q ∧ q.stage = .replied) ∧ (q.bad ≠ .ok ∧ q.bad.returns = true)) :=
  ⟨by decide +kernel,
    by decide +kernel,
    by decide +kernel,
    by decide +kernel,
    by decide +kernel,
    by decide +kernel,
    by decide +kernel⟩

/-- The hypotheses of `Obligations.SynCommands`, of its part SynWaitBegins, are met. -/
theorem test_hyps_SynWaitBegins :
    (let s : State := after fun w => let w := running 4 { Running.fresh (cmd [(0, 0, 8, 2)]) none with started := 0 } w; w; let c : CoreIx := 0;
     let r : Running := { Running.fresh (cmd [(0, 0, 8, 2)]) none with started := 0 }; let w := s.look;
     (s.powered = true ∧ w.synRuns c 2 = some r ∧ r.started = 0) ∧ synRemote r.cmd = false) ∧
    (let s : State := after fun w => let w := running 4 { Running.fresh (cmd [(0, 0, 8, 2), (3, 10, 1, 1), (4, 0, 32, 0x48000), (5, 0, 32, 0xFF00)]) none with started := 0 } w; w;
     let c : CoreIx := 0;
     let r : Running := { Running.fresh (cmd [(0, 0, 8, 2), (3, 10, 1, 1), (4, 0, 32, 0x48000), (5, 0, 32, 0xFF00)]) none with started := 0 };
     let w := s.look; let word := (.obj 0 0 : SyncWord);
     (s.powered = true ∧ w.synRuns c 2 = some r ∧ r.started = 0) ∧ (synRemote r.cmd = true ∧ synTarget r.cmd = some word ∧
       gNode (synGaddr r.cmd) = w.selfNode)) ∧
    (let s : State := after fun w => let w := running 4 { Running.fresh (cmd [(0, 0, 8, 2), (3, 10, 1, 1)]) none with started := 0 } w; w;
     let c : CoreIx := 0; let r : Running := { Running.fresh (cmd [(0, 0, 8, 2), (3, 10, 1, 1)]) none with started := 0 }; let w := s.look;
     (s.powered = true ∧ w.synRuns c 2 = some r ∧ r.started = 0) ∧ (synRemote r.cmd = true ∧ synTarget r.cmd = none)) :=
  ⟨by decide +kernel,
    by decide +kernel,
    by decide +kernel⟩

/-- The hypotheses of `Obligations.SynObjectsAndWatches`, of its part SynObjectOperation, are met. -/
theorem test_hyps_SynObjectOperation :
    (let op : SynOp := ⟨1023, .atomic 15, 0, 0, none, .own⟩; let k := (15 : Nat); op.obj < 1024 ∧ op.kind = .atomic k) ∧
    (let op : SynOp := ⟨1023, .read, 0, 0, none, .own⟩; op.obj < 1024 ∧ ((∀ k, op.kind ≠ .atomic k))) ∧
    (let op : SynOp := ⟨1023, .read, 0, 0, none, .own⟩; let i := (0 : Nat); op.obj < 1024 ∧ i < 1024 ∧ i ≠ op.obj) ∧
    (let c : CoreIx := 0; let w : Work := State.reset.look; let op : SynOp := ⟨1023, .read, 0, 0, none, .own⟩;
     op.obj < 1024 ∧ w.frozen (coreRegion c) = false) ∧
    (let op : SynOp := ⟨1023, .read, 0, 0, none, .own⟩; op.obj < 1024) :=
  ⟨by decide +kernel,
    by
    intro op
    exact ⟨by decide, fun k h => nomatch h⟩,
    by decide +kernel,
    by decide +kernel,
    by decide +kernel⟩

/-- The hypotheses of `Obligations.SynObjectsAndWatches`, of its part SynIncoming, are met. -/
theorem test_hyps_SynIncoming :
    (let s : State := after fun w => (live w).updSyn 0 fun y => { y with incoming := [⟨0, .read, 0, 0, none, .own⟩] }; let c : CoreIx := 0;
     let w := s.look; let k := w.core c; let op := (⟨0, .read, 0, 0, none, .own⟩ : SynOp); let rest := ([] : List SynOp);
     s.powered = true ∧ w.coreUp c = true ∧ k.syn.incoming = op :: rest) ∧
    (let s : State := after live; let c : CoreIx := 0; let w := s.look; let k := w.core c; let m : Master := .firmware 0;
     let obj : Fin 1024 := 1023; let a := Reg.SYN_OBJ c obj;
     let reaches := s.powered = true ∧ w.regTakes a = true ∧ w.installHolds m (coreRegion c) = false;
     let here := k.syn.incoming = [] ∧ (w.masterCtx m = none ∨ w.masterCtx m = w.placedCtx c);
     reaches ∧ here) ∧
    (let s : State := after fun w => (live w).updSyn 0 fun y => { y with incoming := [⟨0, .read, 0, 0, none, .own⟩] }; let c : CoreIx := 0;
     let w := s.look; let k := w.core c; let m : Master := .firmware 0; let obj : Fin 1024 := 0; let a := Reg.SYN_OBJ c obj;
     let reaches := s.powered = true ∧ w.regTakes a = true ∧ w.installHolds m (coreRegion c) = false;
     reaches ∧ k.syn.incoming ≠ []) :=
  ⟨by decide +kernel,
    by decide +kernel,
    by decide +kernel⟩

/-- The hypotheses of `Obligations.SynObjectsAndWatches`, of its part SynWatchMessages, are met. -/
theorem test_hyps_SynWatchMessages :
    (let s : State := after fun w => let w := running 4 { Running.fresh (cmd [(0, 0, 8, 2), (3, 10, 1, 1), (4, 0, 32, 0x48000), (5, 0, 32, 0xFF00)]) none with started := 1 } w;
     let w := w; { (w.updSyn 0 fun y => { y with mode := .sent }) with hw := { (w.updSyn 0 fun y => { y with mode := .sent }).hw with watchMsgs := [⟨0, 0, 0, 0xFF0000048000, 0, none, .register 0 0 0⟩] } };
     let m : WatchMsg := ⟨0, 0, 0, 0xFF0000048000, 0, none, .register 0 0 0⟩; let later : List WatchMsg := []; let w := s.look;
     let on (op : Nat) := s.powered = true ∧ w.clocked = true ∧ s.hw.watchMsgs = m :: later ∧ m.kind.op = op ∧ m.here < 272; let d := (0 : Nat);
     let i := (0 : Nat); let op := (0 : Nat); let o := (0 : DWord); let p := (0 : DWord);
     on 0 ∧ m.word = some (.obj d i) ∧ m.kind = .register op o p ∧ w.regTakes (Reg.SYN_OBJ d i) = true ∧ (w.core d).syn.incoming.length < 64) ∧
    (let s : State := after fun w => let w := running 4 { Running.fresh (cmd [(0, 0, 8, 2), (3, 10, 1, 1), (4, 0, 32, 0x48000), (5, 0, 32, 0xFF00)]) none with started := 1 } w;
     let w := w; { (w.updSyn 0 fun y => { y with mode := .sent }) with hw := { (w.updSyn 0 fun y => { y with mode := .sent }).hw with watchMsgs := [⟨0, 0, 0, 0xFF0000048000, 0, none, .accepted⟩] } };
     let m : WatchMsg := ⟨0, 0, 0, 0xFF0000048000, 0, none, .accepted⟩; let later : List WatchMsg := []; let w := s.look;
     let on (op : Nat) := s.powered = true ∧ w.clocked = true ∧ s.hw.watchMsgs = m :: later ∧ m.kind.op = op ∧ m.here < 272;
     on 1 ∧ w.waitExpects m .sent .sent = true) ∧
    (let s : State := after fun w => let w := running 4 { Running.fresh (cmd [(0, 0, 8, 2), (3, 10, 1, 1), (4, 0, 32, 0x48000), (5, 0, 32, 0xFF00)]) none with started := 1 } w;
     let w := w; { (w.updSyn 0 fun y => { y with mode := .sent }) with hw := { (w.updSyn 0 fun y => { y with mode := .sent }).hw with watchMsgs := [⟨0, 0, 0, 0xFF0000048000, 1, none, .accepted⟩] } };
     let m : WatchMsg := ⟨0, 0, 0, 0xFF0000048000, 1, none, .accepted⟩; let later : List WatchMsg := []; let w := s.look; let c := m.here;
     let on (op : Nat) := s.powered = true ∧ w.clocked = true ∧ s.hw.watchMsgs = m :: later ∧ m.kind.op = op ∧ m.here < 272;
     on 1 ∧ w.waitExpects m .sent .sent = false ∧ m.gen ≠ SMap.get 0 s.hw.genCore c) ∧
    (let s : State := after fun w => let w := running 4 { Running.fresh (cmd [(0, 0, 8, 2), (3, 10, 1, 1), (4, 0, 32, 0x48000), (5, 0, 32, 0xFF00)]) none with started := 1 } w;
     let w := w; { (w.updSyn 0 fun y => { y with mode := .sent }) with hw := { (w.updSyn 0 fun y => { y with mode := .sent }).hw with watchMsgs := [⟨0, 0, 0, 0xFF0000048000, 0, none, .full⟩] } };
     let m : WatchMsg := ⟨0, 0, 0, 0xFF0000048000, 0, none, .full⟩; let later : List WatchMsg := []; let w := s.look;
     let on (op : Nat) := s.powered = true ∧ w.clocked = true ∧ s.hw.watchMsgs = m :: later ∧ m.kind.op = op ∧ m.here < 272;
     on 2 ∧ w.waitExpects m .sent .sent = true) ∧
    (let s : State := after fun w => let w := running 4 { Running.fresh (cmd [(0, 0, 8, 2), (3, 10, 1, 1), (4, 0, 32, 0x48000), (5, 0, 32, 0xFF00)]) none with started := 1 } w;
     let w := w; { (w.updSyn 0 fun y => { y with mode := .accepted }) with hw := { (w.updSyn 0 fun y => { y with mode := .accepted }).hw with watchMsgs := [⟨0, 0, 0, 0xFF0000048000, 0, none, .wake 0⟩] } };
     let m : WatchMsg := ⟨0, 0, 0, 0xFF0000048000, 0, none, .wake 0⟩; let later : List WatchMsg := []; let w := s.look;
     let on (op : Nat) := s.powered = true ∧ w.clocked = true ∧ s.hw.watchMsgs = m :: later ∧ m.kind.op = op ∧ m.here < 272;
     on 3 ∧ w.waitExpects m .sent .accepted = true) ∧
    (let s : State := after fun w => let w := running 4 { Running.fresh (cmd [(0, 0, 8, 2), (3, 10, 1, 1), (4, 0, 32, 0x48000), (5, 0, 32, 0xFF00)]) none with started := 1 } w;
     let w := w; { (w.updSyn 0 fun y => { y with mode := .polling }) with hw := { (w.updSyn 0 fun y => { y with mode := .polling }).hw with watchMsgs := [⟨0, 0, 0, 0xFF0000048000, 0, none, .wake 0⟩] } };
     let m : WatchMsg := ⟨0, 0, 0, 0xFF0000048000, 0, none, .wake 0⟩; let later : List WatchMsg := []; let w := s.look; let c := m.here;
     let on (op : Nat) := s.powered = true ∧ w.clocked = true ∧ s.hw.watchMsgs = m :: later ∧ m.kind.op = op ∧ m.here < 272;
     on 3 ∧ w.waitExpects m .sent .accepted = false ∧ w.frozen (coreRegion c) = false) ∧
    (let s : State := after fun w => let w := running 4 { Running.fresh (cmd [(0, 0, 8, 2), (3, 10, 1, 1), (4, 0, 32, 0x48000), (5, 0, 32, 0xFF00)]) none with started := 1 } w;
     let w := w; { (w.updSyn 0 fun y => { y with mode := .accepted }) with hw := { (w.updSyn 0 fun y => { y with mode := .accepted }).hw with watchMsgs := [⟨0, 0, 0, 0xFF0000048000, 0, none, .absent⟩] } };
     let m : WatchMsg := ⟨0, 0, 0, 0xFF0000048000, 0, none, .absent⟩; let later : List WatchMsg := []; let w := s.look;
     let on (op : Nat) := s.powered = true ∧ w.clocked = true ∧ s.hw.watchMsgs = m :: later ∧ m.kind.op = op ∧ m.here < 272;
     on 4 ∧ w.waitExpects m .sent .accepted = true) ∧
    (let s : State := after fun w => let w := running 4 { Running.fresh (cmd [(0, 0, 8, 2), (3, 10, 1, 1), (4, 0, 32, 0x48000), (5, 0, 32, 0xFF00)]) none with started := 1 } w;
     let w := w.fillWatch 0 255 1023 0 0 0 0 0 0; { (w.updSyn 0 fun y => { y with mode := .sent }) with hw := { (w.updSyn 0 fun y => { y with mode := .sent }).hw with watchMsgs := [⟨0, 0, 0, 0xFF0000049FF8, 0, none, .cancel⟩] } };
     let m : WatchMsg := ⟨0, 0, 0, 0xFF0000049FF8, 0, none, .cancel⟩; let later : List WatchMsg := []; let w := s.look;
     let on (op : Nat) := s.powered = true ∧ w.clocked = true ∧ s.hw.watchMsgs = m :: later ∧ m.kind.op = op ∧ m.here < 272; let d := (0 : Nat);
     let i := (1023 : Nat); let e := (255 : Nat);
     on 5 ∧ m.word = some (.obj d i) ∧ w.entryOf d i m.node m.core m.gen = some e) ∧
    (let s : State := after live; let p : LinkIx := 0; let v : Fin 8 := 0; s.powered = true ∧ s.look.rxHead p v = none) :=
  ⟨by decide +kernel,
    by decide +kernel,
    by decide +kernel,
    by decide +kernel,
    by decide +kernel,
    by decide +kernel,
    by decide +kernel,
    by decide +kernel,
    by decide +kernel⟩

/-- The hypotheses of `Obligations.SynObjectsAndWatches`, of its part SynPollsAndNotices, are met. -/
theorem test_hyps_SynPollsAndNotices :
    (let s : State := after fun w => let w := running 4 { Running.fresh (cmd [(0, 0, 8, 2), (3, 10, 1, 1), (4, 0, 32, 0x48000), (5, 0, 32, 0xFF00)]) none with started := 1 } w;
     let w := w; w.updSyn 0 fun y => { y with mode := .polling }; let c : CoreIx := 0;
     let r : Running := { Running.fresh (cmd [(0, 0, 8, 2), (3, 10, 1, 1), (4, 0, 32, 0x48000), (5, 0, 32, 0xFF00)]) none with started := 1 };
     let w := s.look; let k := w.core c; let waits (x : WaitMode) := s.powered = true ∧ w.unmetWait c = some r ∧ k.syn.mode = x;
     waits .polling ∧ k.syn.awaiting = none) ∧
    (let s : State := after fun w => let w := running 4 { Running.fresh (cmd [(0, 0, 8, 2), (3, 10, 1, 1), (4, 0, 32, 0x48000), (5, 0, 32, 0xFF00)]) none with started := 1 } w;
     let w := w; w.updSyn 0 fun y => { y with mode := .accepted }; let c : CoreIx := 0;
     let r : Running := { Running.fresh (cmd [(0, 0, 8, 2), (3, 10, 1, 1), (4, 0, 32, 0x48000), (5, 0, 32, 0xFF00)]) none with started := 1 };
     let w := s.look; let k := w.core c; let waits (x : WaitMode) := s.powered = true ∧ w.unmetWait c = some r ∧ k.syn.mode = x;
     waits .accepted ∧ k.syn.awaiting = none) ∧
    (let s : State := after fun w => let w := running 4 { Running.fresh (cmd [(0, 0, 8, 2), (3, 10, 1, 1), (4, 0, 32, 0x48000), (5, 0, 32, 0xFF00)]) none with started := 1 } w;
     let w := (w.setReq 3 { Req.make (.syn 0) (.read 8) none 0 0 0 0 0 with stage := .replied }).updSyn 0 fun y => { y with awaiting := some 3 }; w.updSyn 0 fun y => { y with mode := .polling };
     let c : CoreIx := 0;
     let r : Running := { Running.fresh (cmd [(0, 0, 8, 2), (3, 10, 1, 1), (4, 0, 32, 0x48000), (5, 0, 32, 0xFF00)]) none with started := 1 };
     let w := s.look; let k := w.core c; let waits (x : WaitMode) := s.powered = true ∧ w.unmetWait c = some r ∧ k.syn.mode = x;
     let i := (3 : Nat); let q := ({ Req.make (.syn 0) (.read 8) none 0 0 0 0 0 with stage := .replied } : Req);
     (k.syn.awaiting = some i ∧ w.req? i = some q ∧ q.stage = .replied ∧ q.bad = .ok) ∧ waits .polling) ∧
    (let s : State := after fun w => let w := running 4 { Running.fresh (cmd [(0, 0, 8, 2), (3, 10, 1, 1), (4, 0, 32, 0x48000), (5, 0, 32, 0xFF00)]) none with started := 1 } w;
     let w := (w.setReq 3 { Req.make (.syn 0) (.read 8) none 0 0 0 0 0 with stage := .replied }).updSyn 0 fun y => { y with awaiting := some 3 }; w.updSyn 0 fun y => { y with mode := .accepted };
     let c : CoreIx := 0;
     let r : Running := { Running.fresh (cmd [(0, 0, 8, 2), (3, 10, 1, 1), (4, 0, 32, 0x48000), (5, 0, 32, 0xFF00)]) none with started := 1 };
     let w := s.look; let k := w.core c; let waits (x : WaitMode) := s.powered = true ∧ w.unmetWait c = some r ∧ k.syn.mode = x;
     let i := (3 : Nat); let q := ({ Req.make (.syn 0) (.read 8) none 0 0 0 0 0 with stage := .replied } : Req);
     let holds := waitHolds r.cmd (BitVec.ofNat 64 (q.number 8));
     (k.syn.awaiting = some i ∧ w.req? i = some q ∧ q.stage = .replied ∧ q.bad = .ok) ∧ (waits .accepted ∧ holds = true)) ∧
    (let s : State := after fun w => let w := running 4 { Running.fresh (cmd [(0, 0, 8, 2), (3, 10, 1, 1), (4, 0, 32, 0x48000), (5, 0, 32, 0xFF00), (3, 16, 4, 1)]) none with started := 1 } w;
     let w := (w.setReq 3 { Req.make (.syn 0) (.read 8) none 0 0 0 0 0 with stage := .replied }).updSyn 0 fun y => { y with awaiting := some 3 }; w.updSyn 0 fun y => { y with mode := .accepted };
     let c : CoreIx := 0;
     let r : Running := { Running.fresh (cmd [(0, 0, 8, 2), (3, 10, 1, 1), (4, 0, 32, 0x48000), (5, 0, 32, 0xFF00), (3, 16, 4, 1)]) none with started := 1 };
     let w := s.look; let k := w.core c; let waits (x : WaitMode) := s.powered = true ∧ w.unmetWait c = some r ∧ k.syn.mode = x;
     let i := (3 : Nat); let q := ({ Req.make (.syn 0) (.read 8) none 0 0 0 0 0 with stage := .replied } : Req);
     let holds := waitHolds r.cmd (BitVec.ofNat 64 (q.number 8));
     (k.syn.awaiting = some i ∧ w.req? i = some q ∧ q.stage = .replied ∧ q.bad = .ok) ∧ (waits .accepted ∧ holds = false ∧
       w.entryLost c r = true)) ∧
    (let s : State := after fun w => let w := running 4 { Running.fresh (cmd [(0, 0, 8, 2), (3, 10, 1, 1), (4, 0, 32, 0x48000), (5, 0, 32, 0xFF00)]) none with started := 1 } w;
     let w := w.setFlag (Reg.SYN_LONGWAIT 0) Fld.SYN_LONGWAIT_EN true; w.updSyn 0 fun y => { y with mode := .polling }; let c : CoreIx := 0;
     let w := s.look; let k := w.core c;
     s.powered = true ∧ w.coreWaits c = true ∧ w.flag (Reg.SYN_LONGWAIT c) Fld.SYN_LONGWAIT_EN = true ∧ k.syn.waiting = false) :=
  ⟨by decide +kernel,
    by decide +kernel,
    by decide +kernel,
    by decide +kernel,
    by decide +kernel,
    by decide +kernel⟩

/-- The hypotheses of `Obligations.MemAccesses`, of its part MemAdmits, are met. -/
theorem test_hyps_MemAdmits :
    (let s : State := after fun w => let w := (live w).setFlag (Reg.MEM_STATUS 0) Fld.MEM_STATUS_TRAINED true;
     let w := w; w.updChan 0 fun k => { k with waiting := [⟨some 3, 0, 32, 0, none, some 5, 0, 0, 0⟩] }; let r : RegionIx := 0;
     let n : Fin 64 := 0; let input : Nat := (((s.look.chan 0).arbitrate (s.look.hotLimit 0)).getD (0, 0)).1;
     let left : Nat := (((s.look.chan 0).arbitrate (s.look.hotLimit 0)).getD (0, 0)).2; let i : Nat := 0;
     let a : Access := ⟨some 3, 0, 32, 0, none, some 5, 0, 0, 0⟩; let w := s.look; let ch := 64 * r.val + n.val; let k := w.chan ch;
     let taken : Chan := { k with waiting := k.waiting.eraseIdx i, arb := ⟨input, left, if input = 0 then a.master else k.arb.master⟩ };
     let covered := taken.forwards a && !(taken.queue.any fun x => w.writesPoison x && x.meets a);
     (s.powered = true ∧ w.memUp r = true ∧ w.memAdmits r = true ∧ w.flag (Reg.MEM_STATUS r) Fld.MEM_STATUS_TRAINED = true ∧
       w.fld Reg.CLK_STATUS Fld.CLK_STATUS_DOM_SRC = 0 ∧ k.queue.length < w.chDepth ch ∧ k.arbitrate (w.hotLimit ch) = some (input, left) ∧
       k.candidate input (w.hotLimit ch) = some (i, a)) ∧ (covered = false ∧ ¬ (a.wr.isSome = true ∧ a.wholeCrumbs = true))) ∧
    (let s : State := after fun w => let w := (live w).setFlag (Reg.MEM_STATUS 0) Fld.MEM_STATUS_TRAINED true;
     let w := w; w.updChan 0 fun k => { k with waiting := [⟨some 3, 0, 32, 0, some (List.replicate 32 (some 7)), some 5, 0, 0, 0⟩] };
     let r : RegionIx := 0; let n : Fin 64 := 0; let input : Nat := (((s.look.chan 0).arbitrate (s.look.hotLimit 0)).getD (0, 0)).1;
     let left : Nat := (((s.look.chan 0).arbitrate (s.look.hotLimit 0)).getD (0, 0)).2; let i : Nat := 0;
     let a : Access := ⟨some 3, 0, 32, 0, some (List.replicate 32 (some 7)), some 5, 0, 0, 0⟩; let w := s.look; let ch := 64 * r.val + n.val;
     let k := w.chan ch;
     let taken : Chan := { k with waiting := k.waiting.eraseIdx i, arb := ⟨input, left, if input = 0 then a.master else k.arb.master⟩ };
     let covered := taken.forwards a && !(taken.queue.any fun x => w.writesPoison x && x.meets a);
     (s.powered = true ∧ w.memUp r = true ∧ w.memAdmits r = true ∧ w.flag (Reg.MEM_STATUS r) Fld.MEM_STATUS_TRAINED = true ∧
       w.fld Reg.CLK_STATUS Fld.CLK_STATUS_DOM_SRC = 0 ∧ k.queue.length < w.chDepth ch ∧ k.arbitrate (w.hotLimit ch) = some (input, left) ∧
       k.candidate input (w.hotLimit ch) = some (i, a)) ∧ (covered = false ∧ a.wr.isSome = true ∧ a.wholeCrumbs = true)) ∧
    (let s : State := after fun w => let w := (live w).setFlag (Reg.MEM_STATUS 0) Fld.MEM_STATUS_TRAINED true; w.updChan 0 fun k => { k with waiting := [⟨some 3, 0, 32, 0, none, some 5, 0, 0, 0⟩], queue := [⟨some 4, 0, 32, 0, some (List.replicate 32 (some 7)), some 5, 0, 0, 0⟩] };
     let r : RegionIx := 0; let n : Fin 64 := 0; let input : Nat := (((s.look.chan 0).arbitrate (s.look.hotLimit 0)).getD (0, 0)).1;
     let left : Nat := (((s.look.chan 0).arbitrate (s.look.hotLimit 0)).getD (0, 0)).2; let i : Nat := 0;
     let a : Access := ⟨some 3, 0, 32, 0, none, some 5, 0, 0, 0⟩; let w := s.look; let ch := 64 * r.val + n.val; let k := w.chan ch;
     let taken : Chan := { k with waiting := k.waiting.eraseIdx i, arb := ⟨input, left, if input = 0 then a.master else k.arb.master⟩ };
     let covered := taken.forwards a && !(taken.queue.any fun x => w.writesPoison x && x.meets a);
     (s.powered = true ∧ w.memUp r = true ∧ w.memAdmits r = true ∧ w.flag (Reg.MEM_STATUS r) Fld.MEM_STATUS_TRAINED = true ∧
       w.fld Reg.CLK_STATUS Fld.CLK_STATUS_DOM_SRC = 0 ∧ k.queue.length < w.chDepth ch ∧ k.arbitrate (w.hotLimit ch) = some (input, left) ∧
       k.candidate input (w.hotLimit ch) = some (i, a)) ∧ covered = true) :=
  ⟨by decide +kernel,
    by decide +kernel,
    by decide +kernel⟩

/-- The hypotheses of `Obligations.MemAccesses` are met. -/
theorem test_hyps_MemAccesses :
    (let s : State := after fun w => let w := (live w).setFlag (Reg.MEM_STATUS 0) Fld.MEM_STATUS_TRAINED true;
     let w := w.setReq 3 { Req.make (.ctl 0) (.read 8) none 0 0 0 0 0 with stage := .memory 1 }; w.updChan 0 fun k => { k with queue := [⟨some 3, 0, 8, 0, none, some 5, 0, 0, 0⟩] };
     let r : RegionIx := 0; let n : Fin 64 := 0; let i : Nat := 0; let batch : Bool := (s.look.nextAccess 0).2;
     let a : Access := ⟨some 3, 0, 8, 0, none, some 5, 0, 0, 0⟩; let w := s.look; let ch := 64 * r.val + n.val; let k := w.chan ch;
     let turn := s.powered = true ∧ w.memUp r = true ∧ w.chServes ch = true ∧ w.chFailed ch = false ∧ w.nextAccess ch = (some i, batch) ∧
       k.queue[i]? = some a;
     let id := (3 : Nat); let q := ({ Req.make (.ctl 0) (.read 8) none 0 0 0 0 0 with stage := .memory 1 } : Req); let c := (0 : Nat);
     turn ∧ a.wr = none ∧ a.crumbList.any w.poisoned = false ∧ a.req = some id ∧ w.req? id = some q ∧ q.src = .ctl c ∧ q.stage = .memory 1 ∧
       q.bad = .ok) ∧
    (let s : State := after fun w => let w := (live w).setFlag (Reg.MEM_STATUS 0) Fld.MEM_STATUS_TRAINED true;
     let w := w; w.updChan 0 fun k => { k with queue := [⟨some 3, 0, 32, 0, some (List.replicate 32 (some 7)), some 5, 0, 0, 0⟩] };
     let r : RegionIx := 0; let n : Fin 64 := 0; let i : Nat := 0; let batch : Bool := (s.look.nextAccess 0).2;
     let a : Access := ⟨some 3, 0, 32, 0, some (List.replicate 32 (some 7)), some 5, 0, 0, 0⟩; let w := s.look; let ch := 64 * r.val + n.val;
     let k := w.chan ch;
     let turn := s.powered = true ∧ w.memUp r = true ∧ w.chServes ch = true ∧ w.chFailed ch = false ∧ w.nextAccess ch = (some i, batch) ∧
       k.queue[i]? = some a;
     let d := (List.replicate 32 (some 7) : List (Option Byte)); let ecc := EccEvent.clean;
     turn ∧ a.wr = some d ∧ d.length = a.len ∧ a.wholeCrumbs = true ∧ 0 < a.len ∧ w.writesPoison a = false ∧ ecc ≠ .cmdTransient ∧
       ecc ≠ .cmdLasting) ∧
    (let s : State := after fun w => let w := (live w).setFlag (Reg.MEM_STATUS 0) Fld.MEM_STATUS_TRAINED true;
     let w := w; w.updChan 0 fun k => { k with queue := [⟨some 3, 0, 32, 0, none, some 5, 0, 0, 0⟩] }; let r : RegionIx := 0;
     let n : Fin 64 := 0; let i : Nat := 0; let batch : Bool := (s.look.nextAccess 0).2;
     let a : Access := ⟨some 3, 0, 32, 0, none, some 5, 0, 0, 0⟩; let w := s.look; let ch := 64 * r.val + n.val; let k := w.chan ch;
     s.powered = true ∧ w.memUp r = true ∧ w.chServes ch = true ∧ w.nextAccess ch = (some i, batch) ∧ k.queue[i]? = some a) :=
  ⟨by decide +kernel,
    by decide +kernel,
    by decide +kernel⟩

/-- The hypotheses of `Obligations.MemUpkeep`, of its part MemRefreshScrubTemperature, are met. -/
theorem test_hyps_MemRefreshScrubTemperature :
    (let s : State := after fun w => let w := (live w).setFlag (Reg.MEM_STATUS 0) Fld.MEM_STATUS_TRAINED true; w; let r : RegionIx := 0;
     let w := s.look; let n : Fin 64 := 0; let ch := 64 * r.val + n.val;
     s.powered = true ∧ w.memUp r = true ∧ w.chServes ch = true) ∧
    (let s : State := after fun w => let w := (live w).setFlag (Reg.MEM_STATUS 0) Fld.MEM_STATUS_TRAINED true; w.setFlag (Reg.MEM_CTRL 0) Fld.MEM_CTRL_SCRUB_EN true;
     let r : RegionIx := 0; let w := s.look; let n : Fin 64 := 0; let ch := 64 * r.val + n.val; let k := w.chan ch;
     s.powered = true ∧ w.memUp r = true ∧ w.flag (Reg.MEM_STATUS r) Fld.MEM_STATUS_TRAINED = true ∧
       w.flag (Reg.MEM_CTRL r) Fld.MEM_CTRL_SCRUB_EN = true ∧ k.queue.length < w.chDepth ch) ∧
    (let s : State := after fun w => let w := (live w).setFlag (Reg.MEM_STATUS 0) Fld.MEM_STATUS_TRAINED true; w; let r : RegionIx := 0;
     let w := s.look;
     s.powered = true ∧ w.memUp r = true) :=
  ⟨by decide +kernel,
    by decide +kernel,
    by decide +kernel⟩

/-- The hypotheses of `Obligations.MemUpkeep`, of its part MemSelfTest, are met. -/
theorem test_hyps_MemSelfTest :
    (let s : State := after fun w => let w := (live w).setFlag (Reg.MEM_STATUS 0) Fld.MEM_STATUS_TRAINED true; w; let r : RegionIx := 0;
     let w := s.look; let run := SMap.get 0 s.hw.bistRun r; let value : Word := 0x100;
     (s.powered = true ∧ w.regTakes (Reg.MEM_BIST_CTRL r) = true) ∧ (value.getLsbD 8 = true ∧ run = 0)) ∧
    (let s : State := after fun w => let w := (live w).setFlag (Reg.MEM_STATUS 0) Fld.MEM_STATUS_TRAINED true; { w with hw := { w.hw with bistRun := [(0, 1)] } };
     let r : RegionIx := 0; let w := s.look; let run := SMap.get 0 s.hw.bistRun r; let value : Word := 0x100;
     (s.powered = true ∧ w.regTakes (Reg.MEM_BIST_CTRL r) = true) ∧ (value.getLsbD 8 = true ∧ run ≠ 0)) ∧
    (let s : State := after fun w => let w := (live w).setFlag (Reg.MEM_STATUS 0) Fld.MEM_STATUS_TRAINED true; w; let r : RegionIx := 0;
     let w := s.look; let value : Word := 0;
     (s.powered = true ∧ w.regTakes (Reg.MEM_BIST_CTRL r) = true) ∧ value.getLsbD 8 = false) ∧
    (let s : State := after fun w => let w := (live w).setFlag (Reg.MEM_STATUS 0) Fld.MEM_STATUS_TRAINED true; { w with hw := { w.hw with bistRun := [(0, 1)] } };
     let r : RegionIx := 0; let w := s.look; let run := SMap.get 0 s.hw.bistRun r;
     s.powered = true ∧ w.memUp r = true ∧ run = 1) ∧
    (let s : State := after fun w => let w := (live w).setFlag (Reg.MEM_STATUS 0) Fld.MEM_STATUS_TRAINED true; { w with hw := { w.hw with bistRun := [(0, 2)] } };
     let r : RegionIx := 0; let w := s.look; let run := SMap.get 0 s.hw.bistRun r;
     s.powered = true ∧ w.memUp r = true ∧ run = 2) :=
  ⟨by decide +kernel,
    by decide +kernel,
    by decide +kernel,
    by decide +kernel,
    by decide +kernel⟩

/-- The hypotheses of `Obligations.CapPorts`, of its part CapChannels, are met. -/
theorem test_hyps_CapChannels :
    (let s : State := after fun w => let w := { (live w) with hw := { (live w).hw with capMode := [(0, 40)] } };
     let w := (w.setFld (Reg.CAP_STATUS 0) Fld.CAP_STATUS_TRAINED 15).setFlag (Reg.CAP_CTRL 0) Fld.CAP_CTRL_EN true; w.updChan 1024 fun k => { k with waiting := [⟨some 3, 0x20000000000, 32, 0, none, some 5, 0, 0, 0⟩] };
     let d : Fin 4 := 0; let p : Fin 4 := 0; let n : Fin 8 := 0; let w := s.look; let ch := 1024 + 8 * (4 * d.val + p.val) + n.val;
     let k := w.chan ch; let input := (((s.look.chan 1024).arbitrate (s.look.hotLimit 1024)).getD (0, 1024)).1;
     let left := (((s.look.chan 1024).arbitrate (s.look.hotLimit 1024)).getD (0, 1024)).2; let i := (0 : Nat);
     let a := (⟨some 3, 0x20000000000, 32, 0, none, some 5, 0, 0, 0⟩ : Access);
     s.powered = true ∧ w.clocked = true ∧ w.capAdmits ch = true ∧ w.fld Reg.CLK_STATUS Fld.CLK_STATUS_DOM_SRC = 0 ∧
       k.queue.length < w.chDepth ch ∧ k.arbitrate (w.hotLimit ch) = some (input, left) ∧ k.candidate input (w.hotLimit ch) = some (i, a) ∧
       a.wr = none ∧ k.queue = [] ∧ a.crumbList ≠ []) ∧
    (let s : State := after fun w => let w := { (live w) with hw := { (live w).hw with capMode := [(0, 40)] } };
     let w := (w.setFld (Reg.CAP_STATUS 0) Fld.CAP_STATUS_TRAINED 15).setFlag (Reg.CAP_CTRL 0) Fld.CAP_CTRL_EN true; w.updChan 1024 fun k => { k with queue := [⟨some 3, 0x20000000000, 32, 0, none, some 5, 0, 0, 0⟩] };
     let d : Fin 4 := 0; let p : Fin 4 := 0; let n : Fin 8 := 0; let w := s.look; let ch := 1024 + 8 * (4 * d.val + p.val) + n.val;
     let k := w.chan ch; let serves := s.powered = true ∧ w.clocked = true ∧ w.chServes ch = true; let i := (0 : Nat);
     let batch := (s.look.nextAccess 1024).2; let a := (⟨some 3, 0x20000000000, 32, 0, none, some 5, 0, 0, 0⟩ : Access);
     serves ∧ w.capGone ch = false ∧ w.nextAccess ch = (some i, batch) ∧ k.queue[i]? = some a) ∧
    (let s : State := after fun w => ((live w).setReq 3 { Req.make (.ctl 0) (.read 8) none 0 0 0 0 0 with stage := .memory 1 }).updChan 1024 fun k => { k with queue := [⟨some 3, 0x20000000000, 32, 0, none, some 5, 0, 0, 0⟩] };
     let d : Fin 4 := 0; let p : Fin 4 := 0; let n : Fin 8 := 0; let w := s.look; let ch := 1024 + 8 * (4 * d.val + p.val) + n.val;
     let k := w.chan ch; let a := (⟨some 3, 0x20000000000, 32, 0, none, some 5, 0, 0, 0⟩ : Access); let rest := ([] : List Access);
     let id := (3 : Nat); let q := ({ Req.make (.ctl 0) (.read 8) none 0 0 0 0 0 with stage := .memory 1 } : Req);
     s.powered = true ∧ w.clocked = true ∧ w.capGone ch = true ∧ k.queue = a :: rest ∧ a.req = some id ∧ w.req? id = some q) ∧
    (let s : State := after fun w => let w := { (live w) with hw := { (live w).hw with capMode := [(0, 40)] } };
     let w := (w.setFld (Reg.CAP_STATUS 0) Fld.CAP_STATUS_TRAINED 15).setFlag (Reg.CAP_CTRL 0) Fld.CAP_CTRL_EN true; w.setFlag (Reg.CAP_CTRL 0) Fld.CAP_CTRL_REF_PB true;
     let d : Fin 4 := 0; let p : Fin 4 := 0; let n : Fin 8 := 0; let w := s.look; let ch := 1024 + 8 * (4 * d.val + p.val) + n.val;
     let ctl := Reg.CAP_CTRL d; let serves := s.powered = true ∧ w.clocked = true ∧ w.chServes ch = true;
     serves ∧ w.chFailed ch = false ∧ w.flag ctl Fld.CAP_CTRL_REF_PB = true) ∧
    (let s : State := after fun w => let w := { (live w) with hw := { (live w).hw with capMode := [(0, 40)] } };
     let w := (w.setFld (Reg.CAP_STATUS 0) Fld.CAP_STATUS_TRAINED 15).setFlag (Reg.CAP_CTRL 0) Fld.CAP_CTRL_EN true; w.setFlag (Reg.CAP_CTRL 0) Fld.CAP_CTRL_REF_PB false;
     let d : Fin 4 := 0; let p : Fin 4 := 0; let n : Fin 8 := 0; let w := s.look; let ch := 1024 + 8 * (4 * d.val + p.val) + n.val;
     let ctl := Reg.CAP_CTRL d; let serves := s.powered = true ∧ w.clocked = true ∧ w.chServes ch = true;
     serves ∧ w.chFailed ch = false ∧ w.flag ctl Fld.CAP_CTRL_REF_PB = false) :=
  ⟨by decide +kernel,
    by decide +kernel,
    by decide +kernel,
    by decide +kernel,
    by decide +kernel⟩

/-- The hypotheses of `Obligations.CapPorts`, of its part CapTemperatureAndScrub, are met. -/
theorem test_hyps_CapTemperatureAndScrub :
    (let s : State := after fun w => let w := { (live w) with hw := { (live w).hw with capMode := [(0, 40)] } };
     let w := (w.setFld (Reg.CAP_STATUS 0) Fld.CAP_STATUS_TRAINED 15).setFlag (Reg.CAP_CTRL 0) Fld.CAP_CTRL_EN true; w; let d : Fin 4 := 0;
     let p : Fin 4 := 0; let w := s.look;
     s.powered = true ∧ w.clocked = true ∧ bits (w.fld (Reg.CAP_STATUS d) Fld.CAP_STATUS_TRAINED) p 1 = 1) ∧
    (let s : State := after fun w => let w := { (live w) with hw := { (live w).hw with capMode := [(0, 43)] } };
     let w := (w.setFld (Reg.CAP_STATUS 0) Fld.CAP_STATUS_TRAINED 15).setFlag (Reg.CAP_CTRL 0) Fld.CAP_CTRL_EN true; (w.setFld (Reg.CAP_PORT_INFO 0 0) Fld.CAP_PORT_INFO_USABLE 16).setFlag (Reg.CAP_CTRL 0) Fld.CAP_CTRL_SCRUB_EN true;
     let d : Fin 4 := 0; let p : Fin 4 := 0; let w := s.look; let port := 4 * d.val + p.val; let ch := 1024 + 8 * port;
     let info := Reg.CAP_PORT_INFO d p; let bursts := w.fld info Fld.CAP_PORT_INFO_USABLE * 2 ^ 23; let n := (w.chan ch).scrub;
     let a := 0x20000000000 + port * 2 ^ 37 + 64 * (if n < bursts then n else 0); let on := w.chanOf a;
     s.powered = true ∧ w.clocked = true ∧ 0 < bursts ∧ w.flag (Reg.CAP_CTRL d) Fld.CAP_CTRL_SCRUB_EN = true ∧ w.chHasEcc on = true ∧
       w.capGone on = false ∧ w.chFailed on = false ∧ (w.chan on).queue.length < w.chDepth on) :=
  ⟨by decide +kernel,
    by decide +kernel⟩

/-- The hypotheses of `Obligations.CapPorts`, of its part CapTraining, are met. -/
theorem test_hyps_CapTraining :
    (let s : State := after fun w => let w := live w; w.setFlag (Reg.CAP_CTRL 0) Fld.CAP_CTRL_EN true; let d : Fin 4 := 0;
     let value : Word := 1; let w := s.look; let st := Reg.CAP_STATUS d; let ctl := Reg.CAP_CTRL d; let busy := w.flag st Fld.CAP_STATUS_BUSY;
     let on := w.flag ctl Fld.CAP_CTRL_EN; let takes := s.powered = true ∧ w.regTakes (Reg.CAP_CMD d) = true;
     takes ∧ value.getLsbD 0 = true ∧ busy = false ∧ on = true) ∧
    (let s : State := after live; let d : Fin 4 := 0; let value : Word := 1; let w := s.look; let st := Reg.CAP_STATUS d;
     let ctl := Reg.CAP_CTRL d; let busy := w.flag st Fld.CAP_STATUS_BUSY; let on := w.flag ctl Fld.CAP_CTRL_EN;
     let takes := s.powered = true ∧ w.regTakes (Reg.CAP_CMD d) = true;
     takes ∧ value.getLsbD 0 = true ∧ (busy = true ∨ on = false)) ∧
    (let s : State := after fun w => let w := (live w).setFlag (Reg.CAP_STATUS 0) Fld.CAP_STATUS_BUSY true; w.setFlag (Reg.CAP_CTRL 0) Fld.CAP_CTRL_EN true;
     let d : Fin 4 := 0; let w := s.look; let st := Reg.CAP_STATUS d; let ctl := Reg.CAP_CTRL d; let busy := w.flag st Fld.CAP_STATUS_BUSY;
     let on := w.flag ctl Fld.CAP_CTRL_EN; let p0 : PortReport := ⟨true, true, 0, 16, false⟩; let p1 : PortReport := ⟨true, true, 0, 16, false⟩;
     let p2 : PortReport := ⟨true, true, 0, 16, false⟩; let p3 : PortReport := ⟨true, true, 0, 16, false⟩; let ps := [p0, p1, p2, p3];
     s.powered = true ∧ busy = true ∧ on = true ∧ w.capMismatch d ps = false ∧ (∀ p ∈ ps, portPasses p = true ∧ p.first = true)) ∧
    (let s : State := after fun w => let w := live w; w.setFlag (Reg.CAP_CTRL 0) Fld.CAP_CTRL_EN true; let d : Fin 4 := 0;
     let value : Word := 0; let w := s.look; let ctl := Reg.CAP_CTRL d; let on := w.flag ctl Fld.CAP_CTRL_EN;
     s.powered = true ∧ w.regTakes ctl = true ∧ value.getLsbD 4 = false ∧ on = true) :=
  ⟨by decide +kernel,
    by decide +kernel,
    by decide +kernel,
    by decide +kernel⟩

/-- The hypotheses of `Obligations.PgeTranslates` are met. -/
theorem test_hyps_PgeTranslates :
    (let s : State := after fun w => let w := live w; let w := w.setFld (Reg.SCH_CTX_CTRL 5) Fld.SCH_CTX_CTRL_STATE 1;
     let w := w.updPge 0 fun p => { p with tb := [⟨⟨5, 0, false⟩, 3⟩] };
     let w := w.setReq 3 { Req.make (.ctl 0) (.read 8) (some 5) 0 0 0 0 0 with stage := .translate }; w; let req : Nat := 3;
     let q : Req := { Req.make (.ctl 0) (.read 8) (some 5) 0 0 0 0 0 with stage := .translate }; let w := s.look; let r := q.pge;
     let x := q.ctx.getD 0; let turn := s.powered = true ∧ w.req? req = some q ∧ w.pgeUp r = true; let t := (⟨⟨5, 0, false⟩, 3⟩ : TbEntry);
     (turn ∧ q.stage = .translate ∧ w.behind req q = false) ∧ (q.ctx = some x ∧ w.ctxLive x = true ∧ (w.pge r).lookup x q.page = some t)) ∧
    (let s : State := after fun w => let w := live w; let w := w.setFld (Reg.SCH_CTX_CTRL 5) Fld.SCH_CTX_CTRL_STATE 1;
     let w := w.setReq 3 { Req.make (.ctl 0) (.read 8) (some 5) 0 0 0 0 0 with stage := .translate }; w; let req : Nat := 3;
     let q : Req := { Req.make (.ctl 0) (.read 8) (some 5) 0 0 0 0 0 with stage := .translate }; let w := s.look; let r := q.pge;
     let x := q.ctx.getD 0; let turn := s.powered = true ∧ w.req? req = some q ∧ w.pgeUp r = true;
     (turn ∧ q.stage = .translate ∧ w.behind req q = false) ∧ (q.ctx = some x ∧ w.ctxLive x = true ∧ (w.pge r).lookup x q.page = none ∧
       ((w.walks r).length < 64 ∨ (q.ctx, q.page) ∈ w.walks r))) ∧
    (let s : State := after fun w => let w := live w;
     let w := w.setReq 3 { Req.make (.ctl 0) (.read 8) (some 5) 0 0 0 0 0 with stage := .translate }; w; let req : Nat := 3;
     let q : Req := { Req.make (.ctl 0) (.read 8) (some 5) 0 0 0 0 0 with stage := .translate }; let w := s.look; let r := q.pge;
     let x := q.ctx.getD 0; let turn := s.powered = true ∧ w.req? req = some q ∧ w.pgeUp r = true;
     (turn ∧ q.stage = .translate ∧ w.behind req q = false) ∧ (q.ctx = none ∨ w.ctxLive x = false)) ∧
    (let s : State := after fun w => let w := live w;
     let w := w.setReq 3 { Req.make (.ctl 0) (.read 8) (some 5) 0 0 0 0 0 with stage := .walk }; w; let req : Nat := 3;
     let q : Req := { Req.make (.ctl 0) (.read 8) (some 5) 0 0 0 0 0 with stage := .walk }; let w := s.look; let r := q.pge;
     let x := q.ctx.getD 0; let turn := s.powered = true ∧ w.req? req = some q ∧ w.pgeUp r = true;
     let v : Work := (s.look.walkCount true 0 5 0).2; let kind := (0 : Nat); let level := (0 : Nat);
     (turn ∧ q.stage = .walk ∧ w.underInval x q.page = false) ∧ w.walkCount true r x q.page = (.fault kind level, v)) ∧
    (let s : State := after fun w => let w := live w; let w := paged 0x105001 67 w;
     let w := w.setReq 3 { Req.make (.ctl 0) (.read 8) (some 5) 0 0 0 0 0 with stage := .walk }; w; let req : Nat := 3;
     let q : Req := { Req.make (.ctl 0) (.read 8) (some 5) 0 0 0 0 0 with stage := .walk }; let w := s.look; let r := q.pge;
     let x := q.ctx.getD 0; let turn := s.powered = true ∧ w.req? req = some q ∧ w.pgeUp r = true;
     let v : Work := (s.look.walkCount true 0 5 0).2; let id := (⟨5, 0, false⟩ : LeafId); let a := (0x105000 : Nat); let e := (67 : Nat);
     (turn ∧ q.stage = .walk ∧ w.underInval x q.page = false) ∧ w.walkCount true r x q.page = (.leaf id a e, v) ∧ leafMigrating e = true) ∧
    (let s : State := after fun w => let w := live w; let w := paged 0x105001 3 w;
     let w := w.setReq 3 { Req.make (.ctl 0) (.read 8) (some 5) 0 0 0 0 0 with stage := .walk }; w; let req : Nat := 3;
     let q : Req := { Req.make (.ctl 0) (.read 8) (some 5) 0 0 0 0 0 with stage := .walk }; let w := s.look; let r := q.pge;
     let x := q.ctx.getD 0; let turn := s.powered = true ∧ w.req? req = some q ∧ w.pgeUp r = true;
     let v : Work := (s.look.walkCount true 0 5 0).2; let id := (⟨5, 0, false⟩ : LeafId); let a := (0x105000 : Nat); let e := (3 : Nat);
     (turn ∧ q.stage = .walk ∧ w.underInval x q.page = false) ∧ w.walkCount true r x q.page = (.leaf id a e, v) ∧ leafMigrating e = false) :=
  ⟨by decide +kernel,
    by decide +kernel,
    by decide +kernel,
    by decide +kernel,
    by decide +kernel,
    by decide +kernel⟩

/-- The hypotheses of `Obligations.PgeTranslates`, of its part PgeHints, are met. -/
theorem test_hyps_PgeHints :
    (let s : State := after fun w => let w := live w; let w := w.updPge 0 fun p => { p with hints := [(⟨5, 0, 4, true⟩ : Hint)] }; w;
     let r : RegionIx := 0; let h : Hint := (⟨5, 0, 4, true⟩ : Hint); let rest : List Hint := []; let w := s.look; let p := w.pge r;
     s.powered = true ∧ w.engineUp r = true ∧ p.hints = h :: rest) ∧
    (let s : State := after fun w => let w := live w; let w := w.updPge 0 fun p => { p with slabs := [(⟨5, 0, 1, true⟩ : Hint)] }; w;
     let r : RegionIx := 0; let h : Hint := (⟨5, 0, 1, true⟩ : Hint); let rest : List Hint := []; let w := s.look; let p := w.pge r;
     let u := w.updPge r fun p => { p with slabs := rest }; let pol := u.policy r h.ctx; let l := u.slabLeaves r h.ctx h.slab;
     let skips := w.flag (Reg.PGE_CTRL r) Fld.PGE_CTRL_MIG_EN = false ∨ bits pol 0 1 = 0 ∨ bits pol 1 1 = 0 ∨ bits pol 2 1 = 0 ∨ l = [];
     (s.powered = true ∧ w.engineUp r = true ∧ p.slabs = h :: rest) ∧ skips) ∧
    (let s : State := after fun w => let w := live w; let w := w.setFlag (Reg.PGE_CTRL 0) Fld.PGE_CTRL_MIG_EN true; let w := paged 7 0 w;
     let w := w.updPge 0 fun p => { p with slabs := [(⟨5, 0, 1, false⟩ : Hint)] }; w; let r : RegionIx := 0;
     let h : Hint := (⟨5, 0, 1, false⟩ : Hint); let rest : List Hint := []; let w := s.look; let p := w.pge r;
     let u := w.updPge r fun p => { p with slabs := rest }; let pol := u.policy r h.ctx; let l := u.slabLeaves r h.ctx h.slab;
     let skips := w.flag (Reg.PGE_CTRL r) Fld.PGE_CTRL_MIG_EN = false ∨ bits pol 0 1 = 0 ∨ bits pol 1 1 = 0 ∨ bits pol 2 1 = 0 ∨ l = [];
     let id := (⟨5, 0, true⟩ : LeafId); let e := (7 : Nat);
     (s.powered = true ∧ w.engineUp r = true ∧ p.slabs = h :: rest) ∧ (¬ skips ∧ l = [(id, e)] ∧ h.release = false ∧ leafTier e = 1 ∧
       leafPin e = false)) ∧
    (let s : State := after fun w => let w := live w; let w := w.setFlag (Reg.PGE_CTRL 0) Fld.PGE_CTRL_MIG_EN true; let w := paged 3 0 w;
     let w := w.setFlag (Reg.PGE_POLICY 0) Fld.PGE_POLICY_RELEASE_NOW false;
     let w := w.updPge 0 fun p => { p with slabs := [(⟨5, 0, 1, true⟩ : Hint)] }; w; let r : RegionIx := 0;
     let h : Hint := (⟨5, 0, 1, true⟩ : Hint); let rest : List Hint := []; let w := s.look; let p := w.pge r;
     let u := w.updPge r fun p => { p with slabs := rest }; let pol := u.policy r h.ctx; let l := u.slabLeaves r h.ctx h.slab;
     let skips := w.flag (Reg.PGE_CTRL r) Fld.PGE_CTRL_MIG_EN = false ∨ bits pol 0 1 = 0 ∨ bits pol 1 1 = 0 ∨ bits pol 2 1 = 0 ∨ l = [];
     let id := (⟨5, 0, true⟩ : LeafId); let e := (3 : Nat);
     (s.powered = true ∧ w.engineUp r = true ∧ p.slabs = h :: rest) ∧ (¬ skips ∧ l = [(id, e)] ∧ h.release = true ∧ leafTier e = 0 ∧
       w.flag (Reg.PGE_POLICY r) Fld.PGE_POLICY_RELEASE_NOW = false)) :=
  ⟨by decide +kernel,
    by decide +kernel,
    by decide +kernel,
    by decide +kernel⟩

/-- The hypotheses of `Obligations.PgeShootsDown`, of its part PgeClearsShadow, are met. -/
theorem test_hyps_PgeClearsShadow :
    (let s : State := after fun w => let w := live w; let w := paged 0x105001 11 w;
     let w := w.updPge 0 fun p => { p with tb := [⟨⟨5, 0, false⟩, 11⟩] };
     let w := w.setReq 3 { Req.make (.ctl 0) (.write [some 0]) (some 5) 0 0 0 0 0 with stage := .held }; w; let req : Nat := 3;
     let q : Req := { Req.make (.ctl 0) (.write [some 0]) (some 5) 0 0 0 0 0 with stage := .held }; let t : TbEntry := ⟨⟨5, 0, false⟩, 11⟩;
     let v : Work := (s.look.walk 0 5 0).2; let w := s.look; let r := q.pge; let x := q.ctx.getD 0; let a := (0x105000 : Nat);
     let e := (11 : Nat);
     (s.powered = true ∧ w.req? req = some q ∧ w.pgeUp r = true ∧ q.stage = .held ∧ q.op.isWrite = true ∧ (w.pge r).lookup x q.page = some t) ∧
       (w.walk r x q.page = (.leaf t.id a e, v) ∧ leafTier e = 0 ∧ leafMigrating e = false ∧ leafShadowV e = true ∧
       leafFrame t.id.slab e = leafFrame t.id.slab t.leaf.toNat)) ∧
    (let s : State := after fun w => let w := live w; let w := paged 0x105001 0 w;
     let w := w.updPge 0 fun p => { p with tb := [⟨⟨5, 0, false⟩, 11⟩] };
     let w := w.setReq 3 { Req.make (.ctl 0) (.write [some 0]) (some 5) 0 0 0 0 0 with stage := .held }; w; let req : Nat := 3;
     let q : Req := { Req.make (.ctl 0) (.write [some 0]) (some 5) 0 0 0 0 0 with stage := .held }; let t : TbEntry := ⟨⟨5, 0, false⟩, 11⟩;
     let v : Work := (s.look.walk 0 5 0).2; let w := s.look; let r := q.pge; let x := q.ctx.getD 0; let kind := (0 : Nat);
     let level := (4 : Nat);
     (s.powered = true ∧ w.req? req = some q ∧ w.pgeUp r = true ∧ q.stage = .held ∧ q.op.isWrite = true ∧ (w.pge r).lookup x q.page = some t) ∧
       w.walk r x q.page = (.fault kind level, v)) ∧
    (let s : State := after fun w => let w := live w; let w := paged 0x105001 7 w;
     let w := w.updPge 0 fun p => { p with tb := [⟨⟨5, 0, false⟩, 11⟩] };
     let w := w.setReq 3 { Req.make (.ctl 0) (.write [some 0]) (some 5) 0 0 0 0 0 with stage := .held }; w; let req : Nat := 3;
     let q : Req := { Req.make (.ctl 0) (.write [some 0]) (some 5) 0 0 0 0 0 with stage := .held }; let t : TbEntry := ⟨⟨5, 0, false⟩, 11⟩;
     let v : Work := (s.look.walk 0 5 0).2; let w := s.look; let r := q.pge; let x := q.ctx.getD 0; let id := (⟨5, 0, false⟩ : LeafId);
     let a := (0x105000 : Nat); let e := (7 : Nat);
     (s.powered = true ∧ w.req? req = some q ∧ w.pgeUp r = true ∧ q.stage = .held ∧ q.op.isWrite = true ∧ (w.pge r).lookup x q.page = some t) ∧
       (w.walk r x q.page = (.leaf id a e, v) ∧
       (id ≠ t.id ∨ leafTier e = 1 ∨ leafMigrating e = true ∨ leafFrame id.slab e ≠ leafFrame id.slab t.leaf.toNat))) :=
  ⟨by decide +kernel,
    by decide +kernel,
    by decide +kernel⟩

/-- The hypotheses of `Obligations.PgeShootsDown` are met. -/
theorem test_hyps_PgeShootsDown :
    (let s : State := after fun w => let w := live w; w; let r : RegionIx := 0; let w := s.look;
     s.powered = true ∧ w.regTakes (Reg.PGE_INVAL r) = true) ∧
    (let s : State := after fun w => let w := live w;
     let w := { w with hw := { w.hw with invals := [(2, (⟨5, 0, 1, [], .write none⟩ : Inval))] } }; w; let r : RegionIx := 0;
     let inval : Nat := 2; let w := s.look; let v := (⟨5, 0, 1, [], .write none⟩ : Inval);
     (s.powered = true ∧ SMap.find? s.hw.invals inval = some v) ∧ (w.pgeUp r = true ∧ v.acks.contains r.val = false)) ∧
    (let s : State := after fun w => let w := live w;
     let w := { w with hw := { w.hw with invals := [(2, (⟨5, 0, 1, (List.range 16), .write (some 3)⟩ : Inval))] } }; w; let inval : Nat := 2;
     let v := (⟨5, 0, 1, (List.range 16), .write (some 3)⟩ : Inval); let i := (3 : Nat);
     (s.powered = true ∧ SMap.find? s.hw.invals inval = some v) ∧ allAcked v = true ∧ v.purpose = .write (some i)) ∧
    (let s : State := after fun w => let w := live w;
     let w := { w with hw := { w.hw with invals := [(2, (⟨5, 0, 1, (List.range 16), .write none⟩ : Inval))] } }; w; let inval : Nat := 2;
     let v := (⟨5, 0, 1, (List.range 16), .write none⟩ : Inval);
     (s.powered = true ∧ SMap.find? s.hw.invals inval = some v) ∧ allAcked v = true ∧ v.purpose = .write none) ∧
    (let s : State := after fun w => let w := live w;
     let w := { w with hw := { w.hw with invals := [(2, (⟨5, 0, 1, (List.range 16), .move 0⟩ : Inval))] } }; w; let inval : Nat := 2;
     let v := (⟨5, 0, 1, (List.range 16), .move 0⟩ : Inval); let n := (0 : Nat);
     (s.powered = true ∧ SMap.find? s.hw.invals inval = some v) ∧ allAcked v = true ∧ v.purpose = .move n) ∧
    (let s : State := after fun w => let w := live w; let w := { w with hw := { w.hw with alcs := [(0, ⟨[(⟨0, 0, 0⟩ : AlcRec)], true⟩)] } };
     let w := { w with hw := { w.hw with invals := [(2, (⟨5, 0, 1, (List.range 16), .unmap 0⟩ : Inval))] } }; w; let inval : Nat := 2;
     let w := s.look; let v := (⟨5, 0, 1, (List.range 16), .unmap 0⟩ : Inval); let n := (0 : Nat); let a := (⟨0, 0, 0⟩ : AlcRec);
     let rest := ([] : List AlcRec);
     (s.powered = true ∧ SMap.find? s.hw.invals inval = some v) ∧ allAcked v = true ∧ (v.purpose = .unmap n ∧ (w.alc n).waiting = true ∧
       (w.alc n).queue = a :: rest)) :=
  ⟨by decide +kernel,
    by decide +kernel,
    by decide +kernel,
    by decide +kernel,
    by decide +kernel,
    by decide +kernel⟩

/-- The hypotheses of `Obligations.PgeMovesLeaves` are met. -/
theorem test_hyps_PgeMovesLeaves :
    (let s : State := after fun w => let w := live w; let w := allotted 0 w; let w := w.setFlag (Reg.PGE_CTRL 0) Fld.PGE_CTRL_MIG_EN true;
     let w := paged 0x105001 7 w; let w := w.updPge 0 fun p => { p with queue := [(⟨⟨5, 0, false⟩, 7, true, 0⟩ : MigEntry)] }; w;
     let r : RegionIx := 0; let dest : Nat := 100; let v : Work := ((s.look.updPge 0 fun p => { p with queue := [] }).walk 0 5 0).2;
     let w := s.look; let p := w.pge r; let runs := s.powered = true ∧ w.engineUp r = true; let m := (⟨⟨5, 0, false⟩, 7, true, 0⟩ : MigEntry);
     let rest := ([] : List MigEntry); let a := (0x105000 : Nat); let e := (7 : Nat);
     (runs ∧ w.flag (Reg.PGE_CTRL r) Fld.PGE_CTRL_MIG_EN = true ∧ p.move = none ∧ p.queue = m :: rest ∧
       (w.updPge r fun p => { p with queue := rest }).walk r m.id.ctx m.id.page = (.leaf m.id a e, v) ∧ BitVec.ofNat 64 e = m.leaf ∧
       leafMigrating e = false) ∧ (m.promote = true ∧ leafTier e = 1 ∧ v.stackHasFree m.target m.id.slab = true ∧ dest / 524288 = m.target ∧
       v.framesFree 0 dest m.id.slab = true)) ∧
    (let s : State := after fun w => let w := live w; let w := w.setFlag (Reg.PGE_CTRL 0) Fld.PGE_CTRL_MIG_EN true; let w := paged 0x105001 7 w;
     let w := w.updPge 0 fun p => { p with queue := [(⟨⟨5, 0, false⟩, 7, true, 0⟩ : MigEntry)] }; w; let r : RegionIx := 0;
     let v : Work := ((s.look.updPge 0 fun p => { p with queue := [] }).walk 0 5 0).2; let w := s.look; let p := w.pge r;
     let runs := s.powered = true ∧ w.engineUp r = true; let m := (⟨⟨5, 0, false⟩, 7, true, 0⟩ : MigEntry); let rest := ([] : List MigEntry);
     let a := (0x105000 : Nat); let e := (7 : Nat);
     (runs ∧ w.flag (Reg.PGE_CTRL r) Fld.PGE_CTRL_MIG_EN = true ∧ p.move = none ∧ p.queue = m :: rest ∧
       (w.updPge r fun p => { p with queue := rest }).walk r m.id.ctx m.id.page = (.leaf m.id a e, v) ∧ BitVec.ofNat 64 e = m.leaf ∧
       leafMigrating e = false) ∧ (m.promote = true ∧ leafTier e = 1 ∧ v.stackHasFree m.target m.id.slab = false ∧ v.demotable m.target = [])) ∧
    (let s : State := after fun w => let w := live w; let w := w.setFlag (Reg.PGE_CTRL 0) Fld.PGE_CTRL_MIG_EN true;
     let w := paged 0x105001 11 w; let w := w.updPge 0 fun p => { p with queue := [(⟨⟨5, 0, false⟩, 11, false, 0⟩ : MigEntry)] }; w;
     let r : RegionIx := 0; let v : Work := ((s.look.updPge 0 fun p => { p with queue := [] }).walk 0 5 0).2; let w := s.look; let p := w.pge r;
     let runs := s.powered = true ∧ w.engineUp r = true; let m := (⟨⟨5, 0, false⟩, 11, false, 0⟩ : MigEntry); let rest := ([] : List MigEntry);
     let a := (0x105000 : Nat); let e := (11 : Nat);
     (runs ∧ w.flag (Reg.PGE_CTRL r) Fld.PGE_CTRL_MIG_EN = true ∧ p.move = none ∧ p.queue = m :: rest ∧
       (w.updPge r fun p => { p with queue := rest }).walk r m.id.ctx m.id.page = (.leaf m.id a e, v) ∧ BitVec.ofNat 64 e = m.leaf ∧
       leafMigrating e = false) ∧ (m.promote = false ∧ leafTier e = 0 ∧ leafShadowV e = true)) ∧
    (let s : State := after fun w => let w := live w; let w := allotted 3 w; let w := { w with hw := { w.hw with capMode := [(0, 43)] } };
     let w := w.setFld (Reg.CAP_PORT_INFO 0 0) Fld.CAP_PORT_INFO_USABLE 16; let w := w.setFld (Reg.PGE_EVICT_CFG 0) Fld.PGE_EVICT_CFG_PORTS 1;
     let w := w.setFlag (Reg.PGE_CTRL 0) Fld.PGE_CTRL_MIG_EN true; let w := paged 0x105001 3 w;
     let w := w.updPge 0 fun p => { p with queue := [(⟨⟨5, 0, false⟩, 3, false, 0⟩ : MigEntry)] }; w; let r : RegionIx := 0;
     let dest : Nat := 100; let v : Work := ((s.look.updPge 0 fun p => { p with queue := [] }).walk 0 5 0).2; let w := s.look; let p := w.pge r;
     let runs := s.powered = true ∧ w.engineUp r = true; let m := (⟨⟨5, 0, false⟩, 3, false, 0⟩ : MigEntry); let rest := ([] : List MigEntry);
     let a := (0x105000 : Nat); let e := (3 : Nat); let port := (0 : Nat);
     (runs ∧ w.flag (Reg.PGE_CTRL r) Fld.PGE_CTRL_MIG_EN = true ∧ p.move = none ∧ p.queue = m :: rest ∧
       (w.updPge r fun p => { p with queue := rest }).walk r m.id.ctx m.id.page = (.leaf m.id a e, v) ∧ BitVec.ofNat 64 e = m.leaf ∧
       leafMigrating e = false) ∧ (m.promote = false ∧ leafTier e = 0 ∧ leafShadowV e = false ∧ v.demotePort r m.id.slab = some port ∧
       dest / 2097152 = port ∧ v.framesFree 1 dest m.id.slab = true)) ∧
    (let s : State := after fun w => let w := live w; let w := paged 0x105001 7 w;
     let w := w.updPge 0 fun p => { p with move := some (⟨(⟨⟨5, 0, false⟩, 7, true, 0⟩ : MigEntry), some 100, 0, true, false⟩ : Move) }; w;
     let r : RegionIx := 0; let v : Work := (s.look.walk 0 5 0).2; let w := s.look; let p := w.pge r;
     let runs := s.powered = true ∧ w.engineUp r = true; let x := (⟨(⟨⟨5, 0, false⟩, 7, true, 0⟩ : MigEntry), some 100, 0, true, false⟩ : Move);
     let d := (100 : Nat); let a := (0x105000 : Nat); let e := (7 : Nat);
     runs ∧ p.move = some x ∧ x.free = true ∧ x.dest = some d ∧ x.entry.promote = true ∧
       w.walk r x.entry.id.ctx x.entry.id.page = (.leaf x.entry.id a e, v)) ∧
    (let s : State := after fun w => let w := live w; let w := allotted 0 w; let w := w.setFlag (Reg.PGE_CTRL 0) Fld.PGE_CTRL_MIG_EN true;
     let w := paged 0x105001 3 w; let w := w.wrBytes 0x40000000 (leBytes 8 41);
     let w := ((w.setFld (Reg.PGE_EVICT_CFG 0) Fld.PGE_EVICT_CFG_FREE_LOW 4095).setFld (Reg.ALC_RESERVE_SLABS 0) Fld.ALC_RESERVE_SLABS_SLABS 13000); w;
     let r : RegionIx := 0; let frame : Nat := 0; let w := s.look; let p := w.pge r; let runs := s.powered = true ∧ w.engineUp r = true;
     let id := (⟨5, 0, false⟩ : LeafId); let a := (0x105000 : Nat); let e := (3 : Nat); let use (f : Nat) : Nat := SMap.get 0 p.use (f / 32);
     let l := w.demotable r;
     runs ∧ w.flag (Reg.PGE_CTRL r) Fld.PGE_CTRL_MIG_EN = true ∧ p.move = none ∧
       w.freeSlabs r < w.fld (Reg.PGE_EVICT_CFG r) Fld.PGE_EVICT_CFG_FREE_LOW ∧
       (l.find? fun e => decide (e.1 = frame) && decide (use frame = l.foldl (fun n e => min n (use e.1)) 255)) = some (frame, id, a, e)) ∧
    (let s : State := after fun w => let w := live w; w; let r : RegionIx := 0; let w := s.look;
     let runs := s.powered = true ∧ w.engineUp r = true;
     runs) :=
  ⟨by decide +kernel,
    by decide +kernel,
    by decide +kernel,
    by decide +kernel,
    by decide +kernel,
    by decide +kernel,
    by decide +kernel⟩

/-- The hypotheses of `Obligations.PgeMovesLeaves`, of its part PgeHandlesFindings, are met. -/
theorem test_hyps_PgeHandlesFindings :
    (let s : State := after fun w => let w := live w; let w := allotted 0 w;
     let w := { w with hw := { w.hw with ueReports := [(0, [⟨0, true, false, true⟩])] } }; w; let r : RegionIx := 0;
     let reread : ReadCheck := .clean; let u : UeReport := ⟨0, true, false, true⟩; let rest : List UeReport := []; let w := s.look;
     let runs := s.powered = true ∧ w.engineUp r = true ∧ SMap.get [] s.hw.ueReports r = u :: rest;
     runs ∧ u.scrub = true ∧ reread ≠ .lasting) ∧
    (let s : State := after fun w => let w := live w; let w := allotted 0 w;
     let w := { w with hw := { w.hw with ueReports := [(0, [⟨0, true, false, false⟩])] } }; w; let r : RegionIx := 0;
     let reread : ReadCheck := .clean; let u : UeReport := ⟨0, true, false, false⟩; let rest : List UeReport := []; let w := s.look;
     let w1 : Work := { w with hw := { w.hw with ueReports := SMap.set [] w.hw.ueReports r rest } };
     let tier := if u.dpa < 0x20000000000 then 0 else 1; let f := if tier = 0 then u.dpa / 65536 else (u.dpa - 0x20000000000) / 65536;
     let runs := s.powered = true ∧ w.engineUp r = true ∧ SMap.get [] s.hw.ueReports r = u :: rest;
     let lasts := runs ∧ ¬ (u.scrub = true ∧ reread ≠ .lasting) ∧ w1.alcOn (frameOwner tier f) = true ∧
       w1.reserveShort (frameOwner tier f) = false;
     let c := (0 : Nat); let p := (0 : Nat);
     lasts ∧ w1.record? tier f = (0, c, p)) ∧
    (let s : State := after fun w => let w := live w; let w := allotted 0 w;
     let w := { w with hw := { w.hw with ueReports := [(0, [⟨0x40000000, true, false, false⟩])] } }; w; let r : RegionIx := 0;
     let reread : ReadCheck := .clean; let u : UeReport := ⟨0x40000000, true, false, false⟩; let rest : List UeReport := []; let w := s.look;
     let w1 : Work := { w with hw := { w.hw with ueReports := SMap.set [] w.hw.ueReports r rest } };
     let tier := if u.dpa < 0x20000000000 then 0 else 1; let f := if tier = 0 then u.dpa / 65536 else (u.dpa - 0x20000000000) / 65536;
     let runs := s.powered = true ∧ w.engineUp r = true ∧ SMap.get [] s.hw.ueReports r = u :: rest;
     let lasts := runs ∧ ¬ (u.scrub = true ∧ reread ≠ .lasting) ∧ w1.alcOn (frameOwner tier f) = true ∧
       w1.reserveShort (frameOwner tier f) = false;
     let c := (0 : Nat); let p := (0 : Nat);
     lasts ∧ w1.record? tier f = (3, c, p)) ∧
    (let s : State := after fun w => let w := live w; let w := allotted 0 w; let w := paged 0x105001 3 w;
     let w := w.wrBytes 0x40000000 (leBytes 8 42); let w := { w with hw := { w.hw with ueReports := [(0, [⟨0, true, false, false⟩])] } }; w;
     let r : RegionIx := 0; let reread : ReadCheck := .clean; let u : UeReport := ⟨0, true, false, false⟩; let rest : List UeReport := [];
     let v : Work := (({ s.look with hw := { s.look.hw with ueReports := SMap.set [] s.look.hw.ueReports r rest } } : Work).walk r 5 0).2;
     let w := s.look; let w1 : Work := { w with hw := { w.hw with ueReports := SMap.set [] w.hw.ueReports r rest } };
     let tier := if u.dpa < 0x20000000000 then 0 else 1; let f := if tier = 0 then u.dpa / 65536 else (u.dpa - 0x20000000000) / 65536;
     let runs := s.powered = true ∧ w.engineUp r = true ∧ SMap.get [] s.hw.ueReports r = u :: rest;
     let lasts := runs ∧ ¬ (u.scrub = true ∧ reread ≠ .lasting) ∧ w1.alcOn (frameOwner tier f) = true ∧
       w1.reserveShort (frameOwner tier f) = false;
     let c := (5 : Nat); let p := (0 : Nat); let id := (⟨5, 0, false⟩ : LeafId); let a := (0x105000 : Nat); let e := (3 : Nat);
     lasts ∧ w1.record? tier f = (2, c, p) ∧ w1.walk r c p = (.leaf id a e, v)) ∧
    (let s : State := after fun w => let w := live w; let w := allotted 0 w; let w := paged 0x105001 3 w;
     let w := w.wrBytes 0x40000000 (leBytes 8 41); let w := { w with hw := { w.hw with ueReports := [(0, [⟨0, true, false, false⟩])] } }; w;
     let r : RegionIx := 0; let reread : ReadCheck := .clean; let u : UeReport := ⟨0, true, false, false⟩; let rest : List UeReport := [];
     let v : Work := (({ s.look with hw := { s.look.hw with ueReports := SMap.set [] s.look.hw.ueReports r rest } } : Work).walk r 5 0).2;
     let w := s.look; let w1 : Work := { w with hw := { w.hw with ueReports := SMap.set [] w.hw.ueReports r rest } };
     let tier := if u.dpa < 0x20000000000 then 0 else 1; let f := if tier = 0 then u.dpa / 65536 else (u.dpa - 0x20000000000) / 65536;
     let runs := s.powered = true ∧ w.engineUp r = true ∧ SMap.get [] s.hw.ueReports r = u :: rest;
     let lasts := runs ∧ ¬ (u.scrub = true ∧ reread ≠ .lasting) ∧ w1.alcOn (frameOwner tier f) = true ∧
       w1.reserveShort (frameOwner tier f) = false;
     let c := (5 : Nat); let p := (0 : Nat); let id := (⟨5, 0, false⟩ : LeafId); let a := (0x105000 : Nat); let e := (3 : Nat);
     (lasts ∧ w1.record? tier f = (1, c, p) ∧ w1.walk r c p = (.leaf id a e, v)) ∧
       (leafShadowV e && v.flag (Reg.PGE_CTRL r) Fld.PGE_CTRL_RESTORE_EN) = false) ∧
    (let s : State := after fun w => let w := live w; let w := allotted 0 w; let w := paged 0x105001 11 w;
     let w := w.wrBytes 0x40000000 (leBytes 8 41); let w := w.setFlag (Reg.PGE_CTRL 0) Fld.PGE_CTRL_RESTORE_EN true;
     let w := { w with hw := { w.hw with ueReports := [(0, [⟨0, true, false, false⟩])] } }; w; let r : RegionIx := 0;
     let reread : ReadCheck := .clean; let shadow : Bool := true; let u : UeReport := ⟨0, true, false, false⟩; let rest : List UeReport := [];
     let v : Work := (({ s.look with hw := { s.look.hw with ueReports := SMap.set [] s.look.hw.ueReports r rest } } : Work).walk r 5 0).2;
     let w := s.look; let w1 : Work := { w with hw := { w.hw with ueReports := SMap.set [] w.hw.ueReports r rest } };
     let tier := if u.dpa < 0x20000000000 then 0 else 1; let f := if tier = 0 then u.dpa / 65536 else (u.dpa - 0x20000000000) / 65536;
     let runs := s.powered = true ∧ w.engineUp r = true ∧ SMap.get [] s.hw.ueReports r = u :: rest;
     let lasts := runs ∧ ¬ (u.scrub = true ∧ reread ≠ .lasting) ∧ w1.alcOn (frameOwner tier f) = true ∧
       w1.reserveShort (frameOwner tier f) = false;
     let c := (5 : Nat); let p := (0 : Nat); let id := (⟨5, 0, false⟩ : LeafId); let a := (0x105000 : Nat); let e := (11 : Nat);
     let b := (List.replicate 64 0 : List Byte); let v' := (v.unitRead (frameDpa 1 0 + 0) 64).2;
     (lasts ∧ w1.record? tier f = (1, c, p) ∧ w1.walk r c p = (.leaf id a e, v)) ∧ (leafShadowV e = true ∧
       v.flag (Reg.PGE_CTRL r) Fld.PGE_CTRL_RESTORE_EN = true ∧ shadow = true ∧
       v.unitRead (frameDpa 1 (leafShadow id.slab e) + u.dpa % (if id.slab then 2 ^ 21 else 65536)) 64 = (some b, v'))) :=
  ⟨by decide +kernel,
    by decide +kernel,
    by decide +kernel,
    by decide +kernel,
    by decide +kernel,
    by decide +kernel⟩

/-- The hypotheses of `Obligations.AlcQueuesAndAnswers` are met. -/
theorem test_hyps_AlcQueuesAndAnswers :
    (let s : State := after fun w => let w := live w; let w := allotted 0 w; w; let m : Master := .firmware 0; let r : RegionIx := 0;
     let value : DWord := 0; let w := s.look; let n := (s.look.woWrite (s.look.clampBy m) (Reg.ALC_SUBMIT r) 0).1;
     let w1 := (s.look.woWrite (s.look.clampBy m) (Reg.ALC_SUBMIT r) 0).2; let body := ((w1.unitLE (bits n 0 46) 32).1).getD 0;
     let w2 := (w1.unitLE (bits n 0 46) 32).2; let w3 := (w2.clampRecord (w.clampBy m) (bits n 0 46) body).1;
     let rec3 := (w2.clampRecord (w.clampBy m) (bits n 0 46) body).2; let who := w.clampBy m;
     let a : AlcRec := ⟨bits n 0 46, r, BitVec.ofNat 256 rec3⟩; let p := a.performer;
     (s.powered = true ∧ w.regTakes (Reg.ALC_SUBMIT r) = true ∧ w.woWrite who (Reg.ALC_SUBMIT r) value.toNat = (n, w1) ∧
       w1.unitLE (bits n 0 46) 32 = (some body, w2) ∧ w2.clampRecord who (bits n 0 46) body = (w3, rec3)) ∧ (w3.alcOn p = true ∧
       (w3.alc p).queue.length < 64)) ∧
    (let s : State := after fun w => let w := live w; w; let m : Master := .firmware 0; let r : RegionIx := 0; let value : DWord := 0;
     let w := s.look; let n := (s.look.woWrite (s.look.clampBy m) (Reg.ALC_SUBMIT r) 0).1;
     let w1 := (s.look.woWrite (s.look.clampBy m) (Reg.ALC_SUBMIT r) 0).2; let body := ((w1.unitLE (bits n 0 46) 32).1).getD 0;
     let w2 := (w1.unitLE (bits n 0 46) 32).2; let w3 := (w2.clampRecord (w.clampBy m) (bits n 0 46) body).1;
     let rec3 := (w2.clampRecord (w.clampBy m) (bits n 0 46) body).2; let who := w.clampBy m;
     let a : AlcRec := ⟨bits n 0 46, r, BitVec.ofNat 256 rec3⟩; let p := a.performer;
     (s.powered = true ∧ w.regTakes (Reg.ALC_SUBMIT r) = true ∧ w.woWrite who (Reg.ALC_SUBMIT r) value.toNat = (n, w1) ∧
       w1.unitLE (bits n 0 46) 32 = (some body, w2) ∧ w2.clampRecord who (bits n 0 46) body = (w3, rec3)) ∧
       (w3.alcOn p = false ∨ 64 ≤ (w3.alc p).queue.length)) ∧
    (let s : State := after fun w => let w := live w; let w := allotted 0 w;
     let w := { w with hw := { w.hw with alcs := [(0, ⟨[(⟨0, 0, 4295294976⟩ : AlcRec)], false⟩)] } }; w; let r : RegionIx := 0; let w := s.look;
     let a := (⟨0, 0, 4295294976⟩ : AlcRec); let rest := ([] : List AlcRec);
     (s.powered = true ∧ w.alcOn r = true ∧ (w.alc r).queue = a :: rest ∧ (w.alc r).waiting = false) ∧ a.op = 0) ∧
    (let s : State := after fun w => let w := live w; let w := allotted 0 w; let w := paged 0x105001 3 w;
     let w := { w with hw := { w.hw with alcs := [(0, ⟨[(⟨0, 0, 4295294985⟩ : AlcRec)], false⟩)] } }; w; let r : RegionIx := 0; let w := s.look;
     let a := (⟨0, 0, 4295294985⟩ : AlcRec); let rest := ([] : List AlcRec); let v := (w.walk 0 5 0).2; let id := (⟨5, 0, false⟩ : LeafId);
     let p := (0x105000 : Nat); let e := (3 : Nat);
     (s.powered = true ∧ w.alcOn r = true ∧ (w.alc r).queue = a :: rest ∧ (w.alc r).waiting = false) ∧ (a.op = 9 ∧
       w.walk r a.ctx a.page = (.leaf id p e, v))) ∧
    (let s : State := after fun w => let w := live w; let w := allotted 0 w;
     let w := { w with hw := { w.hw with alcs := [(0, ⟨[(⟨0, 0, 4295294985⟩ : AlcRec)], false⟩)] } }; w; let r : RegionIx := 0; let w := s.look;
     let a := (⟨0, 0, 4295294985⟩ : AlcRec); let rest := ([] : List AlcRec); let v := (w.walk 0 5 0).2; let k := (0 : Nat); let l := (0 : Nat);
     (s.powered = true ∧ w.alcOn r = true ∧ (w.alc r).queue = a :: rest ∧ (w.alc r).waiting = false) ∧ (a.op = 9 ∧
       w.walk r a.ctx a.page = (.fault k l, v))) :=
  ⟨by decide +kernel,
    by decide +kernel,
    by decide +kernel,
    by decide +kernel,
    by decide +kernel⟩

/-- The hypotheses of `Obligations.AlcOperations`, of its part AlcMaps, are met. -/
theorem test_hyps_AlcMaps :
    (let s : State := after fun w => let w := live w; let w := w.setFlag (Reg.ALC_CTRL 0) Fld.ALC_CTRL_EN true;
     let w := { w with hw := { w.hw with alcs := [(0, ⟨[(⟨0, 0, 4295294977⟩ : AlcRec)], false⟩)] } }; w; let r : RegionIx := 0;
     let slab : Bool := false; let a : AlcRec := (⟨0, 0, 4295294977⟩ : AlcRec); let rest : List AlcRec := ([] : List AlcRec); let w := s.look;
     (s.powered = true ∧ w.alcOn r = true ∧ (w.alc r).queue = a :: rest ∧ (w.alc r).waiting = false ∧ a.op = (if slab then 2 else 1)) ∧
       w.reserveShort r = true) ∧
    (let s : State := after fun w => let w := live w; let w := allotted 0 w; let w := paged 0x105001 3 w;
     let w := { w with hw := { w.hw with alcs := [(0, ⟨[(⟨0, 0, 4295294977⟩ : AlcRec)], false⟩)] } }; w; let r : RegionIx := 0;
     let slab : Bool := false; let a : AlcRec := (⟨0, 0, 4295294977⟩ : AlcRec); let rest : List AlcRec := ([] : List AlcRec); let w := s.look;
     let unit := if slab then 32 else 1;
     (s.powered = true ∧ w.alcOn r = true ∧ (w.alc r).queue = a :: rest ∧ (w.alc r).waiting = false ∧ a.op = (if slab then 2 else 1)) ∧
       (w.reserveShort r = false ∧ w.anyMapped r a.ctx a.page (a.count * unit) = true)) ∧
    (let s : State := after fun w => let w := live w; let w := allotted 0 w; let w := paged 0x105001 0 w;
     let w := { w with hw := { w.hw with alcs := [(0, ⟨[(⟨0, 0, 4295294977⟩ : AlcRec)], false⟩)] } }; w; let r : RegionIx := 0;
     let choices : List Nat := [100]; let slab : Bool := false; let a : AlcRec := (⟨0, 0, 4295294977⟩ : AlcRec);
     let rest : List AlcRec := ([] : List AlcRec); let w := s.look; let unit := if slab then 32 else 1; let at_ := (0x105000 : Nat);
     let v := (w.leafPlace 0 5 0 false [100]).2.2; let tier := (0 : Nat); let src := (0 : Nat); let f := (100 : Nat);
     let more := ([] : List Nat);
     (s.powered = true ∧ w.alcOn r = true ∧ (w.alc r).queue = a :: rest ∧ (w.alc r).waiting = false ∧ a.op = (if slab then 2 else 1)) ∧
       (w.reserveShort r = false ∧ w.anyMapped r a.ctx a.page (a.count * unit) = false ∧ a.count = 1 ∧ a.zero = false ∧
       w.leafPlace r a.ctx a.page slab choices = (.going (f :: more) [], at_, v) ∧ v.mapSource a a.page slab [] = some (tier, src) ∧
       (if tier = 0 then f / 524288 else f / 2097152) = src ∧ v.framesFree tier f slab = true)) ∧
    (let s : State := after fun w => let w := live w; let w := allotted 0 w; let w := paged 0x105001 0 w;
     let w := { w with hw := { w.hw with alcs := [(0, ⟨[(⟨0, 0, 4832165889⟩ : AlcRec)], false⟩)] } }; w; let r : RegionIx := 0;
     let choices : List Nat := [100]; let slab : Bool := false; let a : AlcRec := (⟨0, 0, 4832165889⟩ : AlcRec);
     let rest : List AlcRec := ([] : List AlcRec); let w := s.look; let unit := if slab then 32 else 1; let at_ := (0x105000 : Nat);
     let v := (w.leafPlace 0 5 0 false [100]).2.2; let more := ([100] : List Nat); let t := ([] : List (Nat × Nat));
     (s.powered = true ∧ w.alcOn r = true ∧ (w.alc r).queue = a :: rest ∧ (w.alc r).waiting = false ∧ a.op = (if slab then 2 else 1)) ∧
       (w.reserveShort r = false ∧ w.anyMapped r a.ctx a.page (a.count * unit) = false ∧ a.count = 1 ∧
       w.leafPlace r a.ctx a.page slab choices = (.going more t, at_, v) ∧ v.mapSource a a.page slab [] = none)) :=
  ⟨by decide +kernel,
    by decide +kernel,
    by decide +kernel,
    by decide +kernel⟩

/-- The hypotheses of `Obligations.AlcOperations`, of its part AlcUnmapsAndAllots, are met. -/
theorem test_hyps_AlcUnmapsAndAllots :
    (let s : State := after fun w => let w := live w; let w := allotted 0 w;
     let w := { w with hw := { w.hw with alcs := [(0, ⟨[(⟨0, 0, 4295294979⟩ : AlcRec)], false⟩)] } }; w; let r : RegionIx := 0;
     let a : AlcRec := (⟨0, 0, 4295294979⟩ : AlcRec); let rest : List AlcRec := ([] : List AlcRec); let w := s.look;
     (s.powered = true ∧ w.alcOn r = true ∧ (w.alc r).queue = a :: rest ∧ (w.alc r).waiting = false) ∧ (a.op = 3 ∧
       ((w.unmapLeaves r a).any fun l => leafMigrating l.2.2) = false)) ∧
    (let s : State := after fun w => let w := live w; let w := allotted 0 w;
     let w := { w with hw := { w.hw with alcs := [(0, ⟨[(⟨0, 0, 4295294984⟩ : AlcRec)], false⟩)] } }; w; let r : RegionIx := 0;
     let a : AlcRec := (⟨0, 0, 4295294984⟩ : AlcRec); let rest : List AlcRec := ([] : List AlcRec); let w := s.look;
     (s.powered = true ∧ w.alcOn r = true ∧ (w.alc r).queue = a :: rest ∧ (w.alc r).waiting = false) ∧ (a.op = 8 ∧
       ((w.unmapLeaves r a).any fun l => leafMigrating l.2.2) = false)) ∧
    (let s : State := after fun w => let w := live w; let w := allotted 0 w;
     let w := { w with hw := { w.hw with alcs := [(0, ⟨[(⟨0, 0, 1288490516484⟩ : AlcRec)], false⟩)] } }; w; let r : RegionIx := 0;
     let a : AlcRec := (⟨0, 0, 1288490516484⟩ : AlcRec); let rest : List AlcRec := ([] : List AlcRec); let w := s.look; let g := a.arg % 256;
     (s.powered = true ∧ w.alcOn r = true ∧ (w.alc r).queue = a :: rest ∧ (w.alc r).waiting = false) ∧ (a.op = 4 ∧
       hasRun 256 a.count (w.granuleFree g) = false)) ∧
    (let s : State := after fun w => let w := live w; let w := allotted 0 w;
     let w := { w with hw := { w.hw with alcs := [(0, ⟨[(⟨0, 0, 4295294980⟩ : AlcRec)], false⟩)] } }; w; let r : RegionIx := 0;
     let g0 : Fin 256 := 0; let a : AlcRec := (⟨0, 0, 4295294980⟩ : AlcRec); let rest : List AlcRec := ([] : List AlcRec); let w := s.look;
     let g := a.arg % 256;
     (s.powered = true ∧ w.alcOn r = true ∧ (w.alc r).queue = a :: rest ∧ (w.alc r).waiting = false) ∧ (a.op = 4 ∧
       hasRun 256 a.count (w.granuleFree g) = true ∧ g0.val + a.count ≤ 256 ∧ (∀ i, i < a.count → w.granuleFree g (g0.val + i) = true))) ∧
    (let s : State := after fun w => let w := live w; let w := allotted 0 w; let w := { w with hw := { w.hw with granules := [(0, 6)] } };
     let w := { w with hw := { w.hw with alcs := [(0, ⟨[(⟨0, 0, 4295294981⟩ : AlcRec)], false⟩)] } }; w; let r : RegionIx := 0;
     let a : AlcRec := (⟨0, 0, 4295294981⟩ : AlcRec); let rest : List AlcRec := ([] : List AlcRec); let w := s.look; let g := a.arg % 256;
     let firstG := 256 * g + bits a.arg 8 24 / 65536;
     (s.powered = true ∧ w.alcOn r = true ∧ (w.alc r).queue = a :: rest ∧ (w.alc r).waiting = false) ∧ (a.op = 5 ∧
       (∀ i, i < a.count → SMap.get 0 s.hw.granules (firstG + i) = a.ctx + 1))) ∧
    (let s : State := after fun w => let w := live w; let w := allotted 0 w;
     let w := { w with hw := { w.hw with alcs := [(0, ⟨[(⟨0, 0, 4295294981⟩ : AlcRec)], false⟩)] } }; w; let r : RegionIx := 0;
     let a : AlcRec := (⟨0, 0, 4295294981⟩ : AlcRec); let rest : List AlcRec := ([] : List AlcRec); let w := s.look; let g := a.arg % 256;
     let firstG := 256 * g + bits a.arg 8 24 / 65536;
     (s.powered = true ∧ w.alcOn r = true ∧ (w.alc r).queue = a :: rest ∧ (w.alc r).waiting = false) ∧ (a.op = 5 ∧ (∃ i, i < a.count ∧
       SMap.get 0 s.hw.granules (firstG + i) ≠ a.ctx + 1))) ∧
    (let s : State := after fun w => let w := live w; let w := allotted 0 w;
     let w := { w with hw := { w.hw with alcs := [(0, ⟨[(⟨0, 0, 85899346247686⟩ : AlcRec)], false⟩)] } }; w; let r : RegionIx := 0;
     let a : AlcRec := (⟨0, 0, 85899346247686⟩ : AlcRec); let rest : List AlcRec := ([] : List AlcRec); let w := s.look;
     let freeD (i : Nat) : Bool := decide (SMap.get 0 s.hw.descOwner (16384 * r.val + i) = 0);
     (s.powered = true ∧ w.alcOn r = true ∧ (w.alc r).queue = a :: rest ∧ (w.alc r).waiting = false) ∧ (a.op = 6 ∧
       hasRun 16384 a.count freeD = false)) ∧
    (let s : State := after fun w => let w := live w; let w := allotted 0 w;
     let w := { w with hw := { w.hw with alcs := [(0, ⟨[(⟨0, 0, 4295294982⟩ : AlcRec)], false⟩)] } }; w; let r : RegionIx := 0;
     let d0 : Fin 16384 := 0; let a : AlcRec := (⟨0, 0, 4295294982⟩ : AlcRec); let rest : List AlcRec := ([] : List AlcRec); let w := s.look;
     let freeD (i : Nat) : Bool := decide (SMap.get 0 s.hw.descOwner (16384 * r.val + i) = 0);
     (s.powered = true ∧ w.alcOn r = true ∧ (w.alc r).queue = a :: rest ∧ (w.alc r).waiting = false) ∧ (a.op = 6 ∧
       hasRun 16384 a.count freeD = true ∧ d0.val + a.count ≤ 16384 ∧ (∀ i, i < a.count → freeD (d0.val + i) = true))) ∧
    (let s : State := after fun w => let w := live w; let w := allotted 0 w; let w := { w with hw := { w.hw with descOwner := [(0, 6)] } };
     let w := { w with hw := { w.hw with alcs := [(0, ⟨[(⟨0, 0, 4295294983⟩ : AlcRec)], false⟩)] } }; w; let r : RegionIx := 0;
     let a : AlcRec := (⟨0, 0, 4295294983⟩ : AlcRec); let rest : List AlcRec := ([] : List AlcRec); let w := s.look;
     let firstD := 16384 * r.val + a.arg;
     (s.powered = true ∧ w.alcOn r = true ∧ (w.alc r).queue = a :: rest ∧ (w.alc r).waiting = false) ∧ (a.op = 7 ∧ a.arg < 16384 ∧
       (∀ i, i < a.count → SMap.get 0 s.hw.descOwner (firstD + i) = a.ctx + 1))) ∧
    (let s : State := after fun w => let w := live w; let w := allotted 0 w;
     let w := { w with hw := { w.hw with alcs := [(0, ⟨[(⟨0, 0, 4295294983⟩ : AlcRec)], false⟩)] } }; w; let r : RegionIx := 0;
     let a : AlcRec := (⟨0, 0, 4295294983⟩ : AlcRec); let rest : List AlcRec := ([] : List AlcRec); let w := s.look;
     let firstD := 16384 * r.val + a.arg;
     (s.powered = true ∧ w.alcOn r = true ∧ (w.alc r).queue = a :: rest ∧ (w.alc r).waiting = false) ∧ (a.op = 7 ∧
       (16384 ≤ a.arg ∨ ∃ i, i < a.count ∧ SMap.get 0 s.hw.descOwner (firstD + i) ≠ a.ctx + 1))) :=
  ⟨by decide +kernel,
    by decide +kernel,
    by decide +kernel,
    by decide +kernel,
    by decide +kernel,
    by decide +kernel,
    by decide +kernel,
    by decide +kernel,
    by decide +kernel,
    by decide +kernel⟩

/-- The hypotheses of `Obligations.SchContexts`, of its part SchAdmitsAndWithdraws, are met. -/
theorem test_hyps_SchAdmitsAndWithdraws :
    (let s : State := after fun w => let w := live w; w; let m : Master := .firmware 0; let x : CtxIx := 5; let value : Word := 1;
     let w := s.look; let a := Reg.SCH_CTX_CTRL x; let old := w.ctxState x; let v (n : Nat) : Work := w.regWrite m a .w32 15 n;
     s.powered = true ∧ (old = 0 ∧ (v value.toNat).ctxState x = 1)) ∧
    (let s : State := after fun w => let w := live w; let w := w.setFld (Reg.SCH_CTX_CTRL 5) Fld.SCH_CTX_CTRL_STATE 1; w;
     let m : Master := .firmware 0; let x : CtxIx := 5; let value : Word := 0; let w := s.look; let a := Reg.SCH_CTX_CTRL x;
     let old := w.ctxState x; let v (n : Nat) : Work := w.regWrite m a .w32 15 n; let n3 := setBits value.toNat 0 3 3;
     s.powered = true ∧ ((old = 1 ∨ old = 2) ∧ (v n3).ctxState x = 3)) ∧
    (let s : State := after fun w => let w := live w; let w := w.setFld (Reg.SCH_CTX_CTRL 5) Fld.SCH_CTX_CTRL_STATE 1; w;
     let m : Master := .firmware 0; let x : CtxIx := 5; let value : Word := 0; let w := s.look; let a := Reg.SCH_CTX_CTRL x;
     let old := w.ctxState x; let v (n : Nat) : Work := w.regWrite m a .w32 15 n; let n0 := setBits value.toNat 0 3 0;
     s.powered = true ∧ ((v n0).ctxState x = 0 ∧ (old = 1 ∨ (old = 3 ∧ (v n0).isPlaced x = false)))) ∧
    (let s : State := after fun w => let w := live w; let w := w.setFld (Reg.SCH_CTX_CTRL 5) Fld.SCH_CTX_CTRL_STATE 2; w;
     let m : Master := .firmware 0; let x : CtxIx := 5; let value : Word := 0; let w := s.look; let a := Reg.SCH_CTX_CTRL x;
     let old := w.ctxState x; let v (n : Nat) : Work := w.regWrite m a .w32 15 n; let n0 := setBits value.toNat 0 3 0;
     s.powered = true ∧ ((v n0).ctxState x = 0 ∧ old = 2)) :=
  ⟨by decide +kernel,
    by decide +kernel,
    by decide +kernel,
    by decide +kernel⟩

/-- The hypotheses of `Obligations.SchContexts`, of its part SchExits, are met. -/
theorem test_hyps_SchExits :
    (let s : State := after fun w => let w := live w; let w := placed 0 5 w; let w := w.setFld (Reg.SCH_CTX_CTRL 5) Fld.SCH_CTX_CTRL_STATE 2; w;
     let c : CoreIx := 0; let w := s.look; let g := coreGlobal c; let x := (5 : Nat);
     (s.powered = true ∧ w.regTakes Reg.SCH_EXIT = true ∧ w.placedCtx c = some x) ∧ (w.ctxState x = 2 ∧ exitKey x g ∉ s.hw.exited)) ∧
    (let s : State := after fun w => let w := live w; let w := placed 0 5 w; let w := w.setFld (Reg.SCH_CTX_CTRL 5) Fld.SCH_CTX_CTRL_STATE 1; w;
     let c : CoreIx := 0; let w := s.look; let g := coreGlobal c; let x := (5 : Nat);
     (s.powered = true ∧ w.regTakes Reg.SCH_EXIT = true ∧ w.placedCtx c = some x) ∧ (w.ctxState x ≠ 2 ∨ exitKey x g ∈ s.hw.exited)) ∧
    (let s : State := after fun w => let w := live w; let w := placed 0 5 w; let w := w.setFld (Reg.SCH_CTX_CTRL 5) Fld.SCH_CTX_CTRL_STATE 2;
     let w := { w with hw := { w.hw with exiting := [(0, 1)] } }; w; let c : CoreIx := 0; let w := s.look; let code := (1 : Nat);
     let x := (5 : Nat);
     s.powered = true ∧ SMap.find? s.hw.exiting c = some code ∧ w.placedCtx c = some x ∧ w.coreUp c = true ∧ (w.core c).drained = true ∧
       (w.core c).halt = .none ∧ w.openStep c = false) :=
  ⟨by decide +kernel,
    by decide +kernel,
    by decide +kernel⟩

/-- The hypotheses of `Obligations.SchRingsAndDecisions`, of its part SchWorkRings, are met. -/
theorem test_hyps_SchWorkRings :
    (let s : State := after fun w => let w := live w; let w := w.setFlag Reg.SCH_CTRL Fld.SCH_CTRL_EN true;
     let w := w.setFld (Reg.SCH_CTX_CTRL 5) Fld.SCH_CTX_CTRL_STATE 1; let w := w.setFld (Reg.SCH_CTX_RUN 5) Fld.SCH_CTX_RUN_CONS 1; w;
     let x : CtxIx := 5; let w := s.look; let turn := s.powered = true ∧ w.schOn = true ∧ w.ctxState x = 1;
     let bytes := (List.replicate 64 0 : List Byte); let v := (w.unitRead (w.ringAt x) 64).2;
     turn ∧ w.producer x ≠ w.cons x ∧ SMap.find? s.hw.ringEntries x = none ∧ w.unitRead (w.ringAt x) 64 = (some bytes, v)) ∧
    (let s : State := after fun w => let w := live w; let w := w.setFlag Reg.SCH_CTRL Fld.SCH_CTRL_EN true;
     let w := w.setFld (Reg.SCH_CTX_CTRL 5) Fld.SCH_CTX_CTRL_STATE 1; let w := w.setFld (Reg.SCH_CTX_RUN 5) Fld.SCH_CTX_RUN_CONS 1;
     let w := { w with hw := { w.hw with poison := [(2, true)] } }; w; let x : CtxIx := 5; let w := s.look;
     let turn := s.powered = true ∧ w.schOn = true ∧ w.ctxState x = 1; let v := (w.unitRead (w.ringAt x) 64).2;
     turn ∧ w.producer x ≠ w.cons x ∧ SMap.find? s.hw.ringEntries x = none ∧ w.unitRead (w.ringAt x) 64 = (none, v)) ∧
    (let s : State := after fun w => let w := live w; let w := w.setFlag Reg.SCH_CTRL Fld.SCH_CTRL_EN true;
     let w := w.setFld (Reg.SCH_CTX_CTRL 5) Fld.SCH_CTX_CTRL_STATE 1;
     let w := { w with hw := { w.hw with ringEntries := [(5, cmd [(0, 0, 4, 0)])] } }; w; let x : CtxIx := 5; let w := s.look;
     let turn := s.powered = true ∧ w.schOn = true ∧ w.ctxState x = 1; let e := cmd [(0, 0, 4, 0)];
     turn ∧ SMap.find? s.hw.ringEntries x = some e ∧ ringKind e = 0) ∧
    (let s : State := after fun w => let w := live w; let w := w.setFlag Reg.SCH_CTRL Fld.SCH_CTRL_EN true;
     let w := w.setFld (Reg.SCH_CTX_CTRL 5) Fld.SCH_CTX_CTRL_STATE 1;
     let w := { w with hw := { w.hw with ringEntries := [(5, cmd [(0, 0, 4, 1)])] } }; w; let x : CtxIx := 5; let w := s.look;
     let turn := s.powered = true ∧ w.schOn = true ∧ w.ctxState x = 1; let e := cmd [(0, 0, 4, 1)];
     turn ∧ SMap.find? s.hw.ringEntries x = some e ∧ ringKind e = 1) :=
  ⟨by decide +kernel,
    by decide +kernel,
    by decide +kernel,
    by decide +kernel⟩

/-- The hypotheses of `Obligations.SchRingsAndDecisions`, of its part SchDecides, are met. -/
theorem test_hyps_SchDecides :
    (let s : State := after fun w => let w := live w; let w := w.setFlag Reg.SCH_CTRL Fld.SCH_CTRL_EN true; let w := placed 0 5 w;
     let w := (w.setFld (Reg.SCH_CTX_CTRL 6) Fld.SCH_CTX_CTRL_STATE 2).w32 (Reg.SCH_CTX_MASK 6 0) 1; w; let c : CoreIx := 0; let w := s.look;
     let g := coreGlobal c; let x := (5 : Nat); let y := (6 : Nat);
     s.powered = true ∧ w.placedCtx c = some x ∧ w.schOn = true ∧ coreSlot c < 16 ∧ y ∈ w.readyOn g ∧ y ≠ x ∧ w.prio x ≤ w.prio y) ∧
    (let s : State := after fun w => let w := live w; let w := w.setFlag Reg.SCH_CTRL Fld.SCH_CTRL_EN true; w; let c : CoreIx := 0;
     let w := s.look;
     s.powered = true ∧ w.schOn = true ∧ w.coreIdle c = true) ∧
    (let s : State := after fun w => let w := live w; let w := w.setFlag Reg.SCH_CTRL Fld.SCH_CTRL_EN true;
     let w := (w.setFld (Reg.SCH_CTX_CTRL 6) Fld.SCH_CTX_CTRL_STATE 2).w32 (Reg.SCH_CTX_MASK 6 0) 1; w; let c : CoreIx := 0; let w := s.look;
     let g := coreGlobal c; let sc := Reg.SCH_CORE g; let y := (6 : Nat);
     s.powered = true ∧ w.schOn = true ∧ w.coreIdle c = true ∧ w.flag sc Fld.SCH_CORE_RESERVED = false ∧ w.nextCtx g = some y ∧
       w.isGang y = false ∧ w.firstOf (w.readyOn g) = some y ∧ w.wsConflict y g = false) ∧
    (let s : State := after fun w => let w := live w; let w := w.setFlag Reg.SCH_CTRL Fld.SCH_CTRL_EN true;
     let w := (w.setFld (Reg.SCH_CTX_CTRL 6) Fld.SCH_CTX_CTRL_STATE 2).w32 (Reg.SCH_CTX_MASK 6 0) 1;
     let w := w.setFlag (Reg.SCH_CTX_CTRL 6) Fld.SCH_CTX_CTRL_GANG true; w; let c : CoreIx := 0; let w := s.look; let g := coreGlobal c;
     let st := Reg.SCH_STATUS; let x := (6 : Nat);
     s.powered = true ∧ w.nextCtx g = some x ∧ w.schOn = true ∧ coreSlot c < 16 ∧ w.isGang x = true ∧ w.flag st Fld.SCH_STATUS_FORMING = false ∧
       w.placedCtx c ≠ some x) ∧
    (let s : State := after fun w => let w := live w; let w := w.setFlag Reg.SCH_CTRL Fld.SCH_CTRL_EN true;
     let w := w.setFlag Reg.SCH_STATUS Fld.SCH_STATUS_FORMING true; let w := w.setFlag (Reg.SCH_CORE 0) Fld.SCH_CORE_RESERVED true; w;
     let c : CoreIx := 0; let w := s.look; let g := coreGlobal c; let st := Reg.SCH_STATUS;
     let cores := (List.range 256).filter fun g => w.flag (Reg.SCH_CORE g) Fld.SCH_CORE_RESERVED;
     s.powered = true ∧ w.schOn = true ∧ w.flag st Fld.SCH_STATUS_FORMING = true ∧
       (∀ g ∈ cores, w.coreIdle (globalSlot g) = true ∨ w.coreDisabled (globalSlot g) = true)) ∧
    (let s : State := after fun w => let w := live w; let w := w.setFlag Reg.SCH_CTRL Fld.SCH_CTRL_EN true; let w := placed 0 5 w;
     let w := w.setFlag (Reg.SCH_CORE 0) Fld.SCH_CORE_PENDING true; w; let c : CoreIx := 0; let w := s.look; let g := coreGlobal c;
     let sc := Reg.SCH_CORE g; let x := (5 : Nat);
     s.powered = true ∧ w.placedCtx c = some x ∧ w.clocked = true ∧ coreSlot c < 16 ∧ w.flag sc Fld.SCH_CORE_PENDING = true ∧
       w.flag sc Fld.SCH_CORE_OVERDUE = false) :=
  ⟨by decide +kernel,
    by decide +kernel,
    by decide +kernel,
    by decide +kernel,
    by decide +kernel,
    by decide +kernel⟩

/-- The hypotheses of `Obligations.ColSets`, of its part ColSetEntries, are met. -/
theorem test_hyps_ColSetEntries :
    (let s : State := after fun w => let w := live w; w; let m : Master := .firmware 0; let axis : Fin 4 := 0; let set : Fin 256 := 0;
     let off : Fin 24 := 0; let width : AccWidth := .w32; let be : BitVec 8 := 0; let data : DWord := 0; let w := s.look;
     let c0 := Reg.COL_SET_CFG0 (2 * axis.val) set; let addrs := setOffsets.map (c0 + ·);
     let held := w.forEach addrs fun w x => match SMap.find? w.hw.setWrites x with | some v => w.w32 x v | none => w;
     let u := held.regWrite m (c0 + off.val) width be.toNat data.toNat;
     s.powered = true ∧ u.setOpen axis set = false) ∧
    (let s : State := after fun w => let w := live w;
     let w := { w with hw := { w.hw with colOps := [(⟨0, 0, 0, 0, 5, 0, ⟨2, 1, false, 1, 0, false, 0, 0, 0, 0, 0, 32, 0, 0, 0, 1⟩, 0, 0, 0, [], [], [], [], [], [], [], false⟩ : ColOp)] } }; w;
     let m : Master := .firmware 0; let axis : Fin 4 := 0; let set : Fin 256 := 0; let off : Fin 24 := 0; let width : AccWidth := .w32;
     let be : BitVec 8 := 0; let data : DWord := 0; let w := s.look; let c0 := Reg.COL_SET_CFG0 (2 * axis.val) set;
     let addrs := setOffsets.map (c0 + ·);
     let held := w.forEach addrs fun w x => match SMap.find? w.hw.setWrites x with | some v => w.w32 x v | none => w;
     let u := held.regWrite m (c0 + off.val) width be.toNat data.toNat;
     s.powered = true ∧ u.setOpen axis set = true) ∧
    (let s : State := after fun w => let w := live w; let w := { w with hw := { w.hw with setWrites := [(Reg.COL_SET_CFG0 0 0, 0)] } }; w;
     let axis : Fin 4 := 0; let set : Fin 256 := 0; let w := s.look; let c0 := Reg.COL_SET_CFG0 (2 * axis.val) set;
     s.powered = true ∧ w.setOpen axis set = false ∧ (∃ o ∈ setOffsets, (SMap.find? s.hw.setWrites (c0 + o)).isSome = true)) :=
  ⟨by decide +kernel,
    by decide +kernel,
    by decide +kernel⟩

/-- The hypotheses of `Obligations.ColSets`, of its part ColOpensAndAccepts, are met. -/
theorem test_hyps_ColOpensAndAccepts :
    (let s : State := after fun w => let w := running 2 { run1 8 with ready := false, started := 0, ctx := some 0, words := [] } w;
     let w := ((w.setFlag (Reg.COL_SET_CFG0 0 0) Fld.COL_SET_CFG0_VALID true).setFld (Reg.COL_SET_CFG0 0 0) Fld.COL_SET_CFG0_CTX 0).setFlag (Reg.COL_CTRL 0) Fld.COL_CTRL_EN true; w;
     let c : CoreIx := 0; let str : StrIx := 0; let r : Running := { run1 8 with ready := false, started := 0, ctx := some 0, words := [] };
     let w := s.look; let d := 2 * collAxis r.cmd; let c0 := Reg.COL_SET_CFG0 d (collSet r.cmd);
     let valid := w.flag c0 Fld.COL_SET_CFG0_VALID = true ∧ r.ctx = some (w.fld c0 Fld.COL_SET_CFG0_CTX) ∧
       w.flag (Reg.COL_CTRL d) Fld.COL_CTRL_EN = true;
     s.powered = true ∧ w.strUnread c str 8 = some r ∧ valid) ∧
    (let s : State := after fun w => let w := running 2 { run1 8 with ready := false, started := 0, ctx := some 0, words := [] } w; w;
     let c : CoreIx := 0; let str : StrIx := 0; let r : Running := { run1 8 with ready := false, started := 0, ctx := some 0, words := [] };
     let w := s.look; let d := 2 * collAxis r.cmd; let c0 := Reg.COL_SET_CFG0 d (collSet r.cmd);
     let valid := w.flag c0 Fld.COL_SET_CFG0_VALID = true ∧ r.ctx = some (w.fld c0 Fld.COL_SET_CFG0_CTX) ∧
       w.flag (Reg.COL_CTRL d) Fld.COL_CTRL_EN = true;
     s.powered = true ∧ w.strUnread c str 8 = some r ∧ ¬ valid) ∧
    (let s : State := after fun w => let w := running 2 { run1 8 with ready := true, started := 1, ctx := some 0, words := [0] } w; w;
     let c : CoreIx := 0; let str : StrIx := 0; let r : Running := { run1 8 with ready := true, started := 1, ctx := some 0, words := [0] };
     let w := s.look;
     let due := s.powered = true ∧ (w.engine c (2 + str.val)).last = some r ∧ w.coreUp c = true ∧ cmdOpcode r.cmd = 8 ∧ r.ready = true ∧
       r.stopped = false ∧ 0 < r.started ∧ r.pos = 0;
     due ∧ r.words = [0]) ∧
    (let s : State := after fun w => let w := running 2 { run1 8 with ready := true, started := 1, ctx := some 0, words := [1] } w;
     let w := { w with hw := { w.hw with colOps := [(⟨0, 0, 0, 0, 5, 0, ⟨2, 1, false, 0, 0, false, 0, 0, 0, 0, 0, 32, 0, 0, 0, 1⟩, 0, 0, 0, [], [], [], [], [], [], [], false⟩ : ColOp)] } }; w;
     let c : CoreIx := 0; let str : StrIx := 0; let check : ReadCheck := .clean;
     let r : Running := { run1 8 with ready := true, started := 1, ctx := some 0, words := [1] }; let w := s.look;
     let due := s.powered = true ∧ (w.engine c (2 + str.val)).last = some r ∧ w.coreUp c = true ∧ cmdOpcode r.cmd = 8 ∧ r.ready = true ∧
       r.stopped = false ∧ 0 < r.started ∧ r.pos = 0;
     let o := (⟨0, 0, 0, 0, 5, 0, ⟨2, 1, false, 0, 0, false, 0, 0, 0, 0, 0, 32, 0, 0, 0, 1⟩, 0, 0, 0, [], [], [], [], [], [], [], false⟩ : ColOp);
     let v := ((s.look.colSupply (⟨0, 0, 0, 0, 5, 0, ⟨2, 1, false, 0, 0, false, 0, 0, 0, 0, 0, 32, 0, 0, 0, 1⟩, 0, 0, 0, [], [], [], [], [], [], [], false⟩ : ColOp) 0 (s.look.strTake c r 0 0 64) check).getD s.look);
     let n := chunkBytes o.par.src o.par.elems;
     (due ∧ r.words ≠ [0] ∧ w.colOp? (collAxis r.cmd) (collSet r.cmd) (coreGlobal c) r.first = some o ∧ o.par.supplies = true) ∧
       w.colSupply o (r.started - 1) (w.strTake c r (r.started - 1) 0 n) check = some v) ∧
    (let s : State := after fun w => let w := running 2 { run1 8 with ready := true, started := 1, ctx := some 0, words := [1] } w;
     let w := { w with hw := { w.hw with colOps := [(⟨0, 0, 0, 0, 5, 0, ⟨2, 1, false, 1, 0, false, 0, 0, 0, 0, 0, 32, 0, 0, 0, 1⟩, 0, 0, 0, List.replicate 4200 ⟨0, ⟨0, 0, 0, 0⟩, 0, false, 0, []⟩, [], [], [], [], [], [], false⟩ : ColOp)] } }; w;
     let c : CoreIx := 0; let str : StrIx := 0; let check : ReadCheck := .clean;
     let r : Running := { run1 8 with ready := true, started := 1, ctx := some 0, words := [1] }; let w := s.look;
     let due := s.powered = true ∧ (w.engine c (2 + str.val)).last = some r ∧ w.coreUp c = true ∧ cmdOpcode r.cmd = 8 ∧ r.ready = true ∧
       r.stopped = false ∧ 0 < r.started ∧ r.pos = 0;
     let o := (⟨0, 0, 0, 0, 5, 0, ⟨2, 1, false, 1, 0, false, 0, 0, 0, 0, 0, 32, 0, 0, 0, 1⟩, 0, 0, 0, List.replicate 4200 ⟨0, ⟨0, 0, 0, 0⟩, 0, false, 0, []⟩, [], [], [], [], [], [], false⟩ : ColOp);
     let n := chunkBytes o.par.src o.par.elems;
     (due ∧ r.words ≠ [0] ∧ w.colOp? (collAxis r.cmd) (collSet r.cmd) (coreGlobal c) r.first = some o ∧ o.par.supplies = true) ∧
       w.colSupply o (r.started - 1) (w.strTake c r (r.started - 1) 0 n) check = none) :=
  ⟨by decide +kernel,
    by decide +kernel,
    by decide +kernel,
    by decide +kernel,
    by decide +kernel⟩

/-- The hypotheses of `Obligations.ColPiecesAndMessages` are met. -/
theorem test_hyps_ColPiecesAndMessages :
    (let s : State := after fun w => let w := live w; let w := w.updPort 0 fun x => { x with rx := [⟨(Pkt.blank 7 2 0 0), 1⟩] }; w;
     let p : LinkIx := 0; let bulk : Bool := false; let w := s.look; let vc := if bulk then 3 else 2; let v := (2 : Nat);
     let k := (⟨(Pkt.blank 7 2 0 0), 1⟩ : RxPkt); let t := ((w.rxTake p v k.flits).place (some p) (16 + p) k.pkt).1;
     (s.powered = true ∧ w.clocked = true ∧ w.rxHead p v = some k ∧ (w.rxTake p v k.flits).place (some p) (16 + p) k.pkt = (t, .delivered)) ∧
       (v = vc ∧ k.pkt.ptype = 7)) ∧
    (let s : State := after fun w => let w := live w; let w := w.updPort 0 fun x => { x with rx := [⟨(Pkt.blank 8 1 0 0), 1⟩] }; w;
     let p : LinkIx := 0; let w := s.look; let v := (1 : Nat); let k := (⟨(Pkt.blank 8 1 0 0), 1⟩ : RxPkt);
     let t := ((w.rxTake p v k.flits).place (some p) (16 + p) k.pkt).1;
     (s.powered = true ∧ w.clocked = true ∧ w.rxHead p v = some k ∧ (w.rxTake p v k.flits).place (some p) (16 + p) k.pkt = (t, .delivered)) ∧
       (v = 1 ∧ k.pkt.ptype = 8)) ∧
    (let s : State := after fun w => let w := live w; let w := w.updPort 0 fun x => { x with rx := [⟨(Pkt.blank 9 1 0 0), 1⟩] }; w;
     let p : LinkIx := 0; let w := s.look; let v := (1 : Nat); let k := (⟨(Pkt.blank 9 1 0 0), 1⟩ : RxPkt);
     let t := ((w.rxTake p v k.flits).place (some p) (16 + p) k.pkt).1;
     (s.powered = true ∧ w.clocked = true ∧ w.rxHead p v = some k ∧ (w.rxTake p v k.flits).place (some p) (16 + p) k.pkt = (t, .delivered)) ∧
       (v = 1 ∧ k.pkt.ptype = 9 ∧ bits k.pkt.w7 8 1 = 0)) ∧
    (let s : State := after fun w => let w := live w;
     let w := w.updPort 0 fun x => { x with rx := [⟨{ Pkt.blank 9 1 0 0 with w7 := 256 }, 1⟩] }; w; let p : LinkIx := 0; let w := s.look;
     let v := (1 : Nat); let k := (⟨{ Pkt.blank 9 1 0 0 with w7 := 256 }, 1⟩ : RxPkt);
     let t := ((w.rxTake p v k.flits).place (some p) (16 + p) k.pkt).1;
     (s.powered = true ∧ w.clocked = true ∧ w.rxHead p v = some k ∧ (w.rxTake p v k.flits).place (some p) (16 + p) k.pkt = (t, .delivered)) ∧
       (v = 1 ∧ k.pkt.ptype = 9 ∧ bits k.pkt.w7 8 1 = 1)) ∧
    (let s : State := after fun w => let w := live w;
     let w := { w with hw := { w.hw with colOps := [(⟨0, 0, 0, 0, 5, 0, ⟨2, 1, false, 1, 0, false, 0, 0, 0, 0, 0, 32, 0, 0, 0, 1⟩, 0, 0, 0, [⟨0, ⟨0, 1, 0, 0⟩, 0, false, 1, []⟩], [], [], [], [], [⟨0, 1, 0, 0⟩], [], false⟩ : ColOp)] } }; w;
     let p : LinkIx := 0; let bulk : Bool := false; let check : ReadCheck := .clean; let w := s.look; let vc := if bulk then 3 else 2;
     let o := (⟨0, 0, 0, 0, 5, 0, ⟨2, 1, false, 1, 0, false, 0, 0, 0, 0, 0, 32, 0, 0, 0, 1⟩, 0, 0, 0, [⟨0, ⟨0, 1, 0, 0⟩, 0, false, 1, []⟩], [], [], [], [], [⟨0, 1, 0, 0⟩], [], false⟩ : ColOp);
     let g := (⟨0, ⟨0, 1, 0, 0⟩, 0, false, 1, []⟩ : Granule);
     s.powered = true ∧ w.clocked = true ∧ ((w.port p).tx.any fun t => decide (t.pkt.vc = vc) && decide (t.input < 32)) = false ∧
       w.colNext p bulk = some (o, g) ∧ check ≠ .lasting) ∧
    (let s : State := after fun w => let w := live w;
     let w := { w with hw := { w.hw with colOps := [(⟨0, 0, 0, 0, 5, 0, ⟨2, 1, false, 1, 0, false, 0, 0, 0, 0, 0, 32, 0, 0, 0, 1⟩, 0, 0, 0, [⟨0, ⟨0, 1, 0, 0⟩, 0, false, 1, []⟩], [], [], [], [], [⟨0, 1, 0, 0⟩], [], false⟩ : ColOp)] } }; w;
     let p : LinkIx := 0; let set : Fin 256 := 0; let lane : Fin 256 := 0;
     let o := (⟨0, 0, 0, 0, 5, 0, ⟨2, 1, false, 1, 0, false, 0, 0, 0, 0, 0, 32, 0, 0, 0, 1⟩, 0, 0, 0, [⟨0, ⟨0, 1, 0, 0⟩, 0, false, 1, []⟩], [], [], [], [], [⟨0, 1, 0, 0⟩], [], false⟩ : ColOp);
     s.powered = true ∧
       (s.hw.colOps.find? fun o => decide (o.axis = p.val / 2) && decide (o.set = set.val) && decide (o.lane = lane.val)) = some o) :=
  ⟨by decide +kernel,
    by decide +kernel,
    by decide +kernel,
    by decide +kernel,
    by decide +kernel,
    by decide +kernel⟩

/-- The hypotheses of `Obligations.LnkReceivesFlits` are met. -/
theorem test_hyps_LnkReceivesFlits :
    (let s : State := after fun w => let w := live w; let w := w.setFld (Reg.LNK_STATUS 0) Fld.LNK_STATUS_STATE 5; w; let p : LinkIx := 0;
     let flit : BitVec 1024 := 36334599707620600149204065791612886995702702427779835300351789169545395259394313929074958658029330782100784735912726996086858051722957803063053238925941074394346824894802371490019213879975979045200737560780608923553926756871158803222708939548092614493800977547119600013524493708818089632779680327487220350976;
     let corr : BitVec 16 := 0; let w := s.look; let u := w.bump (Reg.LNK_FEC_CORR p) corr.toNat; let seq := u.rxExpect p;
     let active := s.powered = true ∧ w.portActive p = true;
     active ∧ flitPasses flit seq 0 = true) ∧
    (let s : State := after fun w => let w := live w; let w := w.setFld (Reg.LNK_STATUS 0) Fld.LNK_STATUS_STATE 5; w; let p : LinkIx := 0;
     let flit : BitVec 1024 := 58013018965458860981089897888179144426401664928666445475399365026930059213417661579798150434747268361063679328085328645647060315256593279252643284768588840583273516510657961244331598546550806343571674367578823654253510265821239432987850774762389453716548155982487726157785710210463066408248336044543803654144;
     let corr : BitVec 16 := 0; let w := s.look; let u := w.bump (Reg.LNK_FEC_CORR p) corr.toNat; let seq := u.rxExpect p;
     let active := s.powered = true ∧ w.portActive p = true;
     (active ∧ flitPasses flit seq 0 = false ∧ flitPasses flit seq 1 = true) ∧ flitByte flit 0 = 0) ∧
    (let s : State := after fun w => let w := live w; let w := w.setFld (Reg.LNK_STATUS 0) Fld.LNK_STATUS_STATE 5; w; let p : LinkIx := 0;
     let flit : BitVec 1024 := 92967858469777848426455095712618448290680657608509299260117985696378720831299417762661067404343203900570722955575580805630061383738070803368035661609391128897267294982231766158820111491782113981575071524231949089316751143279277831709501085547633616972965629701568585509464905690718910903983763072565066596353;
     let corr : BitVec 16 := 0; let w := s.look; let u := w.bump (Reg.LNK_FEC_CORR p) corr.toNat; let seq := u.rxExpect p;
     let active := s.powered = true ∧ w.portActive p = true;
     (active ∧ flitPasses flit seq 0 = false ∧ flitPasses flit seq 1 = true) ∧ flitByte flit 0 = 1) ∧
    (let s : State := after fun w => let w := live w; let w := w.setFld (Reg.LNK_STATUS 0) Fld.LNK_STATUS_STATE 5; w; let p : LinkIx := 0;
     let flit : BitVec 1024 := 82050471572878407946775782572755901843232616263003958440595101739350888041597668597802367762265841941280286352153215303257594597851208954040619695210082245001034442567818853692394286998176165272538461567119853096885479174960750575418818496131854619110567329034383321425679046943844684968723070961482540777474;
     let corr : BitVec 16 := 0; let w := s.look; let u := w.bump (Reg.LNK_FEC_CORR p) corr.toNat; let seq := u.rxExpect p;
     let active := s.powered = true ∧ w.portActive p = true;
     (active ∧ flitPasses flit seq 0 = false ∧ flitPasses flit seq 1 = true) ∧ flitByte flit 0 = 2) ∧
    (let s : State := after fun w => let w := live w; let w := w.setFld (Reg.LNK_STATUS 0) Fld.LNK_STATUS_STATE 5; w; let p : LinkIx := 0;
     let flit : BitVec 1024 := 113850789737641024399268817052762560377218833177185721284999321265437236164967612836045308704628368874459691262574190998987244710611608305611658212412893272892749884286484405004774835579677110846372989012547121649713553528909666776971050470779373695044935042510433262763199011881661996844973624640824179425283;
     let corr : BitVec 16 := 0; let w := s.look; let u := w.bump (Reg.LNK_FEC_CORR p) corr.toNat; let seq := u.rxExpect p;
     let active := s.powered = true ∧ w.portActive p = true;
     (active ∧ flitPasses flit seq 0 = false ∧ flitPasses flit seq 1 = true) ∧ 2 < flitByte flit 0) ∧
    (let s : State := after fun w => let w := live w; let w := w.setFld (Reg.LNK_STATUS 0) Fld.LNK_STATUS_STATE 5; w; let p : LinkIx := 0;
     let flit : BitVec 1024 := 0; let corr : BitVec 16 := 0; let w := s.look; let u := w.bump (Reg.LNK_FEC_CORR p) corr.toNat;
     let seq := u.rxExpect p; let active := s.powered = true ∧ w.portActive p = true;
     active ∧ flitPasses flit seq 0 = false ∧ flitPasses flit seq 1 = false) ∧
    (let s : State := after fun w => let w := live w; let w := w.setFld (Reg.LNK_STATUS 0) Fld.LNK_STATUS_STATE 5; w; let p : LinkIx := 0;
     let w := s.look; let active := s.powered = true ∧ w.portActive p = true;
     active ∧ (w.port p).notices < 7) :=
  ⟨by decide +kernel,
    by decide +kernel,
    by decide +kernel,
    by decide +kernel,
    by decide +kernel,
    by decide +kernel,
    by decide +kernel⟩

/-- The hypotheses of `Obligations.LnkSendsAndServes`, of its part LnkTimesOutAndSends, are met. -/
theorem test_hyps_LnkTimesOutAndSends :
    (let s : State := after fun w => let w := live w; let w := w.setFld (Reg.LNK_STATUS 0) Fld.LNK_STATUS_STATE 5;
     let w := w.updPort 0 fun x => { x with replay := [⟨0, 1, (Pkt.blank 1 1 0 0)⟩] }; w; let p : LinkIx := 0; let w := s.look;
     let k := w.port p; let active := s.powered = true ∧ w.portActive p = true;
     active ∧ k.replay ≠ [] ∧ k.replayed = false) ∧
    (let s : State := after fun w => let w := live w; let w := w.setFld (Reg.LNK_STATUS 0) Fld.LNK_STATUS_STATE 5;
     let w := w.updPort 0 fun x => { x with replay := [⟨0, 1, (Pkt.blank 1 1 0 0)⟩], replayed := true }; w; let p : LinkIx := 0; let w := s.look;
     let k := w.port p; let active := s.powered = true ∧ w.portActive p = true;
     active ∧ k.replay ≠ [] ∧ k.replayed = true) ∧
    (let s : State := after fun w => let w := live w; let w := w.setFld (Reg.LNK_STATUS 0) Fld.LNK_STATUS_STATE 5; w; let p : LinkIx := 0;
     let w := s.look; let active := s.powered = true ∧ w.portActive p = true;
     active) ∧
    (let s : State := after fun w => let w := live w; let w := w.setFld (Reg.LNK_STATUS 0) Fld.LNK_STATUS_STATE 5;
     let w := w.updPort 0 fun x => { x with tx := [⟨(Pkt.blank 5 1 0 0), 16, none, false⟩] };
     let w := w.setFld (Reg.LNK_VC_CRED 0 1) Fld.LNK_VC_CRED_CREDIT 100; w; let p : LinkIx := 0; let w := s.look;
     let active := s.powered = true ∧ w.portActive p = true; let v := ((w.nextVc p).getD (0, ⟨0, []⟩)).1;
     let d := ((w.nextVc p).getD (0, ⟨0, []⟩)).2; let x := ((⟨(Pkt.blank 5 1 0 0), 16, none, false⟩ : TxPkt));
     let e := ((w.vcReady p 1).getD (⟨(Pkt.blank 5 1 0 0), 16, none, false⟩, none)).2;
     active ∧ w.nextVc p = some (v, d) ∧ w.vcReady p v = some (x, e) ∧ seqSub (w.txNext p) (w.txOldest p) + x.pkt.flits ≤ 32768) ∧
    (let s : State := after fun w => let w := live w;
     let w := w.updPort 0 fun x => { x with tx := [⟨(Pkt.blank 5 1 0 0), 16, none, false⟩] }; w; let p : LinkIx := 0; let w := s.look;
     let k := w.port p; let x := (⟨(Pkt.blank 5 1 0 0), 16, none, false⟩ : TxPkt);
     let waits (t : TxPkt) : Bool := decide (t.pkt.ptype = 5 ∨ t.pkt.ptype = 6) && decide (t.pkt.vc ≠ 0);
     s.powered = true ∧ w.clocked = true ∧ k.tx.find? waits = some x) :=
  ⟨by decide +kernel,
    by decide +kernel,
    by decide +kernel,
    by decide +kernel,
    by decide +kernel⟩

/-- The hypotheses of `Obligations.LnkSendsAndServes`, of its part LnkServesPackets, are met. -/
theorem test_hyps_LnkServesPackets :
    (let s : State := after fun w => let w := live w; let w := w.updPort 0 fun x => { x with rx := [⟨(Pkt.blank 1 1 0 0), 1⟩] }; w;
     let p : LinkIx := 0; let vc : Fin 8 := 1; let r : RxPkt := ⟨(Pkt.blank 1 1 0 0), 1⟩;
     let t : Work := ((s.look.rxTake p vc r.flits).place (some p) (16 + p) r.pkt).1; let w := s.look; let k := r.pkt;
     let comes := s.powered = true ∧ w.clocked = true ∧ w.rxHead p vc = some r;
     let mine := comes ∧ (w.rxTake p vc r.flits).place (some p) (16 + p) k = (t, .delivered);
     mine ∧ k.ptype = 1) ∧
    (let s : State := after fun w => let w := live w;
     let w := w.updPort 0 fun x => { x with rx := [⟨{ Pkt.blank 2 1 0 0 with data := [1] }, 1⟩] }; w; let p : LinkIx := 0; let vc : Fin 8 := 1;
     let r : RxPkt := ⟨{ Pkt.blank 2 1 0 0 with data := [1] }, 1⟩;
     let t : Work := ((s.look.rxTake p vc r.flits).place (some p) (16 + p) r.pkt).1; let w := s.look; let k := r.pkt;
     let comes := s.powered = true ∧ w.clocked = true ∧ w.rxHead p vc = some r;
     let mine := comes ∧ (w.rxTake p vc r.flits).place (some p) (16 + p) k = (t, .delivered);
     mine ∧ k.ptype = 2 ∧ (k.poison = false ∨ k.data = [])) ∧
    (let s : State := after fun w => let w := live w;
     let w := w.updPort 0 fun x => { x with rx := [⟨{ Pkt.blank 2 1 0 0 with data := [1], poison := true }, 1⟩] }; w; let p : LinkIx := 0;
     let vc : Fin 8 := 1; let r : RxPkt := ⟨{ Pkt.blank 2 1 0 0 with data := [1], poison := true }, 1⟩;
     let t : Work := ((s.look.rxTake p vc r.flits).place (some p) (16 + p) r.pkt).1; let w := s.look; let k := r.pkt;
     let comes := s.powered = true ∧ w.clocked = true ∧ w.rxHead p vc = some r;
     let mine := comes ∧ (w.rxTake p vc r.flits).place (some p) (16 + p) k = (t, .delivered);
     mine ∧ k.ptype = 2 ∧ k.poison = true ∧ k.data ≠ []) ∧
    (let s : State := after fun w => let w := live w; let w := w.updPort 0 fun x => { x with rx := [⟨(Pkt.blank 3 1 0 0), 1⟩] }; w;
     let p : LinkIx := 0; let vc : Fin 8 := 1; let r : RxPkt := ⟨(Pkt.blank 3 1 0 0), 1⟩;
     let t : Work := ((s.look.rxTake p vc r.flits).place (some p) (16 + p) r.pkt).1; let w := s.look; let k := r.pkt;
     let comes := s.powered = true ∧ w.clocked = true ∧ w.rxHead p vc = some r;
     let mine := comes ∧ (w.rxTake p vc r.flits).place (some p) (16 + p) k = (t, .delivered);
     mine ∧ k.ptype = 3) ∧
    (let s : State := after fun w => let w := live w; let w := w.updPort 0 fun x => { x with rx := [⟨(Pkt.blank 5 1 0 0), 1⟩] }; w;
     let p : LinkIx := 0; let vc : Fin 8 := 1; let r : RxPkt := ⟨(Pkt.blank 5 1 0 0), 1⟩;
     let t : Work := ((s.look.rxTake p vc r.flits).place (some p) (16 + p) r.pkt).1; let w := s.look; let k := r.pkt;
     let comes := s.powered = true ∧ w.clocked = true ∧ w.rxHead p vc = some r;
     let mine := comes ∧ (w.rxTake p vc r.flits).place (some p) (16 + p) k = (t, .delivered);
     mine ∧ k.ptype = 5) ∧
    (let s : State := after fun w => let w := live w; let w := w.updPort 0 fun x => { x with rx := [⟨(Pkt.blank 6 1 0 0), 1⟩] }; w;
     let p : LinkIx := 0; let vc : Fin 8 := 1; let r : RxPkt := ⟨(Pkt.blank 6 1 0 0), 1⟩;
     let t : Work := ((s.look.rxTake p vc r.flits).place (some p) (16 + p) r.pkt).1; let w := s.look; let k := r.pkt;
     let comes := s.powered = true ∧ w.clocked = true ∧ w.rxHead p vc = some r;
     let mine := comes ∧ (w.rxTake p vc r.flits).place (some p) (16 + p) k = (t, .delivered);
     mine ∧ k.ptype = 6) ∧
    (let s : State := after fun w => let w := live w; let w := w.updPort 0 fun x => { x with rx := [⟨(Pkt.blank 10 1 0 0), 1⟩] }; w;
     let p : LinkIx := 0; let vc : Fin 8 := 1; let r : RxPkt := ⟨(Pkt.blank 10 1 0 0), 1⟩;
     let t : Work := ((s.look.rxTake p vc r.flits).place (some p) (16 + p) r.pkt).1; let w := s.look; let k := r.pkt;
     let comes := s.powered = true ∧ w.clocked = true ∧ w.rxHead p vc = some r;
     let mine := comes ∧ (w.rxTake p vc r.flits).place (some p) (16 + p) k = (t, .delivered);
     mine ∧ k.ptype = 10 ∧ k.w4 % 256 ≤ 8) ∧
    (let s : State := after fun w => let w := live w; let w := w.updPort 0 fun x => { x with rx := [⟨(Pkt.blank 1 1 1 0), 1⟩] }; w;
     let p : LinkIx := 0; let vc : Fin 8 := 1; let r : RxPkt := ⟨(Pkt.blank 1 1 1 0), 1⟩;
     let t : Work := ((s.look.rxTake p vc r.flits).place (some p) (16 + p) r.pkt).1; let w := s.look; let k := r.pkt;
     let comes := s.powered = true ∧ w.clocked = true ∧ w.rxHead p vc = some r; let st := (5 : Nat);
     comes ∧ (w.rxTake p vc r.flits).place (some p) (16 + p) k = (t, .refused st) ∧ k.ptype = 1) :=
  ⟨by decide +kernel,
    by decide +kernel,
    by decide +kernel,
    by decide +kernel,
    by decide +kernel,
    by decide +kernel,
    by decide +kernel,
    by decide +kernel⟩

/-- The hypotheses of `Obligations.LnkTrainsAndFences`, of its part LnkTrains, are met. -/
theorem test_hyps_LnkTrains :
    (let s : State := after fun w => let w := live w; let w := w.setFlag (Reg.LNK_CTRL 0) Fld.LNK_CTRL_EN false; w;
     let m : Master := .firmware 0; let p : LinkIx := 0; let value : Word := 1; let w := s.look; let ctl := Reg.LNK_CTRL p;
     let v := w.regWrite m ctl .w32 0xF value.toNat; let en := w.flag ctl Fld.LNK_CTRL_EN;
     s.powered = true ∧ value.getLsbD 0 = true ∧ en = false ∧ v.flag ctl Fld.LNK_CTRL_EN = true) ∧
    (let s : State := after fun w => let w := live w; let w := w.setFlag (Reg.LNK_CTRL 0) Fld.LNK_CTRL_EN true; w;
     let m : Master := .firmware 0; let p : LinkIx := 0; let value : Word := 0; let w := s.look; let ctl := Reg.LNK_CTRL p;
     let v := w.regWrite m ctl .w32 0xF value.toNat; let en := w.flag ctl Fld.LNK_CTRL_EN;
     s.powered = true ∧ value.getLsbD 0 = false ∧ en = true ∧ v.flag ctl Fld.LNK_CTRL_EN = false) ∧
    (let s : State := after fun w => let w := live w; let w := w.setFlag (Reg.LNK_CTRL 0) Fld.LNK_CTRL_EN true;
     let w := w.setFld (Reg.LNK_STATUS 0) Fld.LNK_STATUS_STATE 8; w; let p : LinkIx := 0; let value : Word := 1; let w := s.look;
     let ctl := Reg.LNK_CTRL p; let en := w.flag ctl Fld.LNK_CTRL_EN; let state := w.linkState p;
     let takes := s.powered = true ∧ w.regTakes (Reg.LNK_CMD p) = true;
     takes ∧ value.getLsbD 0 = true ∧ value.getLsbD 1 = false ∧ (state = 8 ∨ state = 9) ∧ en = true ∧ w.fenceMode p ≠ 2) ∧
    (let s : State := after fun w => let w := live w; let w := w.setFlag (Reg.LNK_CTRL 0) Fld.LNK_CTRL_EN true;
     let w := w.setFld (Reg.LNK_STATUS 0) Fld.LNK_STATUS_STATE 5; w; let p : LinkIx := 0; let value : Word := 1; let w := s.look;
     let ctl := Reg.LNK_CTRL p; let en := w.flag ctl Fld.LNK_CTRL_EN; let state := w.linkState p;
     let takes := s.powered = true ∧ w.regTakes (Reg.LNK_CMD p) = true;
     takes ∧ value.getLsbD 0 = true ∧ value.getLsbD 1 = false ∧ ¬ ((state = 8 ∨ state = 9) ∧ en = true ∧ w.fenceMode p ≠ 2)) ∧
    (let s : State := after fun w => let w := live w; let w := w.setFld (Reg.LNK_STATUS 0) Fld.LNK_STATUS_STATE 5; w; let p : LinkIx := 0;
     let value : Word := 2; let w := s.look; let state := w.linkState p; let takes := s.powered = true ∧ w.regTakes (Reg.LNK_CMD p) = true;
     takes ∧ value.getLsbD 0 = false ∧ value.getLsbD 1 = true ∧ state = 5) ∧
    (let s : State := after fun w => let w := live w; let w := w.setFld (Reg.LNK_STATUS 0) Fld.LNK_STATUS_STATE 2; w; let p : LinkIx := 0;
     let block : BitVec 128 := 37690882896104313755502872853808722829; let w := s.look; let runs := s.powered = true ∧ w.clocked = true;
     (runs ∧ blockGood block = true) ∧ w.training p = true) ∧
    (let s : State := after fun w => let w := live w; let w := w.setFld (Reg.LNK_STATUS 0) Fld.LNK_STATUS_STATE 7; w; let p : LinkIx := 0;
     let block : BitVec 128 := 37690882896104313755502872853808722829; let w := s.look; let state := w.linkState p;
     let runs := s.powered = true ∧ w.clocked = true;
     (runs ∧ blockGood block = true) ∧ state = 7) ∧
    (let s : State := after fun w => let w := live w; let w := w.setFld (Reg.LNK_STATUS 0) Fld.LNK_STATUS_STATE 8; w; let p : LinkIx := 0;
     let block : BitVec 128 := 37690882896104313755502872853808722829; let w := s.look; let state := w.linkState p;
     let runs := s.powered = true ∧ w.clocked = true;
     (runs ∧ blockGood block = true) ∧ state = 8) ∧
    (let s : State := after fun w => let w := live w; let w := w.setFld (Reg.LNK_STATUS 0) Fld.LNK_STATUS_STATE 1; w; let p : LinkIx := 0;
     let w := s.look; let state := w.linkState p; let runs := s.powered = true ∧ w.clocked = true;
     runs ∧ state = 1) ∧
    (let s : State := after fun w => let w := live w; let w := w.setFld (Reg.LNK_STATUS 0) Fld.LNK_STATUS_STATE 2; w; let p : LinkIx := 0;
     let w := s.look; let state := w.linkState p; let runs := s.powered = true ∧ w.clocked = true;
     runs ∧ state = 2) ∧
    (let s : State := after fun w => let w := live w; let w := w.setFld (Reg.LNK_STATUS 0) Fld.LNK_STATUS_STATE 3; w; let p : LinkIx := 0;
     let w := s.look; let state := w.linkState p; let runs := s.powered = true ∧ w.clocked = true;
     runs ∧ state = 3) ∧
    (let s : State := after fun w => let w := live w; let w := w.setFld (Reg.LNK_STATUS 0) Fld.LNK_STATUS_STATE 4; w; let p : LinkIx := 0;
     let w := s.look; let state := w.linkState p; let runs := s.powered = true ∧ w.clocked = true;
     runs ∧ state = 4) ∧
    (let s : State := after fun w => let w := live w; let w := w.setFld (Reg.LNK_STATUS 0) Fld.LNK_STATUS_STATE 3; w; let p : LinkIx := 0;
     let w := s.look;
     s.powered = true ∧ w.training p = true) ∧
    (let s : State := after fun w => let w := live w; let w := w.setFld (Reg.LNK_STATUS 0) Fld.LNK_STATUS_STATE 7; w; let p : LinkIx := 0;
     let w := s.look; let state := w.linkState p; let runs := s.powered = true ∧ w.clocked = true;
     runs ∧ state = 7) :=
  ⟨by decide +kernel,
    by decide +kernel,
    by decide +kernel,
    by decide +kernel,
    by decide +kernel,
    by decide +kernel,
    by decide +kernel,
    by decide +kernel,
    by decide +kernel,
    by decide +kernel,
    by decide +kernel,
    by decide +kernel,
    by decide +kernel,
    by decide +kernel⟩

/-- The hypotheses of `Obligations.LnkTrainsAndFences`, of its part LnkFences, are met. -/
theorem test_hyps_LnkFences :
    (let s : State := after fun w => let w := live w; w; let m : Master := .firmware 0; let p : LinkIx := 0; let value : Word := 1;
     let w := s.look; let takes := s.powered = true ∧ w.regTakes (Reg.FEN_CMD p) = true;
     let n := (s.look.woWrite (s.look.clampBy m) (Reg.FEN_CMD p) value.toNat).1;
     let v := (s.look.woWrite (s.look.clampBy m) (Reg.FEN_CMD p) value.toNat).2;
     w.woWrite (w.clampBy m) (Reg.FEN_CMD p) value.toNat = (n, v) ∧ (takes ∧ value.getLsbD 0 = true ∧ bits n 0 1 = 1)) ∧
    (let s : State := after fun w => let w := live w; w; let m : Master := .firmware 0; let p : LinkIx := 0; let value : Word := 2;
     let w := s.look; let takes := s.powered = true ∧ w.regTakes (Reg.FEN_CMD p) = true;
     let n := (s.look.woWrite (s.look.clampBy m) (Reg.FEN_CMD p) value.toNat).1;
     let v := (s.look.woWrite (s.look.clampBy m) (Reg.FEN_CMD p) value.toNat).2;
     w.woWrite (w.clampBy m) (Reg.FEN_CMD p) value.toNat = (n, v) ∧ (takes ∧ value.getLsbD 1 = true ∧ bits n 0 1 = 0 ∧ bits n 1 1 = 1)) ∧
    (let s : State := after fun w => let w := live w; let w := w.setFlag (Reg.FEN_PORT_CFG 0) Fld.FEN_PORT_CFG_BOUNDARY true;
     let w := w.updPort 0 fun x => { x with rx := [⟨(Pkt.blank 11 7 0 0), 1⟩] }; w; let p : LinkIx := 0;
     let r : RxPkt := ⟨(Pkt.blank 11 7 0 0), 1⟩; let w := s.look; let u := w.rxTake p 7 r.flits;
     let comes := s.powered = true ∧ w.rxHead p 7 = some r ∧ r.pkt.ptype = 11;
     let outside := u.flag (Reg.FEN_PORT_CFG p) Fld.FEN_PORT_CFG_BOUNDARY;
     comes ∧ outside = true) ∧
    (let s : State := after fun w => let w := live w; let w := w.setFlag (Reg.FEN_PORT_CFG 0) Fld.FEN_PORT_CFG_BOUNDARY false;
     let w := { w with hw := { w.hw with alertPairs := [(0, 0)] } };
     let w := w.updPort 0 fun x => { x with rx := [⟨(Pkt.blank 11 7 0 0), 1⟩] }; w; let p : LinkIx := 0;
     let r : RxPkt := ⟨(Pkt.blank 11 7 0 0), 1⟩; let w := s.look; let origin := bits r.pkt.w5 0 16; let id := bits r.pkt.w4 16 16;
     let u := w.rxTake p 7 r.flits; let comes := s.powered = true ∧ w.rxHead p 7 = some r ∧ r.pkt.ptype = 11;
     let outside := u.flag (Reg.FEN_PORT_CFG p) Fld.FEN_PORT_CFG_BOUNDARY;
     comes ∧ outside = false ∧ (origin, id) ∈ u.hw.alertPairs) ∧
    (let s : State := after fun w => let w := live w; let w := w.setFlag (Reg.FEN_PORT_CFG 0) Fld.FEN_PORT_CFG_BOUNDARY false;
     let w := w.updPort 0 fun x => { x with rx := [⟨(Pkt.blank 11 7 0 0), 1⟩] }; w; let p : LinkIx := 0;
     let r : RxPkt := ⟨(Pkt.blank 11 7 0 0), 1⟩; let w := s.look; let origin := bits r.pkt.w5 0 16; let id := bits r.pkt.w4 16 16;
     let u := w.rxTake p 7 r.flits; let comes := s.powered = true ∧ w.rxHead p 7 = some r ∧ r.pkt.ptype = 11;
     let outside := u.flag (Reg.FEN_PORT_CFG p) Fld.FEN_PORT_CFG_BOUNDARY;
     comes ∧ outside = false ∧ (origin, id) ∉ u.hw.alertPairs) ∧
    (let s : State := after fun w => let w := live w; w; let m : Master := .firmware 0; let p : LinkIx := 0; let value : Word := 2;
     let w := s.look; let cfg := w.regWrite m (Reg.FEN_PORT_CFG p) .w32 0xF value.toNat;
     s.powered = true ∧ (cfg.fenceMode p = 2 ∧ w.fenceMode p ≠ 2)) ∧
    (let s : State := after fun w => let w := live w; let w := w.setFld (Reg.FEN_PORT_CFG 0) Fld.FEN_PORT_CFG_MODE 2; w;
     let m : Master := .firmware 0; let p : LinkIx := 0; let value : Word := 0; let w := s.look;
     let cfg := w.regWrite m (Reg.FEN_PORT_CFG p) .w32 0xF value.toNat;
     s.powered = true ∧ (cfg.fenceMode p ≠ 2 ∧ w.fenceMode p = 2)) ∧
    (let s : State := after fun w => let w := live w; w; let m : Master := .firmware 0; let p : LinkIx := 0; let value : Word := 0;
     let w := s.look; let cfg := w.regWrite m (Reg.FEN_PORT_CFG p) .w32 0xF value.toNat;
     s.powered = true ∧ ((cfg.fenceMode p = 2 ↔ w.fenceMode p = 2))) ∧
    (let s : State := after fun w => let w := live w; w; let off : BitVec 12 := 0; s.powered = true ∧ rteShared off.toNat = true) :=
  ⟨by decide +kernel,
    by decide +kernel,
    by decide +kernel,
    by decide +kernel,
    by decide +kernel,
    by decide +kernel,
    by decide +kernel,
    by decide +kernel,
    by decide +kernel⟩

/-- The hypotheses of `Obligations.JobPhases` are met. -/
theorem test_hyps_JobPhases :
    (let s : State := after fun w => let w := live w; let w := w.setFlag Reg.SNP_PHASE_CTRL Fld.SNP_PHASE_CTRL_EN true;
     let w := w.setFld Reg.SNP_PHASE_CTRL Fld.SNP_PHASE_CTRL_CTX 5; let w := placed 0 5 w; w; let c : CoreIx := 0; let value : Word := 1;
     let w := s.look; let ctl := Reg.SNP_PHASE_CTRL; let takes := s.powered = true ∧ w.regTakes Reg.SNP_PHASE_MARK = true;
     let timed := w.flag ctl Fld.SNP_PHASE_CTRL_EN = true ∧ w.placedCtx c = some (w.fld ctl Fld.SNP_PHASE_CTRL_CTX);
     let u := w.takeMark (coreGlobal c) (bits value.toNat 0 4) (decide (bits value.toNat 8 1 = 1));
     let closes := s.hw.phaseDone.length < u.hw.phaseDone.length ∧ u.hw.phaseDone.length = u.fld ctl Fld.SNP_PHASE_CTRL_CORES;
     takes ∧ timed ∧ ¬ closes) ∧
    (let s : State := after fun w => let w := live w; let w := w.setFlag Reg.SNP_PHASE_CTRL Fld.SNP_PHASE_CTRL_EN true;
     let w := w.setFld Reg.SNP_PHASE_CTRL Fld.SNP_PHASE_CTRL_CTX 5; let w := w.setFld Reg.SNP_PHASE_CTRL Fld.SNP_PHASE_CTRL_CORES 1;
     let w := placed 0 5 w; w; let c : CoreIx := 0; let value : Word := 0x100; let w := s.look; let ctl := Reg.SNP_PHASE_CTRL;
     let takes := s.powered = true ∧ w.regTakes Reg.SNP_PHASE_MARK = true;
     let timed := w.flag ctl Fld.SNP_PHASE_CTRL_EN = true ∧ w.placedCtx c = some (w.fld ctl Fld.SNP_PHASE_CTRL_CTX);
     let u := w.takeMark (coreGlobal c) (bits value.toNat 0 4) (decide (bits value.toNat 8 1 = 1));
     let closes := s.hw.phaseDone.length < u.hw.phaseDone.length ∧ u.hw.phaseDone.length = u.fld ctl Fld.SNP_PHASE_CTRL_CORES;
     takes ∧ timed ∧ closes) ∧
    (let s : State := after fun w => let w := live w; w; let c : CoreIx := 0; let e : Fin 4 := 0; let w := s.look;
     let ctl := Reg.SNP_PHASE_CTRL; let takes := s.powered = true ∧ w.regTakes Reg.SNP_PHASE_MARK = true;
     let timed := w.flag ctl Fld.SNP_PHASE_CTRL_EN = true ∧ w.placedCtx c = some (w.fld ctl Fld.SNP_PHASE_CTRL_CTX);
     takes ∧ (¬ timed ∨ e.val ≠ 0)) ∧
    (let s : State := after fun w => let w := live w; w; let m : Master := .firmware 0; let value : Word := 0; let w := s.look;
     let ctl := Reg.SNP_PHASE_CTRL; let v := w.regWrite m ctl .w32 15 (setBits value.toNat 0 1 1);
     s.powered = true ∧ v.flag ctl Fld.SNP_PHASE_CTRL_EN = true ∧ w.flag ctl Fld.SNP_PHASE_CTRL_EN = false) ∧
    (let s : State := after fun w => let w := live w; let w := w.setFlag Reg.SNP_PHASE_CTRL Fld.SNP_PHASE_CTRL_EN true; w; let w := s.look;
     let ctl := Reg.SNP_PHASE_CTRL;
     s.powered = true ∧ w.flag ctl Fld.SNP_PHASE_CTRL_EN = true) :=
  ⟨by decide +kernel,
    by decide +kernel,
    by decide +kernel,
    by decide +kernel,
    by decide +kernel⟩

/-- The hypotheses of `Obligations.SnpSets`, of its part SnpSetsAndTriggers, are met. -/
theorem test_hyps_SnpSetsAndTriggers :
    (let s : State := after fun w => let w := live w; w; let m : Master := .firmware 0; let n : Fin 16 := 0; let value : Word := 0;
     let w := s.look; let a := Reg.SNP_SET_CFG n; let v (b : Nat) : Work := w.regWrite m a .w32 15 (setBits value.toNat 0 1 b);
     s.powered = true ∧ w.snpValid n = false ∧ (v 1).snpValid n = true) ∧
    (let s : State := after fun w => let w := live w; let w := w.setFlag (Reg.SNP_SET_CFG 0) Fld.SNP_SET_CFG_VALID true; w;
     let m : Master := .firmware 0; let n : Fin 16 := 0; let value : Word := 0; let w := s.look; let a := Reg.SNP_SET_CFG n;
     let v (b : Nat) : Work := w.regWrite m a .w32 15 (setBits value.toNat 0 1 b);
     s.powered = true ∧ w.snpValid n = true ∧ (v 0).snpValid n = false) ∧
    (let s : State := after fun w => let w := live w; let w := w.setFlag (Reg.SNP_SET_CFG 0) Fld.SNP_SET_CFG_VALID true;
     let w := w.setFlag Reg.SNP_CTRL Fld.SNP_CTRL_EN true; let w := (w).setFlag (Reg.SNP_RANGE_CFG 0) Fld.SNP_RANGE_CFG_VALID true; w;
     let m : Master := .firmware 0; let value : Word := 0; let w := s.look; let i := bits value.toNat 0 8; let rc := Reg.SNP_RANGE_CFG i;
     let set := w.rangeSet i;
     let accepts := w.flag Reg.SNP_CTRL Fld.SNP_CTRL_EN = true ∧ w.flag rc Fld.SNP_RANGE_CFG_VALID = true ∧ w.takesTriggers set = true ∧
       w.triggers m (w.snpCtx set) = true;
     let trig := w.flag rc Fld.SNP_RANGE_CFG_TRIG;
     (s.powered = true ∧ w.regTakes Reg.SNP_MIRROR = true) ∧ (accepts ∧ trig = false)) ∧
    (let s : State := after fun w => let w := live w; let w := w.setFlag (Reg.SNP_SET_CFG 0) Fld.SNP_SET_CFG_VALID true;
     let w := w.setFlag Reg.SNP_CTRL Fld.SNP_CTRL_EN true;
     let w := ((w).setFlag (Reg.SNP_RANGE_CFG 0) Fld.SNP_RANGE_CFG_VALID true).setFlag (Reg.SNP_RANGE_CFG 0) Fld.SNP_RANGE_CFG_TRIG true; w;
     let m : Master := .firmware 0; let value : Word := 0; let w := s.look; let i := bits value.toNat 0 8; let rc := Reg.SNP_RANGE_CFG i;
     let set := w.rangeSet i;
     let accepts := w.flag Reg.SNP_CTRL Fld.SNP_CTRL_EN = true ∧ w.flag rc Fld.SNP_RANGE_CFG_VALID = true ∧ w.takesTriggers set = true ∧
       w.triggers m (w.snpCtx set) = true;
     let trig := w.flag rc Fld.SNP_RANGE_CFG_TRIG; let held := w.flag rc Fld.SNP_RANGE_CFG_HELD;
     (s.powered = true ∧ w.regTakes Reg.SNP_MIRROR = true) ∧ (accepts ∧ trig = true ∧ held = false)) ∧
    (let s : State := after fun w => let w := live w; w; let m : Master := .firmware 0; let value : Word := 0; let w := s.look;
     let i := bits value.toNat 0 8; let rc := Reg.SNP_RANGE_CFG i; let set := w.rangeSet i;
     let accepts := w.flag Reg.SNP_CTRL Fld.SNP_CTRL_EN = true ∧ w.flag rc Fld.SNP_RANGE_CFG_VALID = true ∧ w.takesTriggers set = true ∧
       w.triggers m (w.snpCtx set) = true;
     let trig := w.flag rc Fld.SNP_RANGE_CFG_TRIG; let held := w.flag rc Fld.SNP_RANGE_CFG_HELD;
     (s.powered = true ∧ w.regTakes Reg.SNP_MIRROR = true) ∧ (¬ accepts ∨ (trig = true ∧ held = true))) ∧
    (let s : State := after fun w => let w := live w; let w := w.setFlag (Reg.SNP_SET_CFG 0) Fld.SNP_SET_CFG_VALID true;
     let w := w.setFlag Reg.SNP_CTRL Fld.SNP_CTRL_EN true;
     let w := (((w).setFlag (Reg.SNP_RANGE_CFG 0) Fld.SNP_RANGE_CFG_VALID true).setFlag (Reg.SNP_RANGE_CFG 0) Fld.SNP_RANGE_CFG_TRIG true).setFlag (Reg.SNP_RANGE_CFG 0) Fld.SNP_RANGE_CFG_DONE true; w;
     let n : Fin 16 := 0; let w := s.look;
     s.powered = true ∧ w.commitReady n = true) ∧
    (let s : State := after fun w => let w := live w; let w := w.setFlag (Reg.SNP_SET_CFG 0) Fld.SNP_SET_CFG_VALID true;
     let w := w.setFlag Reg.SNP_CTRL Fld.SNP_CTRL_EN true; w; let value : Word := 0; let w := s.look; let rs := setBits value.toNat 0 1 1;
     let k := bits rs 4 4;
     let may := w.flag Reg.SNP_CTRL Fld.SNP_CTRL_EN = true ∧ w.snpValid k = true ∧ (w.snpSet k).stage = .idle ∧ (w.snpSet k).failed = false ∧
       w.restoring = false;
     (s.powered = true ∧ w.regTakes Reg.SNP_CMD = true) ∧ may) ∧
    (let s : State := after fun w => let w := live w; w; let value : Word := 0; let w := s.look; let rs := setBits value.toNat 0 1 1;
     let k := bits rs 4 4;
     let may := w.flag Reg.SNP_CTRL Fld.SNP_CTRL_EN = true ∧ w.snpValid k = true ∧ (w.snpSet k).stage = .idle ∧ (w.snpSet k).failed = false ∧
       w.restoring = false;
     (s.powered = true ∧ w.regTakes Reg.SNP_CMD = true) ∧ ¬ may) :=
  ⟨by decide +kernel,
    by decide +kernel,
    by decide +kernel,
    by decide +kernel,
    by decide +kernel,
    by decide +kernel,
    by decide +kernel,
    by decide +kernel⟩

/-- The hypotheses of `Obligations.SnpSets`, of its part SnpRepliesAndDetMode, are met. -/
theorem test_hyps_SnpRepliesAndDetMode :
    (let s : State := after fun w => let w := live w;
     let w := w.setReq 3 { Req.make (.unit 28 16) (.read 8) none 0 0 0 0 0 with stage := .replied, bad := .ok, rep := 0 }; w; let req : Nat := 3;
     let q : Req := { Req.make (.unit 28 16) (.read 8) none 0 0 0 0 0 with stage := .replied, bad := .ok, rep := 0 }; let w := s.look;
     let use := snpUse q.tag; let ix := q.rep % 256; let n := if use.ofRange then w.rangeSet ix else ix; let u := w.dropReq req;
     let epoch := (u.snpSet n).epoch; let comes := s.powered = true ∧ w.req? req = some q ∧ q.isSnp = true ∧ q.stage = .replied;
     comes ∧ q.rep / 256 = epoch ∧ q.bad = .ok ∧ q.tag / 16 % 2 = 0) ∧
    (let s : State := after fun w => let w := live w;
     let w := w.setReq 3 { Req.make (.unit 28 16) (.read 8) none 0 0 0 16 0 with stage := .replied, bad := .ok, rep := 0 }; w;
     let req : Nat := 3; let q : Req := { Req.make (.unit 28 16) (.read 8) none 0 0 0 16 0 with stage := .replied, bad := .ok, rep := 0 };
     let w := s.look; let use := snpUse q.tag; let ix := q.rep % 256; let n := if use.ofRange then w.rangeSet ix else ix; let u := w.dropReq req;
     let epoch := (u.snpSet n).epoch; let comes := s.powered = true ∧ w.req? req = some q ∧ q.isSnp = true ∧ q.stage = .replied;
     comes ∧ q.rep / 256 = epoch ∧ q.bad = .ok ∧ q.tag / 16 % 2 = 1) ∧
    (let s : State := after fun w => let w := live w;
     let w := w.setReq 3 { Req.make (.unit 28 16) (.read 8) none 0 0 0 0 0 with stage := .replied, bad := .timeout, rep := 0 }; w;
     let req : Nat := 3; let q : Req := { Req.make (.unit 28 16) (.read 8) none 0 0 0 0 0 with stage := .replied, bad := .timeout, rep := 0 };
     let w := s.look; let use := snpUse q.tag; let ix := q.rep % 256; let n := if use.ofRange then w.rangeSet ix else ix; let u := w.dropReq req;
     let epoch := (u.snpSet n).epoch; let comes := s.powered = true ∧ w.req? req = some q ∧ q.isSnp = true ∧ q.stage = .replied;
     comes ∧ q.rep / 256 = epoch ∧ q.bad ≠ .ok ∧ q.tag / 16 % 2 = 0) ∧
    (let s : State := after fun w => let w := live w;
     let w := w.setReq 3 { Req.make (.unit 28 16) (.read 8) none 0 0 0 16 0 with stage := .replied, bad := .timeout, rep := 0 }; w;
     let req : Nat := 3; let q : Req := { Req.make (.unit 28 16) (.read 8) none 0 0 0 16 0 with stage := .replied, bad := .timeout, rep := 0 };
     let w := s.look; let use := snpUse q.tag; let ix := q.rep % 256; let n := if use.ofRange then w.rangeSet ix else ix; let u := w.dropReq req;
     let epoch := (u.snpSet n).epoch; let comes := s.powered = true ∧ w.req? req = some q ∧ q.isSnp = true ∧ q.stage = .replied;
     comes ∧ q.rep / 256 = epoch ∧ q.bad ≠ .ok ∧ q.tag / 16 % 2 = 1) ∧
    (let s : State := after fun w => let w := live w;
     let w := w.setReq 3 { Req.make (.unit 28 16) (.read 8) none 0 0 0 0 0 with stage := .replied, bad := .ok, rep := 256 }; w;
     let req : Nat := 3; let q : Req := { Req.make (.unit 28 16) (.read 8) none 0 0 0 0 0 with stage := .replied, bad := .ok, rep := 256 };
     let w := s.look; let use := snpUse q.tag; let ix := q.rep % 256; let n := if use.ofRange then w.rangeSet ix else ix; let u := w.dropReq req;
     let epoch := (u.snpSet n).epoch; let comes := s.powered = true ∧ w.req? req = some q ∧ q.isSnp = true ∧ q.stage = .replied;
     comes ∧ q.rep / 256 ≠ epoch) ∧
    (let s : State := after fun w => let w := live w; let w := { w with hw := { w.hw with snpJobs := [⟨0, false, 0, 16, 0, false⟩] } }; w;
     let i : Fin 256 := 0; let w := s.look; let j := (⟨0, false, 0, 16, 0, false⟩ : SnpJob);
     s.powered = true ∧ (s.hw.snpJobs.find? fun j => decide (j.range = i.val) && !j.restore) = some j ∧ j.back = w.rangePieces i ∧
       j.signalled = false) ∧
    (let s : State := after fun w => let w := live w; let w := w.setFlag Reg.DET_STATUS Fld.DET_STATUS_PENDING true; w; let w := s.look;
     s.powered = true ∧ w.flag Reg.DET_STATUS Fld.DET_STATUS_PENDING = true ∧ s.hw.colOps = [] ∧ (∀ x, x < 1024 → w.ctxState x ≠ 2)) :=
  ⟨by decide +kernel,
    by decide +kernel,
    by decide +kernel,
    by decide +kernel,
    by decide +kernel,
    by decide +kernel,
    by decide +kernel⟩

/-- The hypotheses of `Obligations.HostAndSidebandAccess` are met. -/
theorem test_hyps_HostAndSidebandAccess :
    (let s : State := after fun w => let w := live w; w; let m : Master := .firmware 0; let addr : BitVec 46 := 0x3F0000000000;
     let width : AccWidth := .w32; let w := s.look; let k := width.bytes; let a := addr.toNat / k * k;
     s.powered = true ∧ isCsr a = true ∧ w.installHolds m (csrDie a) = false) ∧
    (let s : State := after fun w => let w := live w; let w := w.setFld (Reg.HUB_STATUS 0) Fld.HUB_STATUS_LTSSM 3; w; let port : Fin 2 := 0;
     let tag : Fin 1024 := 0; let bar2 : Bool := false; let off : BitVec 46 := 0x0F000000; let n : Fin 4096 := 0; let w := s.look;
     let tgt := w.hostTarget port bar2 off.toNat; let size := if bar2 then 2 ^ (w.pciPort port).bar2 else 2 ^ 28;
     let reaches (q : ReqOp) : Prop := s.powered = true ∧ w.linkInL0 port = true ∧ off.toNat < size ∧ 0 < q.len ∧
       (match tgt with | .dpa x => w.hostHeld port tag x q | _ => false) = false;
     reaches (.read (n.val + 1))) ∧
    (let s : State := after fun w => let w := live w; let w := w.setFld (Reg.HUB_STATUS 0) Fld.HUB_STATUS_LTSSM 3; w; let port : Fin 2 := 0;
     let tag : Fin 1024 := 0; let bar2 : Bool := false; let off : BitVec 46 := 0x0F000000; let d : List (Option Byte) := [some 0];
     let w := s.look; let tgt := w.hostTarget port bar2 off.toNat; let size := if bar2 then 2 ^ (w.pciPort port).bar2 else 2 ^ 28;
     let reaches (q : ReqOp) : Prop := s.powered = true ∧ w.linkInL0 port = true ∧ off.toNat < size ∧ 0 < q.len ∧
       (match tgt with | .dpa x => w.hostHeld port tag x q | _ => false) = false;
     reaches (.write d)) ∧
    (let s : State := after fun w => let w := live w; w; let sa : BitVec 48 := 0x3F1E00000000; let len : BitVec 8 := 0; let b := sbBytes len;
     let x := sa.toNat / b * b;
     s.powered = true ∧ isAlwaysOn x = true) ∧
    (let s : State := after fun w => let w := live w; w; let sa : BitVec 48 := 0; let len : BitVec 8 := 0; let b := sbBytes len;
     let x := sa.toNat / b * b;
     s.powered = true ∧ isAlwaysOn x = false) ∧
    (let s : State := after fun w => let w := live w; w; s.powered = true) ∧
    (let s : State := after fun w => let w := live w; let w := w.setFlag (Reg.MGT_SB_CFG 1) Fld.MGT_SB_CFG_PEC true; w; let w := s.look;
     s.powered = true ∧ w.flag (Reg.MGT_SB_CFG 1) Fld.MGT_SB_CFG_PEC = true) :=
  ⟨by decide +kernel,
    by decide +kernel,
    by decide +kernel,
    by decide +kernel,
    by decide +kernel,
    by decide +kernel,
    by decide +kernel⟩

/-- The hypotheses of `Obligations.ErrUnits`, of its part ErrCommands, are met. -/
theorem test_hyps_ErrCommands :
    (let s : State := after fun w => let w := live w; w; let m : Master := .firmware 0; let die : DieIx := 0; let value : Word := 1024;
     let n : Nat := (s.look.woWrite (s.look.clampBy m) (Reg.ERR_CMD die) value.toNat).1;
     let v : Work := (s.look.woWrite (s.look.clampBy m) (Reg.ERR_CMD die) value.toNat).2; let w := s.look; let who := w.clampBy m;
     let p := bits n 2 5;
     let cmd (reset fence test : Nat) : Prop := s.powered = true ∧ w.woWrite who (Reg.ERR_CMD die) value.toNat = (n, v) ∧ bits n 10 1 = reset ∧
       bits n 11 1 = fence ∧ bits n 12 1 = test;
     cmd 1 0 0 ∧ value.getLsbD 10 = true ∧ bits value.toNat 0 2 = 0 ∧ bits n 0 2 = 0 ∧ die.val < 16 ∧ v.physUp die p = true ∧ v.railsOn = true) ∧
    (let s : State := after fun w => let w := live w; w; let m : Master := .firmware 0; let die : DieIx := 0; let value : Word := 1025;
     let n : Nat := (s.look.woWrite (s.look.clampBy m) (Reg.ERR_CMD die) value.toNat).1;
     let v : Work := (s.look.woWrite (s.look.clampBy m) (Reg.ERR_CMD die) value.toNat).2; let w := s.look; let who := w.clampBy m;
     let p := bits n 2 5;
     let cmd (reset fence test : Nat) : Prop := s.powered = true ∧ w.woWrite who (Reg.ERR_CMD die) value.toNat = (n, v) ∧ bits n 10 1 = reset ∧
       bits n 11 1 = fence ∧ bits n 12 1 = test;
     cmd 1 0 0 ∧ value.getLsbD 10 = true ∧ bits value.toNat 0 2 = 1 ∧ bits n 0 2 = 1 ∧ die.val < 16 ∧ v.physUp die p = true ∧ v.railsOn = true) ∧
    (let s : State := after fun w => let w := live w; w; let m : Master := .firmware 0; let die : DieIx := 16; let value : Word := 2048;
     let n : Nat := (s.look.woWrite (s.look.clampBy m) (Reg.ERR_CMD die) value.toNat).1;
     let v : Work := (s.look.woWrite (s.look.clampBy m) (Reg.ERR_CMD die) value.toNat).2; let w := s.look; let who := w.clampBy m;
     let cmd (reset fence test : Nat) : Prop := s.powered = true ∧ w.woWrite who (Reg.ERR_CMD die) value.toNat = (n, v) ∧ bits n 10 1 = reset ∧
       bits n 11 1 = fence ∧ bits n 12 1 = test;
     cmd 0 1 0 ∧ value.getLsbD 11 = true ∧ 16 ≤ die.val ∧ die.val < 24) ∧
    (let s : State := after fun w => let w := live w; w; let m : Master := .firmware 0; let die : DieIx := 0; let value : Word := 4096;
     let n : Nat := (s.look.woWrite (s.look.clampBy m) (Reg.ERR_CMD die) value.toNat).1;
     let v : Work := (s.look.woWrite (s.look.clampBy m) (Reg.ERR_CMD die) value.toNat).2; let w := s.look; let who := w.clampBy m;
     let p := bits n 2 5;
     let cmd (reset fence test : Nat) : Prop := s.powered = true ∧ w.woWrite who (Reg.ERR_CMD die) value.toNat = (n, v) ∧ bits n 10 1 = reset ∧
       bits n 11 1 = fence ∧ bits n 12 1 = test;
     let c := v.slotOf die p;
     (cmd 0 0 1 ∧ value.getLsbD 12 = true ∧ die.val < 16 ∧ v.physUp die p = true) ∧ (v.core c).test = .none ∧
       ((16 ≤ coreSlot c ∨ v.placedCtx c = none))) ∧
    (let s : State := after fun w => let w := live w; w; let m : Master := .firmware 0; let value : Word := 0x8000;
     let n : Nat := (s.look.woWrite (s.look.clampBy m) Reg.ERR_ABORT value.toNat).1;
     let v : Work := (s.look.woWrite (s.look.clampBy m) Reg.ERR_ABORT value.toNat).2; let w := s.look; let who := w.clampBy m;
     s.powered = true ∧ w.woWrite who Reg.ERR_ABORT value.toNat = (n, v) ∧ bits n 15 1 = 1) ∧
    (let s : State := after fun w => let w := live w; w; let m : Master := .firmware 0; let value : Word := 0;
     let n : Nat := (s.look.woWrite (s.look.clampBy m) Reg.ERR_FW_HEART value.toNat).1;
     let v : Work := (s.look.woWrite (s.look.clampBy m) Reg.ERR_FW_HEART value.toNat).2; let w := s.look; let who := w.clampBy m;
     (s.powered = true ∧ w.woWrite who Reg.ERR_FW_HEART value.toNat = (n, v)) ∧ SMap.get false v.hw.fwLate (bits n 0 3) = false) ∧
    (let s : State := after fun w => let w := live w; let w := { w with hw := { w.hw with fwLate := [(0, true)] } }; w;
     let m : Master := .firmware 0; let value : Word := 0; let n : Nat := (s.look.woWrite (s.look.clampBy m) Reg.ERR_FW_HEART value.toNat).1;
     let v : Work := (s.look.woWrite (s.look.clampBy m) Reg.ERR_FW_HEART value.toNat).2; let w := s.look; let who := w.clampBy m;
     (s.powered = true ∧ w.woWrite who Reg.ERR_FW_HEART value.toNat = (n, v)) ∧ SMap.get false v.hw.fwLate (bits n 0 3) = true) ∧
    (let s : State := after fun w => let w := live w; w; let m : Master := .firmware 0; let value : Word := 1;
     let n : Nat := (s.look.woWrite (s.look.clampBy m) Reg.ERR_RELEASE value.toNat).1;
     let v : Work := (s.look.woWrite (s.look.clampBy m) Reg.ERR_RELEASE value.toNat).2; let w := s.look; let who := w.clampBy m;
     (s.powered = true ∧ w.woWrite who Reg.ERR_RELEASE value.toNat = (n, v)) ∧ (value.getLsbD 0 = true ∧ bits n 0 1 = 1 ∧ bits n 1 1 = 0 ∧
       v.railsOn = true)) ∧
    (let s : State := after fun w => let w := live w; w; let m : Master := .firmware 0; let value : Word := 2;
     let n : Nat := (s.look.woWrite (s.look.clampBy m) Reg.ERR_RELEASE value.toNat).1;
     let v : Work := (s.look.woWrite (s.look.clampBy m) Reg.ERR_RELEASE value.toNat).2; let w := s.look; let who := w.clampBy m;
     (s.powered = true ∧ w.woWrite who Reg.ERR_RELEASE value.toNat = (n, v)) ∧ (value.getLsbD 1 = true ∧ bits n 0 1 = 0 ∧ bits n 1 1 = 1)) :=
  ⟨by decide +kernel,
    by decide +kernel,
    by decide +kernel,
    by decide +kernel,
    by decide +kernel,
    by decide +kernel,
    by decide +kernel,
    by decide +kernel,
    by decide +kernel⟩

/-- The hypotheses of `Obligations.ErrUnits`, of its part ErrSelfTests, are met. -/
theorem test_hyps_ErrSelfTests :
    (let s : State := after fun w => let w := live w; let w := w.updCore 0 fun k => { k with test := .pending }; w; let c : CoreIx := 0;
     let w := s.look; let runs := s.powered = true ∧ w.clocked = true;
     runs ∧ w.coreDisabled c = false ∧ (w.core c).test = .pending ∧ w.placedCtx c = none ∧ SMap.find? s.hw.exiting c = none ∧
       (w.core c).drained = true) ∧
    (let s : State := after fun w => let w := live w; let w := w.updCore 0 fun k => { k with test := .running false }; w; let c : CoreIx := 0;
     let w := s.look; let runs := s.powered = true ∧ w.clocked = true;
     runs ∧ (w.core c).test = .running false) ∧
    (let s : State := after fun w => let w := live w; let w := w.updCore 0 fun k => { k with test := .running true }; w; let c : CoreIx := 0;
     let w := s.look; let runs := s.powered = true ∧ w.clocked = true;
     runs ∧ (w.core c).test = .running true) :=
  ⟨by decide +kernel,
    by decide +kernel,
    by decide +kernel⟩

/-- The hypotheses of `Obligations.ErrWatchdogs` are met. -/
theorem test_hyps_ErrWatchdogs :
    (let s : State := after fun w => let w := live w; let w := { w with hw := { w.hw with abortsDue := [5] } }; w; let w := s.look;
     s.powered = true ∧ w.abortWaits = true) ∧
    (let s : State := after fun w => let w := live w; let w := placed 0 5 w; w; let w := s.look; let c : CoreIx := 0; let x := (5 : Nat);
     s.powered = true ∧ w.placedCtx c = some x ∧ w.coreUp c = true ∧ (w.core c).halt = .none) ∧
    (let s : State := after fun w => let w := live w;
     let w := w.setReq 3 { Req.make (.ctl 0) (.read 8) none 0 0 0 0 0 with stage := .translate }; w; let w := s.look; let req := (3 : Nat);
     let q := { Req.make (.ctl 0) (.read 8) none 0 0 0 0 0 with stage := .translate };
     s.powered = true ∧ w.req? req = some q ∧ q.stage ≠ .replied ∧ q.src.core? ≠ none ∧ q.bad = .ok) ∧
    (let s : State := after fun w => let w := live w;
     let w := w.setReq 3 { Req.make (.host 0 1) (.read 8) none 0 0 0 0 0 with stage := .translate }; w; let w := s.look; let req := (3 : Nat);
     let q := { Req.make (.host 0 1) (.read 8) none 0 0 0 0 0 with stage := .translate }; let port := (0 : Nat); let tag := (1 : Nat);
     s.powered = true ∧ w.req? req = some q ∧ q.stage ≠ .replied ∧ q.src = .host port tag) ∧
    (let s : State := after fun w => let w := live w;
     let w := w.updChan 0 fun k => { k with queue := [⟨some 3, 0, 32, 0, none, some 5, 0, 0, 0⟩] }; w; let w := s.look; let r : RegionIx := 0;
     let n : Fin 64 := 0;
     s.powered = true ∧ w.clocked = true ∧ w.regionDisabled r = false ∧ (w.chan (64 * r.val + n.val)).queue ≠ [] ∧ SMap.get 0 s.hw.bistRun r = 0) ∧
    (let s : State := after fun w => let w := live w; w; let w := s.look; s.powered = true ∧ w.clocked = true) ∧
    (let s : State := after fun w => let w := live w;
     let w := { w with hw := { w.hw with orphans := [(3, Req.make (.host 0 1) (.read 8) none 0 0 0 0 0)] } }; w; let i := (3 : Nat);
     let q := Req.make (.host 0 1) (.read 8) none 0 0 0 0 0; let port := (0 : Nat); let tag := (1 : Nat);
     (s.powered = true ∧ SMap.find? s.hw.orphans i = some q) ∧ q.src = .host port tag) ∧
    (let s : State := after fun w => let w := live w;
     let w := { w with hw := { w.hw with orphans := [(3, Req.make (.ctl 0) (.read 8) none 0 0 0 0 0)] } }; w; let i := (3 : Nat);
     let q := Req.make (.ctl 0) (.read 8) none 0 0 0 0 0;
     (s.powered = true ∧ SMap.find? s.hw.orphans i = some q) ∧ q.src.core? ≠ none) ∧
    (let s : State := after fun w => let w := live w; w; s.powered = true) ∧
    (let s : State := after fun w => let w := live w;
     let w := (w.setFld (Reg.BOOT_STATUS 0) Fld.BOOT_STATUS_STAGE 3).setFld (Reg.BOOT_STATUS 0) Fld.BOOT_STATUS_SOURCE 1;
     let w := { w with hw := { w.hw with fwLate := [(0, true)] } }; w; let w := s.look; let mc : Fin 8 := 0;
     let src := w.fld (Reg.BOOT_STATUS 0) Fld.BOOT_STATUS_SOURCE; let m := mc.val;
     (s.powered = true ∧ w.fld (Reg.BOOT_STATUS 0) Fld.BOOT_STATUS_STAGE = 3 ∧ src ≠ 0) ∧ SMap.get false s.hw.fwLate m = true) ∧
    (let s : State := after fun w => let w := live w;
     let w := (w.setFld (Reg.BOOT_STATUS 0) Fld.BOOT_STATUS_STAGE 3).setFld (Reg.BOOT_STATUS 0) Fld.BOOT_STATUS_SOURCE 1;
     let w := (((List.range 4).foldl (fun w i => w.flSet (0x400010 + i) 0) w : Work), 0).1;
     let w := (leBytes 48 0x38b060a751ac96384cd9327eb1b1e36a21fdb71114be07434c0cc7bf63f6e1da274edebfe76f65fbd51ad2f14898b95b).reverse.zipIdx.foldl (fun w b => w.flSet (0x400120 + b.2) b.1) w; w;
     let w := s.look; let mc : Fin 8 := 0; let rd : ReadCheck := .clean; let src := w.fld (Reg.BOOT_STATUS 0) Fld.BOOT_STATUS_SOURCE;
     let m := mc.val;
     (s.powered = true ∧ w.fld (Reg.BOOT_STATUS 0) Fld.BOOT_STATUS_STAGE = 3 ∧ src ≠ 0) ∧ (SMap.get false s.hw.fwLate m = false ∧
       w.checkPasses (src - 1) 6 = true ∧ rd = .clean)) ∧
    (let s : State := after fun w => let w := live w;
     let w := (w.setFld (Reg.BOOT_STATUS 0) Fld.BOOT_STATUS_STAGE 3).setFld (Reg.BOOT_STATUS 0) Fld.BOOT_STATUS_SOURCE 1; w; let w := s.look;
     let mc : Fin 8 := 0; let rd : ReadCheck := .lasting; let src := w.fld (Reg.BOOT_STATUS 0) Fld.BOOT_STATUS_SOURCE; let m := mc.val;
     (s.powered = true ∧ w.fld (Reg.BOOT_STATUS 0) Fld.BOOT_STATUS_STAGE = 3 ∧ src ≠ 0) ∧ (SMap.get false s.hw.fwLate m = false ∧
       (w.checkPasses (src - 1) 6 = false ∨ rd = .lasting) ∧ rd ≠ .transient)) :=
  ⟨by decide +kernel,
    by decide +kernel,
    by decide +kernel,
    by decide +kernel,
    by decide +kernel,
    by decide +kernel,
    by decide +kernel,
    by decide +kernel,
    by decide +kernel,
    by decide +kernel,
    by decide +kernel,
    by decide +kernel⟩

/-- The hypotheses of `Obligations.ErrResets` are met. -/
theorem test_hyps_ErrResets :
    (let s : State := after fun w => let w := live w; let w := { w with hw := { w.hw with resetsDue := [0] } }; w; let r : RegionIx := 0;
     let n : Nat := 0; let w := s.look;
     s.powered = true ∧ w.dueReset r = some n ∧ w.clocked = true ∧ w.regionDisabled r = false ∧ w.regionTagHeld r = false) ∧
    (let s : State := after fun w => let w := live w; let w := { w with hw := { w.hw with resetsDue := [16] } };
     let w := { w with hw := { w.hw with escTimes := [(288, [0, 0, 0, 0])] } }; w; let n : Nat := 16; let w := s.look;
     let counted := decide (n / 32 % 2 = 0); let u := w.resetChip; let u := if counted then u.escAdd 288 Reg.ERR_ESC_CHIP 60 else u;
     let u := (u.setChipState 1).bootReset; let often := counted && decide (4 ≤ u.escCount 288 60);
     (s.powered = true ∧ w.dueReset 16 = some n ∧ w.railsOn = true ∧ s.hw.starterOk = true) ∧ often = true) ∧
    (let s : State := after fun w => let w := live w; let w := { w with hw := { w.hw with resetsDue := [16] } };
     let w := (w.setFlag Reg.CLK_STATUS Fld.CLK_STATUS_A_STABLE false).setFlag Reg.CLK_STATUS Fld.CLK_STATUS_B_STABLE false; w;
     let n : Nat := 16; let w := s.look; let counted := decide (n / 32 % 2 = 0); let u := w.resetChip;
     let u := if counted then u.escAdd 288 Reg.ERR_ESC_CHIP 60 else u; let u := (u.setChipState 1).bootReset;
     let often := counted && decide (4 ≤ u.escCount 288 60);
     (s.powered = true ∧ w.dueReset 16 = some n ∧ w.railsOn = true ∧ s.hw.starterOk = true) ∧ (often = false ∧ u.chooseRef = none)) ∧
    (let s : State := after fun w => let w := live w; let w := { w with hw := { w.hw with resetsDue := [16] } };
     let w := (w.setFlag Reg.CLK_STATUS Fld.CLK_STATUS_A_STABLE true).setFlag Reg.CLK_STATUS Fld.CLK_STATUS_B_STABLE true; w; let n : Nat := 16;
     let w := s.look; let counted := decide (n / 32 % 2 = 0); let u := w.resetChip;
     let u := if counted then u.escAdd 288 Reg.ERR_ESC_CHIP 60 else u; let u := (u.setChipState 1).bootReset;
     let often := counted && decide (4 ≤ u.escCount 288 60); let ref := (0 : Nat);
     (s.powered = true ∧ w.dueReset 16 = some n ∧ w.railsOn = true ∧ s.hw.starterOk = true) ∧ (often = false ∧ u.chooseRef = some ref)) :=
  ⟨by decide +kernel,
    by decide +kernel,
    by decide +kernel,
    by decide +kernel⟩

/-- The hypotheses of `Obligations.ClkSources` are met. -/
theorem test_hyps_ClkSources :
    (let s : State := after fun w => let w := live w; w; let m : Master := .firmware 0; let value : Word := 0;
     let n : Nat := (s.look.woWrite (s.look.clampBy m) Reg.CLK_CMD value.toNat).1;
     let v : Work := (s.look.woWrite (s.look.clampBy m) Reg.CLK_CMD value.toNat).2; let w := s.look;
     (s.powered = true ∧ w.woWrite (w.clampBy m) Reg.CLK_CMD value.toNat = (n, v)) ∧ bits n 0 1 = 0) ∧
    (let s : State := after fun w => let w := live w; w; let m : Master := .firmware 0; let value : Word := 1;
     let n : Nat := (s.look.woWrite (s.look.clampBy m) Reg.CLK_CMD value.toNat).1;
     let v : Work := (s.look.woWrite (s.look.clampBy m) Reg.CLK_CMD value.toNat).2; let w := s.look;
     (s.powered = true ∧ w.woWrite (w.clampBy m) Reg.CLK_CMD value.toNat = (n, v)) ∧ (bits n 0 1 = 1 ∧ v.chipState = 0)) ∧
    (let s : State := after fun w => let w := live w; let w := w.setFld Reg.ERR_CHIP Fld.ERR_CHIP_STATE 1; w; let m : Master := .firmware 0;
     let value : Word := 1; let n : Nat := (s.look.woWrite (s.look.clampBy m) Reg.CLK_CMD value.toNat).1;
     let v : Work := (s.look.woWrite (s.look.clampBy m) Reg.CLK_CMD value.toNat).2; let w := s.look;
     (s.powered = true ∧ w.woWrite (w.clampBy m) Reg.CLK_CMD value.toNat = (n, v)) ∧ (bits n 0 1 = 1 ∧ v.chipState ≠ 0)) ∧
    (let s : State := after fun w => let w := live w; let w := w.setFld Reg.CLK_STATUS Fld.CLK_STATUS_REF_ACTIVE 1; w; let ref : Fin 2 := 0;
     let w := s.look; let st := Reg.CLK_STATUS; let i := ref.val;
     let pres := if i = 0 then Fld.CLK_STATUS_A_PRESENT else Fld.CLK_STATUS_B_PRESENT;
     let stab := if i = 0 then Fld.CLK_STATUS_A_STABLE else Fld.CLK_STATUS_B_STABLE; let lost := (w.setFlag st pres false).setFlag st stab false;
     let u : Work := { lost with hw := { lost.hw with stableWins := SMap.set 0 lost.hw.stableWins i 0 } };
     s.powered = true ∧ (u.refActive ≠ i ∨ u.clocked = false)) ∧
    (let s : State := after fun w => let w := live w; let w := w.setFld Reg.CLK_STATUS Fld.CLK_STATUS_REF_ACTIVE 0;
     let w := w.setFld Reg.ERR_CHIP Fld.ERR_CHIP_STATE 1;
     let w := (w.setFlag Reg.CLK_STATUS Fld.CLK_STATUS_A_STABLE true).setFlag Reg.CLK_STATUS Fld.CLK_STATUS_B_STABLE true; w;
     let ref : Fin 2 := 0; let w := s.look; let st := Reg.CLK_STATUS; let i := ref.val;
     let pres := if i = 0 then Fld.CLK_STATUS_A_PRESENT else Fld.CLK_STATUS_B_PRESENT;
     let stab := if i = 0 then Fld.CLK_STATUS_A_STABLE else Fld.CLK_STATUS_B_STABLE; let lost := (w.setFlag st pres false).setFlag st stab false;
     let u : Work := { lost with hw := { lost.hw with stableWins := SMap.set 0 lost.hw.stableWins i 0 } };
     s.powered = true ∧ (u.refActive = i ∧ u.clocked = true ∧ u.chipState = 1 ∧ u.refStable (1 - i) = true)) ∧
    (let s : State := after fun w => let w := live w; let w := w.setFld Reg.CLK_STATUS Fld.CLK_STATUS_REF_ACTIVE 0;
     let w := (w.setFlag Reg.CLK_STATUS Fld.CLK_STATUS_A_STABLE true).setFlag Reg.CLK_STATUS Fld.CLK_STATUS_B_STABLE true;
     let w := w.setFlag Reg.CLK_CTRL Fld.CLK_CTRL_FAILOVER true; w; let ref : Fin 2 := 0; let w := s.look; let st := Reg.CLK_STATUS;
     let i := ref.val; let pres := if i = 0 then Fld.CLK_STATUS_A_PRESENT else Fld.CLK_STATUS_B_PRESENT;
     let stab := if i = 0 then Fld.CLK_STATUS_A_STABLE else Fld.CLK_STATUS_B_STABLE; let lost := (w.setFlag st pres false).setFlag st stab false;
     let u : Work := { lost with hw := { lost.hw with stableWins := SMap.set 0 lost.hw.stableWins i 0 } };
     s.powered = true ∧ (u.refActive = i ∧ u.clocked = true ∧ ¬ (u.chipState = 1 ∧ u.refStable (1 - i) = true)) ∧ (u.refStable (1 - i) = true ∧
       u.flag Reg.CLK_CTRL Fld.CLK_CTRL_FAILOVER = true)) ∧
    (let s : State := after fun w => let w := live w; let w := w.setFld Reg.CLK_STATUS Fld.CLK_STATUS_REF_ACTIVE 0;
     let w := (w.setFlag Reg.CLK_STATUS Fld.CLK_STATUS_A_STABLE false).setFlag Reg.CLK_STATUS Fld.CLK_STATUS_B_STABLE false; w;
     let ref : Fin 2 := 0; let w := s.look; let st := Reg.CLK_STATUS; let i := ref.val;
     let pres := if i = 0 then Fld.CLK_STATUS_A_PRESENT else Fld.CLK_STATUS_B_PRESENT;
     let stab := if i = 0 then Fld.CLK_STATUS_A_STABLE else Fld.CLK_STATUS_B_STABLE; let lost := (w.setFlag st pres false).setFlag st stab false;
     let u : Work := { lost with hw := { lost.hw with stableWins := SMap.set 0 lost.hw.stableWins i 0 } };
     s.powered = true ∧ (u.refActive = i ∧ u.clocked = true ∧ ¬ (u.chipState = 1 ∧ u.refStable (1 - i) = true)) ∧
       (u.refStable (1 - i) = false ∨ u.flag Reg.CLK_CTRL Fld.CLK_CTRL_FAILOVER = false)) ∧
    (let s : State := after fun w => let w := live w; w; let w := s.look; let st := Reg.CLK_STATUS;
     s.powered = true ∧ w.clocked = true ∧ w.flag st Fld.CLK_STATUS_LOCKED = true) ∧
    (let s : State := after fun w => let w := live w;
     let w := (w.setFlag Reg.CLK_STATUS Fld.CLK_STATUS_A_STABLE true).setFlag Reg.CLK_STATUS Fld.CLK_STATUS_B_STABLE true;
     let w := w.setFlag Reg.CLK_STATUS Fld.CLK_STATUS_HALTED true; w; let w := s.look; let st := Reg.CLK_STATUS;
     s.powered = true ∧ w.flag st Fld.CLK_STATUS_HALTED = true ∧ (w.refStable 0 = true ∨ w.refStable 1 = true)) ∧
    (let s : State := after fun w => let w := live w; w; s.powered = true) ∧
    (let s : State := after fun w => let w := live w; let w := { w with hw := { w.hw with mgmtHere := false } };
     w; s.hw.standby = true ∧ s.hw.mgmtHere = false) :=
  ⟨by decide +kernel,
    by decide +kernel,
    by decide +kernel,
    by decide +kernel,
    by decide +kernel,
    by decide +kernel,
    by decide +kernel,
    by decide +kernel,
    by decide +kernel,
    by decide +kernel,
    by decide +kernel⟩

/-- The hypotheses of `Obligations.PwrTripsAndSupplies` are met. -/
theorem test_hyps_PwrTripsAndSupplies :
    (let s : State := after fun w => let w := live w; w; let die : DieIx := 0; let j : Byte := 50; let w := s.look; let d := die.val;
     let th := w.fld Reg.PWR_THERM_CFG; let hot := th Fld.PWR_THERM_CFG_THROT_J; let hotD := th Fld.PWR_THERM_CFG_THROT_D;
     let hyst := th Fld.PWR_THERM_CFG_HYST_T; let stack := w.fld (Reg.MEM_TEMP d) Fld.MEM_TEMP_MAX; let a := Reg.PWR_RG_STATUS d;
     let ceil := w.fld a Fld.PWR_RG_STATUS_CEIL;
     let next := if hot ≤ j.toNat ∨ hotD ≤ stack then ladderStep ceil 1 else if j.toNat + hyst < hot ∧
       stack + hyst < hotD then ladderStep ceil 8 else ceil;
     s.powered = true ∧ d < 16 ∧ next = ceil ∧ ceil < 16) ∧
    (let s : State := after fun w => let w := live w; w; let die : DieIx := 0; let j : Byte := 255; let w := s.look; let d := die.val;
     let th := w.fld Reg.PWR_THERM_CFG; let hot := th Fld.PWR_THERM_CFG_THROT_J; let hotD := th Fld.PWR_THERM_CFG_THROT_D;
     let hyst := th Fld.PWR_THERM_CFG_HYST_T; let stack := w.fld (Reg.MEM_TEMP d) Fld.MEM_TEMP_MAX; let a := Reg.PWR_RG_STATUS d;
     let ceil := w.fld a Fld.PWR_RG_STATUS_CEIL;
     let next := if hot ≤ j.toNat ∨ hotD ≤ stack then ladderStep ceil 1 else if j.toNat + hyst < hot ∧
       stack + hyst < hotD then ladderStep ceil 8 else ceil;
     s.powered = true ∧ d < 16 ∧ next ≠ ceil) ∧
    (let s : State := after fun w => let w := live w; w; let die : DieIx := 16; let j : Byte := 255; let w := s.look; let d := die.val;
     let th := w.fld Reg.PWR_THERM_CFG; let hot := th Fld.PWR_THERM_CFG_THROT_J;
     s.powered = true ∧ 16 ≤ d ∧ d < 30 ∧ hot ≤ j.toNat) ∧
    (let s : State := after fun w => let w := live w; w; let die : DieIx := 30; let d := die.val; s.powered = true ∧ 30 ≤ d) ∧
    (let s : State := after fun w => let w := live w; let w := { w with hw := { w.hw with junction := [(0, 120)] } }; w; let die : DieIx := 0;
     let w := s.look; let d := die.val;
     (s.powered = true ∧ w.tripped = false ∧ w.railsOn = true) ∧ (d < 30 ∧ 110 ≤ w.junction d)) ∧
    (let s : State := after fun w => let w := live w; let w := w.setFld (Reg.MEM_TEMP 0) Fld.MEM_TEMP_MAX 99; w; let die : DieIx := 0;
     let w := s.look; let d := die.val; let stack := w.fld (Reg.MEM_TEMP d) Fld.MEM_TEMP_MAX;
     (s.powered = true ∧ w.tripped = false ∧ w.railsOn = true) ∧ (d < 16 ∧ 98 ≤ stack)) ∧
    (let s : State := after fun w => let w := live w; w; let w := s.look; s.powered = true ∧ w.tripped = false ∧ w.railsOn = true) ∧
    (let s : State := after fun w => let w := live w; w; s.powered = true) ∧
    (let s : State := after fun w => let w := live w; let w := w.setFlag Reg.PWR_STATUS Fld.PWR_STATUS_TRIPPED true; w;
     let m : Master := .firmware 0; let value : Word := 1; let n : Nat := (s.look.woWrite (s.look.clampBy m) Reg.PWR_CMD value.toNat).1;
     let v : Work := (s.look.woWrite (s.look.clampBy m) Reg.PWR_CMD value.toNat).2; let w := s.look;
     let restarts := bits n 0 1 = 1 ∧ v.tripped = true ∧ v.fld Reg.PWR_TRIP_INFO Fld.PWR_TRIP_INFO_CAUSE ≠ 2 ∧ v.cool = true;
     (s.powered = true ∧ w.woWrite (w.clampBy m) Reg.PWR_CMD value.toNat = (n, v)) ∧ restarts) ∧
    (let s : State := after fun w => let w := live w; w; let m : Master := .firmware 0; let value : Word := 0;
     let n : Nat := (s.look.woWrite (s.look.clampBy m) Reg.PWR_CMD value.toNat).1;
     let v : Work := (s.look.woWrite (s.look.clampBy m) Reg.PWR_CMD value.toNat).2; let w := s.look;
     let restarts := bits n 0 1 = 1 ∧ v.tripped = true ∧ v.fld Reg.PWR_TRIP_INFO Fld.PWR_TRIP_INFO_CAUSE ≠ 2 ∧ v.cool = true;
     (s.powered = true ∧ w.woWrite (w.clampBy m) Reg.PWR_CMD value.toNat = (n, v)) ∧ ¬ restarts) ∧
    (let s : State := after fun w => let w := live w;
     let w := ((w.setFlag (Reg.PWR_SD_STATUS 0) Fld.PWR_SD_STATUS_RAILS_ON false).setFlag (Reg.PWR_SD_STATUS 1) Fld.PWR_SD_STATUS_RAILS_ON false);
     let w := { w with hw := { w.hw with railsDue := true } }; w; let w := s.look;
     s.powered = true ∧ s.hw.railsDue = true ∧ s.hw.starterOk = true ∧ w.railsOn = false) ∧
    (let s : State := after fun w => let w := live w; let w := { w with hw := { w.hw with standby := false } }; w; s.hw.standby = false) :=
  ⟨by decide +kernel,
    by decide +kernel,
    by decide +kernel,
    by decide +kernel,
    by decide +kernel,
    by decide +kernel,
    by decide +kernel,
    by decide +kernel,
    by decide +kernel,
    by decide +kernel,
    by decide +kernel,
    by decide +kernel⟩

/-- The hypotheses of `Obligations.KilnBudgetAndProof` are met. -/
theorem test_hyps_KilnBudgetAndProof :
    (let s : State := after fun w => let w := live w; w; s.powered = true) ∧
    (let s : State := after fun w => let w := live w; let w := { w with hw := { w.hw with longWaits := [0] } };
     let w := w.setFlag Reg.PWR_CTRL Fld.PWR_CTRL_LEND_EN true; w; let c : CoreIx := 0; let w := s.look;
     let v := ((s.look.takeNotice 0 false).getD s.look); let kc := v.kilnCore c;
     let may := v.flag Reg.PWR_CTRL Fld.PWR_CTRL_LEND_EN = true ∧ coreSlot c < 16 ∧ v.coreDisabled c = false ∧ v.forced c = false ∧
       kc.lent = false ∧ kc.back = none;
     (s.powered = true ∧ w.takeNotice c false = some v) ∧ may) ∧
    (let s : State := after fun w => let w := live w; let w := { w with hw := { w.hw with longWaits := [0] } };
     let w := w.setFlag Reg.PWR_CTRL Fld.PWR_CTRL_LEND_EN false; w; let c : CoreIx := 0; let w := s.look;
     let v := ((s.look.takeNotice 0 false).getD s.look); let kc := v.kilnCore c;
     let may := v.flag Reg.PWR_CTRL Fld.PWR_CTRL_LEND_EN = true ∧ coreSlot c < 16 ∧ v.coreDisabled c = false ∧ v.forced c = false ∧
       kc.lent = false ∧ kc.back = none;
     (s.powered = true ∧ w.takeNotice c false = some v) ∧ ¬ may) ∧
    (let s : State := after fun w => let w := live w; let w := { w with hw := { w.hw with longWaits := [1] } }; w; let c : CoreIx := 0;
     let w := s.look; let v := ((s.look.takeNotice 0 true).getD s.look);
     s.powered = true ∧ w.takeNotice c true = some v) ∧
    (let s : State := after fun w => let w := live w; let w := { w with hw := { w.hw with kiln := [(0, ⟨8, 0, false, some [0]⟩)] } }; w;
     let c : CoreIx := 0; let w := s.look; let k := w.kilnCore c; let low := ([0] : List Nat);
     s.powered = true ∧ w.takeNotice c true = none ∧ k.back = some low ∧ (∀ g ∈ low, w.mtxLevelNow (globalSlot g) ≤ w.capOf (globalSlot g))) ∧
    (let s : State := after fun w => let w := live w; let w := { w with hw := { w.hw with proof := [(0, 1)] } };
     let w := w.setFld (Reg.MTX_PROOF_CTRL 0) Fld.MTX_PROOF_CTRL_LEVEL 1; w; let c : CoreIx := 0; let w := s.look; let p := Reg.MTX_PROOF_CTRL c;
     let level := max 1 (w.fld p Fld.MTX_PROOF_CTRL_LEVEL); let u := w.settleLevel c;
     (s.powered = true ∧ w.forced c = true) ∧ (u.proofOver c = true ∧ level ≤ 1)) ∧
    (let s : State := after fun w => let w := live w; let w := { w with hw := { w.hw with proof := [(0, 1)] } };
     let w := w.setFld (Reg.MTX_PROOF_CTRL 0) Fld.MTX_PROOF_CTRL_LEVEL 3; w; let c : CoreIx := 0; let w := s.look; let p := Reg.MTX_PROOF_CTRL c;
     let level := max 1 (w.fld p Fld.MTX_PROOF_CTRL_LEVEL); let u := w.settleLevel c;
     (s.powered = true ∧ w.forced c = true) ∧ (u.proofOver c = true ∧ 1 < level)) ∧
    (let s : State := after fun w => let w := live w; let w := { w with hw := { w.hw with proof := [(0, 1)] } };
     let w := w.setFld Reg.ERR_CHIP Fld.ERR_CHIP_STATE 1; w; let c : CoreIx := 0; let w := s.look; let u := w.settleLevel c;
     (s.powered = true ∧ w.forced c = true) ∧ u.proofOver c = false) :=
  ⟨by decide +kernel,
    by decide +kernel,
    by decide +kernel,
    by decide +kernel,
    by decide +kernel,
    by decide +kernel,
    by decide +kernel,
    by decide +kernel⟩

/-- The hypotheses of `Obligations.BootStrapsAndChain` are met. -/
theorem test_hyps_BootStrapsAndChain :
    (let s : State := after fun w => let w := live w; let w := { w with hw := { w.hw with strapRound := 2 } }; w; let round := s.hw.strapRound;
     s.powered = true ∧ round = 2) ∧
    (let s : State := after fun w => let w := live w; let w := { w with hw := { w.hw with strapRound := 0 } }; w; let samples : BitVec 72 := 0;
     let round := s.hw.strapRound; let v (i : Nat) : Nat := bits samples.toNat (9 * i) 9; let agree := ∀ i, i < 8 → v i = v 7;
     s.powered = true ∧ round ≠ 2 ∧ agree) ∧
    (let s : State := after fun w => let w := live w; let w := { w with hw := { w.hw with strapRound := 0 } }; w; let samples : BitVec 72 := 1;
     let round := s.hw.strapRound; let v (i : Nat) : Nat := bits samples.toNat (9 * i) 9; let agree := ∀ i, i < 8 → v i = v 7;
     s.powered = true ∧ round = 0 ∧ ¬ agree) ∧
    (let s : State := after fun w => let w := live w; let w := { w with hw := { w.hw with strapRound := 1 } }; w; let samples : BitVec 72 := 1;
     let round := s.hw.strapRound; let v (i : Nat) : Nat := bits samples.toNat (9 * i) 9; let agree := ∀ i, i < 8 → v i = v 7;
     s.powered = true ∧ round ≠ 0 ∧ round ≠ 2 ∧ ¬ agree) ∧
    (let s : State := after fun w => let w := live w; w; let frame : BitVec 19 := 393734; let w := s.look; let st := Reg.BOOT_ACHAIN_STAT 1;
     let bad := s.hw.badFrame; let good := s.powered = true ∧ frame.getLsbD 0 = false ∧ frameGood frame = true;
     good ∧ bad = false ∧ w.flag st Fld.BOOT_ACHAIN_STAT_VALID = false) ∧
    (let s : State := after fun w => let w := live w;
     let w := ((w.setFlag (Reg.BOOT_ACHAIN_STAT 1) Fld.BOOT_ACHAIN_STAT_VALID true).setFld (Reg.BOOT_ACHAIN_STAT 1) Fld.BOOT_ACHAIN_STAT_BLOCK 3); w;
     let frame : BitVec 19 := 393734; let w := s.look; let st := Reg.BOOT_ACHAIN_STAT 1; let block := bits frame.toNat 1 8;
     let bad := s.hw.badFrame; let good := s.powered = true ∧ frame.getLsbD 0 = false ∧ frameGood frame = true;
     good ∧ bad = false ∧ w.flag st Fld.BOOT_ACHAIN_STAT_VALID = true ∧ w.fld st Fld.BOOT_ACHAIN_STAT_BLOCK = block) ∧
    (let s : State := after fun w => let w := live w;
     let w := ((w.setFlag (Reg.BOOT_ACHAIN_STAT 1) Fld.BOOT_ACHAIN_STAT_VALID true).setFld (Reg.BOOT_ACHAIN_STAT 1) Fld.BOOT_ACHAIN_STAT_BLOCK 4); w;
     let frame : BitVec 19 := 393734; let w := s.look; let st := Reg.BOOT_ACHAIN_STAT 1; let block := bits frame.toNat 1 8;
     let bad := s.hw.badFrame; let good := s.powered = true ∧ frame.getLsbD 0 = false ∧ frameGood frame = true;
     good ∧ bad = false ∧ w.flag st Fld.BOOT_ACHAIN_STAT_VALID = true ∧ w.fld st Fld.BOOT_ACHAIN_STAT_BLOCK ≠ block) ∧
    (let s : State := after fun w => let w := live w; let w := { w with hw := { w.hw with badFrame := true } }; w;
     let frame : BitVec 19 := 393734; let bad := s.hw.badFrame; let good := s.powered = true ∧ frame.getLsbD 0 = false ∧ frameGood frame = true;
     good ∧ bad = true) ∧
    (let s : State := after fun w => let w := live w; w; let frame : BitVec 19 := 131590; let bad := s.hw.badFrame;
     s.powered = true ∧ frame.getLsbD 0 = false ∧ frameGood frame = false ∧ bad = false) ∧
    (let s : State := after fun w => let w := live w; let w := { w with hw := { w.hw with badFrame := true } }; w;
     let frame : BitVec 19 := 131590; let bad := s.hw.badFrame;
     s.powered = true ∧ frame.getLsbD 0 = false ∧ frameGood frame = false ∧ bad = true) ∧
    (let s : State := after fun w => let w := live w; let w := { w with hw := { w.hw with badFrame := true } }; w; let bad := s.hw.badFrame;
     s.powered = true ∧ bad = true) ∧
    (let s : State := after fun w => let w := live w; w; let m : Master := .firmware 0; let value : Word := 1; let w := s.look;
     let n := (s.look.woWrite (s.look.clampBy m) (Reg.BOOT_ACHAIN_CMD 1) value.toNat).1;
     let u := (s.look.woWrite (s.look.clampBy m) (Reg.BOOT_ACHAIN_CMD 1) value.toNat).2;
     s.powered = true ∧ w.woWrite (w.clampBy m) (Reg.BOOT_ACHAIN_CMD 1) value.toNat = (n, u) ∧ bits n 0 1 = 1) :=
  ⟨by decide +kernel,
    by decide +kernel,
    by decide +kernel,
    by decide +kernel,
    by decide +kernel,
    by decide +kernel,
    by decide +kernel,
    by decide +kernel,
    by decide +kernel,
    by decide +kernel,
    by decide +kernel,
    by decide +kernel⟩

/-- The hypotheses of `Obligations.BootChoosesAndLoads` are met. -/
theorem test_hyps_BootChoosesAndLoads :
    (let s : State := after fun w => let w := live w; let w := w.setFld (Reg.BOOT_STATUS 0) Fld.BOOT_STATUS_STAGE 0;
     let w := { w with hw := { w.hw with starterOk := false } }; w; let w := s.look; let st := Reg.BOOT_STATUS 0;
     let fresh := s.powered = true ∧ s.hw.starterOk = false ∧ w.fld st Fld.BOOT_STATUS_STAGE = 0;
     fresh) ∧
    (let s : State := after fun w => let w := live w; let w := w.setFld (Reg.BOOT_STATUS 0) Fld.BOOT_STATUS_STAGE 1;
     let w := w.setFld Reg.ERR_CHIP Fld.ERR_CHIP_STATE 1; let w := w.setFlag (Reg.BOOT_STRAP 1) Fld.BOOT_STRAP_RECOVERY true; w; let w := s.look;
     let st := Reg.BOOT_STATUS 0; let asked := s.powered = true ∧ s.hw.starterOk = true ∧ w.chipState = 1 ∧ w.fld st Fld.BOOT_STATUS_STAGE = 1;
     asked ∧ w.flag (Reg.BOOT_STRAP 1) Fld.BOOT_STRAP_RECOVERY = true) ∧
    (let s : State := booting []; let w := s.look; let st := Reg.BOOT_STATUS 0;
     let asked := s.powered = true ∧ s.hw.starterOk = true ∧ w.chipState = 1 ∧ w.fld st Fld.BOOT_STATUS_STAGE = 1;
     let boots := asked ∧ w.flag (Reg.BOOT_STRAP 1) Fld.BOOT_STRAP_RECOVERY = false;
     boots ∧ pointerOf w.records = none) ∧
    (let s : State := booting [(1, 1), (2, 1), (2, 1), (2, 1)]; let w := s.look; let st := Reg.BOOT_STATUS 0;
     let asked := s.powered = true ∧ s.hw.starterOk = true ∧ w.chipState = 1 ∧ w.fld st Fld.BOOT_STATUS_STAGE = 1;
     let boots := asked ∧ w.flag (Reg.BOOT_STRAP 1) Fld.BOOT_STRAP_RECOVERY = false; let p := pointer;
     boots ∧ pointerOf w.records = some p ∧ confirmed w.records p = false ∧ 3 ≤ attempts w.records p) ∧
    (let s : State := booting [(1, 1)]; let w := s.look; let st := Reg.BOOT_STATUS 0;
     let asked := s.powered = true ∧ s.hw.starterOk = true ∧ w.chipState = 1 ∧ w.fld st Fld.BOOT_STATUS_STAGE = 1;
     let boots := asked ∧ w.flag (Reg.BOOT_STRAP 1) Fld.BOOT_STRAP_RECOVERY = false; let p := pointer;
     boots ∧ pointerOf w.records = some p ∧ (confirmed w.records p = true ∨ attempts w.records p < 3)) ∧
    (let s : State := after fun w => let w := live w; let w := w.setFld (Reg.BOOT_STATUS 0) Fld.BOOT_STATUS_STAGE 2; w; let w := s.look;
     let st := Reg.BOOT_STATUS 0;
     s.powered = true ∧ w.fld st Fld.BOOT_STATUS_STAGE = 2 ∧ s.hw.booted = true) ∧
    (let s : State := after fun w => let w := live w; let w := w.setFld (Reg.BOOT_STATUS 0) Fld.BOOT_STATUS_STAGE 3;
     let w := { w with hw := { w.hw with recErase := some 0 } }; w; let w := s.look; let st := Reg.BOOT_STATUS 0; let k := (0 : Nat);
     s.powered = true ∧ s.hw.recErase = some k ∧ 3 ≤ w.fld st Fld.BOOT_STATUS_STAGE) :=
  ⟨by decide +kernel,
    by decide +kernel,
    ⟨by decide +kernel, by rw [no_record]; decide +kernel⟩,
    ⟨by decide +kernel, by rw [four_records]; decide +kernel, by rw [four_records]; decide +kernel, by rw [four_records]; decide +kernel⟩,
    ⟨by decide +kernel, by rw [one_record]; decide +kernel, by rw [one_record]; decide +kernel⟩,
    by decide +kernel,
    by decide +kernel⟩

/-- The hypotheses of `Obligations.FlashCommands`, of its part FlashCommandsStart, are met. -/
theorem test_hyps_FlashCommandsStart :
    (let value : Word := 0; let op := bits value.toNat 0 4; op = 0) ∧
    (let value : Word := 1; let op := bits value.toNat 0 4; op = 1) ∧
    (let value : Word := 2; let op := bits value.toNat 0 4; op = 2) ∧
    (let value : Word := 3; let op := bits value.toNat 0 4; op = 3) ∧
    (let value : Word := 4; let op := bits value.toNat 0 4; op = 4) ∧
    (let value : Word := 5; let op := bits value.toNat 0 4; op = 5) ∧
    (let value : Word := 6; let op := bits value.toNat 0 4; op = 6) ∧
    (let value : Word := 7; let op := bits value.toNat 0 4; op = 7) ∧
    (let value : Word := 8; let op := bits value.toNat 0 4; 8 ≤ op) :=
  ⟨by decide +kernel,
    by decide +kernel,
    by decide +kernel,
    by decide +kernel,
    by decide +kernel,
    by decide +kernel,
    by decide +kernel,
    by decide +kernel,
    by decide +kernel⟩

/-- The hypotheses of `Obligations.FlashCommands`, of its part FlashCommandsComplete, are met. -/
theorem test_hyps_FlashCommandsComplete :
    (let s : State := after fun w => let w := live w; let w := { w with hw := { w.hw with flashHeld := true } };
     let w := { w with hw := { w.hw with flashCmd := some ⟨0, 0, 0, 0, []⟩ } }; w; let c : FlashCmd := ⟨0, 0, 0, 0, []⟩;
     s.powered = true ∧ s.hw.flashCmd = some c ∧ s.hw.flashHeld = true) ∧
    (let s : State := after fun w => let w := live w; let w := { w with hw := { w.hw with flashCmd := some ⟨0, 0, 0, 0, []⟩ } }; w;
     let c : FlashCmd := ⟨0, 0, 0, 0, []⟩;
     let runs (op : Nat) : Prop := s.powered = true ∧ s.hw.flashCmd = some c ∧ s.hw.flashHeld = false ∧ c.op = op;
     runs 0) ∧
    (let s : State := after fun w => let w := live w; let w := w.setFld (Reg.BOOT_STATUS 0) Fld.BOOT_STATUS_SOURCE 1;
     let w := w.setFld (Reg.BOOT_FUSE 0) Fld.BOOT_FUSE_SVN_MIN 0; let w := { w with hw := { w.hw with flashCmd := some ⟨1, 0, 0, 0, []⟩ } }; w;
     let c : FlashCmd := ⟨1, 0, 0, 0, []⟩; let w := s.look; let fuse := Reg.BOOT_FUSE 0;
     let runs (op : Nat) : Prop := s.powered = true ∧ s.hw.flashCmd = some c ∧ s.hw.flashHeld = false ∧ c.op = op; let r := (0 : Nat);
     (runs 1 ∧ w.runningSlot = some r) ∧ w.fld fuse Fld.BOOT_FUSE_SVN_MIN < w.hdrSvn r) ∧
    (let s : State := after fun w => let w := live w; let w := w.setFld (Reg.BOOT_STATUS 0) Fld.BOOT_STATUS_SOURCE 1;
     let w := w.flSet 0x400007 0; let w := { w with hw := { w.hw with flashCmd := some ⟨1, 0, 0, 0, []⟩ } }; w;
     let c : FlashCmd := ⟨1, 0, 0, 0, []⟩; let w := s.look; let fuse := Reg.BOOT_FUSE 0;
     let runs (op : Nat) : Prop := s.powered = true ∧ s.hw.flashCmd = some c ∧ s.hw.flashHeld = false ∧ c.op = op; let r := (0 : Nat);
     (runs 1 ∧ w.runningSlot = some r) ∧ w.hdrSvn r ≤ w.fld fuse Fld.BOOT_FUSE_SVN_MIN) ∧
    (let s : State := after fun w => let w := live w; let w := w.setFld (Reg.BOOT_STATUS 0) Fld.BOOT_STATUS_SOURCE 0;
     let w := { w with hw := { w.hw with flashCmd := some ⟨1, 0, 0, 0, []⟩ } }; w; let c : FlashCmd := ⟨1, 0, 0, 0, []⟩; let w := s.look;
     let runs (op : Nat) : Prop := s.powered = true ∧ s.hw.flashCmd = some c ∧ s.hw.flashHeld = false ∧ c.op = op;
     runs 1 ∧ w.runningSlot = none) ∧
    (let s : State := after fun w => let w := live w; let w := w.setFld (Reg.BOOT_STATUS 0) Fld.BOOT_STATUS_SOURCE 1;
     let w := w.flSet 0x400006 0; let w := { w with hw := { w.hw with flashCmd := some ⟨2, 0, 0, 0, []⟩ } }; w;
     let c : FlashCmd := ⟨2, 0, 0, 0, []⟩; let w := s.look;
     let runs (op : Nat) : Prop := s.powered = true ∧ s.hw.flashCmd = some c ∧ s.hw.flashHeld = false ∧ c.op = op; let r := (0 : Nat);
     runs 2 ∧ w.runningSlot = some r ∧ w.hdrKey r = c.key) ∧
    (let s : State := after fun w => let w := live w; let w := w.setFld (Reg.BOOT_STATUS 0) Fld.BOOT_STATUS_SOURCE 0;
     let w := { w with hw := { w.hw with flashCmd := some ⟨2, 0, 0, 0, []⟩ } }; w; let c : FlashCmd := ⟨2, 0, 0, 0, []⟩; let w := s.look;
     let runs (op : Nat) : Prop := s.powered = true ∧ s.hw.flashCmd = some c ∧ s.hw.flashHeld = false ∧ c.op = op;
     runs 2 ∧ (w.runningSlot.all fun r => decide (w.hdrKey r ≠ c.key)) = true) ∧
    (let s : State := booting [(1, 1)]; let c : FlashCmd := ⟨3, 0, 0, 0, []⟩; let w := s.look;
     let runs (op : Nat) : Prop := s.powered = true ∧ s.hw.flashCmd = some c ∧ s.hw.flashHeld = false ∧ c.op = op; let l := w.records;
     let p := pointer;
     runs 3 ∧ pointerOf l = some p ∧ confirmed l p = false ∧ w.runningSlot = some p.slot) ∧
    (let s : State := booting []; let c : FlashCmd := ⟨3, 0, 0, 0, []⟩; let w := s.look;
     let runs (op : Nat) : Prop := s.powered = true ∧ s.hw.flashCmd = some c ∧ s.hw.flashHeld = false ∧ c.op = op; let l := w.records;
     runs 3 ∧ ((pointerOf l).all fun p => confirmed l p || decide (w.runningSlot ≠ some p.slot)) = true) ∧
    (let s : State := after fun w => let w := live w; let w := w.setFlag (Reg.BOOT_SLOT 0 0) Fld.BOOT_SLOT_VERIFIED true;
     let w := { w with hw := { w.hw with flashCmd := some ⟨4, 0, 0, 0, []⟩ } }; w; let c : FlashCmd := ⟨4, 0, 0, 0, []⟩; let w := s.look;
     let runs (op : Nat) : Prop := s.powered = true ∧ s.hw.flashCmd = some c ∧ s.hw.flashHeld = false ∧ c.op = op;
     runs 4 ∧ w.flag (Reg.BOOT_SLOT 0 c.slot) Fld.BOOT_SLOT_VERIFIED = true) ∧
    (let s : State := after fun w => let w := live w; let w := w.setFlag (Reg.BOOT_SLOT 0 0) Fld.BOOT_SLOT_VERIFIED false;
     let w := { w with hw := { w.hw with flashCmd := some ⟨4, 0, 0, 0, []⟩ } }; w; let c : FlashCmd := ⟨4, 0, 0, 0, []⟩; let w := s.look;
     let runs (op : Nat) : Prop := s.powered = true ∧ s.hw.flashCmd = some c ∧ s.hw.flashHeld = false ∧ c.op = op;
     runs 4 ∧ w.flag (Reg.BOOT_SLOT 0 c.slot) Fld.BOOT_SLOT_VERIFIED = false) ∧
    (let s : State := after fun w => let w := live w; let w := { w with hw := { w.hw with flashCmd := some ⟨5, 0, 0, 0, []⟩ } }; w;
     let c : FlashCmd := ⟨5, 0, 0, 0, []⟩; let w := s.look;
     let runs (op : Nat) : Prop := s.powered = true ∧ s.hw.flashCmd = some c ∧ s.hw.flashHeld = false ∧ c.op = op;
     let sector := c.arg / 65536 * 65536; let page := c.arg / 256 * 256;
     (runs 5 ∧ w.flProtected sector = true ∨ runs 6 ∧ w.flProtected page = true)) ∧
    (let s : State := after fun w => let w := live w; let w := { w with hw := { w.hw with flashCmd := some ⟨5, 0, 0, 2228224, []⟩ } }; w;
     let f1 : Bool := true; let c : FlashCmd := ⟨5, 0, 0, 2228224, []⟩; let w := s.look;
     let runs (op : Nat) : Prop := s.powered = true ∧ s.hw.flashCmd = some c ∧ s.hw.flashHeld = false ∧ c.op = op;
     let sector := c.arg / 65536 * 65536;
     (runs 5 ∧ w.flProtected sector = false) ∧ f1 = true) ∧
    (let s : State := after fun w => let w := live w; let w := { w with hw := { w.hw with flashCmd := some ⟨5, 0, 0, 2228224, []⟩ } }; w;
     let f1 : Bool := false; let f2 : Bool := true; let c : FlashCmd := ⟨5, 0, 0, 2228224, []⟩; let w := s.look;
     let runs (op : Nat) : Prop := s.powered = true ∧ s.hw.flashCmd = some c ∧ s.hw.flashHeld = false ∧ c.op = op;
     let sector := c.arg / 65536 * 65536;
     (runs 5 ∧ w.flProtected sector = false) ∧ (f1 = false ∧ f2 = true)) ∧
    (let s : State := after fun w => let w := live w; let w := { w with hw := { w.hw with flashCmd := some ⟨5, 0, 0, 2228224, []⟩ } }; w;
     let f1 : Bool := false; let f2 : Bool := false; let c : FlashCmd := ⟨5, 0, 0, 2228224, []⟩; let w := s.look;
     let runs (op : Nat) : Prop := s.powered = true ∧ s.hw.flashCmd = some c ∧ s.hw.flashHeld = false ∧ c.op = op;
     let sector := c.arg / 65536 * 65536;
     (runs 5 ∧ w.flProtected sector = false) ∧ (f1 = false ∧ f2 = false)) ∧
    (let s : State := after fun w => let w := live w; let w := { w with hw := { w.hw with flashCmd := some ⟨6, 0, 0, 2228224, []⟩ } }; w;
     let f1 : Bool := true; let c : FlashCmd := ⟨6, 0, 0, 2228224, []⟩; let w := s.look;
     let runs (op : Nat) : Prop := s.powered = true ∧ s.hw.flashCmd = some c ∧ s.hw.flashHeld = false ∧ c.op = op; let page := c.arg / 256 * 256;
     (runs 6 ∧ w.flProtected page = false) ∧ f1 = true) ∧
    (let s : State := after fun w => let w := live w; let w := { w with hw := { w.hw with flashCmd := some ⟨6, 0, 0, 2228224, []⟩ } }; w;
     let f1 : Bool := false; let f2 : Bool := true; let c : FlashCmd := ⟨6, 0, 0, 2228224, []⟩; let w := s.look;
     let runs (op : Nat) : Prop := s.powered = true ∧ s.hw.flashCmd = some c ∧ s.hw.flashHeld = false ∧ c.op = op; let page := c.arg / 256 * 256;
     (runs 6 ∧ w.flProtected page = false) ∧ (f1 = false ∧ f2 = true)) ∧
    (let s : State := after fun w => let w := live w; let w := { w with hw := { w.hw with flashCmd := some ⟨6, 0, 0, 2228224, []⟩ } }; w;
     let f1 : Bool := false; let f2 : Bool := false; let c : FlashCmd := ⟨6, 0, 0, 2228224, []⟩; let w := s.look;
     let runs (op : Nat) : Prop := s.powered = true ∧ s.hw.flashCmd = some c ∧ s.hw.flashHeld = false ∧ c.op = op; let page := c.arg / 256 * 256;
     (runs 6 ∧ w.flProtected page = false) ∧ (f1 = false ∧ f2 = false)) ∧
    (let s : State := after fun w => let w := live w; let w := w.setFld (Reg.BOOT_STATUS 0) Fld.BOOT_STATUS_SOURCE 1;
     let w := { w with hw := { w.hw with flashCmd := some ⟨7, 0, 0, 0, []⟩ } }; w; let c : FlashCmd := ⟨7, 0, 0, 0, []⟩; let w := s.look;
     let runs (op : Nat) : Prop := s.powered = true ∧ s.hw.flashCmd = some c ∧ s.hw.flashHeld = false ∧ c.op = op;
     runs 7 ∧ w.runningSlot = some c.slot) ∧
    (let s : State := after fun w => let w := live w; let w := w.setFld (Reg.BOOT_STATUS 0) Fld.BOOT_STATUS_SOURCE 0;
     let w := { w with hw := { w.hw with flashCmd := some ⟨7, 0, 0, 0, []⟩ } }; w; let c : FlashCmd := ⟨7, 0, 0, 0, []⟩; let w := s.look;
     let runs (op : Nat) : Prop := s.powered = true ∧ s.hw.flashCmd = some c ∧ s.hw.flashHeld = false ∧ c.op = op;
     runs 7 ∧ w.runningSlot ≠ some c.slot) ∧
    (let s : State := after fun w => let w := live w; let w := { w with hw := { w.hw with flashCmd := some ⟨8, 0, 0, 0, []⟩ } }; w;
     let f1 : Bool := true; let c : FlashCmd := ⟨8, 0, 0, 0, []⟩;
     let runs (op : Nat) : Prop := s.powered = true ∧ s.hw.flashCmd = some c ∧ s.hw.flashHeld = false ∧ c.op = op; let op := (8 : Nat);
     (8 ≤ op ∧ runs op) ∧ f1 = true) ∧
    (let s : State := after fun w => let w := live w; let w := { w with hw := { w.hw with flashCmd := some ⟨8, 0, 0, 0, []⟩ } }; w;
     let f1 : Bool := false; let f2 : Bool := true; let c : FlashCmd := ⟨8, 0, 0, 0, []⟩;
     let runs (op : Nat) : Prop := s.powered = true ∧ s.hw.flashCmd = some c ∧ s.hw.flashHeld = false ∧ c.op = op; let op := (8 : Nat);
     (8 ≤ op ∧ runs op) ∧ (f1 = false ∧ f2 = true)) ∧
    (let s : State := after fun w => let w := live w; let w := { w with hw := { w.hw with flashCmd := some ⟨8, 0, 0, 0, []⟩ } }; w;
     let f1 : Bool := false; let f2 : Bool := false; let c : FlashCmd := ⟨8, 0, 0, 0, []⟩;
     let runs (op : Nat) : Prop := s.powered = true ∧ s.hw.flashCmd = some c ∧ s.hw.flashHeld = false ∧ c.op = op; let op := (8 : Nat);
     (8 ≤ op ∧ runs op) ∧ (f1 = false ∧ f2 = false)) :=
  ⟨by decide +kernel,
    by decide +kernel,
    by decide +kernel,
    by decide +kernel,
    by decide +kernel,
    by decide +kernel,
    by decide +kernel,
    ⟨by decide +kernel, by rw [one_record]; decide +kernel, by rw [one_record]; decide +kernel, by decide +kernel⟩,
    ⟨by decide +kernel, by rw [no_record]; decide +kernel⟩,
    by decide +kernel,
    by decide +kernel,
    by decide +kernel,
    by decide +kernel,
    by decide +kernel,
    by decide +kernel,
    by decide +kernel,
    by decide +kernel,
    by decide +kernel,
    by decide +kernel,
    by decide +kernel,
    by decide +kernel,
    by decide +kernel,
    by decide +kernel⟩

/-- The hypotheses of `Obligations.HubLinks` are met. -/
theorem test_hyps_HubLinks :
    (let s : State := after fun w => let w := live w; let w := w.setFld (Reg.HUB_STATUS 0) Fld.HUB_STATUS_LTSSM 3; w; s.powered = true) ∧
    (let s : State := after fun w => let w := live w; let w := w.setFld (Reg.HUB_STATUS 0) Fld.HUB_STATUS_LTSSM 3; w; let h : Fin 2 := 0;
     let w := s.look; let up := s.powered = true ∧ w.linkInL0 h = true;
     up) ∧
    (let s : State := after fun w => let w := live w; let w := w.setFld (Reg.HUB_STATUS 0) Fld.HUB_STATUS_LTSSM 3; w; let h : Fin 2 := 0;
     let l : LinkUp := ⟨true, 0, 0⟩; let w := s.look; let up := s.powered = true ∧ w.linkInL0 h = true;
     up ∧ l.up = true) ∧
    (let s : State := after fun w => let w := live w; let w := w.setFld (Reg.HUB_STATUS 0) Fld.HUB_STATUS_LTSSM 3; w; let h : Fin 2 := 0;
     let l : LinkUp := ⟨false, 0, 0⟩; let w := s.look; let up := s.powered = true ∧ w.linkInL0 h = true;
     up ∧ l.up = false) :=
  ⟨by decide +kernel,
    by decide +kernel,
    by decide +kernel,
    by decide +kernel⟩

/-- The hypotheses of `Obligations.HubWordsAndVectors` are met. -/
theorem test_hyps_HubWordsAndVectors :
    (let s : State := after fun w => let w := live w; w; let w := s.look; let up := s.powered = true ∧ w.hubUp = true; up) ∧
    (let s : State := after fun w => let w := live w; w; let w := s.look; let up := s.powered = true ∧ w.hubUp = true; let v : Fin 256 := 2;
     up ∧ 2 ≤ v.val) ∧
    (let s : State := after fun w => let w := live w;
     let w := w.setReq 3 { Req.make (.host 0 1) (.read 8) none 0 0 0 0 0 with stage := .translate }; w; let w := s.look; let req := 3;
     let q := { Req.make (.host 0 1) (.read 8) none 0 0 0 0 0 with stage := .translate }; let p := 0; let tag := 1; let n := 8;
     s.powered = true ∧ w.req? req = some q ∧ q.src = .host p tag ∧ q.op = .read n ∧ q.stage ≠ .replied) ∧
    (let s : State := after fun w => let w := live w; let w := w.setFld (Reg.HUB_STATUS 0) Fld.HUB_STATUS_LTSSM 3;
     let w := { w with hw := { w.hw with msixPend := [(2, true)], pci := [(0, { PciPort.reset with msix := true })] } };
     let w := w.setMsixWord 0 11 0; w; let w := s.look; let h : Fin 2 := 0; let v : Fin 256 := 2;
     s.powered = true ∧ w.msixReady h v = true) :=
  ⟨by decide +kernel,
    by decide +kernel,
    by decide +kernel,
    by decide +kernel⟩

/-- The hypotheses of `Obligations.HostMailboxRaisesVector` are met. -/
theorem test_hyps_HostMailboxRaisesVector :
    (let s : State := after live; let k : Fin 8 := 0; s.powered = true ∧ s.look.hmbValid k = false) ∧
    (let w : Work := (live State.reset.look); let mbox : Nat := 8; let src : Nat := 0; let msgid : Nat := 0; let k : Fin 8 := 0;
     let data : List Byte := []; let u := w.mailbox mbox src msgid data;
     w.hmbValid k = false ∧ u.hmbValid k = true) :=
  ⟨by decide +kernel,
    by decide +kernel⟩

/-- The hypotheses of `Obligations.MgtPlane` are met. -/
theorem test_hyps_MgtPlane :
    (let s : State := after fun w => let w := live w; let w := w.setFlag (Reg.MGT_HMB_HDR 0 0) Fld.MGT_HMB_HDR_VALID true; w;
     let m : Master := .firmware 0; let w := s.look; let who := w.clampBy m; let value : DWord := 0;
     let n := (s.look.woWrite (s.look.clampBy m) (Reg.MGT_HMB_POST 0) value.toNat).1;
     let v := (s.look.woWrite (s.look.clampBy m) (Reg.MGT_HMB_POST 0) value.toNat).2; let k := bits n 0 3;
     (s.powered = true ∧ w.woWrite who (Reg.MGT_HMB_POST 0) value.toNat = (n, v)) ∧ v.flag (Reg.MGT_HMB_HDR 0 k) Fld.MGT_HMB_HDR_VALID = true) ∧
    (let s : State := after fun w => let w := live w; let w := w.setFlag (Reg.MGT_HMB_HDR 0 0) Fld.MGT_HMB_HDR_VALID false; w;
     let m : Master := .firmware 0; let w := s.look; let who := w.clampBy m; let value : DWord := 0;
     let n := (s.look.woWrite (s.look.clampBy m) (Reg.MGT_HMB_POST 0) value.toNat).1;
     let v := (s.look.woWrite (s.look.clampBy m) (Reg.MGT_HMB_POST 0) value.toNat).2; let k := bits n 0 3;
     (s.powered = true ∧ w.woWrite who (Reg.MGT_HMB_POST 0) value.toNat = (n, v)) ∧ v.flag (Reg.MGT_HMB_HDR 0 k) Fld.MGT_HMB_HDR_VALID = false) ∧
    (let s : State := after fun w => let w := live w; w; s.powered = true) ∧
    (let s : State := after fun w => let w := live w; let w := w.setFlag (Reg.MGT_SB_CFG 1) Fld.MGT_SB_CFG_MODE true; w; let w := s.look;
     s.powered = true ∧ w.flag (Reg.MGT_SB_CFG 1) Fld.MGT_SB_CFG_MODE = true) ∧
    (let s : State := after fun w => let w := live w; w; let m : Master := .firmware 0; let w := s.look; let who := w.clampBy m;
     let value : Word := 0; let n := (s.look.woWrite (s.look.clampBy m) (Reg.MGT_TEL_CTRL 0) value.toNat).1;
     let v := (s.look.woWrite (s.look.clampBy m) (Reg.MGT_TEL_CTRL 0) value.toNat).2;
     (s.powered = true ∧ w.woWrite who (Reg.MGT_TEL_CTRL 0) value.toNat = (n, v)) ∧ bits n 0 1 = 0) ∧
    (let s : State := after fun w => let w := live w; w; let m : Master := .firmware 0; let w := s.look; let who := w.clampBy m;
     let value : Word := 1; let n := (s.look.woWrite (s.look.clampBy m) (Reg.MGT_TEL_CTRL 0) value.toNat).1;
     let v := (s.look.woWrite (s.look.clampBy m) (Reg.MGT_TEL_CTRL 0) value.toNat).2;
     (s.powered = true ∧ w.woWrite who (Reg.MGT_TEL_CTRL 0) value.toNat = (n, v)) ∧ bits n 0 1 = 1) :=
  ⟨by decide +kernel,
    by decide +kernel,
    by decide +kernel,
    by decide +kernel,
    by decide +kernel,
    by decide +kernel⟩

/-- The hypotheses of `Obligations.DbgTriggersAndSamples`, of its part DbgTriggersAndTraces, are met. -/
theorem test_hyps_DbgTriggersAndTraces :
    (let s : State := after fun w => let w := live w; w; s.powered = true ∧ s.hw.trigConds = 0) ∧
    (let s : State := after fun w => let w := live w; let w := { w with hw := { w.hw with trigConds := 1 } };
     w; s.powered = true ∧ s.hw.trigConds ≠ 0) ∧
    (let s : State := after fun w => let w := live w; let w := { w with hw := { w.hw with trigRegs := ⟨0, 0, 0⟩ } }; w;
     let m : Master := .firmware 0; let value : Word := 1; let w := s.look; let who := w.clampBy m;
     let armed (u : Work) : Bool := u.trigCtl Fld.DBG_TRIG_CTRL_ARM; let n := (s.look.woWrite (s.look.clampBy m) Reg.DBG_TRIG_CMD value.toNat).1;
     let v := (s.look.woWrite (s.look.clampBy m) Reg.DBG_TRIG_CMD value.toNat).2;
     (s.powered = true ∧ value.getLsbD 0 = true ∧ w.woWrite who Reg.DBG_TRIG_CMD value.toNat = (n, v) ∧ bits n 0 1 = 1) ∧ armed v = false) ∧
    (let s : State := after fun w => let w := live w; let w := { w with hw := { w.hw with trigRegs := ⟨0xFFFFFFFF, 0, 0⟩ } };
     let w := w.setFlag Reg.DBG_TRIG_STAT Fld.DBG_TRIG_STAT_HIT true; w; let m : Master := .firmware 0; let value : Word := 1; let w := s.look;
     let who := w.clampBy m; let st := Reg.DBG_TRIG_STAT; let armed (u : Work) : Bool := u.trigCtl Fld.DBG_TRIG_CTRL_ARM;
     let n := (s.look.woWrite (s.look.clampBy m) Reg.DBG_TRIG_CMD value.toNat).1;
     let v := (s.look.woWrite (s.look.clampBy m) Reg.DBG_TRIG_CMD value.toNat).2;
     (s.powered = true ∧ value.getLsbD 0 = true ∧ w.woWrite who Reg.DBG_TRIG_CMD value.toNat = (n, v) ∧ bits n 0 1 = 1) ∧ (armed v = true ∧
       v.flag st Fld.DBG_TRIG_STAT_HIT = true)) ∧
    (let s : State := after fun w => let w := live w; let w := { w with hw := { w.hw with trigRegs := ⟨0xFFFFFFFF, 0, 0⟩ } };
     let w := w.setFlag Reg.DBG_TRIG_STAT Fld.DBG_TRIG_STAT_HIT false; w; let m : Master := .firmware 0; let value : Word := 1; let w := s.look;
     let who := w.clampBy m; let st := Reg.DBG_TRIG_STAT; let armed (u : Work) : Bool := u.trigCtl Fld.DBG_TRIG_CTRL_ARM;
     let n := (s.look.woWrite (s.look.clampBy m) Reg.DBG_TRIG_CMD value.toNat).1;
     let v := (s.look.woWrite (s.look.clampBy m) Reg.DBG_TRIG_CMD value.toNat).2;
     (s.powered = true ∧ value.getLsbD 0 = true ∧ w.woWrite who Reg.DBG_TRIG_CMD value.toNat = (n, v) ∧ bits n 0 1 = 1) ∧ (armed v = true ∧
       v.flag st Fld.DBG_TRIG_STAT_HIT = false)) ∧
    (let s : State := after fun w => let w := live w; w; let m : Master := .firmware 0; let value : Word := 2; let w := s.look;
     let who := w.clampBy m; let n := (s.look.woWrite (s.look.clampBy m) Reg.DBG_TRIG_CMD value.toNat).1;
     let v := (s.look.woWrite (s.look.clampBy m) Reg.DBG_TRIG_CMD value.toNat).2;
     s.powered = true ∧ value.getLsbD 1 = true ∧ w.woWrite who Reg.DBG_TRIG_CMD value.toNat = (n, v) ∧ bits n 0 1 = 0 ∧ bits n 1 1 = 1) ∧
    (let value : Word := 3; value.getLsbD 0 = true ∧ value.getLsbD 1 = true) ∧
    (let s : State := after fun w => let w := live w; let w := { w with hw := { w.hw with trigLeft := 1 } };
     w; s.powered = true ∧ s.hw.trigLeft = 1) ∧
    (let s : State := after fun w => let w := live w; w; s.powered = true) ∧
    (let s : State := after fun w => let w := live w; w; let m : Master := .firmware 0; let value : Word := 1; let w := s.look;
     let trace := w.regWrite m Reg.DBG_TRACE_CFG .w32 15 value.toNat;
     s.powered = true ∧ value.getLsbD 0 = true ∧ trace.flag Reg.DBG_TRACE_CFG Fld.DBG_TRACE_CFG_EN = true) ∧
    (let s : State := after fun w => let w := live w; let w := { w with hw := { w.hw with tracePost := some 0 } };
     w; s.powered = true ∧ s.hw.tracePost = some 0) ∧
    (let s : State := after fun w => let w := live w; let w := w.setFlag Reg.DBG_OBS_CFG Fld.DBG_OBS_CFG_EN false; w;
     let m : Master := .firmware 0; let value : Word := 1; let w := s.look; let cfg := w.regWrite m Reg.DBG_OBS_CFG .w32 15 value.toNat;
     let en (u : Work) : Bool := u.flag Reg.DBG_OBS_CFG Fld.DBG_OBS_CFG_EN;
     s.powered = true ∧ value.getLsbD 0 = true ∧ en cfg = true ∧ en w = false) ∧
    (let s : State := after fun w => let w := live w; let w := w.setFlag Reg.DBG_OBS_CFG Fld.DBG_OBS_CFG_EN true; w;
     let m : Master := .firmware 0; let value : Word := 1; let w := s.look; let cfg := w.regWrite m Reg.DBG_OBS_CFG .w32 15 value.toNat;
     let en (u : Work) : Bool := u.flag Reg.DBG_OBS_CFG Fld.DBG_OBS_CFG_EN;
     s.powered = true ∧ value.getLsbD 0 = true ∧ en cfg = true ∧ en w = true) ∧
    (let s : State := after fun w => let w := live w; w; let m : Master := .firmware 0; let value : Word := 0; let die : DieIx := 0;
     let w := s.look; let cnt := w.regWrite m (Reg.DBG_CNT_CTRL die) .w32 15 value.toNat;
     s.powered = true ∧ cnt.frozen die = w.frozen die) ∧
    (let s : State := after fun w => let w := live w; w; let m : Master := .firmware 0; let value : Word := 1; let die : DieIx := 0;
     let w := s.look; let cnt := w.regWrite m (Reg.DBG_CNT_CTRL die) .w32 15 value.toNat;
     s.powered = true ∧ cnt.frozen die ≠ w.frozen die) :=
  ⟨by decide +kernel,
    by decide +kernel,
    by decide +kernel,
    by decide +kernel,
    by decide +kernel,
    by decide +kernel,
    by decide +kernel,
    by decide +kernel,
    by decide +kernel,
    by decide +kernel,
    by decide +kernel,
    by decide +kernel,
    by decide +kernel,
    by decide +kernel,
    by decide +kernel⟩

/-- The hypotheses of `Obligations.DbgTriggersAndSamples`, of its part DbgSamples, are met. -/
theorem test_hyps_DbgSamples :
    (let s : State := after fun w => let w := live w; let w := w.setFlag Reg.DBG_OBS_CFG Fld.DBG_OBS_CFG_SRC false;
     let w := w.setFld Reg.CLK_STATUS Fld.CLK_STATUS_DOM_SRC 2; w; let w := s.look;
     s.powered = true ∧ w.oclkRuns = false) ∧
    (let s : State := after fun w => let w := live w; let w := w.setFlag Reg.DBG_OBS_CFG Fld.DBG_OBS_CFG_SRC true; w; let w := s.look;
     s.powered = true ∧ w.oclkRuns = true ∧ s.hw.trigConds = 0 ∧ s.hw.tracePost ≠ some 0 ∧ s.hw.trigLeft ≠ 1) :=
  ⟨by decide +kernel,
    by decide +kernel⟩

/-- The hypotheses of `Obligations.TapInstructions` are met. -/
theorem test_hyps_TapInstructions :
    (let s : State := after fun w => let w := live w; w; let ready := s.hw.standby = true ∧ s.hw.tapReset = false; ready) ∧
    (let s : State := State.reset; let ready := s.hw.standby = true ∧ s.hw.tapReset = false; ready) ∧
    (let s : State := State.reset; s.hw.standby = true) :=
  ⟨by decide +kernel,
    by decide +kernel,
    by decide +kernel⟩

theorem test_hyps_FlashCommandsStart_turnedAway : let s := after live; s.powered = true ∧ s.look.bootTakes (.host 0) = false := by decide +kernel

theorem test_hyps_FlashCommandsStart_busy : let s := after fun w => (live w).setFlag (Reg.BOOT_CMD_STAT 0) Fld.BOOT_CMD_STAT_BUSY true;
    s.powered = true ∧ s.look.bootTakes (.firmware 0) = true ∧ s.look.flag (Reg.BOOT_CMD_STAT 0) Fld.BOOT_CMD_STAT_BUSY = true := by decide +kernel

theorem test_hyps_FlashCommandsStart_taken : let s := after live; let p := s.look.woWrite (s.look.clampBy (.firmware 0)) (Reg.BOOT_CMD 0) 3;
    s.powered = true ∧ s.look.bootTakes (.firmware 0) = true ∧ s.look.flag (Reg.BOOT_CMD_STAT 0) Fld.BOOT_CMD_STAT_BUSY = false ∧
      s.look.woWrite (s.look.clampBy (.firmware 0)) (Reg.BOOT_CMD 0) 3 = (p.1, p.2) :=
  ⟨by decide +kernel, by decide +kernel, by decide +kernel, Prod.ext rfl rfl⟩

theorem test_hyps_TapInstructions_chipOff : let s := after fun w => (live w).setFld Reg.ERR_CHIP Fld.ERR_CHIP_STATE 2;
    s.hw.standby = true ∧ s.hw.tapReset = false ∧ s.look.chipState = 2 := by decide +kernel

theorem test_hyps_TapInstructions_chipOn : let s := after live; s.hw.standby = true ∧ s.hw.tapReset = false ∧ s.look.chipState ≠ 2 := by decide +kernel

theorem test_hyps_HostMailboxRaisesVector_post : let s := after live;
    s.powered = true ∧ s.look.hmbValid 0 = false ∧
      (match exec (.hmbPost (.firmware 0) 0) s with | .next t => t.look.hmbValid 0 | _ => false) = true := by decide +kernel

end Sys2Proof.Machine.Tests
end

section
/-! SUPPORT. When a count has reached a value (R84), and what CWAIT and a command's dependency make of it. -/

namespace Sys2Proof.Machine

/-- The model's test on naturals is the spec's comparison of the difference modulo 65,536 (R84). -/
theorem hasReached_iff (count v : Nat) : hasReached count v = true ↔ ((count : Int) - v) % 65536 < 32768 := by
  rw [hasReached, decide_eq_true_iff]
  omega

theorem not_hasReached {count v : Nat} (h : ¬ ((count : Int) - v) % 65536 < 32768) : hasReached count v = false := by
  rw [← Bool.not_eq_true, hasReached_iff]
  exact h

theorem row_of_atInsn {c : Nat} {row : Nat → Bool} {s : State} (h : atInsn c row s) : row (s.look.insn c) = true := h.2.2

/-- An instruction that only goes on. -/
theorem goes_ctl_nextPc {s : State} {c : Nat} {row : Nat → Bool} {f : Work → Nat → Work} (h : atInsn c row s)
    (hf : f s.look (s.look.insn c) = s.look.nextPc c) :
    goesTo (run s fun w => w.ctl c row f) fun t => coreBecomes c s t { s.look.core c with pc := (s.look.core c).pc + 4 } :=
  goes_ctl1 h (hf.trans (nextPc_upd ..)) rfl

/-- An instruction that only stalls. -/
theorem goes_ctl_setStall {s : State} {c : Nat} {row : Nat → Bool} {f : Work → Nat → Work} {x : CtlStall} (h : atInsn c row s)
    (hf : f s.look (s.look.insn c) = s.look.setStall c x) :
    goesTo (run s fun w => w.ctl c row f) fun t => coreBecomes c s t { s.look.core c with stall := x } :=
  goes_ctl1 h (hf.trans (setStall_upd ..)) rfl

theorem insEngine_of_le {i : Nat} (h : insEng i ≤ 4) : insEngine i = insEng i := Nat.min_eq_left h

/-- An engine number that names an engine is no clamp (R64). -/
theorem clampEng_of_le (w : Work) (c : Nat) {i : Nat} (h : insEng i ≤ 4) : w.clampEng c i = w := if_neg (by omega)

/-- A CWAIT whose engine has reached the value goes on (R84). -/
theorem cwait_goesOn {c : CoreIx} {s : State} (h : atInsn c (isQueue 5) s) (he : insEng (s.look.insn c) ≤ 4)
    (hr : hasReached (s.look.doneCount c (insEng (s.look.insn c))) ((s.look.g c (insGA (s.look.insn c))).toNat % 65536) = true) :
    goesTo (execCwait c s) fun t => coreBecomes c s t { s.look.core c with pc := (s.look.core c).pc + 4 } := by
  refine goes_ctl_nextPc h ?_
  simp only [clampEng_of_le _ _ he, insEngine_of_le he, hr, if_true]

/-- A CWAIT whose engine has not reached the value stalls the control core (R84). -/
theorem cwait_stalls {c : CoreIx} {s : State} (h : atInsn c (isQueue 5) s) (he : insEng (s.look.insn c) ≤ 4)
    (hr : hasReached (s.look.doneCount c (insEng (s.look.insn c))) ((s.look.g c (insGA (s.look.insn c))).toNat % 65536) = false) :
    goesTo (execCwait c s) fun t => coreBecomes c s t { s.look.core c with
      stall := .wait (insEng (s.look.insn c)) ((s.look.g c (insGA (s.look.insn c))).toNat % 65536) } := by
  refine goes_ctl_setStall h ?_
  simp only [clampEng_of_le _ _ he, insEngine_of_le he, hr, Bool.false_eq_true, if_false]

/-- A command that has a dependency waits for the count of the engine it names (R94). -/
theorem depMet_eq_hasReached (w : Work) (c : Nat) {cmd : CmdBits} (hen : cmdDepEn cmd = true) (he : cmdDepEng cmd ≤ 4) :
    w.depMet c cmd = hasReached (w.doneCount c (cmdDepEng cmd)) (cmdDepCount cmd) := by
  rw [Work.depMet, hen, Nat.min_eq_left he, Bool.not_true, Bool.false_or]

/-- Settles O11: the model's comparison is the one of R84, and both CWAIT and the dependency of a command go by it. -/
theorem countHasReached : Obligations.CountHasReached := by
  unfold Obligations.CountHasReached
  refine ⟨hasReached_iff, ?_, ?_⟩
  · rintro c s w i e v reached ⟨hat, he⟩
    exact ⟨fun hr => cwait_goesOn hat he ((hasReached_iff ..).mpr hr), fun hr => cwait_stalls hat he (not_hasReached hr)⟩
  · rintro w c cmd ⟨hen, he⟩
    rw [depMet_eq_hasReached w c hen he]
    exact hasReached_iff ..

end Sys2Proof.Machine
end

section
/-! SUPPORT. The special registers of a control core (R79): what each reads as, what an access to one does, and the generator that SEED writes (R136). -/

namespace Sys2Proof.Machine

/-! ### Values -/

/-- SEED reads as the state of the core's generator (R79, R136). -/
theorem special_seed (w : Work) (c : Nat) : w.special c 8 = (w.seed c).state :=
  (BitVec.ofNat_toNat ..).trans (BitVec.setWidth_eq _)

/-- The indices above SEED read as zero (R79). -/
theorem special_unassigned (w : Work) (c : Nat) {x : Nat} (h : 9 ≤ x) : w.special c x = 0 := by
  obtain ⟨n, rfl⟩ := Nat.exists_eq_add_of_le' h
  rfl

/-- No special register shows whether the control core is stalled. -/
theorem special_setStall (w : Work) (c : Nat) (x : CtlStall) (idx : Nat) : (w.setStall c x).special c idx = w.special c idx := rfl

/-- A stall leaves the general registers. -/
theorem g_setStall (w : Work) (c : Nat) (x : CtlStall) (d : Nat) : (w.setStall c x).g c d = (w.core c).g d := by
  simp only [Work.g, setStall_upd, core_updCore_self]
  rfl

/-- A stall and a write of a general register commute. -/
theorem setG_withStall (k : Core) (x : CtlStall) (d : Nat) (v : DWord) :
    ({ k with stall := x } : Core).setG d v = { k.setG d v with stall := x } := by
  unfold Core.setG
  split <;> rfl

/-! ### One access -/

theorem not_isSpecial_one {i : Nat} (h : isSpecial 2 i = true) : isSpecial 1 i = false := by
  simp only [isSpecial, Bool.and_eq_true, decide_eq_true_eq] at h ⊢
  simp [h.2]

theorem seedAccess_of_srd (w : Work) (c : Nat) {i : Nat} (h : isSpecial 1 i = true) :
    w.seedAccess c i = (w.setG c (insD i) (w.special c (insB i))).nextPc c := if_pos h

theorem seedAccess_of_swr_seed (w : Work) (c : Nat) {i : Nat} (h : isSpecial 2 i = true) (hb : insB i = 8) :
    w.seedAccess c i = (w.writeSeed c (w.g c (insA i))).nextPc c := by
  simp [Work.seedAccess, not_isSpecial_one h, hb]

/-- Only SEED takes a write (R79). -/
theorem seedAccess_of_swr_other (w : Work) (c : Nat) {i : Nat} (h : isSpecial 2 i = true) (hb : insB i ≠ 8) :
    w.seedAccess c i = w.nextPc c := by
  simp [Work.seedAccess, not_isSpecial_one h, hb]

/-! ### The generator written -/

/-- Core slot c is now k', its generator has taken the value v, a zero as the reset state (R136), and nothing else has changed. -/
def seedWritten (c : Nat) (s : State) (v : DWord) (k' : Core) (t : State) : Prop :=
  sameBytes s t ∧ sameWords s t ∧ sameCoresBut c s t ∧ t.pending = s.pending ∧ t.look.core c = k' ∧
    t.hw = { s.hw with cores := t.hw.cores, seeds := SMap.set Seed.reset s.hw.seeds c ⟨if v = 0 then Seed.reset.state else v, []⟩ }

/-- A write of SEED, after work that has changed core slot c only, and before a further change of that core. -/
theorem seedWritten_of {c : Nat} {s : State} {w : Work} (h : Work.onlyCore c s.look w) (v : DWord) (f : Core → Core) :
    seedWritten c s v (f (w.core c)) (Work.commit s ((w.writeSeed c v).updCore c f)) := by
  obtain ⟨hmem, hcsr, hwr, hcw, hhw, hother⟩ := h
  have hwild : w.hw.wild = s.hw.wild := by rw [hhw]; rfl
  refine ⟨sameBytes_of hmem hwr hwild, sameWords_of hcsr hcw, fun x hx => ?_, rfl, ?_, ?_⟩
  · rw [commit_core, core_updCore_other _ _ hx]
    exact hother x hx
  · exact core_updCore_self ..
  · simp only [commit_hw, Work.updCore, Work.setCore, Work.writeSeed, Work.setSeed]
    rw [hhw]
    rfl

/-! ### SRD and SWR -/

/-- SRD of a register that holds nothing back, or of SEED with the vector chain drained (R79, R136). -/
theorem srd_reads {c : CoreIx} {s : State} (h : atInsn c (isSpecial 1) s)
    (hw : (decide (insB (s.look.insn c) = 8) && !s.look.vecDrained c) = false) :
    goesTo (execSrd c s) fun t => coreBecomes c s t { (s.look.core c).setG (insD (s.look.insn c))
      (s.look.special c (insB (s.look.insn c))) with pc := (s.look.core c).pc + 4 } := by
  refine goes h.1 ?_
  rw [ctl_at h]
  simp only [hw, Bool.false_eq_true, if_false]
  rw [seedAccess_of_srd _ _ (row_of_atInsn h), setG_upd, nextPc_upd]
  refine becomes_of (onlyCore_updCore (onlyCore_updCore (onlyCore_refl ..) _) _) ?_
  simp only [core_updCore_self, setG_pc]

/-- SRD of SEED while the vector chain works (R136). -/
theorem srd_waits {c : CoreIx} {s : State} (h : atInsn c (isSpecial 1) s)
    (hw : (decide (insB (s.look.insn c) = 8) && !s.look.vecDrained c) = true) :
    goesTo (execSrd c s) fun t => coreBecomes c s t { s.look.core c with stall := .seed } :=
  goes_ctl_setStall h (if_pos hw)

/-- SWR of SEED while the vector chain works (R136). -/
theorem swr_waits {c : CoreIx} {s : State} (h : atInsn c (isSpecial 2) s)
    (hw : (decide (insB (s.look.insn c) = 8) && !s.look.vecDrained c) = true) :
    goesTo (execSwr c s) fun t => coreBecomes c s t { s.look.core c with stall := .seed } :=
  goes_ctl_setStall h (if_pos hw)

/-- SWR to any other special register only goes on (R79). -/
theorem swr_other {c : CoreIx} {s : State} (h : atInsn c (isSpecial 2) s) (hb : insB (s.look.insn c) ≠ 8) :
    goesTo (execSwr c s) fun t => coreBecomes c s t { s.look.core c with pc := (s.look.core c).pc + 4 } := by
  refine goes_ctl_nextPc h ?_
  simp only [hb, decide_false, Bool.false_and, Bool.false_eq_true, if_false]
  exact seedAccess_of_swr_other _ _ (row_of_atInsn h) hb

/-- SWR of SEED with the vector chain drained (R79, R136). -/
theorem swr_writesSeed {c : CoreIx} {s : State} (h : atInsn c (isSpecial 2) s) (hb : insB (s.look.insn c) = 8)
    (hd : s.look.vecDrained c = true) :
    goesTo (execSwr c s) (seedWritten c s ((s.look.core c).g (insA (s.look.insn c)))
      { s.look.core c with pc := (s.look.core c).pc + 4 }) := by
  refine goes h.1 ?_
  rw [ctl_at h]
  simp only [hd, Bool.not_true, Bool.and_false, Bool.false_eq_true, if_false]
  rw [seedAccess_of_swr_seed _ _ (row_of_atInsn h) hb]
  exact seedWritten_of (onlyCore_refl _ _) _ _

/-! ### An access that has waited -/

/-- An access held by SEED is performed once the vector chain has drained, halted or not (log entry 8). -/
theorem seedAccessResume_performs {c : CoreIx} {s : State} {p : State → Prop} (hp : s.powered = true) (hup : s.look.coreUp c = true)
    (hs : (s.look.core c).stall = .seed) (hd : s.look.vecDrained c = true)
    (h : p (Work.commit s ((s.look.setStall c .none).seedAccess c (s.look.insn c)))) : goesTo (execSeedAccessResume c s) p := by
  refine goes hp ?_
  rwa [if_pos]
  simp [Work.ctlStalled, hup, hs, hd]

/-- Ending a stall changes core slot c only. -/
theorem onlyCore_setStall (c : Nat) (w : Work) (x : CtlStall) : Work.onlyCore c w (w.setStall c x) :=
  onlyCore_updCore (onlyCore_refl _ _) _

/-- The state that a resumed SRD leaves. -/
theorem resumed_srd (c : Nat) (s : State) {i : Nat} (h : isSpecial 1 i = true) :
    coreBecomes c s (Work.commit s ((s.look.setStall c .none).seedAccess c i))
      { (s.look.core c).setG (insD i) (s.look.special c (insB i)) with stall := .none, pc := (s.look.core c).pc + 4 } := by
  rw [seedAccess_of_srd _ _ h, special_setStall, setG_upd, nextPc_upd]
  refine becomes_of (onlyCore_updCore (onlyCore_updCore (onlyCore_setStall ..) _) _) ?_
  simp only [setStall_upd, core_updCore_self, setG_withStall, setG_pc]

/-- The state that a resumed SWR of SEED leaves. -/
theorem resumed_swr_seed (c : Nat) (s : State) {i : Nat} (h : isSpecial 2 i = true) (hb : insB i = 8) :
    seedWritten c s ((s.look.core c).g (insA i)) { s.look.core c with stall := .none, pc := (s.look.core c).pc + 4 }
      (Work.commit s ((s.look.setStall c .none).seedAccess c i)) := by
  rw [seedAccess_of_swr_seed _ _ h hb, g_setStall, nextPc_upd]
  have hk : (s.look.setStall c .none).core c = { s.look.core c with stall := .none } := core_updCore_self ..
  simpa only [hk] using seedWritten_of (onlyCore_setStall c s.look .none) ((s.look.core c).g (insA i)) fun k => { k with pc := k.pc + 4 }

/-- Settles O8: each clause is an access of one kind, performed at once, held by SEED, or resumed; the values are those of R79. -/
theorem ctlSpecialRegisters : Obligations.CtlSpecialRegisters := by
  unfold Obligations.CtlSpecialRegisters
  intro c s w k i waits seeded resumes
  refine ⟨fun ⟨hat, hw⟩ => srd_reads hat hw, fun ⟨hat, hw⟩ => srd_waits hat hw, fun ⟨hat, hb⟩ => swr_other hat hb,
    fun ⟨hat, hb, hd⟩ => swr_writesSeed hat hb hd, fun ⟨hat, hw⟩ => swr_waits hat hw, ?_, ?_,
    rfl, rfl, rfl, rfl, rfl, rfl, rfl, rfl, special_seed w c, fun x hx => special_unassigned w c hx⟩
  · rintro ⟨⟨hp, hup, hs, hd⟩, hi⟩
    exact seedAccessResume_performs hp hup hs hd (resumed_srd c s hi)
  · rintro ⟨⟨hp, hup, hs, hd⟩, hi, hb⟩
    exact seedAccessResume_performs hp hup hs hd (resumed_swr_seed c s hi hb)

end Sys2Proof.Machine
end

section
/-! SUPPORT. Where an operation writes registers: a relation between the machine before and after it, and its rule for each write. -/

namespace Sys2Proof.Machine

/-- The operation from w to w' writes register words of p only, and leaves the outstanding requests. -/
structure Work.writesWithin (p : Nat → Prop) (w w' : Work) : Prop where
  reqs : w'.hw.reqs = w.hw.reqs
  word : ∀ a, ¬ p a → w'.r32 a = w.r32 a

namespace Work.writesWithin

variable {p q : Nat → Prop} {u v w : Work} {a : Nat}

theorem refl (p : Nat → Prop) (w : Work) : w.writesWithin p w := ⟨rfl, fun _ _ => rfl⟩

theorem trans (h : u.writesWithin p v) (h' : v.writesWithin p w) : u.writesWithin p w :=
  ⟨h'.reqs.trans h.reqs, fun a ha => (h'.word a ha).trans (h.word a ha)⟩

theorem mono (h : u.writesWithin p v) (hpq : ∀ a, p a → q a) : u.writesWithin q v :=
  ⟨h.reqs, fun a ha => h.word a (mt (hpq a) ha)⟩

/-- A 64-bit register none of whose words lies in p. -/
theorem r64_eq (h : u.writesWithin p v) (ha : ¬ p a) (ha4 : ¬ p (a + 4)) : v.r64 a = u.r64 a := by
  simp only [Work.r64, h.word _ ha, h.word _ ha4]

theorem w32 (w : Work) (x : Word) (ha : p a) : w.writesWithin p (w.w32 a x) :=
  ⟨rfl, fun _ hb => r32_w32_other w x fun e => hb (e ▸ ha)⟩

theorem w64 (w : Work) (x : DWord) (ha : p a) (ha4 : p (a + 4)) : w.writesWithin p (w.w64 a x) :=
  (w32 w _ ha).trans (w32 _ _ ha4)

theorem setFld (w : Work) (f : Fld) (x : Nat) (ha : p a) (ha4 : p (a + 4)) : w.writesWithin p (w.setFld a f x) := by
  unfold Work.setFld
  split
  · exact w32 w _ ha
  · split
    · exact w32 w _ ha4
    · exact w64 w _ ha ha4

theorem setFlag (w : Work) (f : Fld) (b : Bool) (ha : p a) (ha4 : p (a + 4)) : w.writesWithin p (w.setFlag a f b) :=
  setFld w f _ ha ha4

/-- A counter, frozen or not. -/
theorem bump (w : Work) (n : Nat) (ha : p a) (ha4 : p (a + 4)) : w.writesWithin p (w.bump a n) := by
  unfold Work.bump
  split
  · exact refl p w
  · exact w64 w _ ha ha4

theorem updCore (p : Nat → Prop) (w : Work) (c : Nat) (f : Core → Core) : w.writesWithin p (w.updCore c f) := ⟨rfl, fun _ _ => rfl⟩

theorem forEach {α : Type} {f : Work → α → Work} (l : List α) (h : ∀ u : Work, ∀ x ∈ l, u.writesWithin p (f u x)) (w : Work) :
    w.writesWithin p (w.forEach l f) := by
  induction l generalizing w with
  | nil => exact refl p w
  | cons x l ih => exact (h w x List.mem_cons_self).trans (ih (fun u y hy => h u y (List.mem_cons_of_mem _ hy)) (f w x))

end Work.writesWithin

end Sys2Proof.Machine
end

section
/-! SUPPORT. Sending a packet (R458–R472, R486) and answering a request (R438, R618) write registers of the link and hub dies only. -/

namespace Sys2Proof.Machine

/-- The register words of the dies behind the compute dies. -/
def beyondCores (a : Nat) : Prop := dieWindow 16 ≤ a

/-- A register word of such a die, in its first block or in another. -/
theorem beyondCores_at (l k : Nat) : beyondCores (dieWindow (16 + l) + k) := by
  simp only [beyondCores, dieWindow]
  omega

theorem beyondCores_block (l b k : Nat) : beyondCores (dieWindow (16 + l) + b + k) := by
  simp only [beyondCores, dieWindow]
  omega

theorem beyondCores_add {a : Nat} (h : beyondCores a) (k : Nat) : beyondCores (a + k) := Nat.le_add_right_of_le h

theorem bump_beyondCores (w : Work) {a : Nat} (n : Nat) (h : beyondCores a) : w.writesWithin beyondCores (w.bump a n) :=
  .bump w n h (beyondCores_add h 4)

theorem sendOut_writes (w : Work) (arr : Option Nat) (unit p : Nat) (prio : Option Nat) (pkt : Pkt) :
    w.writesWithin beyondCores (w.sendOut arr unit p prio pkt).1 := by
  have counts (r : Nat) (h : beyondCores r) : w.writesWithin beyondCores (w.bump r 1) := bump_beyondCores w 1 h
  have unsup : beyondCores (Reg.LNK_ERR_STAT p) := beyondCores_at ..
  unfold Work.sendOut
  extract_lets mode same pkt' input
  split
  · split
    · exact counts _ (beyondCores_block ..)
    · exact counts _ (beyondCores_block ..)
  · split
    · split
      · exact .refl ..
      · exact counts _ (beyondCores_at ..)
    · split
      · exact .refl ..
      · split
        · dsimp only
          exact (counts (Reg.LNK_TX_UNSUP p) (beyondCores_at ..)).trans (.setFlag _ _ _ unsup (beyondCores_add unsup 4))
        · exact ⟨rfl, fun _ _ => rfl⟩

theorem routeError_writes (w : Work) (arr : Option Nat) (pkt : Pkt) (kind : Nat) (bit : Fld) :
    w.writesWithin beyondCores (w.routeError arr pkt kind bit) := by
  have hstat : beyondCores (Reg.RTE_ERR_STAT (arr.getD 0)) := beyondCores_block ..
  have hinfo : beyondCores (Reg.RTE_ERR_INFO (arr.getD 0)) := beyondCores_block ..
  exact (Work.writesWithin.setFlag w bit true hstat (beyondCores_add hstat 4)).trans (.w32 _ _ hinfo)

theorem noRoute_writes (w : Work) (arr : Option Nat) (pkt : Pkt) : w.writesWithin beyondCores (w.noRoute arr pkt).1 := by
  have hcount : beyondCores (Reg.RTE_NOROUTE (arr.getD 0)) := beyondCores_block ..
  unfold Work.noRoute
  dsimp only
  exact (routeError_writes ..).trans (bump_beyondCores _ 1 hcount)

theorem misdeliver_writes (w : Work) (arr : Option Nat) (pkt : Pkt) : w.writesWithin beyondCores (w.misdeliver arr pkt).1 :=
  (noRoute_writes w arr pkt).trans (routeError_writes ..)

theorem routeDim_writes {circuit : Work → Nat → Pkt → Work × Placed} (h : ∀ (u : Work) n p, u.writesWithin beyondCores (circuit u n p).1)
    (w : Work) (arr : Option Nat) (unit : Nat) (pkt : Pkt) : w.writesWithin beyondCores (w.routeDim arr unit pkt circuit).1 := by
  unfold Work.routeDim
  split
  · exact misdeliver_writes w arr pkt
  · dsimp only
    split
    · exact (bump_beyondCores w 1 (beyondCores_block ..)).trans (h ..)
    · exact sendOut_writes ..

theorem routeEntry_writes {dim : Work → Pkt → Work × Placed} (h : ∀ (u : Work) p, u.writesWithin beyondCores (dim u p).1)
    (w : Work) (arr : Option Nat) (unit entry : Nat) (pkt : Pkt) : w.writesWithin beyondCores (w.routeEntry arr unit entry pkt dim).1 := by
  unfold Work.routeEntry
  dsimp only
  split
  · exact (routeError_writes ..).trans (h ..)
  · split
    · exact sendOut_writes ..
    · split
      · exact h ..
      · split
        · exact .refl ..
        · exact misdeliver_writes ..

theorem routeOn_writes (w : Work) (arr : Option Nat) (unit : Nat) (pkt : Pkt) : w.writesWithin beyondCores (w.routeOn arr unit pkt).1 := by
  unfold Work.routeOn
  extract_lets last join dim
  have hlast (u : Work) (p : Pkt) : u.writesWithin beyondCores (last u p).1 := routeDim_writes (fun u _ p => noRoute_writes u arr p) ..
  have hjoin (u : Work) (n : Nat) (p : Pkt) : u.writesWithin beyondCores (join u n p).1 := routeEntry_writes hlast ..
  have hdim (u : Work) (p : Pkt) : u.writesWithin beyondCores (dim u p).1 := routeDim_writes hjoin ..
  split
  · exact routeEntry_writes hdim ..
  · exact hdim ..
  · split
    · exact routeEntry_writes hdim ..
    · exact hdim ..

theorem place_writes (w : Work) (arr : Option Nat) (unit : Nat) (pkt : Pkt) : w.writesWithin beyondCores (w.place arr unit pkt).1 := by
  unfold Work.place
  split
  · exact .refl ..
  · split
    · exact .refl ..
    · split
      · split
        · split
          · exact sendOut_writes ..
          · exact noRoute_writes ..
        · split
          · exact routeOn_writes ..
          · exact noRoute_writes ..
      · split
        · exact routeOn_writes ..
        · exact noRoute_writes ..

/-- A watch message stays on the chip or is sent as a packet. -/
theorem sendWatch_writes (w : Work) (c node core target gen : Nat) (ctx : Option Nat) (kind : WatchKind) :
    w.writesWithin beyondCores (w.sendWatch c node core target gen ctx kind) := by
  have hplace := place_writes w none (coreRegion c) (w.watchPkt c node core target gen ctx kind)
  unfold Work.sendWatch Work.sendWatchFrom
  split
  · exact ⟨rfl, fun _ _ => rfl⟩
  · dsimp only
    split
    · exact hplace.trans ⟨rfl, fun _ _ => rfl⟩
    · exact hplace

theorem answerRemote_writes (w : Work) (q : Req) (die node tag vc core master : Nat) (bad : ReqBad) :
    w.writesWithin beyondCores (w.answerRemote q die node tag vc core master bad) := place_writes ..

theorem answerHost_writes (w : Work) (q : Req) (port tag : Nat) (bad : ReqBad) : w.writesWithin beyondCores (w.answerHost q port tag bad) := by
  have hbytes : beyondCores (Reg.HUB_TX_BYTES port) := by
    simp only [beyondCores, Reg.HUB_TX_BYTES, dieWindow]
    omega
  unfold Work.answerHost
  split
  · exact (Work.writesWithin.w64 w _ hbytes (beyondCores_add hbytes 4)).trans ⟨rfl, fun _ _ => rfl⟩
  · exact .refl ..

/-- An answer leaves the registers of the compute dies, whoever asked. -/
theorem r32_answer (w : Work) (i : Nat) (bad : ReqBad) {a : Nat} (h : ¬ beyondCores a) : (w.answer i bad).r32 a = w.r32 a := by
  unfold Work.answer
  split
  · dsimp only
    split
    · split <;> rfl
    · exact (answerHost_writes ..).word a h
    · exact (answerRemote_writes ..).word a h
    · rfl
  · rfl

/-- The answer to a cell of a core stays with its request until the cell takes it. -/
theorem answer_of_cell {w : Work} {i : Nat} {q : Req} (h : w.req? i = some q) (hc : q.src.core?.isSome = true) (bad : ReqBad) :
    w.answer i bad = w.setReq i { q with stage := .replied, bad := if q.bad = .ok then bad else q.bad } := by
  unfold Work.answer
  rw [h]
  cases hs : q.src with
  | ctl | str | syn => simp only [hs]
  | host | link | unit => simp [hs, ReqFrom.core?] at hc

end Sys2Proof.Machine
end

section
/-! SUPPORT. An ATOMIC on a sync word (R253–R255): the value it leaves, the word it writes, and the value it returns. -/

namespace Sys2Proof.Machine

/-! ### The value -/

/-- The model's new value is that of the table of R254. -/
theorem atomicOp_table (n : Nat) (v o p : DWord) :
    (n = 0 → atomicOp n v o p = o) ∧ (n = 1 → atomicOp n v o p = v + o) ∧ (n = 2 → atomicOp n v o p = v &&& o) ∧
    (n = 3 → atomicOp n v o p = v ||| o) ∧ (n = 4 → atomicOp n v o p = v ^^^ o) ∧
    (n = 5 → (atomicOp n v o p).toNat = max v.toNat o.toNat) ∧ (n = 6 → (atomicOp n v o p).toNat = min v.toNat o.toNat) ∧
    (7 ≤ n → atomicOp n v o p = if v = p then o else v) := by
  refine ⟨?_, ?_, ?_, ?_, ?_, ?_, ?_, ?_⟩
  iterate 5 (rintro rfl; rfl)
  · rintro rfl
    change (if v.toNat < o.toNat then o else v).toNat = _
    split <;> omega
  · rintro rfl
    change (if o.toNat < v.toNat then o else v).toNat = _
    split <;> omega
  · intro h
    obtain ⟨m, rfl⟩ := Nat.exists_eq_add_of_le' h
    rfl

/-! ### The registers that an operation of a sync cell writes -/

/-- The register words of the dies behind the compute dies, and those of core c's sync cell below its objects (R270). -/
def besideObjects (c a : Nat) : Prop := beyondCores a ∨ coreWindow c + 0x40000 ≤ a ∧ a < coreWindow c + 0x48000

theorem besideObjects_at (c : Nat) {k : Nat} (h : k < 0x8000) : besideObjects c (coreWindow c + 0x40000 + k) := by
  unfold besideObjects
  omega

/-- A word of a watch-table entry. -/
theorem besideObjects_watch (c : Nat) {b e : Nat} (he : e < 256) (hb : b < 0x1020) : besideObjects c (coreWindow c + 0x40000 + b + 32 * e) := by
  rw [Nat.add_assoc]
  exact besideObjects_at c (by omega)

theorem beyondCores_besideObjects (c a : Nat) (h : beyondCores a) : besideObjects c a := .inl h

/-- A sync object is no such word. -/
theorem obj_not_besideObjects {c i : Nat} (hc : c < 272) (hi : i < 1024) :
    ¬ besideObjects c (Reg.SYN_OBJ c i) ∧ ¬ besideObjects c (Reg.SYN_OBJ c i + 4) := by
  simp only [besideObjects, beyondCores, Reg.SYN_OBJ, coreWindow, dieWindow]
  omega

/-- A counter of the sync cell. -/
theorem bump_besideObjects (w : Work) (c n : Nat) {k : Nat} (h : k + 4 < 0x8000) :
    w.writesWithin (besideObjects c) (w.bump (coreWindow c + 0x40000 + k) n) :=
  .bump w n (besideObjects_at c (by omega)) (besideObjects_at c h)

theorem watchStat_writes (w : Work) (c : Nat) : w.writesWithin (besideObjects c) (w.watchStat c) := by
  have hlo : besideObjects c (Reg.SYN_WATCH_STAT c) := besideObjects_at c (by decide)
  have hhi : besideObjects c (Reg.SYN_WATCH_STAT c + 4) := besideObjects_at c (k := 0x10) (by decide)
  exact (Work.writesWithin.setFld w _ _ hlo hhi).trans (.setFld _ _ _ hlo hhi)

theorem w64_watch_writes (w : Work) (c : Nat) {b e : Nat} (x : DWord) (he : e < 256) (hb : b + 4 < 0x1020) :
    w.writesWithin (besideObjects c) (w.w64 (coreWindow c + 0x40000 + b + 32 * e) x) := by
  refine .w64 w x (besideObjects_watch c he (by omega)) ?_
  rw [Nat.add_right_comm]
  exact besideObjects_watch c he hb

theorem clearWatch_writes (w : Work) (c : Nat) {e : Nat} (he : e < 256) : w.writesWithin (besideObjects c) (w.clearWatch c e) :=
  ((w64_watch_writes w c 0 he (b := 0x1000) (by decide)).trans (w64_watch_writes _ c 0 he (b := 0x1008) (by decide))).trans
    (w64_watch_writes _ c 0 he (b := 0x1010) (by decide))

/-- The tests of the watch table clear entries, count wakes and send them (R261). -/
theorem testWatches_writes (w : Work) (c obj : Nat) (v : DWord) : w.writesWithin (besideObjects c) (w.testWatches c obj v) := by
  refine (Work.writesWithin.forEach _ (fun u e he => ?_) w).trans (watchStat_writes ..)
  dsimp only
  split
  · have hclear := clearWatch_writes u c (List.mem_range.mp he)
    have hcount : (u.clearWatch c e).writesWithin (besideObjects c) ((u.clearWatch c e).bump (Reg.SYN_WAKES c) 1) :=
      bump_besideObjects _ c 1 (by decide)
    exact (hclear.trans hcount).trans ((sendWatch_writes ..).mono (beyondCores_besideObjects c))
  · exact .refl ..

theorem testLocalWait_writes (p : Nat → Prop) (w : Work) (c obj : Nat) (v : DWord) : w.writesWithin p (w.testLocalWait c obj v) := by
  unfold Work.testLocalWait
  split
  · split
    · exact .updCore ..
    · exact .refl ..
  · exact .refl ..

/-- Once an operation has stored its value, the count and the tests that follow leave every sync object of the cell (R259–R261). -/
theorem synSet_writes (w : Work) (c obj : Nat) (v : DWord) :
    (w.w64 (Reg.SYN_OBJ c obj) v).writesWithin (besideObjects c) (w.synSet c obj v) := by
  have hcount (u : Work) : u.writesWithin (besideObjects c) (u.bump (Reg.SYN_OPS c) 1) := bump_besideObjects u c 1 (by decide)
  exact ((hcount _).trans (testLocalWait_writes ..)).trans (testWatches_writes ..)

theorem r64_synSet_obj (w : Work) {c obj : Nat} (v : DWord) (hc : c < 272) (hi : obj < 1024) :
    (w.synSet c obj v).r64 (Reg.SYN_OBJ c obj) = v := by
  obtain ⟨h, h4⟩ := obj_not_besideObjects hc hi
  rw [(synSet_writes w c obj v).r64_eq h h4, r64_w64_self]

theorem req_synSet (w : Work) (c obj : Nat) (v : DWord) (i : Nat) : (w.synSet c obj v).req? i = w.req? i :=
  congrArg (SMap.find? · i) (synSet_writes w c obj v).reqs

/-! ### The return -/

theorem synResult_writes (w : Work) (c tag : Nat) (v : DWord) : w.writesWithin (besideObjects c) (w.synResult c tag v false) := by
  have hlo : besideObjects c (Reg.SYN_RESULT c) := besideObjects_at c (by decide)
  have hhi : besideObjects c (Reg.SYN_RESULT c + 4) := besideObjects_at c (k := 0x1C) (by decide)
  have htag : besideObjects c (Reg.SYN_RESULT_TAG c) := besideObjects_at c (by decide)
  simp only [Work.synResult, Work.returned, Bool.false_eq_true, if_false, Work.updEngine]
  exact ((Work.writesWithin.w64 w v hlo hhi).trans (.w32 _ _ htag)).trans (.updCore ..)

/-- The return of the cell's own ATOMIC is what SYN_RESULT shows (R255). -/
theorem r64_synResult (w : Work) (c tag : Nat) (v : DWord) : (w.synResult c tag v false).r64 (Reg.SYN_RESULT c) = v := by
  have hlo : Reg.SYN_RESULT c ≠ Reg.SYN_RESULT_TAG c := by simp [Reg.SYN_RESULT, Reg.SYN_RESULT_TAG]
  have hhi : Reg.SYN_RESULT c + 4 ≠ Reg.SYN_RESULT_TAG c := by simp [Reg.SYN_RESULT, Reg.SYN_RESULT_TAG]
  have htag (u : Work) (x : Word) : (u.w32 (Reg.SYN_RESULT_TAG c) x).r64 (Reg.SYN_RESULT c) = u.r64 (Reg.SYN_RESULT c) := by
    simp only [Work.r64, r32_w32_other _ _ hlo, r32_w32_other _ _ hhi]
  exact (htag ..).trans (r64_w64_self ..)

/-- The return to a request leaves the registers of the compute dies. -/
theorem r32_synAnswer (w : Work) (i : Nat) (v : DWord) {a : Nat} (h : ¬ beyondCores a) : (w.synAnswer i v .ok).r32 a = w.r32 a := by
  refine (r32_answer _ i .ok h).trans ?_
  unfold Work.updReq
  split <;> rfl

/-- The return to a request of a cell is its value, and it is answered. -/
theorem req_synAnswer {w : Work} {i : Nat} {q : Req} (v : DWord) (h : w.req? i = some q) (hc : q.src.core?.isSome = true) :
    ∃ q', (w.synAnswer i v .ok).req? i = some q' ∧ q'.value = v ∧ q'.stage = .replied := by
  simp only [Work.synAnswer, Work.returned, Bool.false_eq_true, if_false, Work.updReq, h]
  rw [answer_of_cell (req_setReq_self ..) (by exact hc), req_setReq_self]
  exact ⟨_, rfl, rfl, rfl⟩

/-! ### One ATOMIC -/

/-- An ATOMIC that meets no error: the store, then the return of the value before it. -/
theorem cellPerform_atomic (w : Work) (c : Nat) {op : SynOp} {n : Nat} (h : op.kind = .atomic n) :
    w.cellPerform c op .clean =
      (w.synSet c op.obj (atomicOp n (w.r64 (Reg.SYN_OBJ c op.obj)) op.operand op.compare)).synReturn c op (w.r64 (Reg.SYN_OBJ c op.obj)) .ok
        (w.placedCtx c).isSome := by
  simp [Work.cellPerform, h]

/-- The return of an ATOMIC leaves the sync objects, whoever asked for it. -/
theorem r32_synReturn_atomic (w : Work) (c : Nat) {op : SynOp} {n : Nat} (v : DWord) (table : Bool) (h : op.kind = .atomic n) {a : Nat}
    (ha : ¬ besideObjects c a) : (w.synReturn c op v .ok table).r32 a = w.r32 a := by
  unfold Work.synReturn
  cases op.source with
  | own => exact (synResult_writes ..).word a ha
  | req i => exact r32_synAnswer w i v fun hb => ha (.inl hb)
  | watch => simp only [h]
  | signal | master => rfl

theorem r64_synReturn_atomic (w : Work) {c i : Nat} {op : SynOp} {n : Nat} (v : DWord) (table : Bool) (h : op.kind = .atomic n)
    (hc : c < 272) (hi : i < 1024) : (w.synReturn c op v .ok table).r64 (Reg.SYN_OBJ c i) = w.r64 (Reg.SYN_OBJ c i) := by
  obtain ⟨hlo, hhi⟩ := obj_not_besideObjects hc hi
  simp only [Work.r64, r32_synReturn_atomic w c v table h hlo, r32_synReturn_atomic w c v table h hhi]

/-- An ATOMIC leaves its result in the object (R254). -/
theorem r64_cellPerform_obj (w : Work) {c : Nat} {op : SynOp} {n : Nat} (hc : c < 272) (hi : op.obj < 1024) (h : op.kind = .atomic n) :
    (w.cellPerform c op .clean).r64 (Reg.SYN_OBJ c op.obj) = atomicOp n (w.r64 (Reg.SYN_OBJ c op.obj)) op.operand op.compare := by
  rw [cellPerform_atomic w c h, r64_synReturn_atomic _ _ _ h hc hi, r64_synSet_obj w _ hc hi]

theorem r64_cellPerform_result (w : Work) (c : Nat) {op : SynOp} {n : Nat} (h : op.kind = .atomic n) (hs : op.source = .own) :
    (w.cellPerform c op .clean).r64 (Reg.SYN_RESULT c) = w.r64 (Reg.SYN_OBJ c op.obj) := by
  rw [cellPerform_atomic w c h, Work.synReturn, hs]
  exact r64_synResult ..

theorem req_cellPerform {w : Work} (c : Nat) {op : SynOp} {n i : Nat} {q : Req} (h : op.kind = .atomic n) (hs : op.source = .req i)
    (hq : w.req? i = some q) (hc : q.src.core?.isSome = true) : ∃ q', (w.cellPerform c op .clean).req? i = some q' ∧
      q'.value = w.r64 (Reg.SYN_OBJ c op.obj) ∧ q'.stage = .replied := by
  rw [cellPerform_atomic w c h, Work.synReturn, hs]
  exact req_synAnswer _ ((req_synSet ..).trans hq) hc

/-- Settles O22: on each kind of sync word the new value is that of the table of R254; in a cell the count, the tests and the return that follow
the store leave the object, and the return carries the value before it. -/
theorem atomicOnItsTarget : Obligations.AtomicOnItsTarget := by
  unfold Obligations.AtomicOnItsTarget
  intro table
  have htable (n : Nat) (v o p : DWord) : table n v o p (atomicOp n v o p) := atomicOp_table n v o p
  refine ⟨?_, ?_, ?_⟩
  · rintro c w op n ⟨hi, hk⟩ v w'
    refine ⟨?_, r64_cellPerform_result w c hk, ?_⟩
    · rw [r64_cellPerform_obj w c.isLt hi hk]
      exact htable ..
    · rintro i q k j ⟨hs, hq, hsrc⟩
      refine req_cellPerform c hk hs hq ?_
      rcases hsrc with h | h | h <;> rw [h] <;> rfl
  · intro w d n o p v r
    refine ⟨rfl, ?_⟩
    rw [show r.2.r64 (Reg.HUB_DB 0 d) = atomicOp n v o p from r64_w64_self ..]
    exact htable ..
  · intro w h i n o p v r
    refine ⟨rfl, ?_⟩
    rw [show r.2.r64 (Reg.HUB_IW h i) = atomicOp n v o p from r64_w64_self ..]
    exact htable ..

end Sys2Proof.Machine
end

section
/-! SUPPORT. The conditions of a WAIT (R258). -/

namespace Sys2Proof.Machine

/-- REACHED is the comparison of R84 on 64 bits: the subtraction of words is the difference modulo 2⁶⁴. -/
theorem sub_lt_half_iff (v o : DWord) : (v - o).toNat < 2 ^ 63 ↔ ((v.toNat : Int) - o.toNat) % 2 ^ 64 < 2 ^ 63 := by
  have hv := v.isLt
  have ho := o.isLt
  rw [BitVec.toNat_sub]
  omega

/-- The model's condition is that of the table of R258. -/
theorem waitMet_table (n : Nat) (v o p : DWord) :
    (n = 0 → (waitMet n v o p = true ↔ v = o)) ∧ (n = 1 → (waitMet n v o p = true ↔ v ≠ o)) ∧
    (n = 2 → (waitMet n v o p = true ↔ o.toNat ≤ v.toNat)) ∧ (n = 3 → (waitMet n v o p = true ↔ v.toNat < o.toNat)) ∧
    (n = 4 → (waitMet n v o p = true ↔ v &&& p = o)) ∧ (n = 5 → (waitMet n v o p = true ↔ v &&& p ≠ o)) ∧
    (6 ≤ n → (waitMet n v o p = true ↔ ((v.toNat : Int) - o.toNat) % 2 ^ 64 < 2 ^ 63)) := by
  refine ⟨?_, ?_, ?_, ?_, ?_, ?_, fun h => ?_⟩
  iterate 6 (rintro rfl; exact decide_eq_true_iff)
  obtain ⟨m, rfl⟩ := Nat.exists_eq_add_of_le' h
  exact decide_eq_true_iff.trans (sub_lt_half_iff v o)

/-- Settles O23: a WAIT tests with the operation, operand and compare value of its command, and each test is the one of R258. -/
theorem waitConditions : Obligations.WaitConditions := by
  unfold Obligations.WaitConditions
  exact fun cmd v => waitMet_table (synOpCode cmd) v (synOperand cmd) (synCompare cmd)

end Sys2Proof.Machine
end

section
/-! SUPPORT. The host mailbox (R628, R629): a post and a delivered message write no header, or pend vector 1 on both ports. -/

namespace Sys2Proof.Machine

/-! ### Words outside the headers -/

/-- A register with no word in p keeps its fields. -/
theorem Work.writesWithin.fld_eq {p : Nat → Prop} {u v : Work} {a : Nat} (h : u.writesWithin p v) (f : Fld) (ha : ¬ p a) (ha4 : ¬ p (a + 4)) :
    v.fld a f = u.fld a f := by
  simp only [Work.fld, h.r64_eq ha ha4, h.word _ ha, h.word _ ha4]

/-- The register words beside the headers of the host mailbox's slots. -/
def besideHmbHdr (a : Nat) : Prop := a < Reg.MGT_HMB_HDR 0 0 ∨ Reg.MGT_HMB_HDR 0 8 ≤ a

theorem hmbHdr_not_beside {k : Nat} (hk : k < 8) : ¬ besideHmbHdr (Reg.MGT_HMB_HDR 0 k) ∧ ¬ besideHmbHdr (Reg.MGT_HMB_HDR 0 k + 4) := by
  simp only [besideHmbHdr, Reg.MGT_HMB_HDR]
  omega

/-- Writes beside the headers leave VALID of every slot. -/
theorem hmbValid_of_writes {u v : Work} (h : u.writesWithin besideHmbHdr v) {k : Nat} (hk : k < 8) : v.hmbValid k = u.hmbValid k := by
  obtain ⟨hlo, hhi⟩ := hmbHdr_not_beside hk
  simp only [Work.hmbValid, Work.flag, h.fld_eq _ hlo hhi]

/-- A message that finds no room is counted beside the headers, on either hub die. -/
theorem mboxDrop_writes (w : Work) (h : Nat) : w.writesWithin besideHmbHdr (w.mboxDrop h) := by
  have hdrop : besideHmbHdr (Reg.MGT_MBOX_DROP h) ∧ besideHmbHdr (Reg.MGT_MBOX_DROP h + 4) := by
    simp only [besideHmbHdr, Reg.MGT_MBOX_DROP, Reg.MGT_HMB_HDR, dieWindow]
    omega
  unfold Work.mboxDrop Work.satAdd
  exact .setFld w _ _ hdrop.1 hdrop.2

/-! ### Clamps -/

/-- The context and the port that a clamp is counted to exist: each has a counter (R67). -/
def ClampBy.hasCounter (who : ClampBy) : Prop := who.ctx.getD 0 < 1024 ∧ who.port < 8

theorem placedCtx_lt {w : Work} {c x : Nat} (h : w.placedCtx c = some x) : x < 1024 := by
  unfold Work.placedCtx at h
  split at h
  · cases h
    exact Nat.mod_lt _ (by decide)
  · cases h

/-- Every master's clamps have a counter (R68). -/
theorem hasCounter_clampBy (w : Work) (m : Master) : (w.clampBy m).hasCounter := by
  have noCtx {who : ClampBy} (hc : who.ctx = none) (hp : who.port = 0) : who.hasCounter := by simp [ClampBy.hasCounter, hc, hp]
  unfold Work.clampBy
  split
  · exact noCtx rfl rfl
  · exact noCtx rfl rfl
  · exact noCtx rfl rfl
  · split
    · next h => exact ⟨placedCtx_lt h, Nat.zero_lt_succ _⟩
    · exact noCtx rfl rfl
  · next x => exact ⟨x.isLt, Nat.zero_lt_succ _⟩
  · exact noCtx rfl rfl

/-- The words of the clamp counters and of the capture (R67–R69). -/
def clampWord (a : Nat) : Prop := dieWindow 28 + 0x30001000 ≤ a ∧ a < dieWindow 28 + 0x30003000

theorem clampWord_bounds {a : Nat} (hlo : 0x1000 ≤ a) (hhi : a + 4 < 0x3000) :
    clampWord (dieWindow 28 + 0x30000000 + a) ∧ clampWord (dieWindow 28 + 0x30000000 + a + 4) := by
  unfold clampWord
  omega

/-- Counting a clamp and capturing it write no other word. -/
theorem clamp_writes {who : ClampBy} (h : who.hasCounter) (w : Work) (addr word lsb : Nat) (rule : ClampRule) :
    w.writesWithin clampWord (w.clamp who addr word lsb rule) := by
  obtain ⟨hctx, hport⟩ := h
  unfold Work.clamp
  extract_lets cnt counted info
  have hcnt : clampWord cnt ∧ clampWord (cnt + 4) := by
    unfold cnt
    split
    · next x hx =>
      rw [hx, Option.getD_some] at hctx
      rw [Reg.DBG_CLAMP_CNT, Nat.add_assoc (_ + _)]
      exact clampWord_bounds (by omega) (by omega)
    · split
      · next p ctx _ =>
        replace hport : p < 8 := hport
        rw [Reg.DBG_CLAMP_LINK, Nat.add_assoc (_ + _)]
        exact clampWord_bounds (by omega) (by omega)
      · exact clampWord_bounds (by decide) (by decide)
  have hcounted : w.writesWithin clampWord counted := .setFld w _ _ hcnt.1 hcnt.2
  split
  · exact hcounted
  · obtain ⟨haddr, haddr4⟩ := clampWord_bounds (a := 0x2040) (by decide) (by decide)
    obtain ⟨hinfo, hstat⟩ := clampWord_bounds (a := 0x2048) (by decide) (by decide)
    obtain ⟨-, hstat4⟩ := clampWord_bounds (a := 0x204c) (by decide) (by decide)
    exact ((hcounted.trans (.w64 _ _ haddr haddr4)).trans (.w32 _ _ hinfo)).trans (.setFlag _ _ _ hstat hstat4)

/-- A write of write-only fields writes no register but the clamps it counts (R63, R67). -/
theorem woWrite_writes {who : ClampBy} (h : who.hasCounter) (w : Work) (addr data : Nat) :
    w.writesWithin clampWord (w.woWrite who addr data).2 := by
  unfold Work.woWrite
  split
  · refine .forEach _ (fun u v _ => ?_) w
    split
    · split
      · exact .refl ..
      · exact clamp_writes h ..
    · exact .refl ..
  · exact .refl ..

theorem clampWord_besideHmbHdr (a : Nat) (h : clampWord a) : besideHmbHdr a := by
  simp only [clampWord, besideHmbHdr, Reg.MGT_HMB_HDR, Nat.add_zero] at h ⊢
  omega

/-! ### Vector 1 -/

/-- Vector 1 is pending on both ports. -/
def Work.hmbPends (w : Work) : Prop := SMap.get false w.hw.msixPend 1 = true ∧ SMap.get false w.hw.msixPend 257 = true

/-- A slot that takes a message raises it (R629). -/
theorem hmbPends_hmbFill (w : Work) (k src msgid len : Nat) : (w.hmbFill k src msgid len).hmbPends := by
  simp [Work.hmbPends, Work.hmbFill, Work.raiseVector, SMap.get_set]

/-- An operation that writes no header, or pends vector 1, meets R629. -/
theorem hmbPends_of_rise {u v : Work} (h : u.writesWithin besideHmbHdr v ∨ v.hmbPends) {k : Nat} (hk : k < 8) (hu : u.hmbValid k = false)
    (hv : v.hmbValid k = true) : v.hmbPends := by
  refine h.resolve_left fun hw => ?_
  rw [hmbValid_of_writes hw hk, hu] at hv
  cases hv

/-- A post fills its slot, or is dropped (R628). -/
theorem hmbPost_writes_or_pends {who : ClampBy} (h : who.hasCounter) (w : Work) (value : Nat) :
    w.writesWithin besideHmbHdr (w.hmbPost who value) ∨ (w.hmbPost who value).hmbPends := by
  unfold Work.hmbPost
  dsimp only
  split
  · exact .inl (((woWrite_writes h ..).mono clampWord_besideHmbHdr).trans (mboxDrop_writes ..))
  · exact .inr (hmbPends_hmbFill ..)

/-- A delivered message goes to another mailbox, fills a slot, or is dropped (R627, R628). -/
theorem mailbox_writes_or_pends (w : Work) (mbox src msgid : Nat) (data : List Byte) :
    w.writesWithin besideHmbHdr (w.mailbox mbox src msgid data) ∨ (w.mailbox mbox src msgid data).hmbPends := by
  unfold Work.mailbox
  split
  · dsimp only
    split
    · exact .inl ⟨rfl, fun _ _ => rfl⟩
    · exact .inl (mboxDrop_writes ..)
  · split
    · exact .inr (hmbPends_hmbFill ..)
    · exact .inl (mboxDrop_writes ..)

/-- A post leaves the register file to the end of the command. -/
theorem hmbPost_csr (w : Work) (who : ClampBy) (value : Nat) : (w.hmbPost who value).csr = w.csr := by
  obtain ⟨-, hcsr, -, -⟩ := woWrite_parts w who (Reg.MGT_HMB_POST 0) value
  unfold Work.hmbPost
  dsimp only
  split
  · exact (satAdd_csr ..).trans hcsr
  · exact hcsr

/-- Settles O55: a post and a delivered message set VALID of a slot only where they fill it, which raises the vector. -/
theorem hostMailboxRaisesVector : Obligations.HostMailboxRaisesVector := by
  unfold Obligations.HostMailboxRaisesVector
  refine ⟨?_, ?_⟩
  · rintro m value k s ⟨hp, hk⟩
    refine goes (f := fun w => w.hmbPost (w.clampBy m) value.toNat) hp ?_
    intro hv
    rw [Work.hmbValid, commit_flag s _ (hmbPost_csr ..)] at hv
    exact hmbPends_of_rise (hmbPost_writes_or_pends (hasCounter_clampBy ..) ..) k.isLt hk hv
  · rintro w mbox src msgid k data u ⟨hk, hv⟩
    exact hmbPends_of_rise (mailbox_writes_or_pends ..) k.isLt hk hv

end Sys2Proof.Machine
end

section
/-! SUPPORT. What every command comes to: work done while the always-on plane runs, or, for the supplies and the test access port, whether or not it
does (R571, R657). -/

namespace Sys2Proof.Machine

/-- The commands of the supplies and of the test access port. -/
def actsUnpowered : Instr → Bool
  | .standbyGood | .standbyLoss | .mgmtReturn .. | .tapIdcode | .tapSamplePreload _ | .tapExtest | .tapClamp | .tapHighz | .tapExtestPulse
  | .tapExtestTrain | .tapBypass | .tapReset _ => true
  | _ => false

/-- The rows of BOOT_CMD share one piece of work (R606). -/
theorem bootCmdRow_run (op : Nat) (m : Master) (value : Word) (s : State) : ∃ f, bootCmdRow op m value s = run s f := ⟨_, rfl⟩

/-- Every command but those of the supplies and of the test access port is work that needs the always-on plane. -/
theorem exec_run (c : Instr) (s : State) (h : actsUnpowered c = false) : ∃ f, exec c s = run s f := by
  cases c with
  | standbyGood | standbyLoss | mgmtReturn | tapIdcode | tapSamplePreload | tapExtest | tapClamp | tapHighz | tapExtestPulse | tapExtestTrain
  | tapBypass | tapReset => exact Bool.noConfusion h
  | flashNop | raiseSvn | revokeKey | flashConfirm | flashActivate | flashErase | flashProgram | flashVerify => exact bootCmdRow_run ..
  | _ => unfold exec; exact ⟨_, rfl⟩

/-- Every command is work on the state. -/
theorem exec_runAlways (c : Instr) (s : State) : ∃ f, exec c s = runAlways s f := by
  by_cases h : actsUnpowered c = false
  · obtain ⟨f, hf⟩ := exec_run c s h
    exact ⟨_, hf⟩
  · cases c with
    | standbyGood | standbyLoss | mgmtReturn | tapIdcode | tapSamplePreload | tapExtest | tapClamp | tapHighz | tapExtestPulse | tapExtestTrain
    | tapBypass | tapReset => unfold exec; exact ⟨_, rfl⟩
    | _ => exact absurd rfl h

theorem exec_unpowered (c : Instr) (s : State) (h : actsUnpowered c = false) (hp : s.powered = false) : exec c s = .next s := by
  obtain ⟨f, hf⟩ := exec_run c s h
  rw [hf, run_unpowered s f hp]

theorem step_nil {s : State} (h : s.pending = []) : step s = run s Work.tick := by
  rw [step, h]

theorem step_cons {s : State} {c : Instr} {rest : List Instr} (h : s.pending = c :: rest) : step s = exec c { s with pending := rest } := by
  rw [step, h]

/-- A step ends work on the state, with the queue's rest. -/
theorem step_runAlways (s : State) : ∃ q f, step s = runAlways { s with pending := q } f := by
  cases h : s.pending with
  | nil => exact ⟨s.pending, _, step_nil h⟩
  | cons c rest =>
    obtain ⟨f, hf⟩ := exec_runAlways c { s with pending := rest }
    exact ⟨rest, f, (step_cons h).trans hf⟩

/-- Settles O1: the queue's front is what step performs, by its definition. -/
theorem stepTakesTheFront : Obligations.StepTakesTheFront := by
  unfold Obligations.StepTakesTheFront
  exact ⟨fun _ _ => rfl, fun _ _ _ h => step_cons h⟩

/-- Settles O2: every command is work on a state, which leaves the queue alone. -/
theorem commandsAnswerAndKeepTheQueue : Obligations.CommandsAnswerAndKeepTheQueue := by
  unfold Obligations.CommandsAnswerAndKeepTheQueue
  intro c s
  obtain ⟨f, hf⟩ := exec_runAlways c s
  exact ⟨_, hf, rfl⟩

/-- Settles O3: every step ends some work, and writing the work back keeps the form. -/
theorem everyStepKeepsTheForm : Obligations.EveryStepKeepsTheForm := by
  unfold Obligations.EveryStepKeepsTheForm
  intro s hs
  obtain ⟨q, f, hf⟩ := step_runAlways s
  exact ⟨_, hf, runAlways_wellKept { s with pending := q } f hs rfl⟩

/-! ### Reset values (R15) -/

theorem findRow_holds {l : List RegRow} {off : Nat} {r : RegRow} {a : Nat} (h : findRow l off = some (r, a)) :
    r ∈ l ∧ r.start? off = some a := by
  induction l with
  | nil => cases h
  | cons x l ih =>
    rw [findRow] at h
    split at h
    · next hx =>
      cases h
      exact ⟨List.mem_cons_self, hx⟩
    · obtain ⟨hmem, hstart⟩ := ih h
      exact ⟨List.mem_cons_of_mem _ hmem, hstart⟩

/-- A register that is not repeated holds no offset behind it. -/
theorem start?_single {r : RegRow} {off : Nat} (h1 : r.stride1 = 0) (h2 : r.stride2 = 0) (h : r.off + r.size ≤ off) : r.start? off = none := by
  simp only [RegRow.start?, h1, h2, if_true, Nat.zero_mul, Nat.sub_zero]
  rw [if_neg (by omega), if_neg (by omega)]

/-- A word whose block holds it in registers that reset to zero only. -/
theorem csrReset_zero {a : Nat} (h : ∀ r, findRow (dieBlock (csrDie a) ((a - 0x3F0000000000) % 0x100000000)).1
      ((a - 0x3F0000000000) % 0x100000000 - (dieBlock (csrDie a) ((a - 0x3F0000000000) % 0x100000000)).2) = some r →
    r.1.reset = 0 ∧ r.1.name ≠ "HUB_PCI_ID") : csrReset a = 0 := by
  unfold csrReset
  split
  · next hit hr =>
    unfold regAt at hr
    split at hr
    · dsimp only at hr
      split at hr
      · next r s hf =>
        cases hr
        obtain ⟨h0, hname⟩ : r.reset = 0 ∧ r.name ≠ "HUB_PCI_ID" := h _ hf
        simp only [resetOf, hname, h0, if_false]
        rw [Nat.zero_shiftRight]
        rfl
      · cases hr
    · cases hr
  · rfl

/-- The sync cell's block of a core slot (R44). -/
theorem dieBlock_syn {d slot sub : Nat} (hd : d < 16) (hs : slot < 17) (hlo : 0x40000 ≤ sub) (hhi : sub < 0x50000) :
    dieBlock d (slot * 0x1000000 + sub) = (synRows, slot * 0x1000000 + 0x40000) := by
  have htop : (slot * 0x1000000 + sub) / 0x1000000 = slot := by omega
  have hsub : (slot * 0x1000000 + sub) % 0x1000000 = sub := by omega
  have hblock : coreBlock sub = (synRows, 0x40000) := by
    unfold coreBlock
    iterate 4 rw [if_neg (by omega)]
    exact if_pos hhi
  simp only [dieBlock, htop, hsub, hblock, hd, hs, if_true]
  rw [if_neg (by omega), if_neg (by omega)]

/-- A register of a sync cell resets to zero, or is one of those at the head of the block (R270). -/
theorem synRows_reset : ∀ r ∈ synRows, r.reset = 0 ∧ r.name ≠ "HUB_PCI_ID" ∨ r.stride1 = 0 ∧ r.stride2 = 0 ∧ r.off + r.size ≤ 0x1000 := by
  decide

/-- A word of a sync object resets to zero. -/
theorem csrReset_syn {c k : Nat} (hc : c < 272) (hlo : 0x41000 ≤ k) (hhi : k < 0x50000) : csrReset (coreWindow c + k) = 0 := by
  refine csrReset_zero ?_
  have hdie : csrDie (coreWindow c + k) = c / 17 := by
    simp only [csrDie, coreWindow, dieWindow]
    omega
  have hoff : (coreWindow c + k - 0x3F0000000000) % 0x100000000 = c % 17 * 0x1000000 + k := by
    simp only [coreWindow, dieWindow]
    omega
  rw [hdie, hoff, dieBlock_syn (by omega) (by omega) (by omega) hhi]
  rintro ⟨r, s⟩ hf
  obtain ⟨hmem, hstart⟩ := findRow_holds hf
  refine (synRows_reset r hmem).resolve_right ?_
  rintro ⟨h1, h2, h3⟩
  rw [start?_single h1 h2 (by omega)] at hstart
  cases hstart

theorem reset_r32 (a : Nat) : State.reset.look.r32 a = csrReset a := rfl

/-- Settles O4: right after reset nothing is written anywhere, so every part reads as its default. -/
theorem resetState : Obligations.ResetState := by
  unfold Obligations.ResetState
  refine ⟨rfl, rfl, reset_r32, ?_, fun h => rfl, fun c i => ?_, fun c d => ?_⟩
  · decide +kernel
  · have hlo : Reg.SYN_OBJ c i = coreWindow c + (0x48000 + 8 * i.val) := by simp only [Reg.SYN_OBJ]; omega
    rw [Work.r64, reset_r32, reset_r32, hlo, Nat.add_assoc, csrReset_syn c.isLt (by omega) (by omega), csrReset_syn c.isLt (by omega) (by omega)]
    rfl
  · unfold Core.g
    split <;> rfl

/-- Settles O5: the tick is split on the two conditions that it tests; every other command needs the always-on plane. -/
theorem withoutCommandsOrPower : Obligations.WithoutCommandsOrPower := by
  unfold Obligations.WithoutCommandsOrPower
  refine ⟨fun s => ?_, fun c s hp => ?_⟩
  · intro w later hq
    rw [step_nil hq]
    refine ⟨fun hp => run_unpowered s _ hp, fun ⟨hp, hc⟩ => ?_, fun ⟨hp, hc⟩ => ?_⟩
    · exact run_done hp (f := Work.tick) (if_neg fun h => Bool.false_ne_true (hc.symm.trans h))
    · exact run_done hp (if_pos hc)
  · split
    iterate 12 trivial
    exact exec_unpowered c s (by unfold actsUnpowered; split <;> simp_all) hp

end Sys2Proof.Machine
end

section
/-! SUPPORT. The control core's instructions that end in the core alone (R76), command assembly (R82, R85), and what a clamp at an instruction leaves. -/

namespace Sys2Proof.Machine

variable {s : State} {c : Nat} {row : Nat → Bool} {f : Work → Nat → Work}

/-- The next state of an instruction has a property when the state its work leaves has it. -/
theorem goes_ctl {p : State → Prop} {w : Work} (h : atInsn c row s) (hf : f s.look (s.look.insn c) = w) (hp : p (Work.commit s w)) :
    goesTo (run s fun w => w.ctl c row f) p :=
  ⟨_, ctl_done h hf, hp⟩

/-- An instruction that writes one register and goes on. -/
theorem goes_ctl_setG_nextPc {d : Nat} {v : DWord} (h : atInsn c row s)
    (hf : f s.look (s.look.insn c) = (s.look.setG c d v).nextPc c) :
    goesTo (run s fun w => w.ctl c row f) fun t =>
      coreBecomes c s t { (s.look.core c).setG d v with pc := (s.look.core c).pc + 4 } :=
  goes_ctl2 h (hf.trans (nextPc_upd ..)) (by simp only [setG_pc])

/-- An instruction that writes one register and jumps. -/
theorem goes_ctl_setG_setPc {d : Nat} {v : DWord} {p : BitVec 24} (h : atInsn c row s)
    (hf : f s.look (s.look.insn c) = (s.look.setG c d v).setPc c p) :
    goesTo (run s fun w => w.ctl c row f) fun t => coreBecomes c s t { (s.look.core c).setG d v with pc := p } :=
  goes_ctl2 h hf rfl

/-- An instruction that only jumps. -/
theorem goes_ctl_setPc {p : BitVec 24} (h : atInsn c row s) (hf : f s.look (s.look.insn c) = s.look.setPc c p) :
    goesTo (run s fun w => w.ctl c row f) fun t => coreBecomes c s t { s.look.core c with pc := p } :=
  goes_ctl1 h hf rfl

theorem insAssigned_nop {i : Nat} (h : isSpecial 0 i = true) : insAssigned i = true := by
  simp only [isSpecial, Bool.and_eq_true, decide_eq_true_eq] at h
  simp [insAssigned, h]

/-- A branch goes to its target or on (R76). -/
theorem branch_becomes {c : CoreIx} (h : atInsn c isBranch s) : goesTo (execBranch c s) fun t => coreBecomes c s t { s.look.core c with
    pc := if branchTaken (insFnB (s.look.insn c)) ((s.look.core c).g (insD (s.look.insn c))) ((s.look.core c).g (insA (s.look.insn c))) then
      pcPlus (s.look.core c).pc (insImm12 (s.look.insn c)) else (s.look.core c).pc + 4 } := by
  split
  · next hb => exact goes_ctl_setPc h (if_pos hb)
  · next hb => exact goes_ctl_nextPc h (if_neg hb)

/-- NOP only goes on. -/
theorem ctlNop_becomes {c : CoreIx} (h : atInsn c (isSpecial 0) s) :
    goesTo (execCtlNop c s) fun t => coreBecomes c s t { s.look.core c with pc := (s.look.core c).pc + 4 } := by
  obtain ⟨hp, hruns, hrow⟩ := h
  have hat : atInsn c (fun i => isSpecial 0 i || !insAssigned i) s := ⟨hp, hruns, by simp only [hrow, Bool.true_or]⟩
  exact goes_ctl_nextPc hat (by simp only [insAssigned_nop hrow, if_true])

/-- Settles O6: each instruction is a write of its register, if it has one, and of the program counter. -/
theorem ctlIntegerResults : Obligations.CtlIntegerResults := by
  unfold Obligations.CtlIntegerResults
  intro c s k i
  exact ⟨fun h => goes_ctl_setG_nextPc h rfl, fun h => goes_ctl_setG_nextPc h rfl, fun h => goes_ctl_setG_nextPc h rfl, branch_becomes,
    fun h => goes_ctl_setG_setPc h rfl, fun h => goes_ctl_setPc h rfl, fun h => goes_ctl_setG_setPc h rfl, ctlNop_becomes⟩

/-! ### Clamps at an instruction -/

theorem hasCounter_coreClampBy (w : Work) (c : Nat) : (w.coreClampBy c).hasCounter := by
  unfold Work.coreClampBy
  split
  · next h => exact ⟨placedCtx_lt h, Nat.zero_lt_succ _⟩
  · simp [ClampBy.hasCounter, ClampBy.ctx, ClampBy.port]

theorem clampIns_writes (w : Work) (c lsb : Nat) (rule : ClampRule) : w.writesWithin clampWord (w.clampIns c lsb rule) :=
  clamp_writes (hasCounter_coreClampBy w c) ..

@[simp] theorem clampIns_hw (w : Work) (c lsb : Nat) (rule : ClampRule) : (w.clampIns c lsb rule).hw = w.hw := clamp_hw ..

@[simp] theorem clampIns_core (w : Work) (c lsb : Nat) (rule : ClampRule) (x : Nat) : (w.clampIns c lsb rule).core x = w.core x :=
  core_of_cores _ _ (by rw [clampIns_hw]) x

/-- A register word of a core slot holds no clamp count. -/
theorem coreWord_not_clampWord {c k : Nat} (hc : c < 272) (hk : k < 0x1000000) : ¬ clampWord (coreWindow c + k) := by
  simp only [clampWord, coreWindow, dieWindow]
  omega

/-- A clamp at an instruction leaves the fields of the core's own registers. -/
theorem fld_clampIns {w : Work} {c x lsb k : Nat} {rule : ClampRule} (hc : c < 272) (hk : k + 4 < 0x1000000) (f : Fld) :
    (w.clampIns x lsb rule).fld (coreWindow c + k) f = w.fld (coreWindow c + k) f :=
  (clampIns_writes ..).fld_eq f (coreWord_not_clampWord hc (by omega)) (coreWord_not_clampWord hc hk)

/-- Core slot c is now k, the register words are those of w, and nothing else has changed. -/
def coreAndWords (c : Nat) (s : State) (k : Core) (w : Work) (t : State) : Prop :=
  sameBytes s t ∧ sameCoresBut c s t ∧ t.hw = { s.hw with cores := t.hw.cores } ∧ t.pending = s.pending ∧ t.look.core c = k ∧
    ∀ a, t.look.r32 a = w.r32 a

/-- An instruction that counts a clamp and then changes its core. -/
theorem coreAndWords_of_clampIns {k : Core} {lsb : Nat} {rule : ClampRule} {w : Work}
    (h : Work.onlyCore c (s.look.clampIns c lsb rule) w) (hk : w.core c = k) :
    coreAndWords c s k (s.look.clampIns c lsb rule) (Work.commit s w) := by
  obtain ⟨hmem, hcsr, hwr, hcw, hhw, hother⟩ := h
  have hhw' : w.hw = { s.hw with cores := w.hw.cores } := hhw.trans (by rw [clampIns_hw]; rfl)
  refine ⟨sameBytes_of (hmem.trans (clamp_mem ..)) (hwr.trans (clamp_wr ..)) (by rw [hhw']), fun x hx => ?_, hhw', rfl, hk, fun a => ?_⟩
  · rw [commit_core, hother x hx, clampIns_core]
  · rw [commit_r32 s w (hcsr.trans (clamp_csr ..)), r32_of_cw _ _ hcw hcsr]

/-! ### Command assembly -/

theorem cwfWidth_eq (i : Nat) : cwfWidth i = min (insWidth i) (31 - insLsb i) + 1 := rfl

/-- A command assembly buffer written, and on. -/
theorem goes_ctl_setCab {n : Nat} {v : CmdBits} (h : atInsn c row s) (hf : f s.look (s.look.insn c) = (s.look.setCab c n v).nextPc c) :
    goesTo (run s fun w => w.ctl c row f) fun t =>
      coreBecomes c s t { s.look.core c with cabs := SMap.set 0 (s.look.core c).cabs n v, pc := (s.look.core c).pc + 4 } :=
  goes_ctl2 h (hf.trans (nextPc_upd ..)) rfl

theorem onlyCore_setCab_nextPc (c n : Nat) (w : Work) (v : CmdBits) : Work.onlyCore c w ((w.setCab c n v).nextPc c) :=
  onlyCore_updCore (onlyCore_updCore (onlyCore_refl ..) _) _

theorem onlyCore_setG_nextPc (c d : Nat) (w : Work) (v : DWord) : Work.onlyCore c w ((w.setG c d v).nextPc c) :=
  onlyCore_updCore (onlyCore_updCore (onlyCore_refl ..) _) _

/-- CWF, its width within the word or clamped to the word's end (R82). -/
theorem cwf_becomes {c : CoreIx} (h : atInsn c (isQueue 1) s) (hw : insWidth (s.look.insn c) ≤ 31 - insLsb (s.look.insn c)) :
    goesTo (execCwf c s) fun t => coreBecomes c s t { s.look.core c with
      cabs := SMap.set 0 (s.look.core c).cabs (insCab (s.look.insn c)) (cmdSet (SMap.get 0 (s.look.core c).cabs (insCab (s.look.insn c)))
        (insWord (s.look.insn c)) (insLsb (s.look.insn c)) (cwfWidth (s.look.insn c)) ((s.look.core c).g (insGA (s.look.insn c))).toNat)
      pc := (s.look.core c).pc + 4 } :=
  goes_ctl_setCab h (by rw [if_neg (Nat.not_lt.mpr hw)]; rfl)

theorem cwf_clamps {c : CoreIx} (h : atInsn c (isQueue 1) s) (hw : 31 - insLsb (s.look.insn c) < insWidth (s.look.insn c)) :
    goesTo (execCwf c s) (coreAndWords c s { s.look.core c with
      cabs := SMap.set 0 (s.look.core c).cabs (insCab (s.look.insn c)) (cmdSet (SMap.get 0 (s.look.core c).cabs (insCab (s.look.insn c)))
        (insWord (s.look.insn c)) (insLsb (s.look.insn c)) (cwfWidth (s.look.insn c)) ((s.look.core c).g (insGA (s.look.insn c))).toNat)
      pc := (s.look.core c).pc + 4 } (s.look.clampIns c 26 .joined)) := by
  refine goes_ctl h rfl ?_
  rw [if_pos hw]
  refine coreAndWords_of_clampIns (onlyCore_setCab_nextPc ..) ?_
  simp only [nextPc_upd, setCab_upd, core_updCore_self, Work.cab, Work.g, clampIns_core]

/-- The status word of an engine's queue (R85). -/
def queueStatus (w : Work) (c e : Nat) : DWord := BitVec.ofNat 64 (64 - (w.engine c e).queue.length + w.doneCount c e * 2 ^ 16 +
  w.fld (Reg.CORE_QTAG c e) Fld.CORE_QTAG_DONE_TAG * 2 ^ 32)

/-- A clamp at an instruction leaves what CQST reads. -/
theorem queueStatus_clampIns (w : Work) {c e lsb : Nat} {rule : ClampRule} (hc : c < 272) (he : e ≤ 4) :
    queueStatus (w.clampIns c lsb rule) c e = queueStatus w c e := by
  have hcnt : (w.clampIns c lsb rule).doneCount c e = w.doneCount c e := by
    simp only [Work.doneCount, Reg.CORE_QCNT, Nat.add_assoc]
    exact fld_clampIns hc (by omega) _
  have htag : (w.clampIns c lsb rule).fld (Reg.CORE_QTAG c e) Fld.CORE_QTAG_DONE_TAG = w.fld (Reg.CORE_QTAG c e) Fld.CORE_QTAG_DONE_TAG := by
    simp only [Reg.CORE_QTAG, Nat.add_assoc]
    exact fld_clampIns hc (by omega) _
  simp only [queueStatus, hcnt, htag, Work.engine, clampIns_core]

/-- CQST of an engine that exists, and of one that does not (R64, R85). -/
theorem cqst_becomes {c : CoreIx} (h : atInsn c (isQueue 4) s) (he : insEng (s.look.insn c) ≤ 4) :
    goesTo (execCqst c s) fun t => coreBecomes c s t { (s.look.core c).setG (insGA (s.look.insn c))
      (queueStatus s.look c (min (insEng (s.look.insn c)) 4)) with pc := (s.look.core c).pc + 4 } :=
  goes_ctl_setG_nextPc h (by simp only [clampEng_of_le _ _ he]; rfl)

theorem cqst_clamps {c : CoreIx} (h : atInsn c (isQueue 4) s) (he : 4 < insEng (s.look.insn c)) :
    goesTo (execCqst c s) (coreAndWords c s { (s.look.core c).setG (insGA (s.look.insn c))
      (queueStatus s.look c (min (insEng (s.look.insn c)) 4)) with pc := (s.look.core c).pc + 4 } (s.look.clampIns c 17 .range)) := by
  refine goes_ctl h rfl ?_
  rw [Work.clampEng, if_pos he]
  refine coreAndWords_of_clampIns (onlyCore_setG_nextPc ..) ?_
  rw [← queueStatus_clampIns (lsb := 17) (rule := .range) s.look c.isLt (Nat.min_le_right ..)]
  simp only [nextPc_upd, setG_upd, core_updCore_self, clampIns_core, setG_pc]
  rfl

/-- Settles O9: each instruction is one change of its core, after the clamp it counts, if any. -/
theorem ctlCommandAssembly : Obligations.CtlCommandAssembly := by
  unfold Obligations.CtlCommandAssembly
  intro c s w k i n old e assembled field status
  exact ⟨fun h => goes_ctl_setCab h rfl, fun ⟨h, hw⟩ => cwf_becomes h hw, fun ⟨h, hw⟩ => cwf_clamps h hw, fun h => goes_ctl_setCab h rfl,
    fun ⟨h, he⟩ => cqst_becomes h he, fun ⟨h, he⟩ => cqst_clamps h he⟩

end Sys2Proof.Machine
end

section
/-! SUPPORT. Pushes to the command queues (R72, R82, R83), waits (R84) and chain boundaries (R110). -/

namespace Sys2Proof.Machine

variable {s : State} {c : Nat}

theorem stall_of_atInsn {row : Nat → Bool} (h : atInsn c row s) : (s.look.core c).stall = .none := by
  obtain ⟨-, hruns, -⟩ := h
  simp only [Work.ctlRuns, Bool.and_eq_true, decide_eq_true_eq] at hruns
  exact hruns.1.2

theorem insFnB_of_isQueue {fn i : Nat} (h : isQueue fn i = true) : insFnB i = fn := by
  simp only [isQueue, Bool.and_eq_true, decide_eq_true_eq] at h
  exact h.2

/-! ### The queue entry that a push leaves -/

/-- A core with one more command at the end of an engine's queue, and no longer at a chain boundary. -/
def Core.queued (k : Core) (e : Nat) (x : QEntry) : Core :=
  { k.setEngine e { k.engine e with queue := (k.engine e).queue ++ [x] } with boundary := false }

/-- A core after CPUSH or CPUSHM: the command queued, the control core behind the instruction, and the buffers as given (R82). -/
def Core.pushed (k : Core) (e : Nat) (x : QEntry) (cabs : SMap CmdBits) : Core := { k.queued e x with pc := k.pc + 4, cabs := cabs }

/-- The command that CPUSH pushes, and the buffers behind it: INC counts the tag on (R82). -/
def cpushEntry (w : Work) (c i : Nat) : QEntry := ⟨w.cab c (insCab i), none, w.placedCtx c, false⟩

def cpushCabs (k : Core) (i : Nat) : SMap CmdBits :=
  if insInc i then SMap.set 0 k.cabs (insCab i) (cmdSet (SMap.get 0 k.cabs (insCab i)) 1 0 16 (cmdTag (SMap.get 0 k.cabs (insCab i)) + 1))
  else k.cabs

/-- The command that CPUSHM pushes (R82). -/
def cpushmEntry (w : Work) (c i : Nat) : QEntry :=
  ⟨BitVec.ofNat 512 (w.spmLE c ((w.g c (insGA i)).toNat % 2 ^ 24 / 64 * 64) 64), some (spmAt c ((w.g c (insGA i)).toNat % 2 ^ 24 / 64 * 64)), w.placedCtx c, false⟩

/-- An aligned offset is where a command lies. -/
theorem spmCmd_aligned (w : Work) (c x : Nat) :
    w.spmCmd c (x % 2 ^ 24 / 64 * 64) = BitVec.ofNat 512 (w.spmLE c (x % 2 ^ 24 / 64 * 64) 64) := by
  have h : x % 2 ^ 24 / 64 * 64 % 2 ^ 24 / 64 * 64 = x % 2 ^ 24 / 64 * 64 := by omega
  rw [Work.spmCmd, h]

/-- A push behind other commands meets no break: no command comes to the head (R111). -/
theorem push_behind {w : Work} {e : Nat} (h : (w.engine c e).queue ≠ []) (cmd : CmdBits) (src : Option Nat) :
    Work.onlyCore c w (w.push c e cmd src) ∧ (w.push c e cmd src).core c = (w.core c).queued e ⟨cmd, src, w.placedCtx c, false⟩ := by
  have hne : (w.engine c e).queue.isEmpty = false := List.isEmpty_eq_false_iff.mpr h
  simp only [Work.push, hne, Bool.false_eq_true, if_false]
  refine ⟨onlyCore_updCore (onlyCore_updCore (onlyCore_refl ..) _) _, ?_⟩
  simp only [Work.updEngine, core_updCore_self]
  rfl

theorem doPush_cpush {w : Work} {i : Nat} (hfn : insFnB i = 3) (h : (w.engine c (insEngine i)).queue ≠ []) :
    Work.onlyCore c w (w.doPush c i) ∧
      (w.doPush c i).core c = (w.core c).pushed (insEngine i) (cpushEntry w c i) (cpushCabs (w.core c) i) := by
  obtain ⟨honly, hcore⟩ := push_behind h (w.cab c (insCab i)) none
  rw [Work.doPush, if_pos hfn]
  dsimp only
  split
  · next hinc =>
    rw [nextPc_upd, setCab_upd]
    refine ⟨onlyCore_updCore (onlyCore_updCore honly _) _, ?_⟩
    rw [core_updCore_self, core_updCore_self, hcore, cpushCabs, if_pos hinc]
    rfl
  · next hinc =>
    rw [nextPc_upd]
    refine ⟨onlyCore_updCore honly _, ?_⟩
    rw [core_updCore_self, hcore, cpushCabs, if_neg hinc]
    rfl

theorem doPush_cpushm {w : Work} {i : Nat} (hfn : insFnB i = 7) (h : (w.engine c (insEngine i)).queue ≠ []) :
    Work.onlyCore c w (w.doPush c i) ∧ (w.doPush c i).core c = (w.core c).pushed (insEngine i) (cpushmEntry w c i) (w.core c).cabs := by
  obtain ⟨honly, hcore⟩ := push_behind h (w.spmCmd c ((w.g c (insGA i)).toNat % 2 ^ 24 / 64 * 64))
    (some (spmAt c ((w.g c (insGA i)).toNat % 2 ^ 24 / 64 * 64)))
  rw [Work.doPush, if_neg (by omega), nextPc_upd]
  refine ⟨onlyCore_updCore honly _, ?_⟩
  rw [core_updCore_self, hcore, spmCmd_aligned]
  rfl

/-! ### Pushes -/

theorem tryPush_room {w : Work} {i : Nat} (he : insEng i ≤ 4) (hw : w.pushWaits c (min (insEng i) 4) = false) : w.tryPush c i = w.doPush c i := by
  simp only [Work.tryPush, clampEng_of_le _ _ he, insEngine, hw, Bool.false_eq_true, if_false]

theorem tryPush_waits {w : Work} {i : Nat} (he : insEng i ≤ 4) (hw : w.pushWaits c (min (insEng i) 4) = true) :
    w.tryPush c i = w.setStall c (.push (min (insEng i) 4)) := by
  simp only [Work.tryPush, clampEng_of_le _ _ he, insEngine, hw, if_true]

/-- A push to an engine that does not exist is counted and goes to engine 4 (R64, R81). -/
theorem tryPush_clamps {w : Work} {i : Nat} (he : 4 < insEng i) : w.tryPush c i =
    if w.pushWaits c 4 then (w.clampIns c 17 .range).setStall c (.push 4) else (w.clampIns c 17 .range).doPush c i := by
  have h4 : insEngine i = 4 := Nat.min_eq_right (Nat.le_of_lt he)
  have hwaits : (w.clampIns c 17 .range).pushWaits c 4 = w.pushWaits c 4 := by
    simp only [Work.pushWaits, Work.engine, Work.ownInstall, clampIns_core, clampIns_hw]
  rw [Work.tryPush, Work.clampEng, if_pos he, h4, hwaits]

/-- An instruction that pushes, at once. -/
theorem goes_ctl_push {row : Nat → Bool} {k : Core} (h : atInsn c row s) (he : insEng (s.look.insn c) ≤ 4)
    (hw : s.look.pushWaits c (min (insEng (s.look.insn c)) 4) = false)
    (hpush : Work.onlyCore c s.look (s.look.doPush c (s.look.insn c)) ∧ (s.look.doPush c (s.look.insn c)).core c = k) :
    goesTo (run s fun w => w.ctl c row fun w i => w.tryPush c i) fun t => coreBecomes c s t k :=
  goes_ctl h (tryPush_room he hw) (becomes_of hpush.1 hpush.2)

/-- An instruction that has waited for a slot pushes, halted or not (log entry 8). -/
theorem cpushUnstall_pushes {c : CoreIx} {k : Core} (hp : s.powered = true) (hup : s.look.coreUp c = true)
    (hs : (s.look.core c).stall = .push (min (insEng (s.look.insn c)) 4)) (hw : s.look.pushWaits c (min (insEng (s.look.insn c)) 4) = false)
    (hpush : Work.onlyCore c (s.look.setStall c .none) ((s.look.setStall c .none).doPush c (s.look.insn c)) ∧
      ((s.look.setStall c .none).doPush c (s.look.insn c)).core c = k) :
    goesTo (execCpushUnstall c s) fun t => coreBecomes c s t k := by
  obtain ⟨⟨hmem, hcsr, hwr, hcw, hhw, hother⟩, hcore⟩ := hpush
  refine goes hp ?_
  dsimp only
  rw [if_pos (by simp [Work.ctlStalled, hup, hs, insEngine, hw])]
  exact becomes_of ⟨hmem, hcsr, hwr, hcw, hhw, fun x hx => (hother x hx).trans (core_updCore_other _ _ hx)⟩ hcore

/-- A stall that ends shows in the core, and nowhere in the command that it pushes. -/
theorem core_setStall (w : Work) (c : Nat) (x : CtlStall) : (w.setStall c x).core c = { w.core c with stall := x } := core_updCore_self ..

theorem pushed_withStall (k : Core) (x : CtlStall) (e : Nat) (q : QEntry) (cabs : SMap CmdBits) :
    ({ k with stall := x } : Core).pushed e q cabs = { k.pushed e q cabs with stall := x } := rfl

theorem cpushCabs_withStall (k : Core) (x : CtlStall) (i : Nat) : cpushCabs { k with stall := x } i = cpushCabs k i := rfl

theorem cpushEntry_setStall (w : Work) (c i : Nat) (x : CtlStall) : cpushEntry (w.setStall c x) c i = cpushEntry w c i := by
  simp only [cpushEntry, Work.cab, core_setStall]
  rfl

theorem cpushmEntry_setStall (w : Work) (c i : Nat) (x : CtlStall) : cpushmEntry (w.setStall c x) c i = cpushmEntry w c i := by
  simp only [cpushmEntry, g_setStall]
  rfl

/-! ### Chain boundaries -/

/-- A core whose control core goes on behind its instruction. -/
theorem resumed_becomes (c : Nat) (s : State) :
    coreBecomes c s (Work.commit s ((s.look.setStall c .none).nextPc c)) { s.look.core c with stall := .none, pc := (s.look.core c).pc + 4 } :=
  becomes_of (onlyCore_updCore (onlyCore_setStall ..) _) (by simp only [nextPc_upd, setStall_upd, core_updCore_self])

/-- CBND completes at a chain boundary, or short of one (R110). -/
theorem doBoundary_idle {w : Work} (h : (w.core c).handoverIdle = true) :
    w.doBoundary c = (((w.updCore c fun k => { k with boundary := true }).setStall c .none).nextPc c).atBoundary c := by
  simp only [Work.doBoundary, h, if_true]

theorem doBoundary_busy {w : Work} (h : (w.core c).handoverIdle = false) : w.doBoundary c = (w.setStall c .none).nextPc c := by
  simp only [Work.doBoundary, h, Bool.false_eq_true, if_false]

theorem cbnd_drained {c : CoreIx} {w : Work} (h : atInsn c (isQueue 6) s) (hd : (s.look.core c).drained = true) (hw : s.look.doBoundary c = w) :
    execCbnd c s = done s w :=
  ctl_done h ((if_pos hd).trans hw)

theorem cbndComplete_drained {c : CoreIx} {w : Work} (hp : s.powered = true) (hup : s.look.coreUp c = true)
    (hs : (s.look.core c).stall = .boundary) (hd : (s.look.core c).drained = true) (hw : s.look.doBoundary c = w) :
    execCbndComplete c s = done s w :=
  run_done hp ((if_pos (by simp [Work.ctlStalled, hup, hs, hd])).trans hw)

/-- A CWAIT that has waited goes on when DONE has reached its value, halted or not (R84, log entry 8). -/
theorem cwaitRelease_goesOn {c : CoreIx} {e v : Nat} (hp : s.powered = true) (hup : s.look.coreUp c = true)
    (hs : (s.look.core c).stall = .wait e v) (hr : hasReached (s.look.doneCount c e) v = true) :
    goesTo (execCwaitRelease c s) fun t => coreBecomes c s t { s.look.core c with stall := .none, pc := (s.look.core c).pc + 4 } := by
  refine goes hp ?_
  simp only [hs, hup, hr, Bool.and_self, if_true]
  exact resumed_becomes c s

/-- A CWAIT on an engine that does not exist is counted and waits for engine 4 (R64, R81). -/
theorem cwait_clamps {c : CoreIx} (h : atInsn c (isQueue 5) s) (he : 4 < insEng (s.look.insn c)) :
    execCwait c s = done s (if hasReached ((s.look.clampIns c 17 .range).doneCount c 4) ((s.look.g c (insGA (s.look.insn c))).toNat % 65536)
      then (s.look.clampIns c 17 .range).nextPc c
      else (s.look.clampIns c 17 .range).setStall c (.wait 4 ((s.look.g c (insGA (s.look.insn c))).toNat % 65536))) := by
  refine ctl_done h ?_
  have h4 : insEngine (s.look.insn c) = 4 := Nat.min_eq_right (Nat.le_of_lt he)
  have hg : (s.look.clampIns c 17 .range).g c (insGA (s.look.insn c)) = s.look.g c (insGA (s.look.insn c)) := by
    simp only [Work.g, clampIns_core]
  simp only [Work.clampEng, he, if_true, h4, hg]

/-- Settles O10: a push that finds room queues its command, one that does not stalls; the waits end when what they wait for has come. -/
theorem ctlQueueInstructions : Obligations.CtlQueueInstructions := by
  unfold Obligations.CtlQueueInstructions
  refine ⟨?_, ?_, ?_⟩
  · intro c s w k i e cab off behind pushed pushedM room stalled value
    have hbehind (x : QEntry) (cabs : SMap CmdBits) : ({ k.pushed e x cabs with stall := .none } : Core) = { behind x with cabs := cabs } := rfl
    have hready (x : QEntry) (cabs : SMap CmdBits) (hk : k.stall = .none) : k.pushed e x cabs = { behind x with cabs := cabs } := by
      rw [← hbehind, ← hk]
      rfl
    have hqueue (hq : (k.engine e).queue ≠ []) : ((w.setStall c .none).engine c (insEngine i)).queue ≠ [] := by
      rw [Work.engine, core_setStall]
      exact hq
    refine ⟨fun ⟨h, ⟨he, hw⟩, hq⟩ => ?_, fun ⟨h, ⟨he, hw⟩, hq⟩ => ctl_done h (tryPush_room he hw), fun ⟨h, ⟨he, hw⟩, hq⟩ => ?_,
      fun ⟨h, ⟨he, hw⟩, hq⟩ => ctl_done h (tryPush_room he hw), fun ⟨h, he, hw⟩ => goes_ctl_setStall h (tryPush_waits he hw),
      fun ⟨h, he, hw⟩ => goes_ctl_setStall h (tryPush_waits he hw), fun ⟨⟨hp, hup, hs, hw⟩, hi, hq⟩ => ?_, fun ⟨⟨hp, hup, hs, hw⟩, hi, hq⟩ => ?_,
      fun ⟨h, he, hr⟩ => cwait_goesOn h he (insEngine_of_le he ▸ hr), fun ⟨h, he, hr⟩ => ?_, fun e' v ⟨hp, hup, hs, hr⟩ => cwaitRelease_goesOn hp hup hs hr⟩
    · obtain ⟨honly, hcore⟩ := doPush_cpush (insFnB_of_isQueue (row_of_atInsn h)) hq
      exact goes_ctl_push h he hw ⟨honly, hcore.trans (hready _ _ (stall_of_atInsn h))⟩
    · obtain ⟨honly, hcore⟩ := doPush_cpushm (insFnB_of_isQueue (row_of_atInsn h)) hq
      exact goes_ctl_push h he hw ⟨honly, hcore.trans (hready _ _ (stall_of_atInsn h))⟩
    · obtain ⟨honly, hcore⟩ := doPush_cpush (insFnB_of_isQueue hi) (hqueue hq)
      rw [cpushEntry_setStall, core_setStall, pushed_withStall, cpushCabs_withStall] at hcore
      exact cpushUnstall_pushes hp hup hs hw ⟨honly, hcore.trans (hbehind _ _)⟩
    · obtain ⟨honly, hcore⟩ := doPush_cpushm (insFnB_of_isQueue hi) (hqueue hq)
      rw [cpushmEntry_setStall, core_setStall, pushed_withStall] at hcore
      exact cpushUnstall_pushes hp hup hs hw ⟨honly, hcore.trans (hbehind _ _)⟩
    · have heng : e = insEng i := Nat.min_eq_left he
      simp only [heng] at hr ⊢
      exact cwait_stalls h he hr
  · intro c s w i counted he
    exact ⟨fun h => ctl_done h (tryPush_clamps he), fun h => ctl_done h (tryPush_clamps he), fun h => cwait_clamps h he⟩
  · intro c s w k atBoundary goesOn completes
    refine ⟨fun ⟨h, hd, hi⟩ => cbnd_drained h hd (doBoundary_idle hi), fun ⟨h, hd, hi⟩ => ?_,
      fun ⟨h, hd⟩ => goes_ctl_setStall h (if_neg (by rw [hd]; exact Bool.false_ne_true)),
      fun ⟨⟨hp, hup, hs, hd⟩, hi⟩ => cbndComplete_drained hp hup hs hd (doBoundary_idle hi), fun ⟨⟨hp, hup, hs, hd⟩, hi⟩ => ?_⟩
    · exact ⟨_, cbnd_drained h hd (doBoundary_busy hi), resumed_becomes c s⟩
    · exact ⟨_, cbndComplete_drained hp hup hs hd (doBoundary_busy hi), resumed_becomes c s⟩

end Sys2Proof.Machine
end

section
/-! SUPPORT. Bytes written from an address upward, in memory and in a scratchpad (R9, R40). -/

namespace Sys2Proof.Machine

/-- The work of a command that has written bytes of memory and nothing else. -/
def Work.onlyBytes (w w' : Work) : Prop :=
  w'.mem = w.mem ∧ w'.csr = w.csr ∧ w'.cw = w.cw ∧ w'.hw = { w.hw with wild := w'.hw.wild }

theorem onlyBytes_refl (w : Work) : w.onlyBytes w := ⟨rfl, rfl, rfl, rfl⟩

theorem Work.onlyBytes.trans {u v w : Work} (h : u.onlyBytes v) (h' : v.onlyBytes w) : u.onlyBytes w := by
  obtain ⟨hmem, hcsr, hcw, hhw⟩ := h
  obtain ⟨hmem', hcsr', hcw', hhw'⟩ := h'
  refine ⟨hmem'.trans hmem, hcsr'.trans hcsr, hcw'.trans hcw, ?_⟩
  rw [hhw', hhw]

theorem onlyBytes_wrB (w : Work) (a : Nat) (v : Byte) : w.onlyBytes (w.wrB a v) := ⟨rfl, rfl, rfl, rfl⟩

theorem onlyBytes_wrBytes (l : List Byte) : ∀ (w : Work) (a : Nat), w.onlyBytes (w.wrBytes a l) := by
  induction l with
  | nil => exact fun w _ => onlyBytes_refl w
  | cons v l ih => exact fun w a => (onlyBytes_wrB w a v).trans (ih ..)

/-- Bytes outside those written read as before. -/
theorem rdB_wrBytes_outside (l : List Byte) : ∀ (w : Work) (a : Nat) {x : Nat}, ¬ (a ≤ x ∧ x < a + l.length) → (w.wrBytes a l).rdB x = w.rdB x := by
  induction l with
  | nil => exact fun _ _ _ _ => rfl
  | cons v l ih =>
    intro w a x hx
    rw [List.length_cons] at hx
    rw [Work.wrBytes, ih _ _ (by omega), rdB_wrB_other _ _ (by omega)]

/-- A byte written reads as written. -/
theorem rdB_wrBytes_inside (l : List Byte) : ∀ (w : Work) (a : Nat) {j : Nat}, j < l.length → (w.wrBytes a l).rdB (a + j) = l.getD j 0 := by
  induction l with
  | nil => exact fun _ _ _ h => absurd h (Nat.not_lt_zero _)
  | cons v l ih =>
    intro w a j hj
    rw [Work.wrBytes]
    cases j with
    | zero => rw [rdB_wrBytes_outside _ _ _ (by omega), Nat.add_zero, rdB_wrB_self, List.getD_cons_zero]
    | succ j =>
      rw [List.length_cons] at hj
      rw [show a + (j + 1) = a + 1 + j by omega, ih _ _ (by omega), List.getD_cons_succ]

@[simp] theorem length_leBytes (n : Nat) : ∀ v, (leBytes n v).length = n := by
  induction n with
  | zero => exact fun _ => rfl
  | succ n ih => exact fun v => by rw [leBytes, List.length_cons, ih]

/-- A write to a scratchpad that does not wrap. -/
theorem spmWrite_eq_wrBytes (c : Nat) (l : List Byte) : ∀ (w : Work) (off : Nat), off + l.length ≤ 2 ^ 24 →
    w.spmWrite c off l = w.wrBytes (spmBase c + off) l := by
  induction l with
  | nil => exact fun _ _ _ => rfl
  | cons v l ih =>
    intro w off h
    rw [List.length_cons] at h
    rw [Work.spmWrite, Work.wrBytes, ih _ _ (by omega), spmAt, Nat.mod_eq_of_lt (by omega), Nat.add_assoc]

theorem spmAt_eq {c off : Nat} (h : off < 2 ^ 24) : spmAt c off = spmBase c + off := by
  rw [spmAt]
  exact congrArg _ (Nat.mod_eq_of_lt h)

end Sys2Proof.Machine
end

section
/-! SUPPORT. Loads and stores of the control core (R76, R78). -/

namespace Sys2Proof.Machine

variable {s : State} {c : CoreIx}

/-! ### The scratchpad -/

/-- An aligned access ends within the scratchpad. -/
theorem spmOperand_end (w : Work) (c : Nat) {i : Nat} (h : insFnB i ≤ 3) : w.spmOperand c i + insSize i ≤ 2 ^ 24 := by
  have hdvd : insSize i ∣ 2 ^ 24 := pow_dvd_pow 2 (by omega)
  have hlt := Nat.mod_lt (w.g c (insA i) + insImm12 i).toNat (Nat.two_pow_pos 24)
  obtain ⟨k, hk⟩ := hdvd
  have hdiv : (w.g c (insA i) + insImm12 i).toNat % 2 ^ 24 / insSize i < k := Nat.div_lt_of_lt_mul (hk ▸ hlt)
  calc w.spmOperand c i + insSize i = ((w.g c (insA i) + insImm12 i).toNat % 2 ^ 24 / insSize i + 1) * insSize i := by
        rw [Work.spmOperand, Nat.add_mul, Nat.one_mul]
    _ ≤ k * insSize i := Nat.mul_le_mul_right _ hdiv
    _ = 2 ^ 24 := by rw [hk, Nat.mul_comm]

theorem insSize_pos (i : Nat) : 0 < insSize i := Nat.two_pow_pos _

/-- What a scratchpad store leaves. -/
def spmStored (c : CoreIx) (s : State) (off size : Nat) (v : Nat) (k : Core) (t : State) : Prop :=
  sameBytesBut (fun x => spmAt c off ≤ x ∧ x < spmAt c off + size) s t ∧
    (∀ j, j < size → t.look.rdB (spmAt c off + j) = (leBytes size v).getD j 0) ∧
    sameWords s t ∧ sameCoresBut c s t ∧ t.pending = s.pending ∧ t.look.core c = k ∧
    t.hw = { s.hw with cores := t.hw.cores, wild := t.hw.wild }

theorem spmStored_of {off size : Nat} (v : Nat) (f : Core → Core) (hoff : off < 2 ^ 24) (hend : off + size ≤ 2 ^ 24) :
    spmStored c s off size v (f (s.look.core c)) (Work.commit s ((s.look.spmWrite c off (leBytes size v)).updCore c f)) := by
  rw [spmWrite_eq_wrBytes _ _ _ _ (by rwa [length_leBytes]), ← spmAt_eq hoff]
  obtain ⟨hmem, hcsr, hcw, hhw⟩ := onlyBytes_wrBytes (leBytes size v) s.look (spmAt c off)
  have hcores (x : Nat) : (s.look.wrBytes (spmAt c off) (leBytes size v)).core x = s.look.core x := core_of_cores _ _ (by rw [hhw]) x
  have hmem' : ((s.look.wrBytes (spmAt c off) (leBytes size v)).updCore c f).mem = s.mem := hmem
  refine ⟨fun x hx => ?_, fun j hj => ?_, sameWords_of hcsr hcw, fun x hx => ?_, rfl, ?_, ?_⟩
  · rw [commit_rdB s _ hmem', rdB_updCore, rdB_wrBytes_outside _ _ _ (by rwa [length_leBytes])]
  · rw [commit_rdB s _ hmem', rdB_updCore, rdB_wrBytes_inside _ _ _ (by rwa [length_leBytes])]
  · rw [commit_core, core_updCore_other _ _ hx, hcores]
  · rw [commit_core, core_updCore_self, hcores]
  · rw [commit_hw, Work.updCore, Work.setCore]
    dsimp only
    rw [hhw]
    rfl

/-! ### Accesses to memory -/

/-- The request of a control core's access (R76, R236). -/
def ctlRequest (w : Work) (c i : Nat) (op : ReqOp) : Req :=
  { Req.make (.ctl c) op (w.placedCtx c) w.selfNode (w.memOperand c i) w.hw.uptime 0 (SMap.get 0 w.hw.genCore c) with off := insD i }

/-- The machine with one more request, under the next number. -/
def Work.withReq (w : Work) (q : Req) : Work :=
  { w with hw := { w.hw with nextReq := w.hw.nextReq + 1, reqs := SMap.put w.hw.reqs w.hw.nextReq q } }

/-- A new request of a core takes the next number, and marks the use of its region's pool (R279). -/
theorem addReq_core (w : Work) {q : Req} {c : Nat} (h : q.src.core? = some c) :
    w.addReq q = (w.hw.nextReq, (w.withReq q).poolHigh (coreRegion c)) := by
  simp only [Work.addReq, h, Work.withReq]

section Parts
variable (w : Work) (q : Req) (r : Nat)

@[simp] theorem withReq_mem : (w.withReq q).mem = w.mem := rfl
@[simp] theorem withReq_csr : (w.withReq q).csr = w.csr := rfl
@[simp] theorem withReq_wr : (w.withReq q).wr = w.wr := rfl
@[simp] theorem withReq_cw : (w.withReq q).cw = w.cw := rfl
@[simp] theorem withReq_wild : (w.withReq q).hw.wild = w.hw.wild := rfl
@[simp] theorem withReq_core (c : Nat) : (w.withReq q).core c = w.core c := rfl
@[simp] theorem poolHigh_mem : (w.poolHigh r).mem = w.mem := setFld_mem ..
@[simp] theorem poolHigh_csr : (w.poolHigh r).csr = w.csr := setFld_csr ..
@[simp] theorem poolHigh_wr : (w.poolHigh r).wr = w.wr := setFld_wr ..
@[simp] theorem poolHigh_hw : (w.poolHigh r).hw = w.hw := setFld_hw ..
@[simp] theorem poolHigh_core (c : Nat) : (w.poolHigh r).core c = w.core c := core_of_cores _ _ (by rw [poolHigh_hw]) c

end Parts

theorem poolHigh_r32 (w : Work) (r : Nat) {a : Nat} (h : a ≠ Reg.MEM_POOL_STAT r) : (w.poolHigh r).r32 a = w.r32 a :=
  r32_setFld_other w _ _ (by decide) h

theorem selfNode_poolHigh (w : Work) (r : Nat) : (w.poolHigh r).selfNode = w.selfNode := by
  refine fld_setFld_other w _ _ _ (by decide) (by decide) ?_
  simp only [Reg.RTE_SELF, Reg.MEM_POOL_STAT, dieWindow]
  omega

/-- A request of a core's own to this chip: translation takes it, or the bus at once (R32–R34). -/
theorem issueReq_here {w : Work} {q : Req} (hsrc : q.src.core? = some c.val) (hnode : q.node = w.selfNode) (hd : directDpa q.addr = none) :
    w.issueReq q = w.addReq q := by
  have hself : (w.addReq q).2.selfNode = q.node := by
    rw [addReq_core w hsrc, hnode]
    exact selfNode_poolHigh ..
  simp only [Work.issueReq, hself, ne_eq, not_true_eq_false, if_false, hd]

theorem issueReq_direct {w : Work} {q : Req} {d : Nat} (hsrc : q.src.core? = some c.val) (hnode : q.node = w.selfNode)
    (hd : directDpa q.addr = some d) : w.issueReq q = (w.hw.nextReq, (w.addReq q).2.busRoute w.hw.nextReq q d) := by
  have hself : (w.addReq q).2.selfNode = q.node := by
    rw [addReq_core w hsrc, hnode]
    exact selfNode_poolHigh ..
  simp only [Work.issueReq, hself, ne_eq, not_true_eq_false, if_false, hd]
  rfl

/-- A control core's access that is not held goes out as a request, and the control core waits for the reply. -/
theorem ctlAccess_of_free {w : Work} {i : Nat} (op : ReqOp) (h : w.accessHeld (.cell c 0) w.selfNode (w.memOperand c i) = false) :
    w.ctlAccess c i op = (w.issueReq (ctlRequest w c i op)).2.setStall c (.access (w.issueReq (ctlRequest w c i op)).1) := by
  have hc : Fin.ofNat 272 c.val = c := Fin.ext (Nat.mod_eq_of_lt c.isLt)
  simp only [Work.ctlAccess, hc, h, Bool.false_eq_true, if_false]
  rfl

theorem ctlAccess_of_held {w : Work} {i : Nat} (op : ReqOp) (h : w.accessHeld (.cell c 0) w.selfNode (w.memOperand c i) = true) :
    w.ctlAccess c i op = w := by
  have hc : Fin.ofNat 272 c.val = c := Fin.ext (Nat.mod_eq_of_lt c.isLt)
  simp only [Work.ctlAccess, hc, h, if_true]

/-- What an access that must be translated leaves. -/
def accessIssued (c : CoreIx) (s : State) (op : ReqOp) (t : State) : Prop :=
  sameBytes s t ∧ sameWordsBut [Reg.MEM_POOL_STAT (coreRegion c)] s t ∧ sameCoresBut c s t ∧ t.pending = s.pending ∧
    t.look.core c = { s.look.core c with stall := .access s.hw.nextReq } ∧
    t.hw = { s.hw with cores := t.hw.cores, nextReq := s.hw.nextReq + 1,
                       reqs := SMap.put s.hw.reqs s.hw.nextReq (ctlRequest s.look c (s.look.insn c) op) }

theorem accessIssued_of (s : State) (c : CoreIx) (op : ReqOp) : accessIssued c s op
    (Work.commit s ((s.look.addReq (ctlRequest s.look c (s.look.insn c) op)).2.setStall c (.access s.hw.nextReq))) := by
  rw [addReq_core s.look (c := c) rfl]
  refine ⟨sameBytes_of (by simp [setStall_upd]) (by simp [setStall_upd]) (by simp [setStall_upd]), fun x hx => ?_, fun x hx => ?_, commit_pending .., ?_, ?_⟩
  · rw [commit_r32 s _ (by simp [setStall_upd]), setStall_upd, r32_updCore]
    exact poolHigh_r32 _ _ (by simpa using hx)
  · rw [commit_core, setStall_upd, core_updCore_other _ _ hx, poolHigh_core, withReq_core]
  · rw [commit_core, core_setStall, poolHigh_core, withReq_core]
  · rw [commit_hw, setStall_upd, Work.updCore, Work.setCore]
    dsimp only
    rw [poolHigh_hw]
    rfl

section Access
variable {row : Nat → Bool} {f : Work → Nat → Work} {op : ReqOp}

/-- An access that its own installation holds leaves everything (R55). -/
theorem ctl_access_held (h : atInsn c row s) (hf : f s.look (s.look.insn c) = s.look.ctlAccess c (s.look.insn c) op)
    (hheld : s.look.accessHeld (.cell c 0) s.look.selfNode (s.look.memOperand c (s.look.insn c)) = true) :
    run s (fun w => w.ctl c row f) = .next s :=
  ctl_done h (hf.trans (ctlAccess_of_held op hheld))

/-- An access outside the direct window waits for translation (R32). -/
theorem ctl_access_issues (h : atInsn c row s) (hf : f s.look (s.look.insn c) = s.look.ctlAccess c (s.look.insn c) op)
    (hheld : s.look.accessHeld (.cell c 0) s.look.selfNode (s.look.memOperand c (s.look.insn c)) = false)
    (hd : directDpa (s.look.memOperand c (s.look.insn c)) = none) :
    goesTo (run s fun w => w.ctl c row f) (accessIssued c s op) := by
  refine goes_ctl h (hf.trans (ctlAccess_of_free op hheld)) ?_
  rw [issueReq_here (c := c) (q := ctlRequest s.look c (s.look.insn c) op) rfl rfl hd]
  exact accessIssued_of s c op

/-- An access to the direct window is the bus's (R34). -/
theorem ctl_access_direct {d : Nat} (h : atInsn c row s) (hf : f s.look (s.look.insn c) = s.look.ctlAccess c (s.look.insn c) op)
    (hheld : s.look.accessHeld (.cell c 0) s.look.selfNode (s.look.memOperand c (s.look.insn c)) = false)
    (hd : directDpa (s.look.memOperand c (s.look.insn c)) = some d) :
    run s (fun w => w.ctl c row f) = done s (((s.look.addReq (ctlRequest s.look c (s.look.insn c) op)).2.busRoute s.hw.nextReq
      (ctlRequest s.look c (s.look.insn c) op) d).setStall c (.access s.hw.nextReq)) := by
  refine ctl_done h (hf.trans ((ctlAccess_of_free op hheld).trans ?_))
  rw [issueReq_direct (c := c) (q := ctlRequest s.look c (s.look.insn c) op) rfl rfl hd]
  rfl

end Access

/-! ### Replies -/

/-- A reply without error fills the register of a load (R76). -/
def Core.replied (k : Core) (q : Req) : Core :=
  { (match q.op with | .read m => k.setG q.off (BitVec.ofNat 64 (q.number m)) | _ => k) with stall := .none, pc := k.pc + 4 }

theorem ctlReply_ok (w : Work) (c n : Nat) {q : Req} (h : q.bad = .ok) :
    Work.onlyCore c (w.dropReq n) (w.ctlReply c n q) ∧ (w.ctlReply c n q).core c = (w.core c).replied q := by
  cases hop : q.op with
  | read m =>
    simp only [Work.ctlReply, h, if_true, hop, nextPc_upd, setStall_upd, setG_upd, Core.replied]
    refine ⟨onlyCore_updCore (onlyCore_updCore (onlyCore_updCore (onlyCore_refl ..) _) _) _, ?_⟩
    simp only [core_updCore_self, setG_pc]
    rfl
  | write | sync =>
    simp only [Work.ctlReply, h, if_true, hop, nextPc_upd, setStall_upd, Core.replied]
    refine ⟨onlyCore_updCore (onlyCore_updCore (onlyCore_refl ..) _) _, ?_⟩
    simp only [core_updCore_self]
    rfl

/-- A reply without error changes the core and ends the request (R76). -/
theorem memAccessReply_ok {n : Nat} {q : Req} (hp : s.powered = true) (hs : (s.look.core c).stall = .access n) (hq : s.look.req? n = some q)
    (hst : q.stage = .replied) (hup : s.look.coreUp c = true) (hbad : q.bad = .ok) :
    goesTo (execMemAccessReply c s) fun t => sameBytes s t ∧ sameWords s t ∧ sameCoresBut c s t ∧ t.pending = s.pending ∧
      t.hw = { s.hw with cores := t.hw.cores, reqs := SMap.del s.hw.reqs n } ∧ t.look.core c = (s.look.core c).replied q := by
  refine goes hp ?_
  simp only [hs, hq, hst, hup, and_self, if_true]
  obtain ⟨⟨hmem, hcsr, hwr, hcw, hhw, hother⟩, hcore⟩ := ctlReply_ok s.look c n hbad
  exact ⟨sameBytes_of hmem hwr (by rw [hhw]; rfl), sameWords_of hcsr hcw, fun x hx => hother x hx, rfl, hhw, hcore⟩

/-- A reply that carries an error stops the control core at the instruction, and is the core's fault (R78). -/
theorem memAccessReply_bad {n : Nat} {q : Req} (hp : s.powered = true) (hs : (s.look.core c).stall = .access n) (hq : s.look.req? n = some q)
    (hst : q.stage = .replied) (hup : s.look.coreUp c = true) (hbad : q.bad ≠ .ok) :
    execMemAccessReply c s =
      done s (((s.look.dropReq n).setStall c .faulted).reqFault q q.bad.kind (s.look.core c).pc.toNat) := by
  refine run_done hp ?_
  simp only [hs, hq, hst, hup, and_self, if_true, Work.ctlReply, hbad, if_false]
  rfl

/-- Settles O7: an access goes out as one request and its reply ends it; the scratchpad answers at once. -/
theorem ctlMemoryAccess : Obligations.CtlMemoryAccess := by
  unfold Obligations.CtlMemoryAccess
  refine ⟨?_, ?_, ?_⟩
  · intro c s w k i a n size held request store issued
    exact ⟨fun ⟨h, hheld, hd⟩ => ctl_access_issues h rfl hheld hd, fun ⟨h, hheld, hd⟩ => ctl_access_issues h rfl hheld hd,
      fun d ⟨h, hheld, hd⟩ => ctl_access_direct h rfl hheld hd, fun d ⟨h, hheld, hd⟩ => ctl_access_direct h rfl hheld hd,
      fun ⟨h, hheld⟩ => ctl_access_held h rfl hheld, fun ⟨h, hheld⟩ => ctl_access_held h rfl hheld⟩
  · rintro c s n q k ⟨hp, hs, hq, hst, hup⟩
    exact ⟨fun hbad => memAccessReply_ok hp hs hq hst hup hbad, fun hbad => memAccessReply_bad hp hs hq hst hup hbad⟩
  · intro c s k i size off
    refine ⟨fun h => goes_ctl_setG_nextPc h rfl, fun h => goes_ctl h rfl ?_⟩
    have hfn : insFnB i ≤ 3 := by
      have hrow := row_of_atInsn h
      simp only [isSpmStore, Bool.and_eq_true, decide_eq_true_eq] at hrow
      exact hrow.2
    have hend := spmOperand_end s.look c hfn
    have hpos := insSize_pos i
    exact spmStored_of (k.g (insD i)).toNat (fun k => { k with pc := k.pc + 4 })
      ((Nat.lt_add_of_pos_right hpos).trans_le hend) hend

end Sys2Proof.Machine
end

section
/-! SUPPORT. What an operation leaves alone: bytes, the register words outside a set, and the core slots outside a set; a relation between the machine
before and after it, with a rule for each write. -/

namespace Sys2Proof.Machine

/-- The operation from w to w' writes no byte, register words of p only, and core slots of q only. -/
structure Work.touches (p q : Nat → Prop) (w w' : Work) : Prop where
  mem : w'.mem = w.mem
  csr : w'.csr = w.csr
  wr : w'.wr = w.wr
  wild : w'.hw.wild = w.hw.wild
  word : ∀ a, ¬ p a → w'.r32 a = w.r32 a
  core : ∀ c, ¬ q c → w'.core c = w.core c

/-- No core slot. -/
def noCore (_ : Nat) : Prop := False

namespace Work.touches

variable {p p' q q' : Nat → Prop} {u v w : Work} {a c : Nat}

theorem refl (p q : Nat → Prop) (w : Work) : w.touches p q w := ⟨rfl, rfl, rfl, rfl, fun _ _ => rfl, fun _ _ => rfl⟩

theorem trans (h : u.touches p q v) (h' : v.touches p q w) : u.touches p q w :=
  ⟨h'.mem.trans h.mem, h'.csr.trans h.csr, h'.wr.trans h.wr, h'.wild.trans h.wild, fun a ha => (h'.word a ha).trans (h.word a ha),
    fun c hc => (h'.core c hc).trans (h.core c hc)⟩

theorem mono (h : u.touches p q v) (hp : ∀ a, p a → p' a) (hq : ∀ c, q c → q' c) : u.touches p' q' v :=
  ⟨h.mem, h.csr, h.wr, h.wild, fun a ha => h.word a (mt (hp a) ha), fun c hc => h.core c (mt (hq c) hc)⟩

theorem noCore (h : u.touches p noCore v) (q : Nat → Prop) : u.touches p q v :=
  h.mono (fun _ => id) fun _ => False.elim

/-- Work that changes nothing but parts of the hardware beside the cores and the unknown bytes. -/
theorem of_hw (hmem : v.mem = u.mem) (hcsr : v.csr = u.csr) (hwr : v.wr = u.wr) (hcw : v.cw = u.cw) (hwild : v.hw.wild = u.hw.wild)
    (hcores : v.hw.cores = u.hw.cores) : u.touches p q v :=
  ⟨hmem, hcsr, hwr, hwild, fun a _ => r32_of_cw u v hcw hcsr a, fun c _ => core_of_cores u v hcores c⟩

theorem w32 (w : Work) (x : Word) (ha : p a) : w.touches p q (w.w32 a x) :=
  ⟨rfl, rfl, rfl, rfl, fun _ hb => r32_w32_other w x fun e => hb (e ▸ ha), fun _ _ => rfl⟩

theorem w64 (w : Work) (x : DWord) (ha : p a) (ha4 : p (a + 4)) : w.touches p q (w.w64 a x) :=
  (w32 w _ ha).trans (w32 _ _ ha4)

/-- A field that lies in the first word of its register. -/
theorem setFld32 (w : Work) {f : Fld} (x : Nat) (hf : f.lsb + f.width ≤ 32) (ha : p a) : w.touches p q (w.setFld a f x) := by
  unfold Work.setFld
  rw [if_pos hf]
  exact w32 w _ ha

theorem setFld (w : Work) (f : Fld) (x : Nat) (ha : p a) (ha4 : p (a + 4)) : w.touches p q (w.setFld a f x) := by
  unfold Work.setFld
  split
  · exact w32 w _ ha
  · split
    · exact w32 w _ ha4
    · exact w64 w _ ha ha4

theorem setFlag (w : Work) (f : Fld) (b : Bool) (ha : p a) (ha4 : p (a + 4)) : w.touches p q (w.setFlag a f b) := setFld w f _ ha ha4

theorem bump (w : Work) (n : Nat) (ha : p a) (ha4 : p (a + 4)) : w.touches p q (w.bump a n) := by
  unfold Work.bump
  split
  · exact refl p q w
  · exact w64 w _ ha ha4

theorem satAdd (w : Work) (f : Fld) (n : Nat) (ha : p a) (ha4 : p (a + 4)) : w.touches p q (w.satAdd a f n) := setFld w f _ ha ha4

theorem updCore (w : Work) (f : Core → Core) (hc : q c) : w.touches p q (w.updCore c f) :=
  ⟨rfl, rfl, rfl, rfl, fun _ _ => rfl, fun x hx => core_updCore_other w f fun e => hx (e ▸ hc)⟩

theorem forEach {α : Type} {f : Work → α → Work} (l : List α) (h : ∀ u : Work, ∀ x ∈ l, u.touches p q (f u x)) (w : Work) :
    w.touches p q (w.forEach l f) := by
  induction l generalizing w with
  | nil => exact refl p q w
  | cons x l ih => exact (h w x List.mem_cons_self).trans (ih (fun u y hy => h u y (List.mem_cons_of_mem _ hy)) (f w x))

theorem r64_eq (h : u.touches p q v) (ha : ¬ p a) (ha4 : ¬ p (a + 4)) : v.r64 a = u.r64 a := by
  simp only [Work.r64, h.word _ ha, h.word _ ha4]

/-- A field that lies in the first word of its register. -/
theorem fld_eq {f : Fld} (h : u.touches p q v) (hf : f.lsb + f.width ≤ 32) (ha : ¬ p a) : v.fld a f = u.fld a f := by
  simp only [Work.fld, hf, if_true, h.word _ ha]

theorem engine_eq (h : u.touches p q v) (hc : ¬ q c) (e : Nat) : v.engine c e = u.engine c e := by
  rw [Work.engine, h.core c hc, Work.engine]

/-! ### The state that it leaves -/

variable {s : State}

theorem sameBytes (h : s.look.touches p q w) : sameBytes s (Work.commit s w) := sameBytes_of h.mem h.wr h.wild

theorem commit_r32 (h : s.look.touches p q w) (a : Nat) : (Work.commit s w).look.r32 a = w.r32 a := Machine.commit_r32 s w h.csr a

theorem commit_fld (h : s.look.touches p q w) (a : Nat) (f : Fld) : (Work.commit s w).look.fld a f = w.fld a f :=
  Machine.commit_fld s w h.csr a f

theorem sameWordsBut {l : List Nat} (h : s.look.touches p q w) (hl : ∀ a, p a → a ∈ l) : sameWordsBut l s (Work.commit s w) :=
  fun a ha => (h.commit_r32 a).trans (h.word a (mt (hl a) ha))

theorem sameCoresBut (h : s.look.touches p (· = c) w) : sameCoresBut c s (Work.commit s w) := fun x hx => h.core x hx

end Work.touches

/-! ### Cores under writes of registers

Stated by `core_of_cores`, so that a rewrite with one of them is a step of the proof: as a definitional step the kernel would compare the machines.
-/

section Cores
variable (w : Work) (a c : Nat) (v : Word) (d : DWord) (f : Fld) (n : Nat) (b : Bool)

@[simp] theorem core_w32 : (w.w32 a v).core c = w.core c := core_of_cores _ _ rfl c
@[simp] theorem core_w64 : (w.w64 a d).core c = w.core c := core_of_cores _ _ rfl c
@[simp] theorem core_setFld : (w.setFld a f n).core c = w.core c := core_of_cores _ _ (by rw [setFld_hw]) c
@[simp] theorem core_setFlag : (w.setFlag a f b).core c = w.core c := core_setFld ..
@[simp] theorem core_bump : (w.bump a n).core c = w.core c := core_of_cores _ _ (by rw [bump_hw]) c

end Cores

/-! ### Two fields of one register -/

theorem bits_eq (v lsb width : Nat) : bits v lsb width = v / 2 ^ lsb % 2 ^ width := by
  rw [bits, Nat.shiftRight_eq_div_pow]

/-- A field above the one replaced. -/
theorem bits_setBits_above (v : Nat) {lsb width l : Nat} (n x : Nat) (h : lsb + width ≤ l) : bits (setBits v lsb width x) l n = bits v l n := by
  obtain ⟨k, rfl⟩ := Nat.exists_eq_add_of_le h
  have hlow : v % 2 ^ lsb + x % 2 ^ width * 2 ^ lsb < 2 ^ (lsb + width) := by
    have h1 : v % 2 ^ lsb < 2 ^ lsb := Nat.mod_lt _ (Nat.two_pow_pos lsb)
    have h2 : x % 2 ^ width + 1 ≤ 2 ^ width := Nat.mod_lt _ (Nat.two_pow_pos width)
    calc v % 2 ^ lsb + x % 2 ^ width * 2 ^ lsb < (x % 2 ^ width + 1) * 2 ^ lsb := by rw [Nat.add_mul, Nat.one_mul]; omega
      _ ≤ 2 ^ width * 2 ^ lsb := Nat.mul_le_mul_right _ h2
      _ = 2 ^ (lsb + width) := by rw [pow_add, Nat.mul_comm]
  rw [bits_eq, bits_eq, setBits, pow_add 2 (lsb + width) k, ← Nat.div_div_eq_div_mul, Nat.add_mul_div_right _ _ (Nat.two_pow_pos _),
    Nat.div_eq_of_lt hlow, Nat.zero_add, Nat.shiftRight_eq_div_pow, Nat.div_div_eq_div_mul]

/-- A field below the one replaced. -/
theorem bits_setBits_below (v : Nat) {lsb width l n : Nat} (x : Nat) (h : l + n ≤ lsb) : bits (setBits v lsb width x) l n = bits v l n := by
  obtain ⟨k, rfl⟩ := Nat.exists_eq_add_of_le h
  have hsplit : setBits v (l + n + k) width x =
      v % 2 ^ (l + n + k) + 2 ^ (l + n) * (2 ^ k * (x % 2 ^ width + 2 ^ width * (v >>> (l + n + k + width)))) := by
    rw [setBits, pow_add 2 (l + n + k) width, pow_add 2 (l + n) k]
    ring
  have hmod (y : Nat) : y / 2 ^ l % 2 ^ n = y % 2 ^ (l + n) / 2 ^ l := by rw [pow_add, Nat.mod_mul_right_div_self]
  rw [bits_eq, bits_eq, hmod, hmod, hsplit, Nat.add_mul_mod_self_left, Nat.mod_mod_of_dvd _ (pow_dvd_pow 2 (Nat.le_add_right ..))]

/-- A field of a register whose other field is set. -/
theorem fld_setFld_beside (w : Work) (a : Nat) {f g : Fld} (x : Nat) (hf : f.lsb + f.width ≤ 32) (hg : g.lsb + g.width ≤ 32)
    (h : f.lsb + f.width ≤ g.lsb ∨ g.lsb + g.width ≤ f.lsb) : (w.setFld a f x).fld a g = w.fld a g := by
  simp only [Work.fld, Work.setFld, hf, hg, if_true, r32_w32_self, BitVec.toNat_ofNat]
  rw [Nat.mod_eq_of_lt (setBits_lt _ _ _ _ 32 hf (w.r32 a).isLt)]
  rcases h with h | h
  · exact bits_setBits_above _ _ x h
  · exact bits_setBits_below _ x h

end Sys2Proof.Machine
end

section
/-! SUPPORT. What clamping a command, the head of a queue and the end of a long wait leave alone (R67, R111–R113, R267), and an engine's issue (R87). -/

namespace Sys2Proof.Machine

/-! ### Clamps -/

/-- Counting and capturing a clamp writes registers of HD0, whoever is counted (R67–R69). -/
theorem clamp_touches (w : Work) (who : ClampBy) (addr word lsb : Nat) (rule : ClampRule) :
    w.touches beyondCores noCore (w.clamp who addr word lsb rule) := by
  have haddr : beyondCores Reg.DBG_CLAMP_LAST_ADDR := by unfold beyondCores; decide
  have hinfo : beyondCores Reg.DBG_CLAMP_LAST_INFO := by unfold beyondCores; decide
  have hstat : beyondCores Reg.DBG_CLAMP_STAT := by unfold beyondCores; decide
  unfold Work.clamp
  extract_lets cnt counted info
  have hcnt : beyondCores cnt := by
    unfold cnt beyondCores
    split
    · simp only [Reg.DBG_CLAMP_CNT, dieWindow]
      omega
    · split
      · simp only [Reg.DBG_CLAMP_LINK, dieWindow]
        omega
      · decide
  have hcounted : w.touches beyondCores noCore counted := .satAdd w _ _ hcnt (beyondCores_add hcnt 4)
  split
  · exact hcounted
  · exact ((hcounted.trans (.w64 _ _ haddr (beyondCores_add haddr 4))).trans (.w32 _ _ hinfo)).trans
      (.setFlag _ _ _ hstat (beyondCores_add hstat 4))

/-- Clamping leaves the command's work as it is, but for clamps counted. -/
def Clamping.counts (k k' : Clamping) : Prop := k.work.touches beyondCores noCore k'.work ∧ k'.work.hw = k.work.hw

theorem Clamping.counts.refl (k : Clamping) : k.counts k := ⟨.refl .., rfl⟩

theorem Clamping.counts.trans {k l m : Clamping} (h : k.counts l) (h' : l.counts m) : k.counts m := ⟨h.1.trans h'.1, h'.2.trans h.2⟩

theorem Clamping.counts.field {k l : Clamping} (h : k.counts l) (i lsb width : Nat) (f : Nat → Nat × Option ClampRule) :
    k.counts (l.field i lsb width f) := by
  refine h.trans ?_
  unfold Clamping.field
  split
  · exact .refl l
  · exact ⟨clamp_touches .., clamp_hw ..⟩

theorem Clamping.counts.ag {k l : Clamping} (h : k.counts l) (i : Nat) : k.counts (l.ag i) := h.field ..
theorem Clamping.counts.noIn {k l : Clamping} (h : k.counts l) : k.counts l.noIn := h.field ..
theorem Clamping.counts.noOut {k l : Clamping} (h : k.counts l) : k.counts l.noOut := h.field ..
theorem Clamping.counts.once {k l : Clamping} (h : k.counts l) : k.counts l.once := h.field ..

theorem Clamping.counts.header {k l : Clamping} (h : k.counts l) (e : Nat) : k.counts (l.header e) :=
  ((((h.field ..).field ..).field ..).field ..).field ..

theorem Clamping.counts.mtx {k l : Clamping} (h : k.counts l) : k.counts l.mtx := by
  unfold Clamping.mtx
  dsimp only
  split
  · exact (((h.noOut.field ..).field ..).ag 5).ag 10
  · split
    · exact ((((h.noOut.field ..).field ..).field ..).ag 5).ag 10
    · split
      · exact h.noOut.noIn.once
      · split
        · exact ((h.noOut.noIn.once.field ..).field ..).field ..
        · exact h.noOut

theorem Clamping.counts.vec {k l : Clamping} (h : k.counts l) : k.counts l.vec := by
  unfold Clamping.vec
  split
  · exact ((h.field ..).ag 5).ag 10
  · exact h

theorem Clamping.counts.str {k l : Clamping} (h : k.counts l) : k.counts l.str := by
  unfold Clamping.str
  dsimp only
  split
  · exact h.noIn.ag 10
  · split
    · exact h.noOut.ag 10
    · exact h

theorem Clamping.counts.syn {k l : Clamping} (h : k.counts l) : k.counts l.syn := by
  unfold Clamping.syn
  dsimp only
  split
  · exact h.once.noIn.noOut.field ..
  · split
    · exact h.once.noIn.noOut.field ..
    · exact h.once.noIn.noOut

theorem Clamping.counts.links {k l : Clamping} (h : k.counts l) (c e : Nat) : k.counts (l.links c e) := by
  have hout : k.counts (if l.work.fld (Reg.CORE_LINK_CFG c (cmdOutLink l.cmd)) Fld.CORE_LINK_CFG_PROD_ENG = e then l else l.noOut) := by
    split
    · exact h
    · exact h.noOut
  unfold Clamping.links
  dsimp only
  split
  · exact hout
  · exact hout.noIn

/-- Clamping the fields of a command counts clamps, and does nothing else (R63–R67). -/
theorem clampCmd_counts (w : Work) (c e : Nat) (q : QEntry) :
    w.touches beyondCores noCore (clampCmd w c e q).1 ∧ (clampCmd w c e q).1.hw = w.hw := by
  unfold clampCmd
  extract_lets who k header engine links
  have hheader : k.counts header := (Clamping.counts.refl k).header e
  have hengine : k.counts engine := by
    unfold engine
    split
    · exact hheader.mtx
    · split
      · exact hheader.vec
      · split
        · exact hheader.syn
        · exact hheader.str
  exact hengine.links c e

/-! ### The head of a queue -/

/-- The register words of the breaks of core slot c. -/
def breakWord (c a : Nat) : Prop := coreWindow c + 0x200 ≤ a ∧ a < coreWindow c + 0x300

theorem breakWord_at (c : Nat) {k : Nat} (hlo : 0x200 ≤ k) (hhi : k < 0x300) : breakWord c (coreWindow c + k) := by
  unfold breakWord
  omega

/-- The core is as it was, but that a break may have halted it and holds the head of engine e's queue (R113). -/
structure Core.mayBreak (e : Nat) (k k' : Core) : Prop where
  pc : k'.pc = k.pc
  regs : k'.regs = k.regs
  cabs : k'.cabs = k.cabs
  stall : k'.stall = k.stall
  links : k'.links = k.links
  mtx : k'.mtx = k.mtx
  running : (k'.engine e).running = (k.engine e).running
  queue : (k'.engine e).queue.map QEntry.cmd = (k.engine e).queue.map QEntry.cmd
  other : ∀ e', e' ≠ e → k'.engine e' = k.engine e'

theorem Core.mayBreak.refl (e : Nat) (k : Core) : k.mayBreak e k := ⟨rfl, rfl, rfl, rfl, rfl, rfl, rfl, rfl, fun _ _ => rfl⟩

@[simp] theorem engine_setEngine_self (k : Core) (e : Nat) (x : Engine) : (k.setEngine e x).engine e = x := SMap.get_set_self ..

theorem engine_setEngine_other (k : Core) {e e' : Nat} (x : Engine) (h : e' ≠ e) : (k.setEngine e x).engine e' = k.engine e' :=
  SMap.get_set_other _ _ _ h

/-- An engine whose head command is held. -/
def Engine.holdHead (x : Engine) : Engine :=
  match x.queue with
  | q :: qs => { x with queue := { q with held := true } :: qs }
  | [] => x

theorem holdHead_running (x : Engine) : x.holdHead.running = x.running := by
  unfold Engine.holdHead
  split <;> rfl

theorem holdHead_queue (x : Engine) : x.holdHead.queue.map QEntry.cmd = x.queue.map QEntry.cmd := by
  unfold Engine.holdHead
  split
  · next h => simp [h]
  · rfl

/-- The event of a break for the trigger unit shows in no register, byte or core. -/
theorem touches_dbgBreak (p q : Nat → Prop) (w : Work) : w.touches p q { w with hw := { w.hw with dbgBreak := true } } :=
  .of_hw rfl rfl rfl rfl rfl rfl

@[simp] theorem core_dbgBreak (w : Work) (c : Nat) : ({ w with hw := { w.hw with dbgBreak := true } } : Work).core c = w.core c :=
  core_of_cores _ _ rfl c

theorem breakHit_touches (w : Work) (c e tag : Nat) (byCount byTag : Bool) :
    w.touches (breakWord c) (· = c) (w.breakHit c e tag byCount byTag) := by
  have hctl : breakWord c (Reg.CORE_BRK_CTRL c) := breakWord_at c (by decide) (by decide)
  have hstat : breakWord c (Reg.CORE_BRK_STAT c) := breakWord_at c (by decide) (by decide)
  have hoff (u : Work) {f : Fld} (hf : f.lsb + f.width ≤ 32) : u.touches (breakWord c) (· = c) (u.setFlag (Reg.CORE_BRK_CTRL c) f false) :=
    .setFld32 u _ hf hctl
  unfold Work.breakHit Work.updEngine
  dsimp only
  exact (((((hoff w (by decide)).trans (hoff _ (by decide))).trans (.w32 _ _ hstat)).trans (.updCore _ _ rfl)).trans (.updCore _ _ rfl)).trans
    (touches_dbgBreak ..)

theorem breakHit_core (w : Work) (c e tag : Nat) (byCount byTag : Bool) :
    (w.breakHit c e tag byCount byTag).core c = { (w.core c).setEngine e ((w.core c).engine e).holdHead with halt := .brk } := by
  simp only [Work.breakHit, core_dbgBreak, core_updCore_self, Work.updEngine, core_w32, core_setFlag, Engine.holdHead] <;> rfl

theorem breakHit_mayBreak (w : Work) (c e tag : Nat) (byCount byTag : Bool) :
    (w.core c).mayBreak e ((w.breakHit c e tag byCount byTag).core c) := by
  rw [breakHit_core]
  refine ⟨rfl, rfl, rfl, rfl, rfl, rfl, ?_, ?_, fun e' he => ?_⟩
  · exact (congrArg Engine.running (engine_setEngine_self ..)).trans (holdHead_running _)
  · exact (congrArg (fun x => x.queue.map QEntry.cmd) (engine_setEngine_self ..)).trans (holdHead_queue _)
  · exact engine_setEngine_other _ _ he

/-- A command that comes to the head of its queue is counted and tested (R111, R112). -/
theorem headArrives_touches (w : Work) (c e : Nat) : w.touches (breakWord c) (· = c) (w.headArrives c e) := by
  have hseen : breakWord c (Reg.CORE_BRK_SEEN c) := breakWord_at c (by decide) (by decide)
  unfold Work.headArrives
  split
  · exact .refl ..
  · extract_lets ctl counts seen byCount byTag counted
    have hcounted : w.touches (breakWord c) (· = c) counted := by
      unfold counted
      split
      · exact .w32 w _ hseen
      · exact .refl ..
    split
    · exact hcounted.trans (breakHit_touches ..)
    · exact hcounted

theorem headArrives_mayBreak (w : Work) (c e : Nat) : (w.core c).mayBreak e ((w.headArrives c e).core c) := by
  unfold Work.headArrives
  split
  · exact .refl ..
  · extract_lets ctl counts seen byCount byTag counted
    have hcounted : counted.core c = w.core c := by
      unfold counted
      split <;> rfl
    split
    · rw [← hcounted]
      exact breakHit_mayBreak ..
    · rw [hcounted]
      exact .refl ..

/-! ### The end of a long wait -/

theorem touches_longWaits (p q : Nat → Prop) (w : Work) (l : List Nat) : w.touches p q { w with hw := { w.hw with longWaits := l } } :=
  .of_hw rfl rfl rfl rfl rfl rfl

theorem core_longWaits (w : Work) (l : List Nat) (c : Nat) : ({ w with hw := { w.hw with longWaits := l } } : Work).core c = w.core c :=
  core_of_cores _ _ rfl c

theorem endNotice_touches (p : Nat → Prop) (w : Work) (c : Nat) : w.touches p (· = c) (w.endNotice c) := by
  unfold Work.endNotice
  split
  · exact .trans (.updCore w _ rfl) (touches_longWaits ..)
  · exact .refl ..

/-- The end of a long wait shows in the sync cell only. -/
theorem endNotice_core (w : Work) (c : Nat) : ∃ y, (w.endNotice c).core c = { w.core c with syn := y } := by
  unfold Work.endNotice
  split
  · exact ⟨_, (core_longWaits ..).trans (core_updCore_self ..)⟩
  · exact ⟨_, rfl⟩

end Sys2Proof.Machine
end

section
/-! SUPPORT. An engine issues the head of its queue (R83, R87, R90). -/

namespace Sys2Proof.Machine

/-- A register word of a core slot lies in its compute die. -/
theorem coreWord_not_beyond {c k : Nat} (hc : c < 272) (hk : k < 0x1000000) : ¬ beyondCores (coreWindow c + k) := by
  simp only [beyondCores, coreWindow, dieWindow]
  omega

/-- The counts and the tags of an engine are registers of their own core. -/
theorem qcnt_not_beyond {c e : Nat} (hc : c < 272) (he : e < 5) : ¬ beyondCores (Reg.CORE_QCNT c e) := by
  rw [Reg.CORE_QCNT, Nat.add_assoc]
  exact coreWord_not_beyond hc (by omega)

theorem qtag_not_beyond {c e : Nat} (hc : c < 272) (he : e < 5) : ¬ beyondCores (Reg.CORE_QTAG c e) := by
  rw [Reg.CORE_QTAG, Nat.add_assoc]
  exact coreWord_not_beyond hc (by omega)

theorem qcnt_not_break (c : Nat) {e : Nat} (he : e < 5) : ¬ breakWord c (Reg.CORE_QCNT c e) := by
  simp only [breakWord, Reg.CORE_QCNT]
  omega

theorem qtag_not_break (c : Nat) {e : Nat} (he : e < 5) : ¬ breakWord c (Reg.CORE_QTAG c e) := by
  simp only [breakWord, Reg.CORE_QTAG]
  omega

theorem qcnt_ne_qtag (c e e' : Nat) : Reg.CORE_QCNT c e ≠ Reg.CORE_QTAG c e' := by
  simp only [Reg.CORE_QCNT, Reg.CORE_QTAG]
  omega

theorem cmdTag_lt (c : CmdBits) : cmdTag c < 2 ^ 16 := Nat.mod_lt _ (Nat.two_pow_pos 16)

/-! ### The count of an issue -/

/-- An engine that has taken the head of its queue. -/
def Engine.issued (x : Engine) (e : Nat) (q : QEntry) (cmd : CmdBits) : Engine :=
  { x with
    queue := x.queue.drop 1
    running := x.running ++ [{ Running.fresh cmd q.ctx with src := q.src, ready := !readsFirst e cmd }] }

/-- Engine e's count and tag of commands issued follow cmd (R90). -/
def Work.countIssue (w : Work) (c e : Nat) (cmd : CmdBits) : Work :=
  (w.setFld (Reg.CORE_QCNT c e) Fld.CORE_QCNT_ISSUED (w.fld (Reg.CORE_QCNT c e) Fld.CORE_QCNT_ISSUED + 1)).setFld
    (Reg.CORE_QTAG c e) Fld.CORE_QTAG_ISSUED_TAG (cmdTag cmd)

/-- The clamped command runs, and is counted. -/
def Work.takeHead (w : Work) (c e : Nat) (q : QEntry) : Work :=
  ((clampCmd w c e q).1.updEngine c e fun x => x.issued e q (clampCmd w c e q).2).countIssue c e (clampCmd w c e q).2

/-- The counts and the tags of engine e of core slot c. -/
def queueWord (c e a : Nat) : Prop := a = Reg.CORE_QCNT c e ∨ a = Reg.CORE_QTAG c e

theorem countIssue_touches (q : Nat → Prop) (w : Work) (c e : Nat) (cmd : CmdBits) : w.touches (queueWord c e) q (w.countIssue c e cmd) :=
  (Work.touches.setFld32 w _ (by decide) (.inl rfl)).trans (.setFld32 _ _ (by decide) (.inr rfl))

theorem countIssue_core (w : Work) (c e : Nat) (cmd : CmdBits) (x : Nat) : (w.countIssue c e cmd).core x = w.core x := by
  rw [Work.countIssue, core_setFld, core_setFld]

theorem fld_countIssue_issued (w : Work) (c e : Nat) (cmd : CmdBits) : (w.countIssue c e cmd).fld (Reg.CORE_QCNT c e) Fld.CORE_QCNT_ISSUED =
    (w.fld (Reg.CORE_QCNT c e) Fld.CORE_QCNT_ISSUED + 1) % 65536 := by
  rw [Work.countIssue, fld_setFld_other _ _ _ _ (by decide) (by decide) (qcnt_ne_qtag c e e), fld_setFld_self _ _ _ _ (by decide)]
  rfl

theorem fld_countIssue_done (w : Work) (c e : Nat) (cmd : CmdBits) : (w.countIssue c e cmd).fld (Reg.CORE_QCNT c e) Fld.CORE_QCNT_DONE =
    w.fld (Reg.CORE_QCNT c e) Fld.CORE_QCNT_DONE := by
  rw [Work.countIssue, fld_setFld_other _ _ _ _ (by decide) (by decide) (qcnt_ne_qtag c e e),
    fld_setFld_beside _ _ _ (by decide) (by decide) (by decide)]

theorem fld_countIssue_tag (w : Work) (c e : Nat) (cmd : CmdBits) :
    (w.countIssue c e cmd).fld (Reg.CORE_QTAG c e) Fld.CORE_QTAG_ISSUED_TAG = cmdTag cmd := by
  rw [Work.countIssue, fld_setFld_self _ _ _ _ (by decide)]
  exact Nat.mod_eq_of_lt (cmdTag_lt cmd)

/-! ### The issue -/

variable {w : Work} {c e : Nat} {q : QEntry} {rest : List QEntry}

/-- What an issue does behind the count: the end of a long wait, and the next command at the head (R87, R267). -/
def Work.afterIssue (w : Work) (c e : Nat) : Work := (if e ≤ 1 then w.endNotice c else w).headArrives c e

/-- An engine that may issue takes its head (R83, R87). -/
theorem issue_takes (hq : (w.engine c e).queue = q :: rest) (hruns : w.coreRuns c = true) (hheld : q.held = false) (hdep : w.depMet c q.cmd = true)
    (hfree : w.engineFree c e = true) : w.issue c e = (w.takeHead c e q).afterIssue c e := by
  rw [Work.issue, hq]
  simp only [hruns, hheld, hdep, hfree, Bool.not_false, Bool.and_self, if_true]
  rfl

theorem takeHead_core (w : Work) (c e : Nat) (q : QEntry) :
    (w.takeHead c e q).core c = (w.core c).setEngine e (((w.core c).engine e).issued e q (clampCmd w c e q).2) := by
  have hclamp : (clampCmd w c e q).1.core c = w.core c := core_of_cores _ _ (by rw [(clampCmd_counts w c e q).2]) c
  rw [Work.takeHead, countIssue_core, Work.updEngine, core_updCore_self, hclamp]

theorem takeHead_touches (w : Work) (c e : Nat) (q : QEntry) :
    w.touches (fun a => beyondCores a ∨ queueWord c e a) (· = c) (w.takeHead c e q) := by
  obtain ⟨hclamp, -⟩ := clampCmd_counts w c e q
  have hclamp' : w.touches (fun a => beyondCores a ∨ queueWord c e a) (· = c) (clampCmd w c e q).1 := hclamp.mono (fun _ => .inl) fun _ => False.elim
  have hcount (u : Work) : u.touches (fun a => beyondCores a ∨ queueWord c e a) (· = c) (u.countIssue c e (clampCmd w c e q).2) :=
    (countIssue_touches (· = c) u c e _).mono (fun _ => .inr) fun _ => id
  exact (hclamp'.trans (.updCore _ _ rfl)).trans (hcount _)

/-- Clamps leave the engine's counts, and the count of the issue is one more (R90). -/
theorem takeHead_flds (w : Work) {c e : Nat} (q : QEntry) (hc : c < 272) (he : e < 5) :
    (w.takeHead c e q).fld (Reg.CORE_QCNT c e) Fld.CORE_QCNT_ISSUED = (w.fld (Reg.CORE_QCNT c e) Fld.CORE_QCNT_ISSUED + 1) % 65536 ∧
    (w.takeHead c e q).fld (Reg.CORE_QCNT c e) Fld.CORE_QCNT_DONE = w.fld (Reg.CORE_QCNT c e) Fld.CORE_QCNT_DONE ∧
    (w.takeHead c e q).fld (Reg.CORE_QTAG c e) Fld.CORE_QTAG_ISSUED_TAG = cmdTag (clampCmd w c e q).2 := by
  obtain ⟨hclamp, -⟩ := clampCmd_counts w c e q
  have hfld {f : Fld} (hf : f.lsb + f.width ≤ 32) : (clampCmd w c e q).1.fld (Reg.CORE_QCNT c e) f = w.fld (Reg.CORE_QCNT c e) f :=
    hclamp.fld_eq hf (qcnt_not_beyond hc he)
  rw [Work.takeHead, fld_countIssue_issued, fld_countIssue_done, fld_countIssue_tag]
  refine ⟨?_, hfld (by decide), rfl⟩
  rw [← hfld (f := Fld.CORE_QCNT_ISSUED) (by decide)]
  rfl

theorem afterIssue_touches (w : Work) (c e : Nat) : w.touches (breakWord c) (· = c) (w.afterIssue c e) := by
  refine .trans (v := if e ≤ 1 then w.endNotice c else w) ?_ (headArrives_touches ..)
  split
  · exact endNotice_touches ..
  · exact .refl ..

theorem afterIssue_mayBreak (w : Work) (c e : Nat) : (w.core c).mayBreak e ((w.afterIssue c e).core c) := by
  unfold Work.afterIssue
  split
  · obtain ⟨y, hy⟩ := endNotice_core w c
    obtain ⟨hpc, hregs, hcabs, hstall, hlinks, hmtx, hrun, hqueue, hother⟩ := headArrives_mayBreak (w.endNotice c) c e
    rw [hy] at hpc hregs hcabs hstall hlinks hmtx hrun hqueue hother
    exact ⟨hpc, hregs, hcabs, hstall, hlinks, hmtx, hrun, hqueue, hother⟩
  · exact headArrives_mayBreak ..

/-- Settles O13: the head is clamped, runs and is counted; what follows it may halt the core, and leaves the rest. -/
theorem engineIssuesHead : Obligations.EngineIssuesHead := by
  unfold Obligations.EngineIssuesHead
  rintro c e s q rest w k cmd ⟨hp, hq, hruns, hheld, hdep, hfree⟩
  have hissue : w.issue c e = (w.takeHead c e q).afterIssue c e := issue_takes hq hruns hheld hdep hfree
  refine goes (f := fun w => w.issue c e) hp ?_
  dsimp only
  rw [hissue]
  have htake := takeHead_touches w c e q
  have hafter := afterIssue_touches (w.takeHead c e q) c e
  have htouches : s.look.touches (fun a => (beyondCores a ∨ queueWord c e a) ∨ breakWord c a) (· = c.val) ((w.takeHead c e q).afterIssue c e) :=
    (htake.mono (fun _ => .inl) fun _ => id).trans (hafter.mono (fun _ => .inr) fun _ => id)
  obtain ⟨hissued, hdone, htag⟩ := takeHead_flds w q c.isLt e.isLt
  obtain ⟨hpc, hregs, hcabs, hstall, hlinks, hmtx, hrun, hqueue, hother⟩ := afterIssue_mayBreak (w.takeHead c e q) c e
  rw [takeHead_core] at hpc hregs hcabs hstall hlinks hmtx hrun hqueue hother
  rw [engine_setEngine_self] at hrun hqueue
  have hqcnt := qcnt_not_break c e.isLt
  refine ⟨hrun, ?_, ?_, ?_, ?_, htouches.sameBytes, htouches.sameCoresBut, rfl, hpc, hregs, hcabs, hstall, hlinks, hmtx, fun e' he => ?_⟩
  · rw [commit_core, hqueue, Engine.issued]
    exact congrArg (fun l => (List.drop 1 l).map QEntry.cmd) hq
  · rw [htouches.commit_fld, hafter.fld_eq (by decide) hqcnt, hissued]
  · rw [htouches.commit_fld, hafter.fld_eq (by decide) hqcnt, hdone]
  · rw [htouches.commit_fld, hafter.fld_eq (by decide) (qtag_not_break c e.isLt), htag]
  · exact (hother e' he).trans (engine_setEngine_other _ _ he)

end Sys2Proof.Machine
end

section
/-! SUPPORT. What sending a packet or a watch message changes (R258, R458–R472, R486): registers behind the compute dies, the ports, and the messages that
wait on this chip. -/

namespace Sys2Proof.Machine

/-- The operation from w to w' writes registers behind the compute dies, the ports and the waiting watch messages, and nothing else. -/
structure Work.sends (w w' : Work) : Prop where
  touches : w.touches beyondCores noCore w'
  hw : w'.hw = { w.hw with ports := w'.hw.ports, watchMsgs := w'.hw.watchMsgs }

namespace Work.sends

variable {u v w : Work} {a : Nat}

theorem refl (w : Work) : w.sends w := ⟨.refl .., rfl⟩

theorem trans (h : u.sends v) (h' : v.sends w) : u.sends w := ⟨h.touches.trans h'.touches, by rw [h'.hw, h.hw]⟩

/-- Work that writes registers only. -/
theorem of_regs (h : u.touches beyondCores noCore v) (hhw : v.hw = u.hw) : u.sends v := ⟨h, by rw [hhw]⟩

theorem w32 (w : Work) (x : Word) (ha : beyondCores a) : w.sends (w.w32 a x) := of_regs (.w32 w x ha) rfl

theorem setFlag (w : Work) (f : Fld) (b : Bool) (ha : beyondCores a) : w.sends (w.setFlag a f b) :=
  of_regs (.setFlag w f b ha (beyondCores_add ha 4)) (setFlag_hw ..)

theorem bump (w : Work) (n : Nat) (ha : beyondCores a) : w.sends (w.bump a n) := of_regs (.bump w n ha (beyondCores_add ha 4)) (bump_hw ..)

theorem updPort (w : Work) (p : Nat) (f : Port → Port) : w.sends (w.updPort p f) := ⟨.of_hw rfl rfl rfl rfl rfl rfl, rfl⟩

theorem watchHere (w : Work) (m : WatchMsg) : w.sends (w.watchHere m) := ⟨.of_hw rfl rfl rfl rfl rfl rfl, rfl⟩

theorem cores (h : u.sends v) : v.hw.cores = u.hw.cores := by rw [h.hw]

end Work.sends

theorem sendOut_sends (w : Work) (arr : Option Nat) (unit p : Nat) (prio : Option Nat) (pkt : Pkt) :
    w.sends (w.sendOut arr unit p prio pkt).1 := by
  unfold Work.sendOut
  extract_lets mode same pkt' input
  split
  · split
    · exact .bump w 1 (beyondCores_block ..)
    · exact .bump w 1 (beyondCores_block ..)
  · split
    · split
      · exact .refl w
      · exact .bump w 1 (beyondCores_at ..)
    · split
      · exact .refl w
      · split
        · dsimp only
          exact (Work.sends.bump w (a := Reg.LNK_TX_UNSUP p) 1 (beyondCores_at ..)).trans
            (.setFlag (a := Reg.LNK_ERR_STAT p) _ _ _ (beyondCores_at ..))
        · dsimp only
          exact .updPort w p _

theorem routeError_sends (w : Work) (arr : Option Nat) (pkt : Pkt) (kind : Nat) (bit : Fld) : w.sends (w.routeError arr pkt kind bit) :=
  .trans (.setFlag w _ _ (beyondCores_block ..)) (.w32 _ _ (beyondCores_block ..))

theorem noRoute_sends (w : Work) (arr : Option Nat) (pkt : Pkt) : w.sends (w.noRoute arr pkt).1 := by
  unfold Work.noRoute
  dsimp only
  exact (routeError_sends ..).trans (.bump _ 1 (beyondCores_block ..))

theorem misdeliver_sends (w : Work) (arr : Option Nat) (pkt : Pkt) : w.sends (w.misdeliver arr pkt).1 :=
  (noRoute_sends w arr pkt).trans (routeError_sends ..)

theorem routeDim_sends {circuit : Work → Nat → Pkt → Work × Placed} (h : ∀ (u : Work) n p, u.sends (circuit u n p).1)
    (w : Work) (arr : Option Nat) (unit : Nat) (pkt : Pkt) : w.sends (w.routeDim arr unit pkt circuit).1 := by
  unfold Work.routeDim
  split
  · exact misdeliver_sends ..
  · dsimp only
    split
    · exact .trans (.bump w 1 (beyondCores_block ..)) (h ..)
    · exact sendOut_sends ..

theorem routeEntry_sends {dim : Work → Pkt → Work × Placed} (h : ∀ (u : Work) p, u.sends (dim u p).1)
    (w : Work) (arr : Option Nat) (unit entry : Nat) (pkt : Pkt) : w.sends (w.routeEntry arr unit entry pkt dim).1 := by
  unfold Work.routeEntry
  dsimp only
  split
  · exact (routeError_sends ..).trans (h ..)
  · split
    · exact sendOut_sends ..
    · split
      · exact h ..
      · split
        · exact .refl w
        · exact misdeliver_sends ..

theorem routeOn_sends (w : Work) (arr : Option Nat) (unit : Nat) (pkt : Pkt) : w.sends (w.routeOn arr unit pkt).1 := by
  unfold Work.routeOn
  extract_lets last join dim
  have hlast (u : Work) (p : Pkt) : u.sends (last u p).1 := routeDim_sends (fun u _ p => noRoute_sends u arr p) ..
  have hjoin (u : Work) (n : Nat) (p : Pkt) : u.sends (join u n p).1 := routeEntry_sends hlast ..
  have hdim (u : Work) (p : Pkt) : u.sends (dim u p).1 := routeDim_sends hjoin ..
  split
  · exact routeEntry_sends hdim ..
  · exact hdim ..
  · split
    · exact routeEntry_sends hdim ..
    · exact hdim ..

theorem place_sends (w : Work) (arr : Option Nat) (unit : Nat) (pkt : Pkt) : w.sends (w.place arr unit pkt).1 := by
  unfold Work.place
  split
  · exact .refl w
  · split
    · exact .refl w
    · split
      · split
        · split
          · exact sendOut_sends ..
          · exact noRoute_sends ..
        · split
          · exact routeOn_sends ..
          · exact noRoute_sends ..
      · split
        · exact routeOn_sends ..
        · exact noRoute_sends ..

theorem sendWatchFrom_sends (w : Work) (die c node core target gen : Nat) (ctx : Option Nat) (kind : WatchKind) :
    w.sends (w.sendWatchFrom die c node core target gen ctx kind).1 := by
  unfold Work.sendWatchFrom
  split
  · exact .watchHere ..
  · dsimp only
    split
    · exact (place_sends ..).trans (.watchHere ..)
    · exact place_sends ..

theorem sendWatch_sends (w : Work) (c node core target gen : Nat) (ctx : Option Nat) (kind : WatchKind) :
    w.sends (w.sendWatch c node core target gen ctx kind) := sendWatchFrom_sends ..

/-! ### Operations of a sync cell -/

/-- The register words of core c's sync cell, and those behind the compute dies (R270). -/
def synWord (c a : Nat) : Prop := beyondCores a ∨ coreWindow c + 0x40000 ≤ a ∧ a < coreWindow c + 0x50000

theorem synWord_at (c : Nat) {k : Nat} (h : k < 0x10000) : synWord c (coreWindow c + 0x40000 + k) := by
  unfold synWord
  omega

theorem Work.sends.toSyn {u v : Work} (h : u.sends v) (c : Nat) (q : Nat → Prop) : u.touches (synWord c) q v :=
  h.touches.mono (fun _ => .inl) fun _ => False.elim

/-- A 64-bit register of a watch-table entry is cleared. -/
theorem clearWatch_touches (w : Work) {c e : Nat} (he : e < 256) : w.touches (synWord c) noCore (w.clearWatch c e) := by
  have hreg (u : Work) {b : Nat} (hb : b + 4 < 0x1020) : u.touches (synWord c) noCore (u.w64 (coreWindow c + 0x40000 + b + 32 * e) 0) := by
    refine .w64 u 0 ?_ ?_
    · rw [Nat.add_assoc (_ + _)]
      exact synWord_at c (by omega)
    · rw [Nat.add_assoc (_ + _), Nat.add_assoc (_ + _)]
      exact synWord_at c (by omega)
  exact ((hreg w (b := 0x1000) (by decide)).trans (hreg _ (b := 0x1008) (by decide))).trans (hreg _ (b := 0x1010) (by decide))

/-- A register of the sync cell below its objects. -/
theorem synReg_touches {c : Nat} {a : Nat} {f : Work → Work}
    (h : ∀ u : Work, synWord c a → synWord c (a + 4) → u.touches (synWord c) noCore (f u)) {k : Nat} (ha : a = coreWindow c + 0x40000 + k)
    (hk : k + 4 < 0x10000) (w : Work) : w.touches (synWord c) noCore (f w) := by
  subst ha
  refine h w (synWord_at c (by omega)) ?_
  rw [Nat.add_assoc]
  exact synWord_at c hk

theorem testWatches_touches (w : Work) (c obj : Nat) (v : DWord) : w.touches (synWord c) noCore (w.testWatches c obj v) := by
  have hcount (u : Work) : u.touches (synWord c) noCore (u.bump (Reg.SYN_WAKES c) 1) :=
    synReg_touches (fun u ha ha4 => .bump u 1 ha ha4) (k := 0x38) rfl (by decide) u
  have hstat (u : Work) (f : Fld) (x : Nat) : u.touches (synWord c) noCore (u.setFld (Reg.SYN_WATCH_STAT c) f x) :=
    synReg_touches (fun u ha ha4 => .setFld u f x ha ha4) (k := 0xC) rfl (by decide) u
  unfold Work.testWatches Work.watchStat
  refine (Work.touches.forEach _ (fun u e he => ?_) w).trans ((hstat _ _ _).trans (hstat _ _ _))
  dsimp only
  split
  · exact ((clearWatch_touches u (List.mem_range.mp he)).trans (hcount _)).trans ((sendWatch_sends ..).toSyn ..)
  · exact .refl ..

/-- The test of the cell's own WAIT changes the SYN engine only (R259). -/
theorem testLocalWait_touches (p : Nat → Prop) (w : Work) (c obj : Nat) (v : DWord) : w.touches p (· = c) (w.testLocalWait c obj v) := by
  unfold Work.testLocalWait
  split
  · split
    · exact .updCore w _ rfl
    · exact .refl ..
  · exact .refl ..

/-- What the count of an operation and the tests behind it leave of a core: all but the SYN engine. -/
theorem testLocalWait_core (w : Work) (c obj : Nat) (v : DWord) :
    ∃ x, (w.testLocalWait c obj v).core c = (w.core c).setEngine 4 x ∨ (w.testLocalWait c obj v).core c = w.core c := by
  unfold Work.testLocalWait
  split
  · split
    · exact ⟨_, .inl (core_updCore_self ..)⟩
    · exact ⟨Engine.idle, .inr rfl⟩
  · exact ⟨Engine.idle, .inr rfl⟩

/-- Where no WAIT of the cell's own is under way, the test finds nothing. -/
theorem testLocalWait_none {w : Work} {c : Nat} (h : (w.core c).syn.mode = .none) (obj : Nat) (v : DWord) : w.testLocalWait c obj v = w := by
  unfold Work.testLocalWait
  split
  · simp [h]
  · rfl

theorem synSet_touches (w : Work) {c obj : Nat} (hobj : obj < 1024) (v : DWord) : w.touches (synWord c) (· = c) (w.synSet c obj v) := by
  have hreg (k : Nat) (hk : k < 0x2000) : synWord c (coreWindow c + 0x40000 + 0x8000 + k) := by
    rw [Nat.add_assoc (_ + _)]
    exact synWord_at c (by omega)
  have hset : w.touches (synWord c) noCore (w.w64 (Reg.SYN_OBJ c obj) v) := .w64 w v (hreg _ (by omega)) (hreg (8 * obj + 4) (by omega))
  have hcount (u : Work) : u.touches (synWord c) noCore (u.bump (Reg.SYN_OPS c) 1) :=
    synReg_touches (fun u ha ha4 => .bump u 1 ha ha4) (k := 0x30) rfl (by decide) u
  exact (((hset.trans (hcount _)).noCore _).trans (testLocalWait_touches ..)).trans ((testWatches_touches ..).noCore _)

/-- The cores of a machine in which a sync object has been set. -/
theorem synSet_core (w : Work) (c obj : Nat) (v : DWord) (x : Nat) :
    (w.synSet c obj v).core x = (((w.w64 (Reg.SYN_OBJ c obj) v).bump (Reg.SYN_OPS c) 1).testLocalWait c obj v).core x :=
  (testWatches_touches ..).core x id

end Sys2Proof.Machine
end

section
/-! PROOFS. Counterexamples are states that the model runs; the one to O14 is a NOP whose own clamp takes its core out of use. -/

namespace Sys2Proof.Machine

/-- The command answers a next state of which the test is true. -/
def answers (o : Host.Outcome State Fault Refusal) (f : State → Bool) : Bool := match o with | .next t => f t | _ => false

/-- What is said of the next state and what the model runs to are of the same state. -/
theorem goesTo.meets {o : Host.Outcome State Fault Refusal} {p : State → Prop} {f : State → Bool} (h : goesTo o p) (hf : answers o f = true) :
    ∃ t, p t ∧ f t = true := by
  obtain ⟨t, rfl, hp⟩ := h
  exact ⟨t, hp, hf⟩

/-- A machine after reset, with the domains running. -/
def inService : Work := (State.reset.look.setFld Reg.CLK_STATUS Fld.CLK_STATUS_DOM_SRC 0).setFld Reg.ERR_CHIP Fld.ERR_CHIP_STATE 0

/-- The state that a piece of work leaves of the machine after reset. -/
def stateOf (w : Work) : State := Work.commit State.reset w

/-- A machine in service whose spare core of region 0 is said to serve slot 2096128, which no region has: the word ERR_ESC_CORE of core slot 16 is then
the clamp counter of context 0, which stands at 15. Engine 0 of core slot 16 holds a NOP of context 0 whose REPEAT is 0. -/
def spareBeyondSlots : State :=
  let w := (inService.w32 (Reg.DBG_CLAMP_CNT 0) 15).updEngine 16 0 fun x => { x with queue := [⟨0, none, some 0, false⟩] }
  { stateOf w with hw := { w.hw with spareIn := [(0, 2096129)] } }

theorem spareBeyondSlots_mayIssue :
    let w := spareBeyondSlots.look
    spareBeyondSlots.powered = true ∧ w.coreRuns (16 : CoreIx) = true ∧ ((w.core (16 : CoreIx)).engine (0 : EngIx)).running = [] ∧
    ((w.core (16 : CoreIx)).engine (0 : EngIx)).queue = [⟨0, none, some 0, false⟩] ∧ w.depMet (16 : CoreIx) 0 = true ∧
    w.engineFree (16 : CoreIx) (0 : EngIx) = true ∧ (assigned (opcodesOf (0 : EngIx)) (cmdOpcode 0)).1 = 0 := by
  decide +kernel

/-- REPEAT takes 1, the clamp is the counter's sixteenth, and bit 4 of that word is DISABLED: the NOP issues and does not complete. -/
theorem spareBeyondSlots_notDone : answers (exec (.engineNop (16 : CoreIx) (0 : EngIx)) spareBeyondSlots)
    (fun t => t.look.fld (Reg.CORE_QCNT (16 : CoreIx) (0 : EngIx)) Fld.CORE_QCNT_DONE == 0) = true ∧
    spareBeyondSlots.look.fld (Reg.CORE_QCNT (16 : CoreIx) (0 : EngIx)) Fld.CORE_QCNT_DONE = 0 := by
  decide +kernel

/-- Refutes O14: no bound is put on the slot that a region's spare serves, so the ERR_ESC_CORE word of a core may be the very clamp counter that
the issue of its NOP steps; the NOP then does not complete, and DONE does not count it. -/
theorem not_engineRunsAndCompletes : ¬ Obligations.EngineRunsAndCompletes := by
  unfold Obligations.EngineRunsAndCompletes
  rintro ⟨-, -, h⟩
  obtain ⟨-, -, hnop⟩ := h 16 0 spareBeyondSlots
  obtain ⟨hp, hruns, hrunning, hqueue, hdep, hfree, hcode⟩ := spareBeyondSlots_mayIssue
  obtain ⟨hstays, hbefore⟩ := spareBeyondSlots_notDone
  obtain ⟨t, ⟨⟨hdone, -⟩, -⟩, hzero⟩ := (hnop _ [] ⟨hp, hruns, hrunning, hqueue, rfl, hdep, hfree, hcode⟩).meets hstays
  rw [hbefore, eq_of_beq hzero] at hdone
  exact absurd hdone (by decide)

end Sys2Proof.Machine
end

section
/-! SUPPORT. Groups and banks of the matrix cell (R99, R156–R166). -/

namespace Sys2Proof.Machine

/-! ### Counting a group -/

theorem onlyCore_r32 {c : Nat} {w u : Work} (h : Work.onlyCore c w u) (a : Nat) : u.r32 a = w.r32 a := by
  obtain ⟨-, hcsr, -, hcw, -⟩ := h
  exact r32_of_cw w u hcw hcsr a

theorem onlyCore_fld {c : Nat} {w u : Work} (h : Work.onlyCore c w u) (a : Nat) (f : Fld) : u.fld a f = w.fld a f := by
  simp only [Work.fld, Work.r64, onlyCore_r32 h]

theorem onlyCore_flag {c : Nat} {w u : Work} (h : Work.onlyCore c w u) (a : Nat) (f : Fld) : u.flag a f = w.flag a f := by
  rw [Work.flag, onlyCore_fld h, Work.flag]

theorem onlyCore_rdB {c : Nat} {w u : Work} (h : Work.onlyCore c w u) (a : Nat) : u.rdB a = w.rdB a := by
  obtain ⟨hmem, -, hwr, -, hhw, -⟩ := h
  have hwild : u.hw.wild = w.hw.wild := by rw [hhw]
  simp only [Work.rdB, hmem, hwr, hwild]

/-- A counter that does not stand still counts (R646). -/
theorem r64_bump_self {w : Work} {a : Nat} (n : Nat) (h : w.frozen (csrDie a) = false) : (w.bump a n).r64 a = w.r64 a + BitVec.ofNat 64 n := by
  rw [Work.bump, h, Bool.false_and, Bool.false_or]
  split
  · next hn =>
    rw [of_decide_eq_true hn]
    exact (BitVec.add_zero _).symm
  · exact r64_w64_self ..

theorem r32_bump_other (w : Work) {a b : Nat} (n : Nat) (h : b ≠ a) (h4 : b ≠ a + 4) : (w.bump a n).r32 b = w.r32 b := by
  unfold Work.bump
  split
  · rfl
  · exact r32_w64_other w _ h h4

theorem csrDie_core {c k : Nat} (hc : c < 272) (hk : k < 0x1000000) : csrDie (coreWindow c + k) = coreRegion c := by
  simp only [csrDie, coreWindow, dieWindow, coreRegion]
  omega

/-- The work has changed core slot c alone, and counted a group there (R189). -/
structure Work.countsGroup (c : Nat) (w w' : Work) : Prop where
  count : w.frozen (coreRegion c) = false → w'.r64 (Reg.MTX_GROUPS c) = w.r64 (Reg.MTX_GROUPS c) + 1
  touches : w.touches (fun a => a = Reg.MTX_GROUPS c ∨ a = Reg.MTX_GROUPS c + 4) (· = c) w'
  hw : w'.hw = { w.hw with cores := w'.hw.cores }

theorem onlyCore_touches {c : Nat} {w u : Work} (h : Work.onlyCore c w u) (p : Nat → Prop) : w.touches p (· = c) u := by
  have hword := onlyCore_r32 h
  obtain ⟨hmem, hcsr, hwr, -, hhw, hcores⟩ := h
  exact ⟨hmem, hcsr, hwr, by rw [hhw], fun a _ => hword a, hcores⟩

theorem countsGroup_bump {c : Nat} {w u : Work} (hc : c < 272) (h : Work.onlyCore c w u) : Work.countsGroup c w (u.bump (Reg.MTX_GROUPS c) 1) := by
  have hdie : csrDie (Reg.MTX_GROUPS c) = coreRegion c := by
    rw [Reg.MTX_GROUPS, Nat.add_assoc]
    exact csrDie_core hc (by decide)
  refine ⟨fun hf => ?_, (onlyCore_touches h _).trans (.bump u 1 (.inl rfl) (.inr rfl)), ?_⟩
  · rw [Work.frozen, ← onlyCore_flag h] at hf
    rw [r64_bump_self 1 (hdie.symm ▸ hf), Work.r64, Work.r64, onlyCore_r32 h, onlyCore_r32 h]
    rfl
  · obtain ⟨-, -, -, -, hhw, -⟩ := h
    rw [bump_hw]
    exact hhw

/-! ### Banks -/

theorem bank_setBank_self (m : Mtx) (b : Nat) (x : Bank) : (m.setBank b x).bank b = x := by
  unfold Mtx.setBank Mtx.bank
  split <;> rfl

theorem bank_setBank_other (m : Mtx) {b o : Nat} (x : Bank) (h : b = 0 ↔ o ≠ 0) : (m.setBank b x).bank o = m.bank o := by
  unfold Mtx.setBank Mtx.bank
  by_cases hb : b = 0
  · rw [if_pos hb, if_neg (h.mp hb), if_neg (h.mp hb)]
  · have ho : o = 0 := not_not.mp fun ho => hb (h.mpr ho)
    rw [if_neg hb, if_pos ho, if_pos ho]

theorem setBank_opened (m : Mtx) (b : Nat) (x : Bank) : (m.setBank b x).opened = m.opened := by
  unfold Mtx.setBank
  split <;> rfl

theorem setBank_closed (m : Mtx) (b : Nat) (x : Bank) : (m.setBank b x).closed = m.closed := by
  unfold Mtx.setBank
  split <;> rfl

/-- What closing the open bank leaves (R107, R162). -/
theorem close_banks (m : Mtx) (fast : Bool) (h : m.opened < 2) :
    (m.close fast).bank m.opened = { m.bank m.opened with state := .closing, fast := fast } ∧
    (m.close fast).bank (1 - m.opened) = { m.bank (1 - m.opened) with mvpOnly := true } ∧
    (m.close fast).opened = 1 - m.opened ∧ (m.close fast).closed = m.closed ++ [m.opened] := by
  have hself : 1 - m.opened = 0 ↔ m.opened ≠ 0 := by omega
  have hother : m.opened = 0 ↔ 1 - m.opened ≠ 0 := by omega
  unfold Mtx.close
  dsimp only
  refine ⟨?_, ?_, rfl, ?_⟩
  · exact (bank_setBank_other _ _ hself).trans (bank_setBank_self ..)
  · exact (bank_setBank_self ..).trans (congrArg (fun x : Bank => { x with mvpOnly := true }) (bank_setBank_other _ _ hother))
  · exact congrArg (· ++ [m.opened]) ((setBank_closed ..).trans (setBank_closed ..))

/-! ### Elements -/

theorem elem_setElem (b : Bank) (i j : Nat) (v : Word) : (b.setElem i v).elem j = if j = i then v else b.elem j := by
  split
  · next h => rw [h, Bank.elem, Bank.setElem, SMap.find?_put_self]
  · next h => simp only [Bank.elem, Bank.setElem, SMap.find?_put_other _ _ h]

/-- Elements set one after another, each to the value that f gives it. -/
theorem elem_foldl_setElem (f : Nat → Word) (l : List (Nat × Word)) (b : Bank) (hl : ∀ e ∈ l, e.2 = f e.1) (i : Nat) :
    (l.foldl (fun b e => b.setElem e.1 e.2) b).elem i = if i ∈ l.map Prod.fst then f i else b.elem i := by
  induction l generalizing b with
  | nil => simp
  | cons e l ih =>
    rw [List.foldl_cons, ih _ fun x hx => hl x (List.mem_cons_of_mem _ hx), elem_setElem, hl e List.mem_cons_self]
    by_cases hi : i = e.1
    · simp [hi]
    · simp [hi]

theorem foldl_setElem_state (l : List (Nat × Word)) (b : Bank) : (l.foldl (fun b e => b.setElem e.1 e.2) b).state = b.state := by
  induction l generalizing b with
  | nil => rfl
  | cons e l ih => exact ih _

/-! ### The core behind a group -/

theorem updMtx_onlyCore {c : Nat} {w u : Work} (h : Work.onlyCore c w u) (f : Mtx → Mtx) : Work.onlyCore c w (u.updMtx c f) := onlyCore_updCore h _

theorem updEngine_onlyCore {c : Nat} {w u : Work} (h : Work.onlyCore c w u) (e : Nat) (f : Engine → Engine) : Work.onlyCore c w (u.updEngine c e f) :=
  onlyCore_updCore h _

theorem core_updMtx (w : Work) (c : Nat) (f : Mtx → Mtx) : (w.updMtx c f).core c = { w.core c with mtx := f (w.core c).mtx } := core_updCore_self ..

theorem core_updEngine (w : Work) (c e : Nat) (f : Engine → Engine) : (w.updEngine c e f).core c = (w.core c).setEngine e (f ((w.core c).engine e)) :=
  core_updCore_self ..

theorem updLast_of_last {x : Engine} {r : Running} (h : x.last = some r) (f : Running → Running) :
    x.updLast f = { x with running := x.running.dropLast ++ [f r] } := by
  rw [Engine.last] at h
  rw [Engine.updLast, h]

theorem last_updLast {x : Engine} {r : Running} (h : x.last = some r) (f : Running → Running) : (x.updLast f).last = some (f r) := by
  rw [updLast_of_last h, Engine.last, List.getLast?_concat]

/-- The command that sends is its engine's newest, and the open bank is empty (R156, R161). -/
theorem mtxSender_some {w : Work} {c : Nat} {r : Running} (h : w.mtxSender c = some r) : (w.engine c 0).last = some r ∧
    (w.coreUp c && r.ready && !r.stopped && !r.refetch && decide (0 < r.started) && decide (r.pos < mtxGroups r.cmd) &&
        !w.proofForced c && ((w.engine c 0).running.all fun x => decide (cmdOpcode x.cmd ≠ 8)) &&
        decide (((w.mtx c).bank (w.mtx c).opened).state = .empty)) = true := by
  unfold Work.mtxSender at h
  split at h
  · next r' hr =>
    split at h
    · next hc =>
      cases h
      exact ⟨hr, hc⟩
    · cases h
  · cases h

/-! ### A group -/

/-- The matrix cell as a group of command r leaves it. -/
def Mtx.entered (m : Mtx) (r : Running) (cells : List (Nat × Word)) (closes : Bool) : Mtx :=
  let mvp := decide (cmdOpcode r.cmd = 2)
  let b := m.bank m.opened
  let b := cells.foldl (fun b e => b.setElem e.1 e.2) b
  let b := { b with mvpOnly := b.mvpOnly && mvp, lastTag := cmdTag r.cmd }
  let m := m.setBank m.opened b
  let m := { m with lastFmt := mtxFmt r.cmd, lastMvp := mvp, proofSlot := false, holding := m.holding || !mvp }
  if closes then m.close mvp else m

/-- The matrix cell with its level settled (R181). -/
def Work.settledMtx (w : Work) (c : Nat) : Mtx := { w.mtx c with level := w.mtxLevelNow c, target := w.mtxTarget c }

/-- Does the group that command r sends close the bank (R162)? -/
def Running.closes (r : Running) : Bool := decide (r.pos + 1 = mtxGroups r.cmd) && mtxClose r.cmd

theorem settleLevel_core (w : Work) (c : Nat) : (w.settleLevel c).core c = { w.core c with mtx := w.settledMtx c } := core_updMtx ..

theorem settleLevel_onlyCore (w : Work) (c : Nat) : Work.onlyCore c w (w.settleLevel c) := updMtx_onlyCore (onlyCore_refl ..) _

section Operands
variable {c : Nat} {w u : Work} (h : Work.onlyCore c w u)
include h

theorem spmLE_of_onlyCore (x a n : Nat) : u.spmLE x a n = w.spmLE x a n := by
  simp only [Work.spmLE, Work.spmBytes, onlyCore_rdB h]

theorem inHalfBase_of_onlyCore (x : Nat) (r : Running) : u.inHalfBase x r = w.inHalfBase x r := by
  unfold Work.inHalfBase Work.halfBase
  simp only [onlyCore_fld h]

/-- A core's own state holds no operand. -/
theorem groupSum_of_onlyCore (x : Nat) (r : Running) (n i j : Nat) (o : Operand) : u.groupSum x r n i j o = w.groupSum x r n i j o := by
  simp only [Work.groupSum, Work.operandA, Work.operandElem, Work.unitElem, spmLE_of_onlyCore h, inHalfBase_of_onlyCore h]

theorem operandBFor_of_onlyCore (x : Nat) (r : Running) (i : Nat) : u.operandBFor x r i = w.operandBFor x r i := by
  unfold Work.operandBFor
  simp only [Work.operandB, inHalfBase_of_onlyCore h]

end Operands

end Sys2Proof.Machine
end

section
/-! PROOFS. Groups of the matrix cell, its banks and its activity level. -/

namespace Sys2Proof.Machine

/-! ### One group -/

/-- A group that enters, write by write. -/
theorem enterGroup_eq {w : Work} {c : Nat} {r : Running} (h : w.mtxSender c = some r) :
    ∃ b, w.enterGroup c = (((w.settleLevel c).updMtx c fun m => m.entered r ((w.settleLevel c).groupElems c r r.pos) r.closes).updEngine c 0 fun x =>
      x.updLast fun r' => { r' with pos := r.pos + 1, bankHeld := if r.closes then r'.bankHeld ++ [b] else r'.bankHeld }).bump (Reg.MTX_GROUPS c) 1 := by
  refine ⟨1 - (((w.settleLevel c).updMtx c fun m => m.entered r ((w.settleLevel c).groupElems c r r.pos) r.closes).mtx c).opened, ?_⟩
  rw [Work.enterGroup, h]
  rfl

section Group
variable {w : Work} {c : Nat} {r : Running} (h : w.mtxSender c = some r)
include h

theorem enterGroup_counts (hc : c < 272) : Work.countsGroup c w (w.enterGroup c) := by
  obtain ⟨b, hb⟩ := enterGroup_eq h
  rw [hb]
  exact countsGroup_bump hc (updEngine_onlyCore (updMtx_onlyCore (settleLevel_onlyCore w c) _) _ _)

theorem enterGroup_core : ∃ b, (w.enterGroup c).core c =
    ({ w.core c with mtx := (w.settledMtx c).entered r ((w.settleLevel c).groupElems c r r.pos) r.closes } : Core).setEngine 0
      (((w.core c).engine 0).updLast fun r' => { r' with pos := r.pos + 1, bankHeld := if r.closes then r'.bankHeld ++ [b] else r'.bankHeld }) := by
  obtain ⟨b, hb⟩ := enterGroup_eq h
  refine ⟨b, ?_⟩
  rw [hb, core_bump, core_updEngine, core_updMtx, settleLevel_core]
  rfl

theorem enterGroup_mtx : (w.enterGroup c).mtx c = (w.settledMtx c).entered r ((w.settleLevel c).groupElems c r r.pos) r.closes := by
  obtain ⟨b, hb⟩ := enterGroup_core h
  rw [Work.mtx, hb]
  rfl

theorem enterGroup_last : ∃ b, ((w.enterGroup c).engine c 0).last =
    some { r with pos := r.pos + 1, bankHeld := if r.closes then r.bankHeld ++ [b] else r.bankHeld } := by
  obtain ⟨b, hb⟩ := enterGroup_core h
  obtain ⟨hlast, -⟩ := mtxSender_some h
  refine ⟨b, ?_⟩
  rw [Work.engine, hb, engine_setEngine_self]
  exact last_updLast hlast _

theorem enterGroup_program : ((w.enterGroup c).core c).pc = (w.core c).pc ∧ ((w.enterGroup c).core c).regs = (w.core c).regs := by
  obtain ⟨b, hb⟩ := enterGroup_core h
  rw [hb]
  exact ⟨rfl, rfl⟩

end Group

/-! ### The elements that a group leaves -/

theorem settledMtx_bank (w : Work) (c b : Nat) : (w.settledMtx c).bank b = (w.mtx c).bank b := by
  unfold Mtx.bank
  rfl

theorem groupElem_settled (w : Work) (c : Nat) (r : Running) (n i j : Nat) : (w.settleLevel c).groupElem c r n i j = w.groupElem c r n i j := by
  have hmtx : (w.settleLevel c).mtx c = w.settledMtx c := by rw [Work.mtx, settleLevel_core]
  have hopened : (w.settledMtx c).opened = (w.mtx c).opened := rfl
  unfold Work.groupElem
  simp only [groupSum_of_onlyCore (settleLevel_onlyCore w c), operandBFor_of_onlyCore (settleLevel_onlyCore w c), hmtx, settledMtx_bank, hopened]

/-- The new value of the element that index x names. -/
def Work.groupAt (w : Work) (c : Nat) (r : Running) (x : Nat) : Word := w.groupElem c r r.pos (x / 128) (x % 128)

theorem groupAt_eq (w : Work) (c : Nat) (r : Running) {i j : Nat} (hj : j < 128) : w.groupAt c r (128 * i + j) = w.groupElem c r r.pos i j := by
  have hi : (128 * i + j) / 128 = i := by omega
  have hj' : (128 * i + j) % 128 = j := by omega
  rw [Work.groupAt, hi, hj']

theorem mtxColsB_le (cmd : CmdBits) : mtxColsB cmd ≤ 128 := Nat.mod_lt _ (Nat.two_pow_pos 7)

theorem mem_groupElems {w : Work} {c : Nat} {r : Running} {e : Nat × Word} : e ∈ w.groupElems c r r.pos ↔
    ∃ i j, (i < if mtxZero r.cmd && decide (r.pos = 0) then 128 else mtxRowsA r.cmd) ∧
      (j < if mtxZero r.cmd && decide (r.pos = 0) then 128 else mtxColsB r.cmd) ∧ (128 * i + j, w.groupElem c r r.pos i j) = e := by
  simp only [Work.groupElems, List.mem_flatMap, List.mem_map, List.mem_range]
  exact ⟨fun ⟨i, hi, j, hj, he⟩ => ⟨i, j, hi, hj, he⟩, fun ⟨i, j, hi, hj, he⟩ => ⟨i, hi, j, hj, he⟩⟩

theorem groupElems_at {w : Work} {c : Nat} {r : Running} : ∀ e ∈ w.groupElems c r r.pos, e.2 = w.groupAt c r e.1 := by
  intro e he
  obtain ⟨i, j, -, hj, rfl⟩ := mem_groupElems.mp he
  have hcols := mtxColsB_le r.cmd
  exact (groupAt_eq w c r (by split at hj <;> omega)).symm

/-- Of the 16,384 elements each reads what its group leaves, whether or not it is one that the group sets (R140, R163). -/
theorem elem_groupElems (w : Work) (c : Nat) (r : Running) {i j : Nat} (hi : i < 128) (hj : j < 128) :
    ((w.groupElems c r r.pos).foldl (fun b e => b.setElem e.1 e.2) ((w.mtx c).bank (w.mtx c).opened)).elem (128 * i + j) = w.groupElem c r r.pos i j := by
  rw [elem_foldl_setElem (w.groupAt c r) _ _ groupElems_at]
  split
  · exact groupAt_eq w c r hj
  · next hmem =>
    by_cases hall : (mtxZero r.cmd && decide (r.pos = 0)) = true
    · exact absurd (List.mem_map.mpr ⟨_, mem_groupElems.mpr ⟨i, j, by rwa [if_pos hall], by rwa [if_pos hall], rfl⟩, rfl⟩) hmem
    · have hout : ¬ (i < mtxRowsA r.cmd ∧ j < mtxColsB r.cmd) := fun ⟨hr, hc⟩ =>
        hmem (List.mem_map.mpr ⟨_, mem_groupElems.mpr ⟨i, j, by rwa [if_neg hall], by rwa [if_neg hall], rfl⟩, rfl⟩)
      simp only [Work.groupElem, if_neg hout, if_neg hall]

/-! ### The banks that a group leaves -/

/-- The matrix cell behind a group, before its bank closes. -/
theorem entered_open (m : Mtx) (r : Running) (cells : List (Nat × Word)) :
    ((m.entered r cells false).bank m.opened).elem = (cells.foldl (fun b e => b.setElem e.1 e.2) (m.bank m.opened)).elem ∧
    ((m.entered r cells false).bank m.opened).state = (m.bank m.opened).state ∧
    (m.entered r cells false).opened = m.opened ∧ (m.entered r cells false).closed = m.closed := by
  unfold Mtx.entered
  simp only [Bool.false_eq_true, if_false]
  refine ⟨?_, ?_, setBank_opened .., setBank_closed ..⟩
  · change ((m.setBank m.opened _).bank m.opened).elem = _
    rw [bank_setBank_self]
    rfl
  · change ((m.setBank m.opened _).bank m.opened).state = _
    rw [bank_setBank_self]
    exact foldl_setElem_state ..

theorem entered_other (m : Mtx) (r : Running) (cells : List (Nat × Word)) (ho : m.opened < 2) :
    (m.entered r cells false).bank (1 - m.opened) = m.bank (1 - m.opened) := by
  have hother : m.opened = 0 ↔ 1 - m.opened ≠ 0 := by omega
  exact bank_setBank_other m _ hother

theorem elem_withMvpOnly (b : Bank) (x : Bool) : ({ b with mvpOnly := x } : Bank).elem = b.elem := rfl

theorem entered_closes (m : Mtx) (r : Running) (cells : List (Nat × Word)) :
    m.entered r cells true = (m.entered r cells false).close (decide (cmdOpcode r.cmd = 2)) := rfl

theorem entered_banks (m : Mtx) (r : Running) (cells : List (Nat × Word)) (closes : Bool) (ho : m.opened < 2) :
    ((m.entered r cells closes).bank m.opened).elem = (cells.foldl (fun b e => b.setElem e.1 e.2) (m.bank m.opened)).elem ∧
    ((m.entered r cells closes).bank (1 - m.opened)).elem = (m.bank (1 - m.opened)).elem ∧
    ((m.entered r cells closes).bank m.opened).state = (if closes then .closing else (m.bank m.opened).state) ∧
    (m.entered r cells closes).opened = (if closes then 1 - m.opened else m.opened) ∧
    (m.entered r cells closes).closed = (if closes then m.closed ++ [m.opened] else m.closed) := by
  obtain ⟨helem, hstate, hopened, hclosed⟩ := entered_open m r cells
  have hother := entered_other m r cells ho
  cases closes with
  | false => exact ⟨helem, congrArg Bank.elem hother, hstate, hopened, hclosed⟩
  | true =>
    have hclose := close_banks (m.entered r cells false) (decide (cmdOpcode r.cmd = 2)) (hopened.symm ▸ ho)
    rw [hopened, hclosed] at hclose
    obtain ⟨hself, hoth, hopen', hclosed'⟩ := hclose
    rw [entered_closes, hself, hoth, hopen', hclosed']
    exact ⟨helem, (elem_withMvpOnly ..).trans (congrArg Bank.elem hother), rfl, rfl, rfl⟩

/-! ### Several groups -/

/-- A core that was up is up while the words beyond the core slots and the machine beside the cores stay as they are. -/
theorem coreUp_of_touches {p q : Nat → Prop} {w w' : Work} {c : Nat} (h : w.touches p q w') (hp : ∀ a, beyondCores a → ¬ p a)
    (hhw : w'.hw = { w.hw with cores := w'.hw.cores }) (htest : (w'.core c).test = (w.core c).test) : w'.coreUp c = w.coreUp c := by
  have hspare : w'.hw.spareIn = w.hw.spareIn := by rw [hhw]
  have hfld {a : Nat} {f : Fld} (hf : f.lsb + f.width ≤ 32) (ha : beyondCores a) : w'.fld a f = w.fld a f := h.fld_eq hf (hp a ha)
  have hphys : w'.physIx c = w.physIx c := by rw [Work.physIx, Work.physIx, Work.physOf, Work.physOf, hspare]
  have hstatus : w'.fld Reg.CLK_STATUS Fld.CLK_STATUS_DOM_SRC = w.fld Reg.CLK_STATUS Fld.CLK_STATUS_DOM_SRC :=
    hfld (by decide) (by unfold beyondCores; decide)
  have hchip : w'.chipState = w.chipState := hfld (by decide) (by unfold beyondCores; decide)
  have hregion : w'.regionDisabled (coreRegion c) = w.regionDisabled (coreRegion c) := by
    rw [Work.regionDisabled, Work.flag, hfld (by decide) (by simp only [beyondCores, Reg.ERR_ESC_REGION, dieWindow]; omega)]
    rfl
  have hcore : w'.flag (Reg.ERR_ESC_CORE (w.physIx c)) Fld.ERR_ESC_CORE_DISABLED = w.flag (Reg.ERR_ESC_CORE (w.physIx c)) Fld.ERR_ESC_CORE_DISABLED := by
    rw [Work.flag, hfld (by decide) (by simp only [beyondCores, Reg.ERR_ESC_CORE, dieWindow]; omega)]
    rfl
  rw [Work.coreUp, Work.coreUp, Work.clocked, Work.clocked, Work.coreDisabled, Work.coreDisabled, Core.testing, Core.testing, hstatus, hchip, hregion,
    hphys, hcore, htest]

theorem mtxWord_not_beyond {c k : Nat} (hc : c < 272) (hk : k < 0x1000) : ¬ beyondCores (coreWindow c + 0x10000 + k) := by
  rw [Nat.add_assoc]
  exact coreWord_not_beyond hc (by omega)

theorem groups_not_beyond {c a : Nat} (hc : c < 272) (h : beyondCores a) : ¬ (a = Reg.MTX_GROUPS c ∨ a = Reg.MTX_GROUPS c + 4) := by
  rintro (rfl | rfl)
  · exact mtxWord_not_beyond hc (by decide) h
  · exact mtxWord_not_beyond (k := 0x14) hc (by decide) h

theorem proofCtrl_not_groups (c : Nat) : ¬ (Reg.MTX_PROOF_CTRL c = Reg.MTX_GROUPS c ∨ Reg.MTX_PROOF_CTRL c = Reg.MTX_GROUPS c + 4) := by
  simp only [Reg.MTX_PROOF_CTRL, Reg.MTX_GROUPS]
  omega

/-- Behind a group that is not the last the same command sends the next one. -/
theorem enterGroup_sender {w : Work} {c : Nat} {r : Running} (hc : c < 272) (h : w.mtxSender c = some r) (hmore : r.pos + 1 < mtxGroups r.cmd) :
    (w.enterGroup c).mtxSender c = some { r with pos := r.pos + 1 } := by
  obtain ⟨hlast, hguard⟩ := mtxSender_some h
  obtain ⟨b, hb⟩ := enterGroup_core h
  obtain ⟨b', hnewest⟩ := enterGroup_last h
  obtain ⟨-, htouches, hhw⟩ := enterGroup_counts h hc
  have hopen : r.closes = false := by
    rw [Running.closes, decide_eq_false (Nat.ne_of_lt hmore), Bool.false_and]
  rw [hopen] at hb hnewest
  simp only [Bool.false_eq_true, if_false] at hb hnewest
  have hup : (w.enterGroup c).coreUp c = w.coreUp c :=
    coreUp_of_touches htouches (fun _ => groups_not_beyond hc) hhw (by rw [hb]; rfl)
  have hforced : (w.enterGroup c).proofForced c = w.proofForced c := by
    rw [Work.proofForced, Work.flag, htouches.fld_eq (by decide) (proofCtrl_not_groups c)]
    rfl
  have hall : ((w.enterGroup c).engine c 0).running.all (fun x => decide (cmdOpcode x.cmd ≠ 8)) =
      (w.engine c 0).running.all fun x => decide (cmdOpcode x.cmd ≠ 8) := by
    rw [Work.engine, hb, engine_setEngine_self, updLast_of_last (x := (w.core c).engine 0) hlast]
    conv_rhs => rw [← List.dropLast_append_getLast? r hlast]
    simp only [List.all_append, List.all_cons, List.all_nil]
    rfl
  have hstate : (((w.enterGroup c).mtx c).bank ((w.enterGroup c).mtx c).opened).state = ((w.mtx c).bank (w.mtx c).opened).state := by
    obtain ⟨-, hs, ho, -⟩ := entered_open (w.settledMtx c) r ((w.settleLevel c).groupElems c r r.pos)
    rw [enterGroup_mtx h, hopen, ho, hs, settledMtx_bank]
    rfl
  rw [Work.mtxSender, hnewest]
  simp only [Bool.and_eq_true, decide_eq_true_eq] at hguard ⊢
  rw [hup, hforced, hall, hstate]
  obtain ⟨⟨⟨⟨⟨⟨⟨⟨h1, h2⟩, h3⟩, h4⟩, h5⟩, -⟩, h7⟩, h8⟩, h9⟩ := hguard
  rw [if_pos ⟨⟨⟨⟨⟨⟨⟨⟨h1, h2⟩, h3⟩, h4⟩, h5⟩, hmore⟩, h7⟩, h8⟩, h9⟩]

theorem mtxSender_more {w : Work} {c : Nat} {r : Running} (h : w.mtxSender c = some r) : r.pos < mtxGroups r.cmd := by
  obtain ⟨-, hguard⟩ := mtxSender_some h
  simp only [Bool.and_eq_true, decide_eq_true_eq] at hguard
  exact hguard.1.1.1.2

/-- The groups that a repeat has left, entered in order, end it (R99). -/
theorem enterGroups_last {c : Nat} (hc : c < 272) (n : Nat) {w : Work} {r : Running} (h : w.mtxSender c = some r)
    (hn : r.pos + (n + 1) = mtxGroups r.cmd) : ((w.enterGroups c (n + 1)).engine c 0).last.map Running.pos = some (mtxGroups r.cmd) := by
  induction n generalizing w r with
  | zero =>
    obtain ⟨b, hb⟩ := enterGroup_last h
    rw [Work.enterGroups, Work.enterGroups, hb]
    exact congrArg some hn
  | succ n ih =>
    have hnext := enterGroup_sender hc h (by omega)
    rw [Work.enterGroups]
    exact ih (r := { r with pos := r.pos + 1 }) hnext (by dsimp only; omega)

/-! ### The obligation -/

theorem Work.touches.rdB_eq {p q : Nat → Prop} {w w' : Work} (h : w.touches p q w') (a : Nat) : w'.rdB a = w.rdB a := by
  simp only [Work.rdB, h.mem, h.wr, h.wild]

/-- With the always-on plane running, a command leaves what its work does. -/
theorem runs {s : State} {f : Work → Work} {w : Work} (hp : s.powered = true) (h : f s.look = w) : run s f = done s w :=
  (run_powered s f hp).trans (congrArg (done s) h)

theorem groupsLeft_of_sender {w : Work} {c op : Nat} {r : Running} (h : w.mtxSender c = some r) :
    w.groupsLeft c op = if cmdOpcode r.cmd = op then mtxGroups r.cmd - r.pos else 0 := by
  rw [Work.groupsLeft, h]

theorem groupsLeft_enters {w : Work} {c op : Nat} {r : Running} (hc : c < 272) (h : w.mtxSender c = some r) (hop : cmdOpcode r.cmd = op) :
    w.groupsLeft c op = mtxGroups r.cmd - r.pos ∧
    ((w.enterGroups c (mtxGroups r.cmd - r.pos)).engine c 0).last.map Running.pos = some (mtxGroups r.cmd) := by
  refine ⟨by rw [groupsLeft_of_sender h, if_pos hop], ?_⟩
  have hmore := mtxSender_more h
  obtain ⟨n, hn⟩ := Nat.exists_eq_add_of_lt hmore
  rw [show mtxGroups r.cmd - r.pos = n + 1 by omega]
  exact enterGroups_last hc n h (by omega)

/-- Settles O15: the elements, banks and counts that one group leaves, and an induction over the groups that a repeat has left. -/
theorem Mtx.mtxGroups : Obligations.MtxGroups := by
  unfold Obligations.MtxGroups
  refine ⟨?_, ?_⟩
  · intro c w r h m b w' m' replaces closes ho
    obtain ⟨hcount, htouches, hhw⟩ := enterGroup_counts h c.isLt
    obtain ⟨hpc, hregs⟩ := enterGroup_program h
    obtain ⟨bank, hnewest⟩ := enterGroup_last h
    obtain ⟨-, hguard⟩ := mtxSender_some h
    have hempty : (m.bank m.opened).state = .empty := by
      simp only [Bool.and_eq_true, decide_eq_true_eq] at hguard
      exact hguard.2
    have hb : b = m.opened := Nat.mod_eq_of_lt ho
    have hbanks := entered_banks (w.settledMtx c) r ((w.settleLevel c).groupElems c r r.pos) r.closes ho
    have hopened : (w.settledMtx c).opened = m.opened := rfl
    rw [hopened, settledMtx_bank, settledMtx_bank, ← enterGroup_mtx h] at hbanks
    obtain ⟨helem, hother, hstate, hopen', hclosed⟩ := hbanks
    rw [hb]
    refine ⟨fun i j hi hj => ?_, fun i => congrFun hother i, ?_, hopen', hclosed, ?_, hcount, ?_, ?_, htouches.core, hpc, hregs, hhw⟩
    · have hcell := elem_groupElems (w.settleLevel c) c r hi hj
      rw [Work.mtx, settleLevel_core, hopened, settledMtx_bank, groupElem_settled] at hcell
      refine (congrFun helem _).trans (hcell.trans ?_)
      unfold Work.groupElem
      generalize (if i < mtxRowsA r.cmd ∧ j < mtxColsB r.cmd then w.operandBFor c r i else none) = o
      cases o <;> rfl
    · exact hstate.trans (by rw [show (w.mtx c).bank m.opened = m.bank m.opened from rfl, hempty]; rfl)
    · rw [hnewest]
      rfl
    · exact fun a ha ha4 => htouches.word a fun h => h.elim ha ha4
    · exact htouches.rdB_eq
  · rintro c s r w ⟨hp, h⟩
    have hmore := mtxSender_more h
    refine ⟨fun hop => ?_, fun row => ?_, fun hop => ?_, fun hop => ?_⟩
    · have hleft : ¬ w.groupsLeft c 1 + w.groupsLeft c 2 = 0 := by
        rw [groupsLeft_of_sender h, groupsLeft_of_sender h]
        rcases hop with hop | hop <;> rw [hop] <;> simp <;> omega
      change execGroupEnter c none s = _
      refine runs hp ?_
      rw [show s.look.mtxSender c = some r from h]
      exact if_neg hleft
    · change execGroupEnter c (some row) s = _
      refine runs hp ?_
      rw [show s.look.mtxSender c = some r from h]
      rfl
    · obtain ⟨hleft, hlast⟩ := groupsLeft_enters c.isLt h hop
      change goesTo (execMma c s) _
      refine goes hp ⟨?_, ?_⟩
      · exact congrArg (fun n => Work.commit s (w.enterGroups c n)) hleft
      · exact (congrArg (fun n => ((w.enterGroups c n).engine c 0).last.map Running.pos) hleft).trans hlast
    · obtain ⟨hleft, hlast⟩ := groupsLeft_enters c.isLt h hop
      change goesTo (execMvm c s) _
      refine goes hp ⟨?_, ?_⟩
      · exact congrArg (fun n => Work.commit s (w.enterGroups c n)) hleft
      · exact (congrArg (fun n => ((w.enterGroups c n).engine c 0).last.map Running.pos) hleft).trans hlast

end Sys2Proof.Machine
end

section
/-! PROOFS. Banks of the matrix cell and its activity level (R159, R165, R166, R181–R185). -/

namespace Sys2Proof.Machine

theorem senderOf_some {w : Work} {c op : Nat} {r : Running} (h : w.senderOf c op = some r) : w.mtxSender c = some r ∧ cmdOpcode r.cmd = op := by
  unfold Work.senderOf at h
  split at h
  · next r' hr =>
    split at h
    · next hop =>
      cases h
      exact ⟨hr, hop⟩
    · cases h
  · cases h

/-- What a group counted leaves of the state (R189). -/
theorem countsGroup_commit {c : Nat} {s : State} {w : Work} (h : Work.countsGroup c s.look w) :
    let t := Work.commit s w
    sameBytes s t ∧ sameWordsBut [Reg.MTX_GROUPS c, Reg.MTX_GROUPS c + 4] s t ∧ sameCoresBut c s t ∧ t.hw = { s.hw with cores := t.hw.cores } ∧
      t.pending = s.pending ∧
      (s.look.frozen (coreRegion c) = false → t.look.r64 (Reg.MTX_GROUPS c) = s.look.r64 (Reg.MTX_GROUPS c) + 1) := by
  obtain ⟨hcount, htouches, hhw⟩ := h
  refine ⟨htouches.sameBytes, htouches.sameWordsBut fun a ha => ?_, htouches.sameCoresBut, hhw, commit_pending .., fun hf => ?_⟩
  · simpa using ha
  · rw [commit_r64 s w htouches.csr]
    exact hcount hf

/-! ### ACLR and ACLOSE -/

/-- The matrix cell behind ACLR (R165). -/
def Mtx.cleared (m : Mtx) (r : Running) : Mtx :=
  let m := m.setBank m.opened { m.bank m.opened with elems := [], draw := none, lastTag := cmdTag r.cmd }
  { m with lastMvp := false, proofSlot := false, holding := true }

/-- The matrix cell behind ACLOSE (R166). -/
def Mtx.closedBy (m : Mtx) (b : Nat) : Mtx := { m.close (m.bank b).mvpOnly with lastMvp := false, proofSlot := false, holding := true }

/-- What ACLR and ACLOSE do beside the matrix cell: the group that they count. -/
def Work.bankGroup (w : Work) (c : Nat) (f : Mtx → Mtx) (g : Running → Running) : Work :=
  (((w.settleLevel c).updMtx c f).updEngine c 0 fun x => x.updLast g).bump (Reg.MTX_GROUPS c) 1

theorem aclr_run {s : State} {c : CoreIx} {r : Running} (hp : s.powered = true) (h : s.look.senderOf c 3 = some r) :
    execAclr c s = done s (s.look.bankGroup c (fun m => m.cleared r) fun r => { r with pos := 1 }) := by
  refine runs hp ?_
  rw [h]
  rfl

theorem aclose_run {s : State} {c : CoreIx} {r : Running} (hp : s.powered = true) (h : s.look.senderOf c 4 = some r) :
    execAclose c s = done s (s.look.bankGroup c (fun m => m.closedBy (s.look.mtx c).opened) fun r =>
      { r with pos := 1, bankHeld := [(s.look.mtx c).opened] }) := by
  have hopened : ((s.look.settleLevel c).mtx c).opened = (s.look.mtx c).opened := by
    rw [Work.mtx, settleLevel_core]
    rfl
  refine runs hp ?_
  rw [h]
  dsimp only
  rw [hopened]
  rfl

theorem cleared_banks (m : Mtx) (r : Running) (ho : m.opened < 2) :
    (m.cleared r).bank m.opened = { m.bank m.opened with elems := [], draw := none, lastTag := cmdTag r.cmd } ∧
    (m.cleared r).bank (1 - m.opened) = m.bank (1 - m.opened) ∧ (m.cleared r).opened = m.opened ∧ (m.cleared r).closed = m.closed := by
  have hother : m.opened = 0 ↔ 1 - m.opened ≠ 0 := by omega
  exact ⟨bank_setBank_self m m.opened _, bank_setBank_other m _ hother, setBank_opened .., setBank_closed ..⟩

theorem closedBy_banks (m : Mtx) (b : Nat) (ho : m.opened < 2) :
    (m.closedBy b).bank m.opened = { m.bank m.opened with state := .closing, fast := (m.bank b).mvpOnly } ∧
    (m.closedBy b).bank (1 - m.opened) = { m.bank (1 - m.opened) with mvpOnly := true } ∧
    (m.closedBy b).opened = 1 - m.opened ∧ (m.closedBy b).closed = m.closed ++ [m.opened] := close_banks m (m.bank b).mvpOnly ho

theorem bankGroup_counts (w : Work) {c : Nat} (hc : c < 272) (f : Mtx → Mtx) (g : Running → Running) : Work.countsGroup c w (w.bankGroup c f g) :=
  countsGroup_bump hc (updEngine_onlyCore (updMtx_onlyCore (settleLevel_onlyCore w c) f) 0 _)

theorem bankGroup_core (w : Work) (c : Nat) (f : Mtx → Mtx) (g : Running → Running) : (w.bankGroup c f g).core c =
    ({ w.core c with mtx := f (w.settledMtx c) } : Core).setEngine 0 (((w.core c).engine 0).updLast g) := by
  rw [Work.bankGroup, core_bump, core_updEngine, core_updMtx, settleLevel_core]
  rfl

/-- A group of ACLR or ACLOSE leaves what `MtxBanks` says of both. -/
theorem bankGroup_commit {s : State} {c : CoreIx} {r : Running} {f : Mtx → Mtx} {g : Running → Running} (h : s.look.mtxSender c = some r) (hg : (g r).pos = 1) :
    let w := s.look
    let k := w.core c
    let t := Work.commit s (w.bankGroup c f g)
    (sameBytes s t ∧ sameWordsBut [Reg.MTX_GROUPS c, Reg.MTX_GROUPS c + 4] s t ∧ sameCoresBut c s t ∧ t.hw = { s.hw with cores := t.hw.cores } ∧
      t.pending = s.pending ∧ (w.frozen (coreRegion c) = false → t.look.r64 (Reg.MTX_GROUPS c) = w.r64 (Reg.MTX_GROUPS c) + 1) ∧
      (t.look.core c).pc = k.pc ∧ (t.look.core c).regs = k.regs ∧ (t.look.engine c 0).last.map Running.pos = some 1) ∧
    t.look.mtx c = f (w.settledMtx c) := by
  obtain ⟨hlast, -⟩ := mtxSender_some h
  obtain ⟨hbytes, hwords, hcores, hhw, hpending, hcount⟩ := countsGroup_commit (bankGroup_counts s.look c.isLt f g)
  have hcore := bankGroup_core s.look c f g
  have hengine : (s.look.bankGroup c f g).engine c 0 = ((s.look.core c).engine 0).updLast g := by
    rw [Work.engine, hcore, engine_setEngine_self]
  refine ⟨⟨hbytes, hwords, hcores, hhw, hpending, hcount, ?_, ?_, ?_⟩, ?_⟩
  · rw [commit_core, hcore]
    rfl
  · rw [commit_core, hcore]
    rfl
  · rw [Work.engine, commit_core, ← Work.engine, hengine, last_updLast (x := (s.look.core c).engine 0) hlast]
    exact congrArg some hg
  · rw [Work.mtx, commit_core, hcore]
    rfl

theorem settledMtx_opened (w : Work) (c : Nat) : (w.settledMtx c).opened = (w.mtx c).opened := rfl

/-- A bank sealed: it is full, and no command waits for it (R159, R166, R173). -/
def Work.bankMarked (w : Work) (c b : Nat) : Work :=
  (w.updMtx c fun m => m.setBank b { m.bank b with state := .full }).updEngine c 0 fun x =>
    { x with running := x.running.map fun r => { r with bankHeld := r.bankHeld.filter (fun o => decide (o ≠ b)) } }

theorem bankMarked_core (w : Work) (c b : Nat) : (w.bankMarked c b).core c =
    ({ w.core c with mtx := (w.mtx c).setBank b { (w.mtx c).bank b with state := .full } } : Core).setEngine 0
      { (w.core c).engine 0 with
        running := ((w.core c).engine 0).running.map fun r => { r with bankHeld := r.bankHeld.filter (fun o => decide (o ≠ b)) } } := by
  rw [Work.bankMarked, core_updEngine, core_updMtx]
  rfl

/-! ### The obligation -/

/-- Settles O16: each operation changes the matrix cell of its core, bank by bank, and counts where it counts a group. -/
theorem mtxBanks : Obligations.MtxBanks := by
  unfold Obligations.MtxBanks
  refine ⟨?_, ?_⟩
  · intro c s r w k m counts
    refine ⟨?_, ?_, ?_⟩
    · rintro ⟨hp, hsender, ho⟩
      obtain ⟨hsent, -⟩ := senderOf_some hsender
      obtain ⟨hcounts, hmtx⟩ := bankGroup_commit (f := fun m => m.cleared r) (g := fun r => { r with pos := 1 }) hsent rfl
      obtain ⟨hself, hother, hopened, hclosed⟩ := cleared_banks (w.settledMtx c) r ho
      refine ⟨_, aclr_run hp hsender, ?_⟩
      dsimp only at hmtx ⊢
      rw [hmtx]
      rw [settledMtx_opened, settledMtx_bank] at hself
      rw [settledMtx_opened, settledMtx_bank] at hother
      exact ⟨hcounts, fun i => congrArg (Bank.elem · i) hself, hother, (congrArg Bank.state hself :), hopened, hclosed⟩
    · rintro ⟨hp, hsender, ho⟩
      obtain ⟨hsent, -⟩ := senderOf_some hsender
      obtain ⟨hcounts, hmtx⟩ := bankGroup_commit (f := fun m => m.closedBy (w.mtx c).opened)
        (g := fun r => { r with pos := 1, bankHeld := [(w.mtx c).opened] }) hsent rfl
      obtain ⟨hself, hother, hopened, hclosed⟩ := closedBy_banks (w.settledMtx c) (w.mtx c).opened ho
      refine ⟨_, aclose_run hp hsender, ?_⟩
      dsimp only at hmtx ⊢
      rw [hmtx]
      rw [settledMtx_opened, settledMtx_bank] at hself
      rw [settledMtx_opened, settledMtx_bank] at hother
      refine ⟨hcounts, fun i b hb => ?_, (congrArg Bank.state hself :), (congrArg Bank.state hother :), hopened, hclosed⟩
      rcases (by omega : b = m.opened ∨ b = 1 - m.opened) with rfl | rfl
      · exact (congrArg (Bank.elem · i) hself :)
      · exact (congrArg (Bank.elem · i) hother :)
    · rintro ⟨hp, hup, hfind, hleft, hlevel⟩
      change goesTo (execProof c s) _
      refine goes hp ?_
      rw [show (s.look.engine c 0).running.find? (fun x => decide (cmdOpcode x.cmd = 8)) = some r from hfind]
      dsimp only
      rw [if_pos (by simp only [Bool.and_eq_true, decide_eq_true_eq]; exact ⟨⟨hup, hleft⟩, hlevel⟩)]
      exact becomes_of (updMtx_onlyCore (settleLevel_onlyCore w c) _) (by rw [core_updMtx, settleLevel_core]; rfl)
  · intro c s w k m
    refine ⟨?_, ?_, ?_⟩
    · rintro b ⟨hp, hup, hfill⟩
      change goesTo (execBankFull c b s) _
      refine goes hp ?_
      dsimp only
      rw [if_pos (by rw [Bool.and_eq_true]; exact ⟨hup, hfill⟩)]
      have honly : Work.onlyCore c s.look (s.look.bankMarked c b.val) := updEngine_onlyCore (updMtx_onlyCore (onlyCore_refl ..) _) 0 _
      have hcore := bankMarked_core s.look c b.val
      have hother : b.val = 0 ↔ 1 - b.val ≠ 0 := by omega
      have hmtx : (s.look.bankMarked c b.val).mtx c = m.setBank b.val { m.bank b.val with state := .full } := by
        rw [Work.mtx, hcore]
        rfl
      change _ ∧ ((s.look.bankMarked c b.val).mtx c).bank b.val = _ ∧ ((s.look.bankMarked c b.val).mtx c).bank (1 - b.val) = _ ∧
        ((s.look.bankMarked c b.val).mtx c).opened = _ ∧ ((s.look.bankMarked c b.val).mtx c).closed = _ ∧ ((s.look.bankMarked c b.val).core c).pc = _ ∧
        ((s.look.bankMarked c b.val).core c).regs = _ ∧ (((s.look.bankMarked c b.val).core c).engine 0).running.all _ = true
      rw [hmtx, hcore, engine_setEngine_self]
      refine ⟨onlyCore_commit honly, bank_setBank_self .., bank_setBank_other _ _ hother, setBank_opened .., setBank_closed .., rfl, rfl, ?_⟩
      simp [List.all_eq_true]
    · rintro ⟨hp, hup⟩
      change goesTo (execLevelStep c s) _
      refine goes hp ?_
      dsimp only
      rw [if_pos (show s.look.coreUp c = true from hup)]
      exact becomes_of (updMtx_onlyCore (onlyCore_refl ..) _) (core_updMtx ..)
    · rintro ⟨hp, hidle⟩
      change goesTo (execRampHoldExpire c s) _
      refine goes hp ?_
      rw [if_neg (by rw [show s.look.arrayWork c = false from hidle]; decide)]
      exact becomes_of (updMtx_onlyCore (onlyCore_refl ..) _) (core_updMtx ..)

end Sys2Proof.Machine
end

section
/-! PROOFS. Segment tables, the feeders' parity and Proof's register (R175–R179, R182, R186, R188). -/

namespace Sys2Proof.Machine

/-- A piece of work counts clamps, and does nothing else (R67). -/
def Work.clampsOnly (w w' : Work) : Prop := w.touches beyondCores noCore w' ∧ w'.hw = w.hw

theorem Work.clampsOnly.refl (w : Work) : w.clampsOnly w := ⟨.refl .., rfl⟩

theorem Work.clampsOnly.trans {u v w : Work} (h : u.clampsOnly v) (h' : v.clampsOnly w) : u.clampsOnly w := ⟨h.1.trans h'.1, h'.2.trans h.2⟩

theorem clamp_clampsOnly (w : Work) (who : ClampBy) (addr word lsb : Nat) (rule : ClampRule) : w.clampsOnly (w.clamp who addr word lsb rule) :=
  ⟨clamp_touches .., clamp_hw ..⟩

/-- A field of a segment table's entry, counted where it was clamped. -/
def Work.countSeg (w : Work) (c a : Nat) (who : ClampBy) (r : Option ClampRule) (word lsb : Nat) : Work :=
  match r with | some r => w.clamp who (spmAt c (a + 4 * word)) word lsb r | none => w

theorem countSeg_clampsOnly (w : Work) (c a : Nat) (who : ClampBy) (r : Option ClampRule) (word lsb : Nat) :
    w.clampsOnly (w.countSeg c a who r word lsb) := by
  cases r with
  | none => exact .refl w
  | some r => exact clamp_clampsOnly ..

/-- Reading a segment table counts the clamps of its fields (R175, R176). -/
theorem readSegs_clampsOnly (c rows : Nat) (who : ClampBy) (n : Nat) (w : Work) (a prevEnd : Nat) :
    w.clampsOnly (w.readSegs c rows who n a prevEnd).2.2 := by
  induction n generalizing w a prevEnd with
  | zero => exact .refl w
  | succ n ih =>
    rw [Work.readSegs]
    generalize segEntry rows prevEnd (w.spmLE c a 4) (w.spmLE c (a + 4) 4) = entry
    obtain ⟨seg, first, rows', base⟩ := entry
    have hcount : w.clampsOnly (((w.countSeg c a who first 0 0).countSeg c a who rows' 0 8).countSeg c a who base 1 0) :=
      ((countSeg_clampsOnly ..).trans (countSeg_clampsOnly ..)).trans (countSeg_clampsOnly ..)
    exact hcount.trans (ih _ (a + 8) (seg.row + seg.count))

/-- Who a command's clamps are counted for (R67). -/
def Running.clampBy (r : Running) : ClampBy := match r.ctx with | some x => .program x | none => .firmware

/-- The table of command r as read. -/
def Work.segTable (w : Work) (c : Nat) (r : Running) : List Seg × Bool × Work :=
  w.readSegs c (mtxRowsA r.cmd) r.clampBy (mtxSegCount r.cmd) (mtxSegTable r.cmd) 0

/-- What the read of a segment table leaves: the command's segments and MTX_SEG_STAT. -/
def tableRead (c : Nat) (table : List Seg × Bool × Work) (n : Nat) : Work :=
  let live := table.1.filter fun s => decide (0 < s.count)
  (table.2.2.w32 (Reg.MTX_SEG_STAT c) (BitVec.ofNat 32 (live.length + (if table.2.1 then 2 ^ 16 else 0) + (n - 1) * 2 ^ 24))).updEngine c 0 fun x =>
    x.updLast fun r => { r with ready := true, segs := live }

theorem tableRead_hw (c : Nat) (table : List Seg × Bool × Work) (n : Nat) :
    (tableRead c table n).hw = { table.2.2.hw with cores := (tableRead c table n).hw.cores } := by
  unfold tableRead
  dsimp only
  rw [Work.updEngine, Work.updCore, Work.setCore, w32_hw]

theorem tableRead_touches {w : Work} {c : Nat} {table : List Seg × Bool × Work} (h : w.clampsOnly table.2.2) (n : Nat) :
    w.touches (fun a => beyondCores a ∨ a = Reg.MTX_SEG_STAT c) (· = c) (tableRead c table n) := by
  have hclamps : w.touches (fun a => beyondCores a ∨ a = Reg.MTX_SEG_STAT c) (· = c) table.2.2 := h.1.mono (fun _ => .inl) fun _ => False.elim
  unfold tableRead
  dsimp only
  exact (hclamps.trans (.w32 _ _ (.inr rfl))).trans (.updCore _ _ rfl)

theorem tableRead_r32 (c : Nat) (table : List Seg × Bool × Work) (n a : Nat) : (tableRead c table n).r32 a =
    if a = Reg.MTX_SEG_STAT c then BitVec.ofNat 32 ((table.1.filter fun s => decide (0 < s.count)).length + (if table.2.1 then 2 ^ 16 else 0) + (n - 1) * 2 ^ 24)
    else table.2.2.r32 a := by
  rw [tableRead, Work.updEngine, r32_updCore, r32_w32]

theorem tableRead_running {w : Work} {c : Nat} {r : Running} {table : List Seg × Bool × Work} (h : w.clampsOnly table.2.2) (n : Nat)
    (hlast : ((w.core c).engine 0).last = some r) : (((tableRead c table n).core c).engine 0).running =
      ((w.core c).engine 0).running.dropLast ++ [{ r with ready := true, segs := table.1.filter fun s => decide (0 < s.count) }] := by
  have hcore : table.2.2.core c = w.core c := core_of_cores _ _ (by rw [h.2]) c
  rw [tableRead, core_updEngine, engine_setEngine_self, core_w32, hcore, updLast_of_last hlast]

section Newest
variable {s : State} {c : CoreIx} {r : Running} (hp : s.powered = true) (hlast : (s.look.engine c 0).last = some r)
include hp hlast

theorem segTableReadDone_run (hup : s.look.coreUp c = true) (hseg : mtxSeg r.cmd = true) (hready : r.ready = false) (hstop : r.stopped = false)
    (href : r.refetch = false) : execSegTableReadDone c s = done s (tableRead c (s.look.segTable c r) (mtxSegCount r.cmd)) := by
  refine runs hp ?_
  rw [hlast]
  dsimp only
  rw [if_pos (by simp only [Bool.and_eq_true, Bool.not_eq_true']; exact ⟨⟨⟨⟨hup, hseg⟩, hready⟩, hstop⟩, href⟩)]
  unfold Work.segTable Running.clampBy
  cases r.ctx with
  | none =>
    dsimp only
    generalize s.look.readSegs _ _ _ _ _ _ = table
    rfl
  | some x =>
    dsimp only
    generalize s.look.readSegs _ _ _ _ _ _ = table
    rfl

/-- The words are fetched again, or have been (R188). -/
def Work.refetching (w : Work) (c : Nat) (refetch : Bool) (stopped : Running → Bool) : Work :=
  w.updEngine c 0 fun x => x.updLast fun r => { r with refetch := refetch, stopped := stopped r }

theorem feedParityError_run (hup : s.look.coreUp c = true) (hfetch : mtxFetching r = true) :
    execFeedParityError c s = done s (s.look.refetching c true Running.stopped) := by
  refine runs hp ?_
  rw [hlast]
  dsimp only
  rw [if_pos (by rw [Bool.and_eq_true]; exact ⟨hup, hfetch⟩)]
  rfl

theorem feedRefetchEnd_clean (href : r.refetch = true) : execFeedRefetchEnd c true s =
    done s ((s.look.refetching c false fun _ => false).cellTransient c 0x06 1 (cmdTag r.cmd) r.ctx (Reg.MTX_ERR_STAT c)
      Fld.MTX_ERR_STAT_FEED_TRANSIENT Fld.MTX_ERR_STAT_TRANSIENT_CNT 0) := by
  refine runs hp ?_
  rw [hlast]
  dsimp only
  rw [if_pos href, if_pos rfl]
  rfl

/-- MTX_ERR_STAT is another word than MTX_ERR_INFO. -/
theorem feedRefetchEnd_lasting (href : r.refetch = true) : execFeedRefetchEnd c false s =
    done s ((((s.look.refetching c false fun _ => true).setFlag (Reg.MTX_ERR_STAT c) Fld.MTX_ERR_STAT_FEED_LASTING true).w32
      (Reg.MTX_ERR_INFO c) (BitVec.ofNat 32 (setBits (setBits (s.look.r32 (Reg.MTX_ERR_INFO c)).toNat 0 16 (cmdTag r.cmd)) 24 1 0))).cellFault
        c 0x06 1 (cmdTag r.cmd) r.ctx none 0) := by
  have hinfo : ((s.look.refetching c false fun _ => true).setFlag (Reg.MTX_ERR_STAT c) Fld.MTX_ERR_STAT_FEED_LASTING true).r32 (Reg.MTX_ERR_INFO c) =
      s.look.r32 (Reg.MTX_ERR_INFO c) := by
    rw [Work.setFlag, r32_setFld_other _ _ _ (by decide) (by simp only [Reg.MTX_ERR_INFO, Reg.MTX_ERR_STAT]; omega), Work.refetching, Work.updEngine,
      r32_updCore]
  refine runs hp ?_
  rw [hlast]
  dsimp only
  rw [if_pos href, if_neg Bool.false_ne_true, ← hinfo]
  rfl

end Newest

/-- Settles O17: each operation is its one change of the newest command, with the registers and the fault that go with it. -/
theorem mtxTablesAndProof : Obligations.MtxTablesAndProof := by
  unfold Obligations.MtxTablesAndProof
  refine ⟨?_, fun m c value s hp => ?_⟩
  · rintro c s r w k last by_ table live refetched ⟨hp, hlast⟩
    refine ⟨?_, ?_, fun href => feedRefetchEnd_clean hp hlast href, fun href => feedRefetchEnd_lasting hp hlast href⟩
    · rintro ⟨hup, hseg, hready, hstop, href⟩
      have hby : r.clampBy = by_ := by
        unfold Running.clampBy
        rfl
      have hrun := segTableReadDone_run hp hlast hup hseg hready hstop href
      rw [show s.look.segTable c r = table by rw [Work.segTable, hby]] at hrun
      have hclamps : w.clampsOnly table.2.2 := readSegs_clampsOnly ..
      clear_value table
      have htouches := tableRead_touches (c := c) hclamps (mtxSegCount r.cmd)
      have hword := tableRead_r32 c table (mtxSegCount r.cmd)
      refine ⟨_, hrun, tableRead_running hclamps _ hlast, ?_, fun a ha => ?_, htouches.sameBytes,
        htouches.sameCoresBut, ?_, commit_pending ..⟩
      · exact (htouches.commit_r32 _).trans ((hword _).trans (if_pos rfl))
      · exact (htouches.commit_r32 _).trans ((hword _).trans (if_neg ha))
      · exact (tableRead_hw c table _).trans (by rw [hclamps.2]; rfl)
    · rintro ⟨hup, hfetch⟩
      have hcore := core_updEngine s.look c 0 fun x => x.updLast fun r => { r with refetch := true, stopped := r.stopped }
      refine ⟨_, feedParityError_run hp hlast hup hfetch, onlyCore_commit (updEngine_onlyCore (onlyCore_refl ..) _ _), ?_, ?_, ?_⟩
      · refine (congrArg (fun k : Core => (k.engine 0).running) hcore).trans ?_
        rw [engine_setEngine_self, updLast_of_last (x := (s.look.core c).engine 0) hlast]
      · exact (congrArg Core.pc hcore :)
      · exact (congrArg Core.mtx hcore :)
  · exact runs (f := fun w => (w.settleLevel c).regWrite m (Reg.MTX_PROOF_CTRL c) .w32 0xF value.toNat) hp rfl

end Sys2Proof.Machine
end

section
/-! SUPPORT. What an operation that writes bytes leaves alone; and the clamps of a structure's words. -/

namespace Sys2Proof.Machine

/-- The operation from w to w' writes bytes of b, register words of p and core slots of q only. -/
structure Work.writes (b p q : Nat → Prop) (w w' : Work) : Prop where
  mem : w'.mem = w.mem
  csr : w'.csr = w.csr
  byte : ∀ a, ¬ b a → w'.rdB a = w.rdB a
  word : ∀ a, ¬ p a → w'.r32 a = w.r32 a
  core : ∀ c, ¬ q c → w'.core c = w.core c

/-- No byte, no register word. -/
def noByte (_ : Nat) : Prop := False
def noWord (_ : Nat) : Prop := False

theorem Work.touches.writes {p q : Nat → Prop} {w w' : Work} (h : w.touches p q w') (b : Nat → Prop) : w.writes b p q w' :=
  ⟨h.mem, h.csr, fun a _ => h.rdB_eq a, h.word, h.core⟩

theorem Work.touches.updEngine (p : Nat → Prop) (w : Work) (c e : Nat) (f : Engine → Engine) : w.touches p (· = c) (w.updEngine c e f) :=
  .updCore w _ rfl

namespace Work.writes

variable {b b' p p' q q' : Nat → Prop} {u v w : Work} {c : Nat} {s : State}

theorem refl (b p q : Nat → Prop) (w : Work) : w.writes b p q w := (touches.refl p q w).writes b

theorem trans (h : u.writes b p q v) (h' : v.writes b p q w) : u.writes b p q w :=
  ⟨h'.mem.trans h.mem, h'.csr.trans h.csr, fun a ha => (h'.byte a ha).trans (h.byte a ha), fun a ha => (h'.word a ha).trans (h.word a ha),
    fun c hc => (h'.core c hc).trans (h.core c hc)⟩

theorem mono (h : u.writes b p q v) (hb : ∀ a, b a → b' a) (hp : ∀ a, p a → p' a) (hq : ∀ c, q c → q' c) : u.writes b' p' q' v :=
  ⟨h.mem, h.csr, fun a ha => h.byte a (mt (hb a) ha), fun a ha => h.word a (mt (hp a) ha), fun c hc => h.core c (mt (hq c) hc)⟩

/-- Work that writes no word and no core. -/
theorem widen (h : u.writes b noWord noCore v) (p q : Nat → Prop) : u.writes b p q v :=
  h.mono (fun _ => id) (fun _ => False.elim) fun _ => False.elim

theorem wrB (w : Work) {a : Nat} (x : Byte) (ha : b a) : w.writes b p q (w.wrB a x) :=
  ⟨rfl, rfl, fun _ hy => rdB_wrB_other _ _ fun e => hy (e ▸ ha), fun _ _ => r32_wrB ..,
    fun c _ => core_of_cores _ _ rfl c⟩

theorem spmWrite (c : Nat) (hb : ∀ off, b (spmAt c off)) (l : List Byte) (w : Work) (off : Nat) : w.writes b p q (w.spmWrite c off l) := by
  induction l generalizing w off with
  | nil => exact refl b p q w
  | cons x l ih => exact (wrB w x (hb off)).trans (ih ..)

theorem of_hw (hmem : v.mem = u.mem) (hcsr : v.csr = u.csr) (hwr : v.wr = u.wr) (hcw : v.cw = u.cw) (hwild : v.hw.wild = u.hw.wild)
    (hcores : v.hw.cores = u.hw.cores) : u.writes b p q v := (touches.of_hw hmem hcsr hwr hcw hwild hcores).writes b

theorem foldl {α : Type} {β : Type} (get : β → Work) {f : β → α → β} (l : List α) (h : ∀ k : β, ∀ x ∈ l, (get k).writes b p q (get (f k x))) (k : β) :
    (get k).writes b p q (get (l.foldl f k)) := by
  induction l generalizing k with
  | nil => exact refl b p q _
  | cons x l ih => exact (h k x List.mem_cons_self).trans (ih (fun k y hy => h k y (List.mem_cons_of_mem _ hy)) (f k x))

theorem r64_eq {a : Nat} (h : u.writes b p q v) (ha : ¬ p a) (ha4 : ¬ p (a + 4)) : v.r64 a = u.r64 a := by
  simp only [Work.r64, h.word _ ha, h.word _ ha4]

theorem fld_eq {a : Nat} {f : Fld} (h : u.writes b p q v) (hf : f.lsb + f.width ≤ 32) (ha : ¬ p a) : v.fld a f = u.fld a f := by
  simp only [Work.fld, hf, if_true, h.word _ ha]

/-! ### The state that it leaves -/

theorem sameBytesBut (h : s.look.writes b p q w) : sameBytesBut b s (Work.commit s w) := fun a ha =>
  (commit_rdB s w h.mem a).trans (h.byte a ha)

theorem commit_r32 (h : s.look.writes b p q w) (a : Nat) : (Work.commit s w).look.r32 a = w.r32 a := Machine.commit_r32 s w h.csr a

theorem sameWordsBut {l : List Nat} (h : s.look.writes b p q w) (hl : ∀ a, p a → a ∈ l) : sameWordsBut l s (Work.commit s w) :=
  fun a ha => (h.commit_r32 a).trans (h.word a (mt (hl a) ha))

theorem sameCoresBut (h : s.look.writes b p (· = c) w) : sameCoresBut c s (Work.commit s w) := fun x hx => h.core x hx

end Work.writes

/-! ### Clamping a structure's words (R67, R69) -/

/-- Clamping words counts clamps, and does nothing else. -/
def WordsClamp.counts (k k' : WordsClamp) : Prop := k.work.clampsOnly k'.work

namespace WordsClamp.counts

variable {k l : WordsClamp}

theorem refl (k : WordsClamp) : k.counts k := Work.clampsOnly.refl k.work

theorem field (h : k.counts l) (i lsb width : Nat) (f : Nat → Nat × Option ClampRule) : k.counts (l.field i lsb width f) := by
  refine Work.clampsOnly.trans h ?_
  unfold WordsClamp.field
  dsimp only
  split
  · exact Work.clampsOnly.refl l.work
  · exact clamp_clampsOnly ..

theorem each (h : k.counts l) (n : Nat) {f : WordsClamp → Nat → WordsClamp} (hf : ∀ l' i, k.counts l' → k.counts (f l' i)) : k.counts (l.each n f) := by
  unfold WordsClamp.each
  generalize List.range n = is
  induction is generalizing l with
  | nil => exact h
  | cons i is ih => exact ih (hf l i h)

theorem ite {c : Prop} [Decidable c] {l' : WordsClamp} (h : k.counts l) (h' : k.counts l') : k.counts (if c then l else l') := by
  split
  · exact h
  · exact h'

end WordsClamp.counts

theorem vecFmts_counts {k l : WordsClamp} (h : k.counts l) (cmd : CmdBits) (word n lsb0 : Nat) (skip0 : Bool) :
    k.counts (l.vecFmts cmd word n lsb0 skip0) := by
  unfold WordsClamp.vecFmts
  exact (h.each n fun l' i h' => .ite h' (h'.field ..)).each n fun l' i h' => .ite (h'.field ..) h'

theorem vecStage_counts {k l : WordsClamp} (h : k.counts l) (cmd : CmdBits) (s : Nat) : k.counts (l.vecStage cmd s) := by
  unfold WordsClamp.vecStage
  extract_lets i k1 t k2 op ins k3 k4 fmt k5 outs k6 k7 g a
  have h2 : k.counts k2 := (h.field ..).field ..
  have h3 : k.counts k3 := h2.each 3 fun l' j h' => .ite (h'.field ..) h'
  have h4 : k.counts k4 := .ite (h3.field ..) (.ite (h3.field ..) h3)
  have h5 : k.counts k5 := .ite h4 (h4.field ..)
  have h7 : k.counts k7 := (h5.field ..).field ..
  exact .ite (.ite (h7.field ..) (.ite h7 (h7.field ..))) (.ite (h7.field ..) h7)

/-- Reading a vector configuration block counts the clamps of its fields (R197). -/
theorem vecBlock_counts (k : WordsClamp) (cmd : CmdBits) : k.counts (k.vecBlock cmd) := by
  unfold WordsClamp.vecBlock
  extract_lets ins outs k1 k2 k3 k4
  have h2 : k.counts k2 := vecFmts_counts (vecFmts_counts (.refl k) ..) ..
  have h3 : k.counts k3 := h2.each ins fun l' i h' => h'.field ..
  have h4 : k.counts k4 := h3.each outs fun l' i h' => h'.field ..
  exact h4.each (vecStages cmd) fun l' s h' => vecStage_counts h' cmd s

end Sys2Proof.Machine
end

section
/-! PROOFS. The vector chain: the walk of a repeat, its configuration block, and the banks that it empties (R102, R192–R219). -/

namespace Sys2Proof.Machine

/-! ### The walk writes its own core's scratchpad only -/

/-- The bytes of a core's scratchpad. -/
def inSpm (c a : Nat) : Prop := spmBase c ≤ a ∧ a < spmBase c + 2 ^ 24

theorem spmAt_inSpm (c off : Nat) : inSpm c (spmAt c off) :=
  ⟨Nat.le_add_right .., Nat.add_lt_add_left (Nat.mod_lt _ (Nat.two_pow_pos 24)) _⟩

/-- The work has written bytes of core c's scratchpad, and may have drawn numbers. -/
def Work.scratches (c : Nat) (w w' : Work) : Prop := w.writes (inSpm c) noWord noCore w'

section Walk
variable (c : Nat) (g : VecCfg) (r : Running) (rep : Nat)

theorem scratches_spmWrite (w : Work) (off : Nat) (l : List Byte) : w.scratches c (w.spmWrite c off l) :=
  .spmWrite c (fun off => spmAt_inSpm c off) l w off

theorem scratches_vecPut (w : Work) (o x code : Nat) : w.scratches c (w.vecPut c g r rep o x code) := by
  unfold Work.vecPut Work.spmSetBits
  dsimp only
  split
  · exact .trans (scratches_spmWrite ..) (scratches_spmWrite ..)
  · exact scratches_spmWrite ..

theorem scratches_flush (k : VWalk) (o total : Nat) : k.w.scratches c (k.flush c g r rep o total).w := by
  unfold VWalk.flush
  extract_lets vs x b w w'
  have hw : k.w.scratches c w :=
    .foldl (fun st : Work × Nat => st.1) (f := fun st code => (st.1.vecPut c g r rep o st.2 code, st.2 + 1)) b.2.1 (fun st code _ => scratches_vecPut c g r rep st.1 o st.2 code) (k.w, x)
  split
  · exact .refl ..
  · exact hw.trans (scratches_spmWrite ..)

theorem scratches_put (k : VWalk) (o total : Nat) (v : VVal) : k.w.scratches c (k.put c g r rep o total v).w := by
  unfold VWalk.put
  dsimp only
  split
  · split
    · exact scratches_flush c g r rep { k with block := SMap.set [] k.block o (SMap.get [] k.block o ++ [v]) } o total
    · exact .refl ..
  · exact scratches_vecPut ..

theorem scratches_offer (k : VWalk) (n s : Nat) (x : VElem) (v : VVal) : k.w.scratches c (k.offer c g r rep n s x v).w := by
  unfold VWalk.offer
  dsimp only
  split
  · split
    · exact .foldl VWalk.w _ (fun k' o _ => scratches_put c g r rep k' o _ _) { k with
        spans := SMap.set [] k.spans s [], sat := k.sat.plus (vecReduce g s (SMap.get [] k.spans s ++ [v])).2 }
    · exact .refl ..
  · exact .foldl VWalk.w _ (fun k' o _ => scratches_put c g r rep k' o _ _) k

/-- Random values are drawn from the core's own generator (R134). -/
theorem scratches_drawSr (w : Work) : w.scratches c (w.drawSr c).2 := by
  unfold Work.drawSr
  dsimp only
  split <;> exact .of_hw rfl rfl rfl rfl rfl rfl

theorem scratches_drawElem (ss : List Nat) (w : Work) : w.scratches c (w.drawElem c ss).2 := by
  induction ss generalizing w with
  | nil => exact .refl ..
  | cons s ss ih => exact (scratches_drawSr c w).trans (ih _)

theorem scratches_readElems (bank : Nat) (parity : Option Nat) (xs : List Nat) (w : Work) :
    w.scratches c (w.readElems c g r rep bank parity xs).2 := by
  induction xs generalizing w with
  | nil => exact .refl ..
  | cons x xs ih => exact (scratches_drawElem c g.srStages w).trans (ih _)

theorem scratches_chunk (k : VWalk) (bank : Nat) (parity : Option Nat) (ords : List Nat) : k.w.scratches c (k.chunk c g r rep bank parity ords).w := by
  have hoffer (rs : List (Nat × List VElem)) (j : Nat) (k' : VWalk) : k'.w.scratches c (rs.foldl (fun k p => match p.2[j]? with
      | some x => k.offer c g r rep g.elems p.1 x x.chain
      | none => k) k').w := by
    refine .foldl VWalk.w rs (fun k' p _ => ?_) k'
    split
    · exact scratches_offer ..
    · exact .refl ..
  unfold VWalk.chunk
  dsimp only
  exact (scratches_readElems c g r rep bank parity ords k.w).trans (.foldl VWalk.w _ (fun k' j _ => hoffer _ j k') { k with
    w := (k.w.readElems c g r rep bank parity ords).2
    sat := k.sat.plus (vecRunStages g (vecStages g.cmd) (k.w.readElems c g r rep bank parity ords).1).2 })

theorem scratches_pad (k : VWalk) (o : Nat) : k.w.scratches c (k.pad c g r rep o).w := by
  have hdraw : k.w.scratches c k.w.draw.2 := .of_hw rfl rfl rfl rfl rfl rfl
  unfold VWalk.pad
  dsimp only
  split
  · exact .refl ..
  · exact hdraw.trans (scratches_spmWrite ..)

/-- The walk of a repeat before its counts. -/
def Work.vecWalked_ (w : Work) (bank : Nat) (parity : Option Nat) : VWalk :=
  let n := g.elems
  let k : VWalk := ⟨w, [], [], [], .none⟩
  let k := (vecChunks n (if g.blocks then 32 else 1)).foldl (fun k l => k.chunk c g r rep bank parity l) k
  let outs := List.range (g.outCount + 1)
  let k := outs.foldl (fun k o =>
    match g.feeder o with
    | some s => k.flush c g r rep o (if g.sType s = 4 then (n + g.span s n - 1) / g.span s n else n)
    | none => k) k
  outs.foldl (fun k o => k.pad c g r rep o) k

theorem scratches_walked (w : Work) (bank : Nat) (parity : Option Nat) : w.scratches c (w.vecWalked_ c g r rep bank parity).w := by
  unfold Work.vecWalked_
  extract_lets n k0 k1 outs k2
  have h1 : w.scratches c k1.w := .foldl VWalk.w _ (fun k l _ => scratches_chunk c g r rep k bank parity l) k0
  have h2 : k1.w.scratches c k2.w := by
    refine .foldl VWalk.w _ (fun k o _ => ?_) k1
    split
    · exact scratches_flush ..
    · exact .refl ..
  exact (h1.trans h2).trans (.foldl VWalk.w _ (fun k o _ => scratches_pad c g r rep k o) k2)

end Walk

/-! ### RUN -/

/-- The words that RUN counts in. -/
def vecCount (c a : Nat) : Prop := a = Reg.VEC_SAT_ANCHOR c ∨ a = Reg.VEC_SAT_FLOAT c ∨ a = Reg.VEC_ELEMS c ∨ a = Reg.VEC_ELEMS c + 4

/-- The counts behind a walk. -/
def VWalk.counted (k : VWalk) (c n : Nat) : Work :=
  ((k.w.satAdd (Reg.VEC_SAT_ANCHOR c) word32 k.sat.anch).satAdd (Reg.VEC_SAT_FLOAT c) word32 k.sat.flt).bump (Reg.VEC_ELEMS c) n

theorem vecWalk_eq (w : Work) (c : Nat) (g : VecCfg) (r : Running) (rep bank : Nat) (parity : Option Nat) :
    w.vecWalk c g r rep bank parity = (w.vecWalked_ c g r rep bank parity).counted c g.elems := rfl

theorem satAdd_touches {p q : Nat → Prop} (w : Work) {a : Nat} (n : Nat) (ha : p a) : w.touches p q (w.satAdd a word32 n) :=
  .setFld32 w _ (by decide) ha

theorem sats_touches (k : VWalk) (c : Nat) :
    k.w.touches (fun a => a = Reg.VEC_SAT_ANCHOR c ∨ a = Reg.VEC_SAT_FLOAT c) noCore
      ((k.w.satAdd (Reg.VEC_SAT_ANCHOR c) word32 k.sat.anch).satAdd (Reg.VEC_SAT_FLOAT c) word32 k.sat.flt) :=
  (satAdd_touches _ _ (.inl rfl)).trans (satAdd_touches _ _ (.inr rfl))

theorem counted_touches (k : VWalk) (c n : Nat) : k.w.touches (vecCount c) noCore (k.counted c n) := by
  have hsats := (sats_touches k c).mono (p' := vecCount c) (fun a ha => ha.elim .inl fun h => .inr (.inl h)) fun _ => id
  exact hsats.trans (.bump _ n (.inr (.inr (.inl rfl))) (.inr (.inr (.inr rfl))))

theorem vecElems_not_sat (c : Nat) : ¬ (Reg.VEC_ELEMS c = Reg.VEC_SAT_ANCHOR c ∨ Reg.VEC_ELEMS c = Reg.VEC_SAT_FLOAT c) ∧
    ¬ (Reg.VEC_ELEMS c + 4 = Reg.VEC_SAT_ANCHOR c ∨ Reg.VEC_ELEMS c + 4 = Reg.VEC_SAT_FLOAT c) := by
  simp only [Reg.VEC_ELEMS, Reg.VEC_SAT_ANCHOR, Reg.VEC_SAT_FLOAT]
  omega

theorem cntCtrl_not_vec (c d : Nat) : ¬ (Reg.DBG_CNT_CTRL d = Reg.VEC_SAT_ANCHOR c ∨ Reg.DBG_CNT_CTRL d = Reg.VEC_SAT_FLOAT c) := by
  simp only [Reg.DBG_CNT_CTRL, Reg.VEC_SAT_ANCHOR, Reg.VEC_SAT_FLOAT, coreWindow, dieWindow]
  omega

/-- VEC_ELEMS counts the elements of the repeat, while its die's counters run (R218, R646). -/
theorem vecElems_counted {c : Nat} (hc : c < 272) (k : VWalk) (n : Nat) (h : k.w.frozen (coreRegion c) = false) :
    (k.counted c n).r64 (Reg.VEC_ELEMS c) = k.w.r64 (Reg.VEC_ELEMS c) + BitVec.ofNat 64 n := by
  have hdie : csrDie (Reg.VEC_ELEMS c) = coreRegion c := by
    rw [Reg.VEC_ELEMS, Nat.add_assoc]
    exact csrDie_core hc (by decide)
  obtain ⟨helems, helems4⟩ := vecElems_not_sat c
  have hsats := sats_touches k c
  rw [VWalk.counted, r64_bump_self, hsats.r64_eq helems helems4]
  rw [hdie, Work.frozen, Work.flag, hsats.fld_eq (by decide) (cntCtrl_not_vec c (coreRegion c))]
  exact h

/-! ### The banks that a VEC command empties (R213) -/

/-- A bank read to its end. -/
def Work.bankEmptied (w : Work) (c b : Nat) : Work :=
  (w.updMtx c fun m => m.setBank b { m.bank b with state := .empty }).updEngine c 1 fun x =>
    { x with running := x.running.map fun q => { q with bankHeld := q.bankHeld.filter (fun y => decide (y ≠ b)) } }

theorem bankEmptied_onlyCore (w : Work) (c b : Nat) : Work.onlyCore c w (w.bankEmptied c b) :=
  updEngine_onlyCore (updMtx_onlyCore (onlyCore_refl ..) _) 1 _

theorem bankEmptied_core (w : Work) (c b : Nat) : (w.bankEmptied c b).core c =
    ({ w.core c with mtx := (w.mtx c).setBank b { (w.mtx c).bank b with state := .empty } } : Core).setEngine 1
      { (w.core c).engine 1 with
        running := ((w.core c).engine 1).running.map fun q => { q with bankHeld := q.bankHeld.filter (fun y => decide (y ≠ b)) } } := by
  rw [Work.bankEmptied, core_updEngine, core_updMtx]
  rfl

theorem bankEmpty_run {s : State} {c : CoreIx} {r : Running} (hp : s.powered = true) (hup : s.look.coreUp c = true)
    (hfind : (s.look.engine c 1).running.find? (fun r => !r.bankHeld.isEmpty) = some r) (hread : 1 < r.bankHeld.length ∨ vecWalked r = true) :
    execBankEmpty c s = done s (s.look.bankEmptied c (r.bankHeld.headD 0)) := by
  refine runs hp ?_
  rw [hfind]
  dsimp only
  rw [if_pos (by simp only [Bool.and_eq_true, Bool.or_eq_true, decide_eq_true_eq]; exact ⟨hup, hread⟩)]
  rfl

/-! ### The configuration block (R197, R219) -/

/-- The block of command r as read and clamped. -/
def Work.vecBlockRead (w : Work) (c : Nat) (r : Running) : WordsClamp :=
  (WordsClamp.mk w ((List.range 80).map fun i => w.spmLE c (vecCfgAt r.cmd + 4 * i) 4) r.clampBy
    (fun i => spmAt c (vecCfgAt r.cmd + 4 * i))).vecBlock r.cmd

theorem vecBlockRead_clampsOnly (w : Work) (c : Nat) (r : Running) : w.clampsOnly (w.vecBlockRead c r).work :=
  vecBlock_counts (WordsClamp.mk w ((List.range 80).map fun i => w.spmLE c (vecCfgAt r.cmd + 4 * i) 4) r.clampBy
    (fun i => spmAt c (vecCfgAt r.cmd + 4 * i))) r.cmd

/-- The command takes the words. -/
def WordsClamp.taken (k : WordsClamp) (c : Nat) : Work := k.work.updEngine c 1 fun x => x.updLast fun r => { r with ready := true, words := k.words }

section Read
variable {s : State} {c : CoreIx} {r : Running} (hp : s.powered = true) (hlast : (s.look.engine c 1).last = some r) (hup : s.look.coreUp c = true)
  (hop : cmdOpcode r.cmd = 1) (hready : r.ready = false) (hstop : r.stopped = false)
include hp hlast hup hop hready hstop

theorem vecCfgReadDone_clean : execVecCfgReadDone c .clean s = done s ((s.look.vecBlockRead c r).taken c) := by
  refine runs hp ?_
  rw [hlast]
  dsimp only
  rw [if_pos (by simp only [Bool.and_eq_true, Bool.not_eq_true', decide_eq_true_eq]; exact ⟨⟨⟨hup, hop⟩, hready⟩, hstop⟩)]
  unfold Work.vecBlockRead Running.clampBy
  cases r.ctx <;> rfl

theorem vecCfgReadDone_transient : execVecCfgReadDone c .transient s = done s (((s.look.vecBlockRead c r).taken c).cellTransient c 0x08 2 (cmdTag r.cmd)
    r.ctx (Reg.VEC_ERR_STAT c) Fld.VEC_ERR_STAT_CFG_TRANSIENT Fld.VEC_ERR_STAT_TRANSIENT_CNT 0) := by
  refine runs hp ?_
  rw [hlast]
  dsimp only
  rw [if_pos (by simp only [Bool.and_eq_true, Bool.not_eq_true', decide_eq_true_eq]; exact ⟨⟨⟨hup, hop⟩, hready⟩, hstop⟩), if_pos rfl]
  unfold Work.vecBlockRead Running.clampBy
  cases r.ctx <;> rfl

theorem vecCfgReadDone_lasting : execVecCfgReadDone c .lasting s = done s ((((s.look.updEngine c 1 fun x => x.updLast fun r =>
    { r with stopped := true }).setFlag (Reg.VEC_ERR_STAT c) Fld.VEC_ERR_STAT_CFG_LASTING true).w32 (Reg.VEC_ERR_INFO c)
      (BitVec.ofNat 32 (cmdTag r.cmd))).cellFault c 0x08 2 (cmdTag r.cmd) r.ctx none 0) := by
  refine runs hp ?_
  rw [hlast]
  dsimp only
  rw [if_pos (by simp only [Bool.and_eq_true, Bool.not_eq_true', decide_eq_true_eq]; exact ⟨⟨⟨hup, hop⟩, hready⟩, hstop⟩)]

end Read

/-! ### The obligation -/

/-- RUN leaves the walk counted and its element position (R102, R218). -/
theorem vecRun_run {s : State} {c : CoreIx} {r : Running} (hp : s.powered = true) (hlast : (s.look.engine c 1).last = some r)
    (hup : s.look.coreUp c = true) (hop : cmdOpcode r.cmd = 1) (hready : r.ready = true) (hstop : r.stopped = false) (hstarted : 0 < r.started)
    (hpos : r.pos = 0) : execVecRun c none s = done s
      (((s.look.vecWalked_ c r.vecCfg r (r.started - 1) (r.bankHeld.getLastD 0) none).counted c r.vecCfg.elems).updEngine c 1 fun x =>
        x.updLast fun r => { r with pos := r.vecCfg.elems }) := by
  refine runs hp ?_
  rw [hlast]
  dsimp only
  rw [if_pos (by
    simp only [Bool.and_eq_true, Bool.not_eq_true', decide_eq_true_eq]
    exact ⟨⟨⟨⟨⟨hup, hop⟩, hready⟩, hstop⟩, hstarted⟩, hpos⟩), ← vecWalk_eq]
  simp only [Option.map_none, ite_self]

/-- Settles O18: the walk writes the scratchpad alone, step by step; the block is clamped field by field; a bank read to its end is empty. -/
theorem vecRepeatsAndConfig : Obligations.VecRepeatsAndConfig := by
  unfold Obligations.VecRepeatsAndConfig
  refine ⟨?_, ?_⟩
  · rintro c s r w k n ⟨hp, hlast, hup, hop, hready, hstop, hstarted, hpos⟩
    have hn : n = r.vecCfg.elems := rfl
    clear_value n
    subst hn
    refine ⟨_, vecRun_run hp hlast hup hop hready hstop hstarted hpos, ?_⟩
    have hwalk := scratches_walked c r.vecCfg r (r.started - 1) w (r.bankHeld.getLastD 0) none
    generalize Work.vecWalked_ c r.vecCfg r (r.started - 1) w (r.bankHeld.getLastD 0) none = walk at hwalk
    have hcount := counted_touches walk c r.vecCfg.elems
    have hcounted : w.writes (inSpm c) (vecCount c) noCore (walk.counted c r.vecCfg.elems) :=
      (hwalk.widen _ _).trans (hcount.writes _)
    have hcore : (walk.counted c r.vecCfg.elems).core c = k := hcounted.core c id
    have hall : w.writes (inSpm c) (vecCount c) (· = c.val) ((walk.counted c r.vecCfg.elems).updEngine c 1 fun x => x.updLast fun r => { r with pos := r.vecCfg.elems }) :=
      (hcounted.mono (fun _ => id) (fun _ => id) fun _ => False.elim).trans ((Work.touches.updEngine ..).writes _)
    have hnow := core_updEngine (walk.counted c r.vecCfg.elems) c 1 fun x => x.updLast fun r => { r with pos := r.vecCfg.elems }
    rw [hcore] at hnow
    have hnow := (commit_core s _ c).trans hnow
    have hpc := congrArg Core.pc hnow
    have hregs := congrArg Core.regs hnow
    have hlinks := congrArg Core.links hnow
    have hmtx := congrArg Core.mtx hnow
    have hwords (a : Nat) (ha : vecCount c a) : a ∈ [Reg.VEC_SAT_ANCHOR c, Reg.VEC_SAT_FLOAT c, Reg.VEC_ELEMS c, Reg.VEC_ELEMS c + 4] := by
      simp only [List.mem_cons, List.not_mem_nil, or_false]
      exact ha
    refine ⟨?_, fun hf => ?_, hall.sameBytesBut, hall.sameWordsBut hwords, hall.sameCoresBut, ?_, hpc, hregs, hlinks, hmtx, ?_, fun e he => ?_⟩
    · refine (congrArg (fun k : Core => (k.engine 1).running) hnow).trans ?_
      rw [engine_setEngine_self, updLast_of_last hlast]
    · have hfrozen : walk.w.frozen (coreRegion c) = false := by
        rw [Work.frozen, Work.flag, hwalk.fld_eq (by decide) id]
        exact hf
      rw [commit_r64 s _ hall.csr, (Work.touches.updEngine noWord ..).r64_eq id id]
      refine (vecElems_counted c.isLt walk _ hfrozen).trans ?_
      rw [hwalk.r64_eq id id]
    · exact commit_pending ..
    · refine (congrArg (fun k : Core => (k.engine 1).queue) hnow).trans ?_
      rw [engine_setEngine_self, updLast_of_last hlast]
    · exact (congrArg (fun k : Core => k.engine e) hnow).trans (engine_setEngine_other _ _ he)
  · intro c s r w k words block taken reads
    have hby : s.look.vecBlockRead c r = block := by
      unfold Work.vecBlockRead Running.clampBy
      rfl
    have hblock := vecBlockRead_clampsOnly w c r
    rw [hby] at hblock
    clear_value block
    refine ⟨?_, ?_, ?_, ?_⟩
    · rintro ⟨hp, hlast, hup, hop, hready, hstop⟩
      have hrun := vecCfgReadDone_clean hp hlast hup hop hready hstop
      rw [hby] at hrun
      have hcore : block.work.core c = k := core_of_cores _ _ (by rw [hblock.2]) c
      have hnow := core_updEngine block.work c 1 fun x => x.updLast fun r => { r with ready := true, words := block.words }
      rw [hcore] at hnow
      have htouches : w.touches beyondCores (· = c.val) taken :=
        (hblock.1.mono (fun _ => id) fun _ => False.elim).trans (.updCore _ _ rfl)
      refine ⟨_, hrun, rfl, ?_, htouches.sameBytes, htouches.sameCoresBut, ?_, (congrArg Core.pc hnow :), (congrArg Core.regs hnow :),
        (congrArg Core.mtx hnow :)⟩
      · refine (congrArg (fun k : Core => (k.engine 1).running) hnow).trans ?_
        rw [engine_setEngine_self, updLast_of_last hlast]
      · have hhw : taken.hw = { block.work.hw with cores := taken.hw.cores } := rfl
        exact hhw.trans (by rw [hblock.2]; rfl)
    · rintro ⟨hp, hlast, hup, hop, hready, hstop⟩
      have hrun := vecCfgReadDone_transient hp hlast hup hop hready hstop
      rw [hby] at hrun
      exact hrun
    · rintro ⟨hp, hlast, hup, hop, hready, hstop⟩
      exact vecCfgReadDone_lasting hp hlast hup hop hready hstop
    · rintro ⟨hp, hup, hfind, hb, hread⟩
      have hother : r.bankHeld.headD 0 = 0 ↔ 1 - r.bankHeld.headD 0 ≠ 0 := by omega
      have hcore := bankEmptied_core w c (r.bankHeld.headD 0)
      refine ⟨_, bankEmpty_run hp hup hfind hread, onlyCore_commit (bankEmptied_onlyCore ..), ?_⟩
      have hmtx := congrArg Core.mtx hcore
      refine ⟨?_, ?_, ?_, ?_, (congrArg Core.pc hcore :), (congrArg Core.regs hcore :), ?_⟩
      · exact (congrArg (fun m : Mtx => m.bank (r.bankHeld.headD 0)) hmtx).trans (bank_setBank_self ..)
      · exact (congrArg (fun m : Mtx => m.bank (1 - r.bankHeld.headD 0)) hmtx).trans (bank_setBank_other _ _ hother)
      · exact (congrArg Mtx.opened hmtx).trans (setBank_opened ..)
      · exact (congrArg Mtx.closed hmtx).trans (setBank_closed ..)
      · refine (congrArg (fun k : Core => (k.engine 1).running.all fun q => !q.bankHeld.contains (r.bankHeld.headD 0)) hcore).trans ?_
        rw [engine_setEngine_self]
        simp [List.all_eq_true]

end Sys2Proof.Machine
end

section
/-! SUPPORT. The descriptor store (R224, R225, R227, R232, R234). -/

namespace Sys2Proof.Machine

/-! ### Words packed into one number -/

/-- The words f 0, f 1, … in ascending order, 32 bits each. -/
def packed (f : Nat → Nat) (k : Nat) : Nat := (List.range k).foldl (fun n i => n + f i % 2 ^ 32 * 2 ^ (32 * i)) 0

theorem packed_succ (f : Nat → Nat) (k : Nat) : packed f (k + 1) = packed f k + f k % 2 ^ 32 * 2 ^ (32 * k) := by
  rw [packed, List.range_succ, List.foldl_append]
  rfl

theorem packed_lt (f : Nat → Nat) (k : Nat) : packed f k < 2 ^ (32 * k) := by
  induction k with
  | zero => exact Nat.one_pos
  | succ k ih =>
    have hword : f k % 2 ^ 32 + 1 ≤ 2 ^ 32 := Nat.mod_lt _ (Nat.two_pow_pos 32)
    calc packed f (k + 1) = packed f k + f k % 2 ^ 32 * 2 ^ (32 * k) := packed_succ f k
      _ < (f k % 2 ^ 32 + 1) * 2 ^ (32 * k) := by rw [Nat.add_mul, Nat.one_mul]; omega
      _ ≤ 2 ^ 32 * 2 ^ (32 * k) := Nat.mul_le_mul_right _ hword
      _ = 2 ^ (32 * (k + 1)) := by rw [← pow_add]; congr 1; omega

theorem bits_packed (f : Nat → Nat) {k i : Nat} (h : i < k) : bits (packed f k) (32 * i) 32 = f i % 2 ^ 32 := by
  induction k with
  | zero => exact absurd h (Nat.not_lt_zero i)
  | succ k ih =>
    rw [bits_eq, packed_succ]
    rcases Nat.lt_succ_iff_lt_or_eq.mp h with hlt | rfl
    · obtain ⟨d, rfl⟩ := Nat.exists_eq_add_of_lt hlt
      have hmul : f (i + d + 1) % 2 ^ 32 * 2 ^ (32 * (i + d + 1)) = f (i + d + 1) % 2 ^ 32 * 2 ^ (32 * d) * 2 ^ 32 * 2 ^ (32 * i) := by
        rw [show 32 * (i + d + 1) = 32 * d + 32 + 32 * i by omega, pow_add, pow_add]
        ring
      rw [hmul, Nat.add_mul_div_right _ _ (Nat.two_pow_pos _), Nat.add_mul_mod_self_right, ← bits_eq]
      exact ih hlt
    · rw [Nat.add_mul_div_right _ _ (Nat.two_pow_pos _), Nat.div_eq_of_lt (packed_lt f i), Nat.zero_add, Nat.mod_mod]

/-! ### Stored descriptors -/

/-- A descriptor's 256 bits put into the store. -/
def Work.putDesc (w : Work) (d : Nat) (v : BitVec 256) : Work := { w with hw := { w.hw with descs := SMap.set 0 w.hw.descs d v } }

theorem setDesc_eq (w : Work) (d : Nat) (words : List Nat) :
    w.setDesc d words = w.putDesc d (BitVec.ofNat 256 (packed (fun i => words.getD i 0) 8)) := by
  rw [Work.setDesc, packed, Work.putDesc]

theorem descPosOf_putDesc (w : Work) (d : Nat) (v : BitVec 256) (x : Nat) : (w.putDesc d v).descPosOf x = w.descPosOf x := rfl

section Store
variable (w : Work) (d : Nat) (words : List Nat) (n : Nat)

theorem descWord_setDesc {i : Nat} (h : i < 8) : (w.setDesc d words).descWord d i = words.getD i 0 % 2 ^ 32 := by
  have hlt : packed (fun i => words.getD i 0) 8 < 2 ^ 256 := packed_lt _ 8
  rw [setDesc_eq, Work.descWord, Work.putDesc, SMap.get_set_self, BitVec.toNat_ofNat, Nat.mod_eq_of_lt hlt]
  exact bits_packed (fun i => words.getD i 0) h

theorem descWord_setDesc_other {x : Nat} (h : x ≠ d) (i : Nat) : (w.setDesc d words).descWord x i = w.descWord x i := by
  rw [setDesc_eq, Work.descWord, Work.putDesc, SMap.get_set_other _ _ _ h, Work.descWord]

@[simp] theorem descWord_setDescPos (x i : Nat) : (w.setDescPos d n).descWord x i = w.descWord x i := rfl
@[simp] theorem descWord_setDescBad (x i : Nat) : (w.setDescBad d n).descWord x i = w.descWord x i := rfl
@[simp] theorem descWord_setOwner (x i : Nat) : (w.setOwner d n).descWord x i = w.descWord x i := rfl
@[simp] theorem descPosOf_setDesc (x : Nat) : (w.setDesc d words).descPosOf x = w.descPosOf x := by
  rw [setDesc_eq, descPosOf_putDesc]
@[simp] theorem descPosOf_setDescBad (x : Nat) : (w.setDescBad d n).descPosOf x = w.descPosOf x := rfl
@[simp] theorem descPosOf_setOwner (x : Nat) : (w.setOwner d n).descPosOf x = w.descPosOf x := rfl

end Store

/-- The work changes stored descriptors and nothing else. -/
def Work.onlyDescs (w w' : Work) : Prop :=
  w'.mem = w.mem ∧ w'.csr = w.csr ∧ w'.wr = w.wr ∧ w'.cw = w.cw ∧
    w'.hw = { w.hw with descs := w'.hw.descs, descPos := w'.hw.descPos, descBad := w'.hw.descBad, descFirst := w'.hw.descFirst }

namespace Work.onlyDescs

theorem refl (w : Work) : w.onlyDescs w := ⟨rfl, rfl, rfl, rfl, rfl⟩

theorem trans {u v w : Work} (h : u.onlyDescs v) (h' : v.onlyDescs w) : u.onlyDescs w := by
  obtain ⟨hmem, hcsr, hwr, hcw, hhw⟩ := h
  obtain ⟨hmem', hcsr', hwr', hcw', hhw'⟩ := h'
  refine ⟨hmem'.trans hmem, hcsr'.trans hcsr, hwr'.trans hwr, hcw'.trans hcw, ?_⟩
  rw [hhw', hhw]

theorem putDesc (w : Work) (d : Nat) (v : BitVec 256) : w.onlyDescs (w.putDesc d v) := ⟨rfl, rfl, rfl, rfl, rfl⟩
theorem setDesc (w : Work) (d : Nat) (words : List Nat) : w.onlyDescs (w.setDesc d words) := by
  rw [setDesc_eq]
  exact putDesc ..
theorem setDescPos (w : Work) (d n : Nat) : w.onlyDescs (w.setDescPos d n) := ⟨rfl, rfl, rfl, rfl, rfl⟩
theorem setDescBad (w : Work) (d n : Nat) : w.onlyDescs (w.setDescBad d n) := ⟨rfl, rfl, rfl, rfl, rfl⟩
theorem setOwner (w : Work) (d n : Nat) : w.onlyDescs (w.setOwner d n) := ⟨rfl, rfl, rfl, rfl, rfl⟩

theorem touches {w w' : Work} (h : w.onlyDescs w') (p q : Nat → Prop) : w.touches p q w' := by
  obtain ⟨hmem, hcsr, hwr, hcw, hhw⟩ := h
  exact .of_hw hmem hcsr hwr hcw (by rw [hhw]) (by rw [hhw])

end Work.onlyDescs

/-! ### A rearm (R234) -/

/-- The words that a rearm leaves. -/
def Work.rearmWords (w : Work) (d : Nat) (cmd : CmdBits) : List Nat :=
  let words := (List.range 8).map (w.descWord d)
  (words.set 0 (cmdWord cmd 4)).set 1 (setBits (words.getD 1 0) 0 16 (cmdFld cmd 5 0 16))

theorem descWord_lt (w : Work) (d i : Nat) : w.descWord d i < 2 ^ 32 := Nat.mod_lt _ (Nat.two_pow_pos 32)

theorem rearmWords_lt (w : Work) (d : Nat) (cmd : CmdBits) : ∀ x ∈ w.rearmWords d cmd, x < 2 ^ 32 := by
  intro x hx
  have hstored : ∀ y ∈ (List.range 8).map (w.descWord d), y < 2 ^ 32 := by
    intro y hy
    obtain ⟨i, -, rfl⟩ := List.mem_map.mp hy
    exact descWord_lt w d i
  rcases List.mem_or_eq_of_mem_set hx with hx | rfl
  · rcases List.mem_or_eq_of_mem_set hx with hx | rfl
    · exact hstored x hx
    · exact Nat.mod_lt _ (Nat.two_pow_pos 32)
  · exact setBits_lt _ _ _ _ 32 (by decide) (descWord_lt w d 1)

/-- Eight words stored read back (R224). -/
theorem descWords_setDesc (w : Work) (d : Nat) {words : List Nat} (hlen : words.length = 8) (hlt : ∀ x ∈ words, x < 2 ^ 32) :
    (List.range 8).map ((w.setDesc d words).descWord d) = words := by
  refine List.ext_getElem (by simp [hlen]) fun i h h' => ?_
  rw [List.getElem_map, List.getElem_range, descWord_setDesc _ _ _ (hlen ▸ h'), List.getD_eq_getElem _ _ h']
  exact Nat.mod_eq_of_lt (hlt _ (List.getElem_mem h'))

end Sys2Proof.Machine
end

section
/-! PROOFS. A stream command reads its descriptor (R228–R234, R238, R245). -/

namespace Sys2Proof.Machine

/-- The machine behind the rearm that a command asks for. -/
def Work.armed (w : Work) (d : Nat) (cmd : CmdBits) : Work := if strRearm cmd then w.rearm d cmd else w

/-- The eight words that a command reads. -/
def Work.armedWords (w : Work) (d : Nat) (cmd : CmdBits) : List Nat :=
  if strRearm cmd then w.rearmWords d cmd else (List.range 8).map (w.descWord d)

section Armed
variable (w : Work) (d : Nat) (cmd : CmdBits)

theorem rearm_eq : w.rearm d cmd =
    (((w.setDesc d (w.rearmWords d cmd)).setDescPos d 0).setDescBad d (SMap.get 0 w.hw.descBad d - SMap.get 0 w.hw.descBad d % 4)).setOwner d 0 := by
  rw [Work.rearm, Work.rearmWords]

theorem armed_onlyDescs : w.onlyDescs (w.armed d cmd) := by
  unfold Work.armed
  split
  · rw [rearm_eq]
    exact (((Work.onlyDescs.setDesc ..).trans (.setDescPos ..)).trans (.setDescBad ..)).trans (.setOwner ..)
  · exact .refl w

theorem Work.onlyDescs.core {w w' : Work} (h : w.onlyDescs w') (c : Nat) : w'.core c = w.core c := (h.touches noWord noCore).core c id

theorem armed_words : (List.range 8).map ((w.armed d cmd).descWord d) = w.armedWords d cmd := by
  unfold Work.armed Work.armedWords
  split
  · rw [rearm_eq]
    refine (List.map_congr_left fun i _ => ?_).trans (descWords_setDesc w d (by simp [Work.rearmWords]) (rearmWords_lt w d cmd))
    rw [descWord_setOwner, descWord_setDescBad, descWord_setDescPos]
  · rfl

theorem armed_pos : (w.armed d cmd).descPosOf d = if strRearm cmd then 0 else w.descPosOf d := by
  unfold Work.armed
  split
  · rw [rearm_eq, descPosOf_setOwner, descPosOf_setDescBad, descPosOf_setDescPos_self]
  · rfl

theorem armed_bad : SMap.get 0 (w.armed d cmd).hw.descBad d =
    if strRearm cmd then SMap.get 0 w.hw.descBad d - SMap.get 0 w.hw.descBad d % 4 else SMap.get 0 w.hw.descBad d := by
  unfold Work.armed
  split
  · rw [rearm_eq, Work.setOwner, Work.setDescBad, SMap.get_set_self]
  · rfl

theorem armed_other {x : Nat} (h : x ≠ d) : (w.armed d cmd).descPosOf x = w.descPosOf x ∧ ∀ i, (w.armed d cmd).descWord x i = w.descWord x i := by
  unfold Work.armed
  split
  · rw [rearm_eq]
    refine ⟨?_, fun i => ?_⟩
    · rw [descPosOf_setOwner, descPosOf_setDescBad, descPosOf_setDescPos_other _ _ h, descPosOf_setDesc]
    · rw [descWord_setOwner, descWord_setDescBad, descWord_setDescPos, descWord_setDesc_other _ _ _ h]
  · exact ⟨rfl, fun _ => rfl⟩

/-- A rearm frees the descriptor's owner (R234, R520). -/
theorem armed_allows (g : Nat) (h : strRearm cmd = true ∨ w.ownerAllows d g = true) : (w.armed d cmd).ownerAllows d g = true := by
  unfold Work.armed
  split
  · rw [rearm_eq, Work.ownerAllows, Work.setOwner, SMap.get_set_self]
    simp
  · next hr => exact h.resolve_left hr

end Armed

theorem getD_map_range (f : Nat → Nat) {n i : Nat} (h : i < n) : ((List.range n).map f).getD i 0 = f i := by
  rw [List.getD_eq_getElem _ _ (by simpa using h), List.getElem_map, List.getElem_range]

/-! ### Reserving positions (R232, R520) -/

theorem reservePos_onlyDescs (w : Work) (c k : Nat) (cmd : CmdBits) (words : List Nat) : w.onlyDescs (w.reservePos c k cmd words).2 := by
  unfold Work.reservePos
  dsimp only
  split
  · split
    · exact (Work.onlyDescs.setOwner ..).trans (.setDescPos ..)
    · exact .setDescPos ..
  · exact .refl w

theorem reservePos_first (w : Work) (c k : Nat) (cmd : CmdBits) (words : List Nat) :
    (w.reservePos c k cmd words).1 = if persists words then w.descPosOf k else 0 := by
  unfold Work.reservePos
  split <;> rfl

theorem reservePos_pos (w : Work) (c k : Nat) (cmd : CmdBits) {words : List Nat} (h : persists words = true) :
    (w.reservePos c k cmd words).2.descPosOf k = (w.descPosOf k + cmdRepeat cmd) % 2 ^ 32 := by
  unfold Work.reservePos
  rw [if_pos h]
  exact descPosOf_setDescPos_self ..

theorem reservePos_other (w : Work) (c k : Nat) (cmd : CmdBits) (words : List Nat) :
    (∀ x, x ≠ k → (w.reservePos c k cmd words).2.descPosOf x = w.descPosOf x) ∧
      ∀ x i, (w.reservePos c k cmd words).2.descWord x i = w.descWord x i := by
  unfold Work.reservePos
  dsimp only
  split
  · split
    · exact ⟨fun x hx => descPosOf_setDescPos_other _ _ hx, fun _ _ => rfl⟩
    · exact ⟨fun x hx => descPosOf_setDescPos_other _ _ hx, fun _ _ => rfl⟩
  · exact ⟨fun _ _ => rfl, fun _ _ => rfl⟩

/-! ### The read -/

/-- A hint goes to the paging unit (R238). -/
theorem strHint_parts (w : Work) (c : Nat) (r : Running) (words : List Nat) (p q : Nat → Prop) : w.touches p q (w.strHint c r words) ∧
    (w.strHint c r words).hw.descs = w.hw.descs ∧ (w.strHint c r words).hw.descPos = w.hw.descPos := by
  unfold Work.strHint
  dsimp only
  split
  · split
    · exact ⟨.of_hw rfl rfl rfl rfl rfl rfl, rfl, rfl⟩
    · exact ⟨.refl .., rfl, rfl⟩
  · exact ⟨.refl .., rfl, rfl⟩

/-- A command that has read its words. -/
def Work.descRead (w : Work) (c s : Nat) (r : Running) (d : Nat) (words : List Nat) : Work :=
  ((w.reservePos c d r.cmd words).2.strHint c r words).updEngine c (2 + s) fun x =>
    x.updLast fun r' => { r' with ready := true, words := words, first := (w.reservePos c d r.cmd words).1 }

/-- The read of descriptor d, once a rearm is done. -/
def Work.readArmed (w : Work) (c s : Nat) (r : Running) (check : ReadCheck) (word d : Nat) : Work :=
  let bad := SMap.get 0 w.hw.descBad d
  if check = .lasting ∨ bad ≠ 0 then (w.setDescBad d (if check = .lasting then bad ||| 2 ^ word else bad)).descLasting c s r
  else
    let words := (List.range 8).map (w.descWord d)
    if persists words && !w.ownerAllows d (coreGlobal c) then w.sharedDesc c s r
    else
      let w := w.descRead c s r d words
      if check = .transient then
        w.cellTransient c 0x09 (3 + s) (cmdTag r.cmd) r.ctx (Reg.STR_ERR_STAT c) Fld.STR_ERR_STAT_DESC_TRANSIENT
          Fld.STR_ERR_STAT_TRANSIENT_CNT (d % 16384)
      else w

theorem readDesc_eq (w : Work) (c s : Nat) (r : Running) (check : ReadCheck) (word : Nat) : w.readDesc c s r check word =
    (w.armed (descKey (coreRegion c) (strDesc r.cmd)) r.cmd).readArmed c s r check word (descKey (coreRegion c) (strDesc r.cmd)) := by
  unfold Work.readDesc Work.armed Work.readArmed Work.descRead
  rfl

theorem readArmed_clean {w : Work} {d : Nat} {words : List Nat} (hwords : (List.range 8).map (w.descWord d) = words)
    (hbad : SMap.get 0 w.hw.descBad d = 0) (c s word : Nat) (r : Running) (hown : persists words = false ∨ w.ownerAllows d (coreGlobal c) = true) :
    w.readArmed c s r .clean word d = w.descRead c s r d words := by
  have hguard : ¬ (persists words && !w.ownerAllows d (coreGlobal c)) = true := by
    rcases hown with h | h <;> simp [h]
  rw [Work.readArmed, if_neg (by rw [hbad]; decide), hwords]
  dsimp only
  rw [if_neg hguard, if_neg (by decide)]

theorem readArmed_lasting (w : Work) (c s : Nat) (r : Running) (word d : Nat) : w.readArmed c s r .lasting word d =
    (w.setDescBad d (SMap.get 0 w.hw.descBad d ||| 2 ^ word)).descLasting c s r := by
  rw [Work.readArmed, if_pos (.inl rfl), if_pos rfl]

theorem readArmed_bad {w : Work} {d : Nat} (h : SMap.get 0 w.hw.descBad d ≠ 0) (c s : Nat) (r : Running) (word : Nat) :
    w.readArmed c s r .clean word d = (w.setDescBad d (SMap.get 0 w.hw.descBad d)).descLasting c s r := by
  rw [Work.readArmed, if_pos (.inr h), if_neg (by decide)]

theorem readArmed_shared {w : Work} {d : Nat} (hbad : SMap.get 0 w.hw.descBad d = 0) (hp : persists ((List.range 8).map (w.descWord d)) = true) (c s : Nat)
    (r : Running) (word : Nat) (hown : w.ownerAllows d (coreGlobal c) = false) : w.readArmed c s r .clean word d = w.sharedDesc c s r := by
  rw [Work.readArmed, if_neg (by rw [hbad]; decide)]
  dsimp only
  rw [if_pos (by rw [hp, hown]; rfl)]

theorem strUnread_last {w : Work} {c s op : Nat} {r : Running} (h : w.strUnread c s op = some r) : (w.engine c (2 + s)).last = some r := by
  unfold Work.strUnread at h
  split at h
  · next r' hr =>
    split at h
    · cases h
      exact hr
    · cases h
  · cases h

theorem strBegin_eq {w : Work} {c s op : Nat} {r : Running} (h : w.strUnread c s op = some r) (check : ReadCheck) (word : Nat) :
    w.strBegin c s op check word = w.readDesc c s r check word := by
  rw [Work.strBegin, h]

/-- The stream command of opcode n + 1. -/
def strCommand (c : CoreIx) (str : StrIx) (n : Fin 4) (check : ReadCheck) (word : Fin 8) : Instr :=
  match n with | 0 => .strLoad c str check word | 1 => .strStore c str check word | 2 => .strGather c str check word | 3 => .strScatter c str check word

theorem strCommand_run {s : State} {c : CoreIx} {str : StrIx} {n : Fin 4} {r : Running} (hp : s.powered = true)
    (h : s.look.strUnread c str (n.val + 1) = some r) (check : ReadCheck) (word : Fin 8) :
    exec (strCommand c str n check word) s = done s (s.look.readDesc c str r check word) := by
  have hrun : exec (strCommand c str n check word) s = run s fun w => w.strBegin c str (n.val + 1) check word := by
    match n with
    | 0 => rfl
    | 1 => rfl
    | 2 => rfl
    | 3 => rfl
  rw [hrun]
  exact runs hp (strBegin_eq h check word)

/-! ### What a clean read leaves -/

section Clean
variable (w : Work) (c s : Nat) (r : Running) (d : Nat) (words : List Nat)

theorem descRead_touches : w.touches noWord (· = c) (w.descRead c s r d words) := by
  obtain ⟨hhint, -, -⟩ := strHint_parts (w.reservePos c d r.cmd words).2 c r words noWord (· = c)
  unfold Work.descRead
  exact (((reservePos_onlyDescs w c d r.cmd words).touches _ _).trans hhint).trans (.updEngine ..)

theorem descRead_core : (w.descRead c s r d words).core c = (w.core c).setEngine (2 + s) (((w.core c).engine (2 + s)).updLast fun r' =>
    { r' with ready := true, words := words, first := if persists words then w.descPosOf d else 0 }) := by
  obtain ⟨hhint, -, -⟩ := strHint_parts (w.reservePos c d r.cmd words).2 c r words noWord noCore
  have hcore : ((w.reservePos c d r.cmd words).2.strHint c r words).core c = w.core c :=
    (hhint.core c id).trans (((reservePos_onlyDescs w c d r.cmd words).touches noWord noCore).core c id)
  rw [Work.descRead, core_updEngine, hcore, reservePos_first]

theorem descRead_descs : (∀ x, (w.descRead c s r d words).descPosOf x = (w.reservePos c d r.cmd words).2.descPosOf x) ∧
    ∀ x i, (w.descRead c s r d words).descWord x i = w.descWord x i := by
  obtain ⟨-, hdescs, hpos⟩ := strHint_parts (w.reservePos c d r.cmd words).2 c r words noWord noCore
  obtain ⟨-, hword⟩ := reservePos_other w c d r.cmd words
  refine ⟨fun x => ?_, fun x i => ?_⟩
  · exact congrArg (fun m => SMap.get 0 m x) hpos
  · refine Eq.trans ?_ (hword x i)
    rw [Work.descWord, Work.descWord]
    exact congrArg (fun m => bits (SMap.get 0 m x).toNat (32 * i) 32) hdescs

end Clean

theorem descPosOf_commit (s : State) (w : Work) (x : Nat) : (Work.commit s w).look.descPosOf x = w.descPosOf x := rfl
theorem descWord_commit (s : State) (w : Work) (x i : Nat) : (Work.commit s w).look.descWord x i = w.descWord x i := rfl

/-- Settles O19: a rearm first, then the words and the position, which a persistent descriptor moves on. -/
theorem strReadsDescriptor : Obligations.StrReadsDescriptor := by
  unfold Obligations.StrReadsDescriptor
  rintro c str n word s r w k e command d stored words bad first ⟨hp, hunread⟩
  have hlast := strUnread_last hunread
  have hcommand (check : ReadCheck) : exec (command check) s = done s ((w.armed d r.cmd).readArmed c str r check word d) := by
    have hrun := strCommand_run hp hunread check word
    rw [readDesc_eq] at hrun
    exact hrun
  have hwords : w.armedWords d r.cmd = words := rfl
  have hbad : SMap.get 0 (w.armed d r.cmd).hw.descBad d = bad := armed_bad w d r.cmd
  have hstill (h : strRearm r.cmd = false) : w.armed d r.cmd = w := by
    rw [Work.armed, h]
    rfl
  refine ⟨?_, ?_, ?_, ?_⟩
  · rintro ⟨hclean, hown⟩
    have hallow : persists words = false ∨ (w.armed d r.cmd).ownerAllows d (coreGlobal c) = true := by
      rcases hown with h | h | h
      · exact .inr (armed_allows w d r.cmd _ (.inl h))
      · exact .inl h
      · exact .inr (armed_allows w d r.cmd _ (.inr h))
    have hrun := hcommand .clean
    rw [readArmed_clean ((armed_words w d r.cmd).trans hwords) (hbad.trans hclean) c str word r hallow] at hrun
    have htouches : w.touches noWord (· = c.val) ((w.armed d r.cmd).descRead c str r d words) :=
      ((armed_onlyDescs w d r.cmd).touches _ _).trans (descRead_touches ..)
    have hcore := descRead_core (w.armed d r.cmd) c str r d words
    rw [(armed_onlyDescs w d r.cmd).core] at hcore
    obtain ⟨hpos, hword⟩ := descRead_descs (w.armed d r.cmd) c str r d words
    obtain ⟨hposOther, -⟩ := reservePos_other (w.armed d r.cmd) c d r.cmd words
    have hfirst : (if persists words then (w.armed d r.cmd).descPosOf d else 0) = first := by rw [armed_pos]
    have hread (i : Nat) (hi : i < 8) : (w.armed d r.cmd).descWord d i = words.getD i 0 := by
      rw [← hwords, ← armed_words, getD_map_range _ hi]
    refine ⟨_, hrun, ?_, fun hpersists => ?_, fun x hx => ?_, fun i hi => (hword d i).trans (hread i hi), htouches.sameBytes,
      fun a => (htouches.commit_r32 a).trans (htouches.word a id), htouches.sameCoresBut, commit_pending .., (congrArg Core.pc hcore :),
      (congrArg Core.regs hcore :), (congrArg Core.mtx hcore :)⟩
    · refine (congrArg (fun k : Core => (k.engine e).running) hcore).trans ?_
      rw [engine_setEngine_self, updLast_of_last (x := (w.core c).engine (2 + str)) hlast, hfirst]
    · refine ((hpos d).trans (reservePos_pos _ _ _ _ hpersists)).trans ?_
      rw [← hfirst, if_pos hpersists]
    · obtain ⟨hp', hw'⟩ := armed_other w d r.cmd hx
      exact ⟨((hpos x).trans (hposOther x hx)).trans hp', fun i => (hword x i).trans (hw' i)⟩
  · intro hr
    rw [hcommand, readArmed_lasting, hbad, hstill hr]
  · rintro ⟨hr, hne⟩
    rw [hcommand, readArmed_bad (by rw [hbad]; exact hne), hbad, hstill hr]
  · rintro ⟨hr, hz, hpersists, howner⟩
    rw [hcommand, hstill hr]
    rw [hstill hr] at hbad
    rw [readArmed_shared (hbad.trans hz) ?_ _ _ _ _ howner]
    rw [← hpersists, ← hwords, ← armed_words, hstill hr]

end Sys2Proof.Machine
end

section
/-! PROOFS. Installations of descriptors (R225, R227). -/

namespace Sys2Proof.Machine

/-! ### A register of a core slot (R44) -/

/-- The register that a byte of a core slot's window lies in, by the maps of its blocks. -/
theorem regAt_core {c k : Nat} (hc : c < 272) (hk : k < 0x1000000) : regAt (coreWindow c + k) =
    (findRow (coreBlock k).1 (k - (coreBlock k).2)).map fun x => ⟨x.1, coreWindow c + (coreBlock k).2 + x.2⟩ := by
  have hcsr : isCsr (coreWindow c + k) = true := by
    rw [isCsr, decide_eq_true (by simp only [coreWindow, dieWindow]; omega), decide_eq_true (by simp only [coreWindow, dieWindow]; omega)]
    rfl
  have hdie : csrDie (coreWindow c + k) = c / 17 := csrDie_core hc hk
  have hoff : (coreWindow c + k - 0x3F0000000000) % 0x100000000 = c % 17 * 0x1000000 + k := by
    simp only [coreWindow, dieWindow]
    omega
  have hblock : dieBlock (c / 17) (c % 17 * 0x1000000 + k) = ((coreBlock k).1, c % 17 * 0x1000000 + (coreBlock k).2) := by
    have htop : (c % 17 * 0x1000000 + k) / 0x1000000 = c % 17 := by omega
    have hsub : (c % 17 * 0x1000000 + k) % 0x1000000 = k := by omega
    rw [dieBlock, htop, if_neg (by omega), if_neg (by omega), if_pos (by omega), if_pos (by omega), hsub]
  have hwithin : c % 17 * 0x1000000 + k - (c % 17 * 0x1000000 + (coreBlock k).2) = k - (coreBlock k).2 := by omega
  have haddr (s : Nat) : dieWindow (c / 17) + (c % 17 * 0x1000000 + (coreBlock k).2) + s = coreWindow c + (coreBlock k).2 + s := by
    rw [coreWindow]
    omega
  rw [regAt, if_pos hcsr]
  dsimp only
  rw [hdie, hoff, hblock]
  dsimp only
  rw [hwithin]
  cases findRow (coreBlock k).1 (k - (coreBlock k).2) with
  | none => rfl
  | some x => exact congrArg (fun a => some (RegHit.mk x.1 a)) (haddr x.2)

theorem regAt_core_of {c k b s : Nat} {rows : List RegRow} {row : RegRow} (hc : c < 272) (hk : k < 0x1000000) (hb : coreBlock k = (rows, b))
    (hr : findRow rows (k - b) = some (row, s)) : regAt (coreWindow c + k) = some ⟨row, coreWindow c + b + s⟩ := by
  rw [regAt_core hc hk, hb, hr]
  rfl

/-! ### A write of STR_INSTALL -/

/-- The fields of STR_INSTALL (R225). -/
def installFields : List FieldRow := [⟨0, 24, .wo, (.align 0x20)⟩, ⟨32, 14, .wo, .any⟩, ⟨48, 10, .wo, .any⟩]

def installRow : RegRow := ⟨"STR_INSTALL", 0, 0, 1, 0, 1, 8, true, 0, installFields⟩

theorem coreBlock_install : coreBlock 0x30000 = (strRows, 0x30000) := by simp [coreBlock]

theorem findRow_install : findRow strRows (0x30000 - 0x30000) = some (installRow, 0) := by decide +kernel

theorem regAt_install {c : Nat} (hc : c < 272) : regAt (coreWindow c + 0x30000) = some ⟨installRow, coreWindow c + 0x30000 + 0⟩ :=
  regAt_core_of hc (by decide) coreBlock_install findRow_install

/-- STR_INSTALL's contents as they act, with SRC aligned: every field as written. -/
def installWord (v : Nat) : Nat := setBits (setBits (setBits 0 0 24 (bits v 0 24)) 32 14 (bits v 32 14)) 48 10 (bits v 48 10)

theorem legal_any (v : Nat) : Legal.any.apply v = (v, none) := rfl

theorem legal_align {n v : Nat} (h : v % n = 0) : (Legal.align n).apply v = (v, none) := by
  unfold Legal.apply
  exact if_pos h

theorem clampWo_install {v : Nat} (h : bits v 0 24 % 32 = 0) : clampWo installFields v =
    [⟨⟨0, 24, .wo, .align 0x20⟩, bits v 0 24, bits v 0 24, none⟩,
      ⟨⟨32, 14, .wo, .any⟩, bits v 32 14, bits v 32 14, none⟩, ⟨⟨48, 10, .wo, .any⟩, bits v 48 10, bits v 48 10, none⟩] := by
  have halign := legal_align h
  rw [clampWo, installFields]
  simp only [List.filter_cons, List.filter_nil, decide_true, if_true, List.map_cons, List.map_nil, halign, legal_any]

theorem countClamps_none (w : Work) (who : ClampBy) (addr : Nat) (vs : List FieldVal) (h : ∀ x ∈ vs, x.rule = none) :
    w.countClamps who addr vs = w := by
  unfold Work.countClamps Work.forEach
  induction vs with
  | nil => rfl
  | cons x vs ih =>
    rw [List.foldl_cons, h x List.mem_cons_self]
    exact ih fun y hy => h y (List.mem_cons_of_mem _ hy)

theorem packFields_install (a b c : Nat) (r : Option ClampRule) : packFields 0
    [⟨⟨0, 24, .wo, .align 0x20⟩, a, a, r⟩, ⟨⟨32, 14, .wo, .any⟩, b, b, r⟩, ⟨⟨48, 10, .wo, .any⟩, c, c, r⟩] =
    setBits (setBits (setBits 0 0 24 a) 32 14 b) 48 10 c := by
  rw [packFields, List.foldl_cons, List.foldl_cons, List.foldl_cons, List.foldl_nil]

theorem woWrite_install {w : Work} {c v : Nat} (who : ClampBy) (hc : c < 272) (h : bits v 0 24 % 32 = 0) :
    w.woWrite who (coreWindow c + 0x30000) v = (installWord v, w) := by
  have hfields : installRow.fields = installFields := rfl
  rw [Work.woWrite, regAt_install hc]
  dsimp only
  rw [hfields, clampWo_install h, packFields_install, countClamps_none _ _ _ _ (by simp), installWord]

theorem bits_installWord (v : Nat) : bits (installWord v) 0 24 = bits v 0 24 ∧ bits (installWord v) 32 14 = bits v 32 14 ∧
    bits (installWord v) 48 10 = bits v 48 10 := by
  have hlt (l n : Nat) : bits v l n % 2 ^ n = bits v l n := Nat.mod_mod ..
  unfold installWord
  refine ⟨?_, ?_, ?_⟩
  · rw [bits_setBits_below _ _ (by decide), bits_setBits_below _ _ (by decide), bits_setBits_self]
    exact hlt 0 24
  · rw [bits_setBits_below _ _ (by decide), bits_setBits_self]
    exact hlt 32 14
  · rw [bits_setBits_self]
    exact hlt 48 10

/-- An installation that waits behind the others. -/
def Work.addInstall (w : Work) (x : Install) : Work := { w with hw := { w.hw with installs := w.hw.installs ++ [x] } }

/-- The installation that the fields v of STR_INSTALL ask for. -/
def Install.ofFields (m : Master) (c v : Nat) : Install := ⟨c, m, bits v 0 24, bits v 32 14, bits v 48 10 + 1, none⟩

theorem min_install {a b : Nat} (h : a + b ≤ 16383) : min b (16383 - a) = b := Nat.min_eq_left (Nat.le_sub_of_add_le' h)

/-- The definition is unfolded as a function, with the write and its address abstracted: a definitional step on the applied term has the kernel
evaluate the register map at a symbolic address. -/
theorem strInstall_of_write {w : Work} {m : Master} {c value v : Nat} (hwrite : w.woWrite (w.clampBy m) (coreWindow c + 0x30000) value = (v, w))
    (hfits : bits v 32 14 + bits v 48 10 ≤ 16383) : w.strInstall m c value none = w.addInstall (.ofFields m c v) := by
  obtain ⟨install, hinstall⟩ : ∃ f, f = @Work.strInstall := ⟨_, rfl⟩
  rw [← hinstall]
  delta Work.strInstall at hinstall
  generalize @Work.woWrite = write at hwrite hinstall
  subst hinstall
  beta_reduce
  extract_lets a
  replace hwrite : write w (w.clampBy m) a value = (v, w) := hwrite
  rw [hwrite]
  dsimp only
  rw [if_pos hfits, min_install hfits, Work.addInstall, Install.ofFields]

theorem strInstall_accepts {w : Work} {c v : Nat} (m : Master) (hc : c < 272) (h : bits v 0 24 % 32 = 0) (hn : bits v 32 14 + bits v 48 10 ≤ 16383) :
    w.strInstall m c v none = w.addInstall ⟨c, m, bits v 0 24, bits v 32 14, bits v 48 10 + 1, none⟩ := by
  obtain ⟨hsrc, hindex, hcount⟩ := bits_installWord v
  rw [strInstall_of_write (woWrite_install _ hc h) (by rw [hindex, hcount]; exact hn), Install.ofFields, hsrc, hindex, hcount]

/-! ### Copying an image -/

theorem descriptor_counts (k : WordsClamp) : k.counts k.descriptor := by
  have h : k.counts (((k.field 2 0 2 (Legal.take 3 3 2).apply).field 2 4 2 (Legal.take 3 3 2).apply).field 3 4 16 (Legal.align 64).apply) :=
    (((WordsClamp.counts.refl k).field ..).field ..).field ..
  unfold WordsClamp.descriptor
  exact .ite (h.field ..) (.ite ((h.field ..).field ..) h)

theorem field_words {k l : WordsClamp} (h : k.words = l.words) (i lsb width : Nat) (f : Nat → Nat × Option ClampRule) :
    (k.field i lsb width f).words = (l.field i lsb width f).words := by
  unfold WordsClamp.field
  rw [h]
  dsimp only
  split <;> simp only [h]

/-- What the clamped words are is a matter of the words alone. -/
theorem descriptor_words {k l : WordsClamp} (h : k.words = l.words) : k.descriptor.words = l.descriptor.words := by
  have h3 : (((k.field 2 0 2 (Legal.take 3 3 2).apply).field 2 4 2 (Legal.take 3 3 2).apply).field 3 4 16 (Legal.align 64).apply).words =
      (((l.field 2 0 2 (Legal.take 3 3 2).apply).field 2 4 2 (Legal.take 3 3 2).apply).field 3 4 16 (Legal.align 64).apply).words :=
    field_words (field_words (field_words h ..) ..) ..
  unfold WordsClamp.descriptor
  dsimp only
  generalize ((k.field 2 0 2 _).field 2 4 2 _).field 3 4 16 _ = k' at h3 ⊢
  generalize ((l.field 2 0 2 _).field 2 4 2 _).field 3 4 16 _ = l' at h3 ⊢
  unfold WordsClamp.word
  rw [h3]
  split
  · exact field_words h3 ..
  · split
    · rw [field_words h3]
      exact field_words (field_words h3 ..) ..
    · exact h3

/-- A descriptor as its copy leaves it. -/
def Work.copied (w : Work) (d : Nat) (words : List Nat) : Work := (((w.setDesc d words).setDescPos d 0).setDescBad d 0).setOwner d 0

theorem copied_self (w : Work) (d : Nat) (words : List Nat) : (w.copied d words).descPosOf d = 0 ∧
    ∀ j, j < 8 → (w.copied d words).descWord d j = words.getD j 0 % 2 ^ 32 := by
  refine ⟨?_, fun j hj => ?_⟩
  · rw [Work.copied, descPosOf_setOwner, descPosOf_setDescBad, descPosOf_setDescPos_self]
  · rw [Work.copied, descWord_setOwner, descWord_setDescBad, descWord_setDescPos, descWord_setDesc _ _ _ hj]

theorem copied_other (w : Work) {x d : Nat} (words : List Nat) (h : x ≠ d) : (w.copied d words).descPosOf x = w.descPosOf x ∧
    ∀ j, (w.copied d words).descWord x j = w.descWord x j := by
  refine ⟨?_, fun j => ?_⟩
  · rw [Work.copied, descPosOf_setOwner, descPosOf_setDescBad, descPosOf_setDescPos_other _ _ h, descPosOf_setDesc]
  · rw [Work.copied, descWord_setOwner, descWord_setDescBad, descWord_setDescPos, descWord_setDesc_other _ _ _ h]

theorem copied_onlyDescs (w : Work) (d : Nat) (words : List Nat) : w.onlyDescs (w.copied d words) :=
  (((Work.onlyDescs.setDesc ..).trans (.setDescPos ..)).trans (.setDescBad ..)).trans (.setOwner ..)

/-- What installations change: stored descriptors, and the clamp counters. -/
def Work.stores (w w' : Work) : Prop := w.touches beyondCores noCore w' ∧
  w'.hw = { w.hw with descs := w'.hw.descs, descPos := w'.hw.descPos, descBad := w'.hw.descBad, descFirst := w'.hw.descFirst }

theorem Work.stores.refl (w : Work) : w.stores w := ⟨.refl .., rfl⟩

theorem Work.stores.trans {u v w : Work} (h : u.stores v) (h' : v.stores w) : u.stores w := by
  obtain ⟨ht, hhw⟩ := h
  obtain ⟨ht', hhw'⟩ := h'
  refine ⟨ht.trans ht', ?_⟩
  rw [hhw', hhw]

theorem Work.clampsOnly.stores {w w' : Work} (h : w.clampsOnly w') : w.stores w' := by
  obtain ⟨ht, hhw⟩ := h
  refine ⟨ht, ?_⟩
  rw [hhw]

theorem Work.onlyDescs.stores {w w' : Work} (h : w.onlyDescs w') : w.stores w' := ⟨h.touches .., h.2.2.2.2⟩

theorem Work.stores.spmLE {w w' : Work} (h : w.stores w') (c off n : Nat) : w'.spmLE c off n = w.spmLE c off n := by
  unfold Work.spmLE Work.spmBytes
  simp only [h.1.rdB_eq]

theorem descPosOf_of_hw {w w' : Work} (h : w'.hw = w.hw) (x : Nat) : w'.descPosOf x = w.descPosOf x := by
  rw [Work.descPosOf, Work.descPosOf, h]

theorem descWord_of_hw {w w' : Work} (h : w'.hw = w.hw) (x j : Nat) : w'.descWord x j = w.descWord x j := by
  rw [Work.descWord, Work.descWord, h]

section Copy
variable (w : Work) (who : ClampBy) (c src r : Nat)

/-- An image as it stands in the scratchpad, its reserved bits cleared. -/
def Work.image (a : Nat) : List Nat := descReserved ((List.range 8).map fun j => w.spmLE c (a + 4 * j) 4)

/-- The clamping of the image at a. -/
def Work.imageClamp (a : Nat) : WordsClamp := WordsClamp.descriptor ⟨w, w.image c a, who, fun j => spmAt c (a + 4 * j)⟩

theorem installOne_eq (index : Nat) : w.installOne who c src r index =
    (w.imageClamp who c src).work.copied (descKey r index) (w.imageClamp who c src).words := by
  unfold Work.installOne Work.copied Work.imageClamp Work.image
  rfl

theorem imageClamp_counts (a : Nat) : w.clampsOnly (w.imageClamp who c a).work := by
  rw [Work.imageClamp]
  exact descriptor_counts ⟨w, w.image c a, who, fun j => spmAt c (a + 4 * j)⟩

theorem imageClamp_words {u : Work} (h : w.stores u) (a : Nat) : (u.imageClamp who c a).words = (w.imageClamp who c a).words := by
  refine descriptor_words ?_
  unfold Work.image
  simp only [h.spmLE]

/-- The first n images are in the store, and no other descriptor has changed. -/
def Work.holdsImages (index n : Nat) (u : Work) : Prop :=
  (∀ i, i < n → u.descPosOf (descKey r (index + i)) = 0 ∧
    ∀ j, j < 8 → u.descWord (descKey r (index + i)) j = (w.imageClamp who c (src + 32 * i)).words.getD j 0 % 2 ^ 32) ∧
  ∀ d, (∀ i, i < n → d ≠ descKey r (index + i)) → u.descPosOf d = w.descPosOf d ∧ ∀ j, u.descWord d j = w.descWord d j

/-- The copies of n images. -/
def Work.installAll (index n : Nat) : Work := w.forEach (List.range n) fun w i => w.installOne who c (src + 32 * i) r (index + i)

theorem installAll_succ (index n : Nat) : w.installAll who c src r index (n + 1) =
    (w.installAll who c src r index n).installOne who c (src + 32 * n) r (index + n) := by
  rw [Work.installAll, Work.forEach, List.range_succ, List.foldl_append]
  rfl

theorem descKey_inj {i j : Nat} (hi : i < 16384) (hj : j < 16384) (h : descKey r i = descKey r j) : i = j := by
  unfold descKey at h
  omega

theorem installAll_stores (index : Nat) {n : Nat} (h : index + n ≤ 16384) : w.stores (w.installAll who c src r index n) ∧
    w.holdsImages who c src r index n (w.installAll who c src r index n) := by
  induction n with
  | zero => exact ⟨.refl w, fun i hi => absurd hi (Nat.not_lt_zero i), fun d _ => ⟨rfl, fun _ => rfl⟩⟩
  | succ n ih =>
    obtain ⟨hstores, hin, hout⟩ := ih (by omega)
    rw [installAll_succ, installOne_eq]
    generalize w.installAll who c src r index n = u at hstores hin hout ⊢
    have hclamps := imageClamp_counts u who c (src + 32 * n)
    have hwords := imageClamp_words w who c hstores (src + 32 * n)
    generalize hk : u.imageClamp who c (src + 32 * n) = k at hclamps hwords ⊢
    obtain ⟨hpos, hword⟩ := copied_self k.work (descKey r (index + n)) k.words
    have hother {d : Nat} (hd : d ≠ descKey r (index + n)) : (k.work.copied (descKey r (index + n)) k.words).descPosOf d = u.descPosOf d ∧
        ∀ j, (k.work.copied (descKey r (index + n)) k.words).descWord d j = u.descWord d j := by
      obtain ⟨hp, hw⟩ := copied_other k.work k.words hd
      exact ⟨hp.trans (descPosOf_of_hw hclamps.2 d), fun j => (hw j).trans (descWord_of_hw hclamps.2 d j)⟩
    refine ⟨(hstores.trans hclamps.stores).trans (copied_onlyDescs ..).stores, fun i hi => ?_, fun d hd => ?_⟩
    · rcases Nat.lt_succ_iff_lt_or_eq.mp hi with hlt | rfl
      · obtain ⟨hp, hw⟩ := hother (d := descKey r (index + i)) fun he => absurd (descKey_inj r (by omega) (by omega) he) (by omega)
        obtain ⟨hp', hw'⟩ := hin i hlt
        exact ⟨hp.trans hp', fun j hj => (hw j).trans (hw' j hj)⟩
      · rw [← hwords]
        exact ⟨hpos, hword⟩
    · obtain ⟨hp, hw⟩ := hother (hd n (Nat.lt_succ_self n))
      obtain ⟨hp', hw'⟩ := hout d fun i hi => hd i (Nat.lt_succ_of_lt hi)
      exact ⟨hp.trans hp', fun j => (hw j).trans (hw' j)⟩

end Copy

/-! ### The obligation -/

/-- An installation that has ended leaves the queue. -/
def Work.endInstall (w : Work) (x : Install) : Work := { w with hw := { w.hw with installs := dropFirst (fun y => decide (y = x)) w.hw.installs } }

theorem installDone_run {s : State} {r : RegionIx} {x : Install} (hp : s.powered = true) (hclock : s.look.clocked = true)
    (hx : s.look.installOf r = some x) (hreq : x.req = none) : exec (.installDone r) s =
      done s ((s.look.installAll (s.look.clampBy x.master) x.core x.src r x.index x.count).endInstall x) := by
  change execInstallDone r s = _
  refine runs hp ?_
  rw [hx]
  dsimp only
  rw [hclock, if_neg (by decide), hreq]
  rfl

theorem strInstall_run {s : State} {m : Master} {c : CoreIx} {value : DWord} (hp : s.powered = true)
    (hans : s.look.answers (coreWindow c + 0x30000) = .usual) (hheld : s.look.installHolds m (coreRegion c) = false)
    (hsrc : bits value.toNat 0 24 % 32 = 0) (hfits : bits value.toNat 32 14 + bits value.toNat 48 10 ≤ 16383) :
    exec (.strInstall m c value) s = done s (s.look.addInstall
      ⟨c, m, bits value.toNat 0 24, bits value.toNat 32 14, bits value.toNat 48 10 + 1, none⟩) := by
  change execStrInstall m c value s = _
  refine runs hp ?_
  have hguard : (decide (s.look.answers (coreWindow c + 0x30000) = .usual) && !s.look.installHolds m (coreRegion c)) = true := by
    rw [decide_eq_true hans, hheld]
    rfl
  rw [if_pos hguard]
  exact strInstall_accepts m c.isLt hsrc hfits

/-- Settles O20: the images are copied one after another, each from the scratchpad as it stood, each to a key of its own. -/
theorem strInstalls : Obligations.StrInstalls := by
  unfold Obligations.StrInstalls
  refine ⟨?_, ?_⟩
  · rintro m c value s w v ⟨hp, hans, hheld, hsrc, hfits⟩
    exact ⟨_, strInstall_run hp hans hheld hsrc hfits, rfl, sameBytes_of rfl rfl rfl, sameWords_of rfl rfl, rfl⟩
  · rintro r s x w image taken ⟨hp, hclock, hx, hreq, hfits⟩
    obtain ⟨⟨htouches, hhw⟩, hin, hout⟩ := installAll_stores w (w.clampBy x.master) x.core x.src r x.index hfits
    have hframe : w.touches beyondCores noCore ((w.installAll (w.clampBy x.master) x.core x.src r x.index x.count).endInstall x) :=
      htouches.trans (.of_hw rfl rfl rfl rfl rfl rfl)
    refine ⟨_, installDone_run hp hclock hx hreq, hin, hout, ?_, hframe.sameBytes, ?_, commit_pending ..⟩
    · exact (congrArg (fun h => dropFirst (fun y => decide (y = x)) h.installs) hhw :)
    · exact (congrArg (fun h => h.cores) hhw :)

end Sys2Proof.Machine
end

section
/-! PROOFS. Requests and replies of the stream cells (R229–R241, R246). -/

namespace Sys2Proof.Machine

/-! ### Bytes put at the places of a repeat (R231) -/

/-- The scratchpad byte at which byte b of a repeat lies. -/
def Work.strPlace (w : Work) (c : Nat) (r : Running) (rep b : Nat) : Nat := spmAt c (w.strSpm c r rep b)

section Put
variable (c : Nat) (r : Running) (rep : Nat)

/-- Where bytes lie is a matter of register words. -/
theorem strSpm_of_words {u w : Work} (h : ∀ a, u.r32 a = w.r32 a) (b : Nat) : u.strSpm c r rep b = w.strSpm c r rep b := by
  unfold Work.strSpm Work.strHalf Work.halfBase Work.fld Work.r64
  simp only [h]

theorem strSpm_wrB (w : Work) (a : Nat) (v : Byte) (b : Nat) : (w.wrB a v).strSpm c r rep b = w.strSpm c r rep b :=
  strSpm_of_words c r rep (fun x => r32_wrB w a v x) b

/-- The bytes that a put of n bytes from b on covers. -/
def Work.strSpan (w : Work) (b n a : Nat) : Prop := ∃ j, j < n ∧ a = spmAt c (w.strSpm c r rep (b + j))

theorem strPut_writes (l : List Byte) (w : Work) (b : Nat) : w.writes (w.strSpan c r rep b l.length) noWord noCore (w.strPut c r rep b l) := by
  induction l generalizing w b with
  | nil => exact .refl ..
  | cons v l ih =>
    have hhead : w.strSpan c r rep b (l.length + 1) (w.strPlace c r rep b) := ⟨0, Nat.succ_pos _, rfl⟩
    refine (Work.writes.wrB w v hhead).trans ((ih _ (b + 1)).mono ?_ (fun _ => id) fun _ => id)
    rintro a ⟨j, hj, rfl⟩
    refine ⟨j + 1, Nat.succ_lt_succ hj, ?_⟩
    rw [strSpm_wrB, Nat.add_right_comm, Nat.add_assoc]

theorem strPut_hw (l : List Byte) (w : Work) (b : Nat) :
    (w.strPut c r rep b l).hw = { w.hw with wild := (w.strPut c r rep b l).hw.wild } := by
  induction l generalizing w b with
  | nil => rfl
  | cons v l ih =>
    rw [Work.strPut, ih]
    rfl

theorem strPut_cw (l : List Byte) (w : Work) (b : Nat) : (w.strPut c r rep b l).cw = w.cw := by
  induction l generalizing w b with
  | nil => rfl
  | cons v l ih =>
    rw [Work.strPut, ih]
    rfl

/-- A byte lands at its own place, where no two bytes of one put share a place with different values. -/
theorem rdB_strPut (l : List Byte) (w : Work) (b : Nat)
    (hinj : ∀ i j, i < l.length → j < l.length → w.strPlace c r rep (b + i) = w.strPlace c r rep (b + j) → l.getD i 0 = l.getD j 0) {j : Nat}
    (hj : j < l.length) : (w.strPut c r rep b l).rdB (w.strPlace c r rep (b + j)) = l.getD j 0 := by
  induction l generalizing w b j with
  | nil => exact absurd hj (Nat.not_lt_zero j)
  | cons v l ih =>
    have hnext (i : Nat) : (w.wrB (spmAt c (w.strSpm c r rep b)) v).strPlace c r rep (b + 1 + i) = w.strPlace c r rep (b + (i + 1)) := by
      rw [Work.strPlace, strSpm_wrB, Nat.add_assoc, Nat.add_comm 1 i, Work.strPlace]
    have hrest (i : Nat) (hi : i < l.length) : (w.strPut c r rep b (v :: l)).rdB (w.strPlace c r rep (b + (i + 1))) = l.getD i 0 := by
      rw [← hnext]
      refine ih _ _ (fun i j hi hj h => ?_) hi
      rw [hnext, hnext] at h
      exact hinj (i + 1) (j + 1) (Nat.succ_lt_succ hi) (Nat.succ_lt_succ hj) h
    cases j with
    | succ j => exact hrest j (Nat.lt_of_succ_lt_succ hj)
    | zero =>
      by_cases hlater : ∃ i, i < l.length ∧ w.strPlace c r rep (b + (i + 1)) = w.strPlace c r rep (b + 0)
      · obtain ⟨i, hi, heq⟩ := hlater
        rw [← heq, hrest i hi]
        exact hinj (i + 1) 0 (Nat.succ_lt_succ hi) (Nat.succ_pos _) heq
      · have hkept := (strPut_writes c r rep l (w.wrB (spmAt c (w.strSpm c r rep b)) v) (b + 1)).byte (w.strPlace c r rep (b + 0)) ?_
        · exact hkept.trans (rdB_wrB_self ..)
        · rintro ⟨i, hi, heq⟩
          refine hlater ⟨i, hi, ?_⟩
          rw [← hnext]
          exact heq.symm

end Put

/-! ### Requests -/

theorem strDue_last {w : Work} {c s : Nat} {r : Running} (h : w.strDue c s = some r) : (w.engine c (2 + s)).last = some r := by
  unfold Work.strDue at h
  split at h
  · next r' hr =>
    split at h
    · cases h
      exact hr
    · cases h
  · cases h

theorem streamRequest_run {s : State} {c : CoreIx} {str : StrIx} {r : Running} {w : Work} (hp : s.powered = true)
    (hdue : s.look.strDue c str = some r) (h : s.look.strStep c str r = w) : exec (.streamRequest c str) s = done s w := by
  change execStreamRequest c str s = _
  refine runs hp ?_
  rw [hdue]
  exact h

/-- The run that the running repeat takes up next. -/
def Work.strNext (w : Work) (c : Nat) (r : Running) : Option Nat × Nat := w.strRun c r.desc (r.position (r.started - 1)) r.pos

theorem strStep_skip {w : Work} {c : Nat} {r : Running} {n : Nat} (s : Nat) (h : w.strNext c r = (none, n)) : w.strStep c s r =
    (if strLoads r.cmd then w.strPut c r (r.started - 1) r.pos (List.replicate n 0) else w).strAdvance c s n := by
  rw [Work.strNext] at h
  rw [Work.strStep, h]

/-- What a stream cell asks for. -/
def Work.strOp (w : Work) (c : Nat) (r : Running) (n : Nat) : ReqOp :=
  if strLoads r.cmd then .read n else .write ((w.strTake c r (r.started - 1) r.pos n).map some)

/-- The chip that a stream command addresses. -/
def Work.strNode (w : Work) (r : Running) : Nat := if r.desc.isLocal then w.selfNode else r.desc.node

/-- Must the next request of a stream cell wait (R52, R55)? -/
def Work.strHeld (w : Work) (c : CoreIx) (str : StrIx) (r : Running) (a n : Nat) : Bool :=
  w.accessHeld (.cell c (Fin.ofNat 4 (1 + str.val))) (w.strNode r) a || w.syncHeld (.str c str) a (w.strOp c r n)

/-- The running repeat moves on and the cell counts its request (R241). -/
def Work.strCounted (w : Work) (c s : Nat) (r : Running) (n : Nat) : Work :=
  if strLoads r.cmd then (w.strAdvance c s n).bump (Reg.STR_REQS c s) 1
  else ((w.strAdvance c s n).bump (Reg.STR_REQS c s) 1).bump (Reg.STR_BYTES c s) n

/-- The request of a stream cell's run of n bytes at a. -/
def Work.strRequest (w : Work) (c s : Nat) (r : Running) (a n : Nat) : Req :=
  { Req.make (.str c s) (w.strOp c r n) r.ctx (w.strNode r) a w.hw.uptime (cmdTag r.cmd) (SMap.get 0 w.hw.genCore c) with
    rep := r.started - 1, off := r.pos }

theorem strCounted_hw (w : Work) (c s : Nat) (r : Running) (n : Nat) : (w.strCounted c s r n).hw = (w.strAdvance c s n).hw := by
  unfold Work.strCounted
  split <;> simp only [bump_hw]

section Step
variable {w : Work} {c : CoreIx} {str : StrIx} {r : Running} {a run : Nat}

theorem strStep_held (h : w.strNext c r = (some a, run)) (hheld : w.strHeld c str r a (min run (4096 - a % 4096)) = true) :
    w.strStep c str r = w := by
  have hc : Fin.ofNat 272 c.val = c := Fin.ext (Nat.mod_eq_of_lt c.isLt)
  unfold Work.strHeld Work.strNode Work.strOp at hheld
  rw [Work.strNext] at h
  rw [Work.strStep, h]
  dsimp only
  rw [hc, if_pos hheld]

theorem strStep_asks (h : w.strNext c r = (some a, run)) (hheld : w.strHeld c str r a (min run (4096 - a % 4096)) = false) :
    w.strStep c str r = ((w.strCounted c str r (min run (4096 - a % 4096))).issueReq (w.strRequest c str r a (min run (4096 - a % 4096)))).2 := by
  have hc : Fin.ofNat 272 c.val = c := Fin.ext (Nat.mod_eq_of_lt c.isLt)
  have hhw := strCounted_hw w c str r (min run (4096 - a % 4096))
  unfold Work.strHeld Work.strNode Work.strOp at hheld
  rw [Work.strNext] at h
  rw [Work.strStep, h]
  dsimp only
  rw [hc, if_neg (by rw [hheld]; decide), Work.coreReq, ← Work.strCounted, hhw]
  rfl

end Step

/-- The words that a request of a stream cell may write: its counts, and the use of its region's pool. -/
def strCount (c s a : Nat) : Prop := a = Reg.STR_REQS c s ∨ a = Reg.STR_REQS c s + 4 ∨ a = Reg.STR_BYTES c s ∨ a = Reg.STR_BYTES c s + 4

theorem strAdvance_touches (p : Nat → Prop) (w : Work) (c s n : Nat) : w.touches p (· = c) (w.strAdvance c s n) := .updEngine ..

theorem strCounted_touches (w : Work) (c s : Nat) (r : Running) (n : Nat) : w.touches (strCount c s) (· = c) (w.strCounted c s r n) := by
  have hreqs : w.touches (strCount c s) (· = c) ((w.strAdvance c s n).bump (Reg.STR_REQS c s) 1) :=
    (strAdvance_touches ..).trans (.bump _ _ (.inl rfl) (.inr (.inl rfl)))
  unfold Work.strCounted
  split
  · exact hreqs
  · exact hreqs.trans (.bump _ _ (.inr (.inr (.inl rfl))) (.inr (.inr (.inr rfl))))

theorem strCounted_core (w : Work) (c s : Nat) (r : Running) (n : Nat) : (w.strCounted c s r n).core c = (w.strAdvance c s n).core c :=
  core_of_cores _ _ (by rw [strCounted_hw]) c

theorem cntCtrl_not_str (d : Nat) (c : CoreIx) (str : StrIx) : ¬ strCount c str (Reg.DBG_CNT_CTRL d) := by
  simp only [strCount, Reg.DBG_CNT_CTRL, Reg.STR_REQS, Reg.STR_BYTES, coreWindow, dieWindow]
  omega

theorem csrDie_strReqs (c : CoreIx) (str : StrIx) : csrDie (Reg.STR_REQS c str) = coreRegion c := by
  rw [Reg.STR_REQS, Nat.add_assoc, Nat.add_assoc]
  exact csrDie_core c.isLt (by omega)

/-- STR_REQS counts the request, while its die's counters run (R241, R646). -/
theorem strReqs_counted (w : Work) (c : CoreIx) (str : StrIx) (r : Running) (n : Nat) (h : w.frozen (coreRegion c) = false) :
    (w.strCounted c str r n).r64 (Reg.STR_REQS c str) = w.r64 (Reg.STR_REQS c str) + 1 := by
  have hadv := strAdvance_touches noWord w c str n
  have hone : ((w.strAdvance c str n).bump (Reg.STR_REQS c str) 1).r64 (Reg.STR_REQS c str) = w.r64 (Reg.STR_REQS c str) + 1 := by
    rw [r64_bump_self, hadv.r64_eq id id]
    · rfl
    rw [csrDie_strReqs, Work.frozen, Work.flag, hadv.fld_eq (by decide) id]
    exact h
  unfold Work.strCounted
  split
  · exact hone
  · have hbytes := Work.touches.bump (p := fun a => a = Reg.STR_BYTES c str ∨ a = Reg.STR_BYTES c str + 4) (q := noCore)
      ((w.strAdvance c str n).bump (Reg.STR_REQS c str) 1) n (.inl rfl) (.inr rfl)
    rw [hbytes.r64_eq (by simp only [Reg.STR_REQS, Reg.STR_BYTES]; omega) (by simp only [Reg.STR_REQS, Reg.STR_BYTES]; omega)]
    exact hone

theorem selfNode_strCounted (w : Work) (c : CoreIx) (str : StrIx) (r : Running) (n : Nat) : (w.strCounted c str r n).selfNode = w.selfNode := by
  refine (strCounted_touches w c str r n).fld_eq (by decide) ?_
  simp only [strCount, Reg.RTE_SELF, Reg.STR_REQS, Reg.STR_BYTES, coreWindow, dieWindow]
  omega

theorem strRequest_parts (w : Work) (c s : Nat) (r : Running) (a n : Nat) : (w.strRequest c s r a n).src = .str c s ∧
    (w.strRequest c s r a n).node = w.strNode r ∧ (w.strRequest c s r a n).addr = a := ⟨rfl, rfl, rfl⟩

theorem issueReq_str {w : Work} {c : CoreIx} {str : StrIx} {r : Running} {a n : Nat} (hnode : w.strNode r = w.selfNode) (hd : directDpa a = none) :
    ((w.strCounted c str r n).issueReq (w.strRequest c str r a n)).2 =
      ((w.strCounted c str r n).withReq (w.strRequest c str r a n)).poolHigh (coreRegion c) := by
  obtain ⟨hsrc, hto, haddr⟩ := strRequest_parts w c str r a n
  generalize w.strRequest c str r a n = q at hsrc hto haddr ⊢
  have hcore : q.src.core? = some c.val := by
    rw [hsrc]
    rfl
  rw [issueReq_here hcore (hto.trans (hnode.trans (selfNode_strCounted ..).symm)) (haddr.symm ▸ hd), addReq_core _ hcore]

/-! ### Replies -/

/-- What a reply that lands changes in the machine: its request is gone. -/
theorem streamReply_run {s : State} {c str i : Nat} {q : Req} {r : Running} {w : Work} (hp : s.powered = true) (hq : s.look.req? i = some q)
    (hsrc : q.src = .str c str) (hstage : q.stage = .replied) (hr : ((s.look.core c).engine (2 + str)).first = some r)
    (h : (if q.bad = .ok then (s.look.dropReq i).strLands c str r q else (s.look.dropReq i).strFails c str r q) = w) :
    exec (.streamReply i) s = done s w := by
  have hr' : ((s.look.dropReq i).engine c (2 + str)).first = some r := hr
  change execStreamReply i s = _
  refine runs hp ?_
  rw [hq]
  dsimp only
  rw [hsrc, decide_eq_true hstage]
  dsimp only
  rw [hr']
  exact h

theorem digesting_of_word {w w' : Work} (h : w'.r32 Reg.DET_CTRL = w.r32 Reg.DET_CTRL) (ctx : Option Nat) : w'.digesting ctx = w.digesting ctx := by
  have hfld (f : Fld) (hf : f.lsb + f.width ≤ 32) : w'.fld Reg.DET_CTRL f = w.fld Reg.DET_CTRL f := by simp only [Work.fld, hf, if_true, h]
  rw [Work.digesting, Work.digesting, Work.flag, Work.flag, hfld _ (by decide), hfld _ (by decide)]

theorem digest_off {w : Work} {ctx : Option Nat} (h : w.digesting ctx = false) (reg : Nat) (scratch : Bool) (l : List (Nat × Byte)) :
    w.digest reg ctx scratch l = w := by
  rw [Work.digest, if_neg (by rw [h]; decide)]

/-- The words of STR_BYTES. -/
def strByteCount (c s a : Nat) : Prop := a = Reg.STR_BYTES c s ∨ a = Reg.STR_BYTES c s + 4

theorem detCtrl_not_strBytes (c s : Nat) : ¬ strByteCount c s Reg.DET_CTRL := by
  intro h
  have hbytes : Reg.STR_BYTES c s % 256 = 16 := by
    simp only [Reg.STR_BYTES, coreWindow, dieWindow]
    omega
  have hctrl : Reg.DET_CTRL % 256 = 0 := by decide
  rcases h with h | h <;> omega

/-- Read data that has landed, where no digest is kept. -/
def Work.landed (w : Work) (c s : Nat) (r : Running) (q : Req) (n : Nat) : Work :=
  (w.strPut c r q.rep q.off ((List.range n).map q.byte)).bump (Reg.STR_BYTES c s) n

theorem strLands_read {w : Work} {r : Running} {q : Req} {n : Nat} (c s : Nat) (hop : q.op = .read n) (hd : w.digesting q.ctx = false) :
    w.strLands c s r q = w.landed c s r q n := by
  have hput := strPut_writes c r q.rep ((List.range n).map q.byte) w q.off
  have hcount := Work.touches.bump (p := strByteCount c s) (q := noCore) (w.strPut c r q.rep q.off ((List.range n).map q.byte)) n (.inl rfl) (.inr rfl)
  have hkept : (w.landed c s r q n).digesting q.ctx = false := by
    rw [← hd]
    exact digesting_of_word ((hcount.word _ (detCtrl_not_strBytes c s)).trans (hput.word _ id)) _
  unfold Work.landed at hkept ⊢
  rw [Work.strLands, hop]
  exact digest_off hkept ..

theorem strLands_write {w : Work} {r : Running} {q : Req} {d : List (Option Byte)} (c s : Nat) (hop : q.op = .write d)
    (hd : w.digesting q.ctx = false) : w.strLands c s r q = w := by
  rw [Work.strLands, hop]
  exact digest_off hd ..

theorem landed_writes (w : Work) (c s : Nat) (r : Running) (q : Req) (n : Nat) :
    w.writes (w.strSpan c r q.rep q.off n) (strByteCount c s) noCore (w.landed c s r q n) := by
  have hput := strPut_writes c r q.rep ((List.range n).map q.byte) w q.off
  rw [List.length_map, List.length_range] at hput
  have hcount := Work.touches.bump (p := strByteCount c s) (q := noCore) (w.strPut c r q.rep q.off ((List.range n).map q.byte)) n (.inl rfl) (.inr rfl)
  exact (hput.widen _ _).trans (hcount.writes _)

theorem landed_hw (w : Work) (c s : Nat) (r : Running) (q : Req) (n : Nat) :
    (w.landed c s r q n).hw = { w.hw with wild := (w.landed c s r q n).hw.wild } := by
  rw [Work.landed, bump_hw]
  exact strPut_hw ..

theorem landed_rdB {w : Work} {c s : Nat} {r : Running} {q : Req} {n : Nat} (hinj : ∀ i j, i < n → j < n →
    w.strPlace c r q.rep (q.off + i) = w.strPlace c r q.rep (q.off + j) → i = j) {j : Nat} (hj : j < n) :
    (w.landed c s r q n).rdB (w.strPlace c r q.rep (q.off + j)) = q.byte j := by
  have hbyte : ((List.range n).map q.byte).getD j 0 = q.byte j := by
    rw [List.getD_eq_getElem _ _ (by simpa using hj), List.getElem_map, List.getElem_range]
  have hput := rdB_strPut c r q.rep ((List.range n).map q.byte) w q.off (fun i j hi hj h => ?_) (j := j) (by simpa using hj)
  · rw [Work.landed]
    exact ((Work.touches.bump (p := strByteCount c s) (q := noCore) _ n (.inl rfl) (.inr rfl)).rdB_eq _).trans (hput.trans hbyte)
  · rw [List.length_map, List.length_range] at hi hj
    rw [hinj i j hi hj h]

/-! ### The obligation -/

theorem getD_zeros (n i : Nat) : (List.replicate n (0 : Byte)).getD i 0 = 0 := by
  by_cases h : i < n <;> simp [List.getD_eq_getElem?_getD, h]

/-- The running repeat has moved on by n bytes. -/
def advancedBy (c str : Nat) (r : Running) (n : Nat) (s t : State) : Prop := ((t.look.core c).engine (2 + str)).running =
  ((s.look.core c).engine (2 + str)).running.dropLast ++ [{ r with pos := r.pos + n }]

theorem advancedBy_of_core {s : State} {c : CoreIx} {str : StrIx} {r : Running} {w : Work} {n : Nat} (hdue : s.look.strDue c str = some r) (h : w.core c = (s.look.strAdvance c str n).core c) : advancedBy c str r n s (Work.commit s w) := by
  have hlast : ((s.look.core c).engine (2 + str)).last = some r := strDue_last hdue
  have hcore : (Work.commit s w).look.core c = _ := h
  rw [advancedBy, hcore, Work.strAdvance, core_updEngine, engine_setEngine_self, updLast_of_last hlast]

section Requests
variable {s : State} {c : CoreIx} {str : StrIx} {r : Running} (hp : s.powered = true) (hdue : s.look.strDue c str = some r)
include hp hdue

/-- A skipped entry of a STORE or SCATTER is passed over. -/
theorem streamRequest_passes {n : Nat} (h : s.look.strNext c r = (none, n)) (hload : strLoads r.cmd = false) :
    goesTo (exec (.streamRequest c str) s) fun t => onlyCore c s t ∧ advancedBy c str r n s t := by
  have hstep := strStep_skip str.val h
  rw [hload, if_neg (by decide)] at hstep
  exact ⟨_, streamRequest_run hp hdue hstep, onlyCore_commit (updEngine_onlyCore (onlyCore_refl ..) ..), advancedBy_of_core hdue rfl⟩

/-- A skipped entry of a LOAD or GATHER is filled with zeros. -/
theorem streamRequest_fills {n : Nat} (h : s.look.strNext c r = (none, n)) (hload : strLoads r.cmd = true) :
    goesTo (exec (.streamRequest c str) s) fun t => advancedBy c str r n s t ∧ t.hw.reqs = s.hw.reqs ∧ sameWords s t ∧ sameCoresBut c s t ∧
      sameBytesBut (s.look.strSpan c r (r.started - 1) r.pos n) s t ∧
        ∀ j, j < n → t.look.rdB (s.look.strPlace c r (r.started - 1) (r.pos + j)) = 0 := by
  have hstep := strStep_skip str.val h
  rw [hload, if_pos rfl] at hstep
  have hput := strPut_writes c r (r.started - 1) (List.replicate n 0) s.look r.pos
  rw [List.length_replicate] at hput
  have hhw := strPut_hw c r (r.started - 1) (List.replicate n 0) s.look r.pos
  have hzero (j : Nat) (hj : j < n) := rdB_strPut c r (r.started - 1) (List.replicate n 0) s.look r.pos (fun i j _ _ _ =>
    (getD_zeros n i).trans (getD_zeros n j).symm) (j := j) (by simpa using hj)
  have hall := (hput.widen noWord (· = c.val)).trans ((strAdvance_touches noWord _ c str n).writes _)
  refine ⟨_, streamRequest_run hp hdue hstep, advancedBy_of_core hdue ?_, (congrArg (fun h => h.reqs) hhw :),
    fun a => (hall.commit_r32 a).trans (hall.word a id), hall.sameCoresBut, hall.sameBytesBut, fun j hj => ?_⟩
  · rw [Work.strAdvance, core_updEngine, hput.core c id, Work.strAdvance, core_updEngine]
  · refine (commit_rdB s _ hall.mem _).trans ((strAdvance_touches noWord _ c str n).rdB_eq _ |>.trans ((hzero j hj).trans (getD_zeros n j)))

/-- A run of bytes to translate becomes a request of its own. -/
theorem streamRequest_asks {a run n : Nat} (h : s.look.strNext c r = (some a, run)) (hn : min run (4096 - a % 4096) = n)
    (hheld : s.look.strHeld c str r a n = false) (hnode : s.look.strNode r = s.look.selfNode) (hd : directDpa a = none) :
    goesTo (exec (.streamRequest c str) s) fun t => advancedBy c str r n s t ∧ sameBytes s t ∧ sameCoresBut c s t ∧ t.pending = s.pending ∧
      (s.look.frozen (coreRegion c) = false → t.look.r64 (Reg.STR_REQS c str) = s.look.r64 (Reg.STR_REQS c str) + 1) ∧
        t.hw.nextReq = s.hw.nextReq + 1 ∧ t.hw.reqs = SMap.put s.hw.reqs s.hw.nextReq (s.look.strRequest c str r a n) := by
  subst hn
  have hstep := strStep_asks h hheld
  rw [issueReq_str hnode hd] at hstep
  generalize min run (4096 - a % 4096) = n at hstep hheld ⊢
  have hcount := strCounted_touches s.look c str r n
  have hreq : (s.look.strCounted c str r n).touches noWord noCore ((s.look.strCounted c str r n).withReq (s.look.strRequest c str r a n)) :=
    .of_hw rfl rfl rfl rfl rfl rfl
  have hpool : ((s.look.strCounted c str r n).withReq (s.look.strRequest c str r a n)).touches (· = Reg.MEM_POOL_STAT (coreRegion c)) noCore
      (((s.look.strCounted c str r n).withReq (s.look.strRequest c str r a n)).poolHigh (coreRegion c)) := .setFld32 _ _ (by decide) rfl
  have hall := (hcount.mono (fun _ => Or.inl) fun _ => id).trans (((hreq.mono (fun _ => False.elim) fun _ => id).trans
    (hpool.mono (fun _ => Or.inr (a := strCount c str _)) fun _ => id)).noCore (· = c.val))
  have hhw : (((s.look.strCounted c str r n).withReq (s.look.strRequest c str r a n)).poolHigh (coreRegion c)).hw =
      ((s.look.strAdvance c str n).withReq (s.look.strRequest c str r a n)).hw := by
    rw [poolHigh_hw, Work.withReq, Work.withReq, strCounted_hw]
  refine ⟨_, streamRequest_run hp hdue hstep, advancedBy_of_core hdue ?_, hall.sameBytes, hall.sameCoresBut, commit_pending .., fun hfrozen => ?_,
    (congrArg (fun h => h.nextReq) hhw :), (congrArg (fun h => h.reqs) hhw :)⟩
  · rw [poolHigh_core, withReq_core, strCounted_core]
  · have hword : ∀ k, k = Reg.STR_REQS c str ∨ k = Reg.STR_REQS c str + 4 → ¬ k = Reg.MEM_POOL_STAT (coreRegion c) := by
      intro k hk
      simp only [Reg.STR_REQS, Reg.MEM_POOL_STAT, coreWindow, dieWindow] at hk ⊢
      omega
    refine Eq.trans ?_ (strReqs_counted s.look c str r n hfrozen)
    rw [Work.r64, Work.r64, hall.commit_r32, hall.commit_r32, hpool.word _ (hword _ (.inl rfl)), hpool.word _ (hword _ (.inr rfl))]
    rfl

end Requests

section Replies
variable {s : State} {c str i : Nat} {q : Req} {r : Running} (hp : s.powered = true) (hq : s.look.req? i = some q) (hsrc : q.src = .str c str)
  (hstage : q.stage = .replied) (hr : ((s.look.core c).engine (2 + str)).first = some r)
include hp hq hsrc hstage hr

theorem streamReply_lands {n : Nat} (hbad : q.bad = .ok) (hop : q.op = .read n) (hd : s.look.digesting q.ctx = false)
    (hinj : ∀ j l, j < n → l < n → s.look.strPlace c r q.rep (q.off + j) = s.look.strPlace c r q.rep (q.off + l) → j = l) :
    goesTo (exec (.streamReply i) s) fun t => (t.hw = { s.hw with reqs := SMap.del s.hw.reqs i, wild := t.hw.wild } ∧ t.pending = s.pending) ∧
      (∀ j, j < n → t.look.rdB (s.look.strPlace c r q.rep (q.off + j)) = q.byte j) ∧ sameBytesBut (s.look.strSpan c r q.rep q.off n) s t ∧
        sameWordsBut [Reg.STR_BYTES c str, Reg.STR_BYTES c str + 4] s t := by
  have hrun := streamReply_run hp hq hsrc hstage hr ((if_pos hbad).trans (strLands_read c str hop hd))
  have hdrop : s.look.writes (s.look.strSpan c r q.rep q.off n) (strByteCount c str) noCore (s.look.dropReq i) := .of_hw rfl rfl rfl rfl rfl rfl
  have hall := hdrop.trans (landed_writes (s.look.dropReq i) c str r q n)
  refine ⟨_, hrun, ⟨landed_hw .., commit_pending ..⟩, fun j hj => ?_, hall.sameBytesBut, hall.sameWordsBut fun a ha => by
    simpa only [List.mem_cons, List.not_mem_nil, or_false, strByteCount] using ha⟩
  exact (commit_rdB s _ hall.mem _).trans (landed_rdB (w := s.look.dropReq i) (fun j l hj hl h => hinj j l hj hl h) hj)

theorem streamReply_written {d : List (Option Byte)} (hbad : q.bad = .ok) (hop : q.op = .write d) (hd : s.look.digesting q.ctx = false) :
    goesTo (exec (.streamReply i) s) fun t => t.hw = { s.hw with reqs := SMap.del s.hw.reqs i } ∧ t.pending = s.pending ∧ sameBytes s t ∧ sameWords s t :=
  ⟨_, streamReply_run hp hq hsrc hstage hr ((if_pos hbad).trans (strLands_write c str hop hd)), rfl, commit_pending .., sameBytes_of rfl rfl rfl,
    sameWords_of rfl rfl⟩

theorem streamReply_fails (hbad : q.bad ≠ .ok) : exec (.streamReply i) s = done s ((s.look.dropReq i).strFails c str r q) :=
  streamReply_run hp hq hsrc hstage hr (if_neg hbad)

end Replies

/-- Settles O21: a run goes out as one request, and its reply lands at the places of its repeat. -/
theorem strMovesBytes : Obligations.StrMovesBytes := by
  unfold Obligations.StrMovesBytes
  refine ⟨?_, ?_⟩
  · rintro c str s r w k e rep here advanced ⟨hp, hdue⟩
    refine ⟨fun ⟨hnone, hload⟩ => streamRequest_passes hp hdue (Prod.ext hnone rfl) hload,
      fun ⟨hnone, hload⟩ => streamRequest_fills hp hdue (Prod.ext hnone rfl) hload, ?_⟩
    intro a ha n op node waits
    refine ⟨fun hw => ?_, ?_⟩
    · exact streamRequest_run hp hdue (strStep_held (Prod.ext ha rfl) hw)
    · rintro ⟨hw, hnode, hd⟩
      exact streamRequest_asks hp hdue (Prod.ext ha rfl) rfl hw hnode hd
  · rintro c str i s q r w ⟨hp, hq, hsrc, hstage, hr⟩
    exact ⟨fun n ⟨hbad, hop, hd, hinj⟩ => streamReply_lands hp hq hsrc hstage hr hbad hop hd hinj,
      fun d ⟨hbad, hop, hd⟩ => streamReply_written hp hq hsrc hstage hr hbad hop hd, streamReply_fails hp hq hsrc hstage hr⟩

end Sys2Proof.Machine
end

section
/-! SUPPORT. Operations that change register words alone, and the fields that such an operation leaves. -/

namespace Sys2Proof.Machine

/-- The operation from w to w' writes register words of p, and changes nothing else. -/
structure Work.words (p : Nat → Prop) (w w' : Work) : Prop where
  mem : w'.mem = w.mem
  csr : w'.csr = w.csr
  wr : w'.wr = w.wr
  hw : w'.hw = w.hw
  word : ∀ a, ¬ p a → w'.r32 a = w.r32 a

namespace Work.words

variable {p q : Nat → Prop} {u v w : Work} {a : Nat} {s : State}

theorem refl (p : Nat → Prop) (w : Work) : w.words p w := ⟨rfl, rfl, rfl, rfl, fun _ _ => rfl⟩

theorem trans (h : u.words p v) (h' : v.words p w) : u.words p w :=
  ⟨h'.mem.trans h.mem, h'.csr.trans h.csr, h'.wr.trans h.wr, h'.hw.trans h.hw, fun a ha => (h'.word a ha).trans (h.word a ha)⟩

theorem mono (h : u.words p v) (hp : ∀ a, p a → q a) : u.words q v := ⟨h.mem, h.csr, h.wr, h.hw, fun a ha => h.word a (mt (hp a) ha)⟩

theorem w32 (w : Work) (x : Word) (ha : p a) : w.words p (w.w32 a x) := ⟨rfl, rfl, rfl, rfl, fun _ hb => r32_w32_other w x fun e => hb (e ▸ ha)⟩

theorem w64 (w : Work) (x : DWord) (ha : p a) (ha4 : p (a + 4)) : w.words p (w.w64 a x) := (w32 w _ ha).trans (w32 _ _ ha4)

theorem setFld (w : Work) {f : Fld} (x : Nat) (hf : f.lsb + f.width ≤ 32) (ha : p a) : w.words p (w.setFld a f x) := by
  rw [Work.setFld, if_pos hf]
  exact w32 w _ ha

theorem setFlag (w : Work) {f : Fld} (b : Bool) (hf : f.lsb + f.width ≤ 32) (ha : p a) : w.words p (w.setFlag a f b) := setFld w _ hf ha

/-- A field of the register at a. -/
theorem at_ (w : Work) {f : Fld} (x : Nat) (hf : f.lsb + f.width ≤ 32) : w.words (· = a) (w.setFld a f x) := setFld w x hf rfl

theorem bump (w : Work) (n : Nat) (ha : p a) (ha4 : p (a + 4)) : w.words p (w.bump a n) := by
  unfold Work.bump
  split
  · exact refl p w
  · exact w64 w _ ha ha4

theorem bumpErr (w : Work) (n : Nat) (ha : p a) (ha4 : p (a + 4)) : w.words p (w.bumpErr a n) := w64 w _ ha ha4

theorem forEach {α : Type} {f : Work → α → Work} (l : List α) (h : ∀ u : Work, ∀ x ∈ l, u.words p (f u x)) (w : Work) : w.words p (w.forEach l f) := by
  induction l generalizing w with
  | nil => exact refl p w
  | cons x l ih => exact (h w x List.mem_cons_self).trans (ih (fun u y hy => h u y (List.mem_cons_of_mem _ hy)) (f w x))

theorem touches (h : w.words p v) (q : Nat → Prop) : w.touches p q v :=
  ⟨h.mem, h.csr, h.wr, by rw [h.hw], h.word, fun c _ => core_of_cores _ _ (by rw [h.hw]) c⟩

theorem r64_eq (h : u.words p v) (ha : ¬ p a) (ha4 : ¬ p (a + 4)) : v.r64 a = u.r64 a := by
  simp only [Work.r64, h.word _ ha, h.word _ ha4]

theorem fld_eq {f : Fld} (h : u.words p v) (hf : f.lsb + f.width ≤ 32) (ha : ¬ p a) : v.fld a f = u.fld a f := by
  simp only [Work.fld, hf, if_true, h.word _ ha]

theorem flag_eq {f : Fld} (h : u.words p v) (hf : f.lsb + f.width ≤ 32) (ha : ¬ p a) : v.flag a f = u.flag a f := by
  rw [Work.flag, Work.flag, h.fld_eq hf ha]

/-! ### The state that it leaves -/

theorem commit_fld (h : s.look.words p w) (a : Nat) (f : Fld) : (Work.commit s w).look.fld a f = w.fld a f := Machine.commit_fld s w h.csr a f
theorem commit_flag (h : s.look.words p w) (a : Nat) (f : Fld) : (Work.commit s w).look.flag a f = w.flag a f := Machine.commit_flag s w h.csr a f
theorem commit_r32 (h : s.look.words p w) (a : Nat) : (Work.commit s w).look.r32 a = w.r32 a := Machine.commit_r32 s w h.csr a
theorem commit_r64 (h : s.look.words p w) (a : Nat) : (Work.commit s w).look.r64 a = w.r64 a := Machine.commit_r64 s w h.csr a

theorem sameWordsBut {l : List Nat} (h : s.look.words p w) (hl : ∀ a, p a → a ∈ l) : sameWordsBut l s (Work.commit s w) :=
  fun a ha => (h.commit_r32 a).trans (h.word a (mt (hl a) ha))

theorem sameBytes (h : s.look.words p w) : sameBytes s (Work.commit s w) := sameBytes_of h.mem h.wr (by rw [h.hw]; rfl)

theorem onlyWords {l : List Nat} (h : s.look.words p w) (hl : ∀ a, p a → a ∈ l) : onlyWords l s (Work.commit s w) :=
  ⟨h.sameBytes, h.sameWordsBut hl, h.hw, commit_pending ..⟩

end Work.words

/-! ### Flags -/

section Flags
variable (w : Work) {a b : Nat} {f g : Fld}

theorem fld_of_r32 {w w' : Work} (hf : f.lsb + f.width ≤ 32) (h : w'.r32 a = w.r32 a) : w'.fld a f = w.fld a f := by
  simp only [Work.fld, hf, if_true, h]

theorem flag_setFlag_self (x : Bool) (hf : f.lsb + f.width ≤ 32) (hw : f.width = 1) : (w.setFlag a f x).flag a f = x := by
  rw [Work.flag, Work.setFlag, fld_setFld_self _ _ _ _ hf, hw]
  cases x <;> rfl

theorem flag_setFld_other (x : Nat) (hf : f.lsb + f.width ≤ 32) (hg : g.lsb + g.width ≤ 32) (h : b ≠ a) : (w.setFld a f x).flag b g = w.flag b g := by
  rw [Work.flag, Work.flag, fld_setFld_other w f g x hf hg h]

theorem flag_setFlag_other (x : Bool) (hf : f.lsb + f.width ≤ 32) (hg : g.lsb + g.width ≤ 32) (h : b ≠ a) : (w.setFlag a f x).flag b g = w.flag b g :=
  flag_setFld_other w _ hf hg h

theorem fld_setFlag_other (x : Bool) (hf : f.lsb + f.width ≤ 32) (hg : g.lsb + g.width ≤ 32) (h : b ≠ a) : (w.setFlag a f x).fld b g = w.fld b g :=
  fld_setFld_other w f g _ hf hg h

theorem flag_setFld_beside (x : Nat) (hf : f.lsb + f.width ≤ 32) (hg : g.lsb + g.width ≤ 32) (h : f.lsb + f.width ≤ g.lsb ∨ g.lsb + g.width ≤ f.lsb) :
    (w.setFld a f x).flag a g = w.flag a g := by
  rw [Work.flag, Work.flag, fld_setFld_beside w a x hf hg h]

theorem flag_setFlag_beside (x : Bool) (hf : f.lsb + f.width ≤ 32) (hg : g.lsb + g.width ≤ 32)
    (h : f.lsb + f.width ≤ g.lsb ∨ g.lsb + g.width ≤ f.lsb) : (w.setFlag a f x).flag a g = w.flag a g := flag_setFld_beside w _ hf hg h

theorem fld_setFlag_beside (x : Bool) (hf : f.lsb + f.width ≤ 32) (hg : g.lsb + g.width ≤ 32)
    (h : f.lsb + f.width ≤ g.lsb ∨ g.lsb + g.width ≤ f.lsb) : (w.setFlag a f x).fld a g = w.fld a g := fld_setFld_beside w a _ hf hg h

end Flags

theorem csrDie_window {d k : Nat} (hk : k < 0x100000000) : csrDie (dieWindow d + k) = d := by
  simp only [csrDie, dieWindow]
  omega

end Sys2Proof.Machine
end

section
/-! PROOFS. Refresh, scrub, temperature and self-test of the stacked memory (R291–R293, R297, R300, R302). -/

namespace Sys2Proof.Machine

/-! ### Channels -/

theorem updChan_touches (p q : Nat → Prop) (w : Work) (ch : Nat) (f : Chan → Chan) : w.touches p q (w.updChan ch f) := .of_hw rfl rfl rfl rfl rfl rfl

theorem chan_commit (s : State) (w : Work) (x : Nat) : (Work.commit s w).look.chan x = w.chan x := rfl

/-- A channel with every row closed, and the refresh counted. -/
def Work.refreshed (w : Work) (ch cnt cycles : Nat) (f : Chan → Chan) : Work := (w.updChan ch f).bump cnt cycles

section Refreshed
variable {s : State} {ch cnt cycles : Nat} {f : Chan → Chan}

theorem refreshed_words : (s.look.updChan ch f).words (fun a => a = cnt ∨ a = cnt + 4) (s.look.refreshed ch cnt cycles f) := .bump _ _ (.inl rfl) (.inr rfl)

theorem refreshed_hw : (s.look.refreshed ch cnt cycles f).hw = (s.look.updChan ch f).hw := refreshed_words.hw

/-- What a counted refresh leaves. -/
theorem refreshed_leaves : let t := Work.commit s (s.look.refreshed ch cnt cycles f)
    t.look.chan ch = f (s.look.chan ch) ∧ (∀ x, x ≠ ch → t.look.chan x = s.look.chan x) ∧
      (s.look.frozen (csrDie cnt) = false → t.look.r64 cnt = s.look.r64 cnt + BitVec.ofNat 64 cycles) ∧ sameWordsBut [cnt, cnt + 4] s t ∧ sameBytes s t ∧
        t.hw = { s.hw with chans := t.hw.chans } ∧ t.pending = s.pending := by
  have hall : s.look.touches (fun a => a = cnt ∨ a = cnt + 4) noCore (s.look.refreshed ch cnt cycles f) :=
    (updChan_touches ..).trans (refreshed_words.touches _)
  have hchan (x : Nat) : (s.look.refreshed ch cnt cycles f).chan x = (s.look.updChan ch f).chan x := by rw [Work.chan, refreshed_hw, Work.chan]
  refine ⟨(hchan ch).trans (chan_updChan_self ..), fun x hx => (hchan x).trans (chan_updChan_other _ _ hx), fun h => ?_,
    hall.sameWordsBut fun a ha => by simpa only [List.mem_cons, List.not_mem_nil, or_false] using ha, hall.sameBytes, ?_, commit_pending ..⟩
  · exact (Machine.commit_r64 s _ hall.csr cnt).trans (r64_bump_self (w := s.look.updChan ch f) cycles h)
  · rw [commit_hw, refreshed_hw]
    rfl

end Refreshed

theorem memRefresh_run {s : State} {r : RegionIx} {n : Fin 64} (hp : s.powered = true) (hup : s.look.memUp r = true)
    (hserve : s.look.chServes (64 * r.val + n.val) = true) : exec (.memRefresh r n) s = done s (s.look.refreshed (64 * r.val + n.val) (Reg.MEM_CH_REF r n)
      (s.look.fld (Reg.MEM_TIMING_3 r) Fld.MEM_TIMING_3_TRFC) fun k => { k with rows := [] }) := by
  change execMemRefresh r n s = _
  refine runs hp ?_
  dsimp only
  rw [hup, hserve]
  rfl

theorem memScrubRead_run {s : State} {r : RegionIx} {n : Fin 64} (hp : s.powered = true) (hup : s.look.memUp r = true)
    (htrained : s.look.flag (Reg.MEM_STATUS r) Fld.MEM_STATUS_TRAINED = true) (hen : s.look.flag (Reg.MEM_CTRL r) Fld.MEM_CTRL_SCRUB_EN = true)
    (hfree : (s.look.chan (64 * r.val + n.val)).queue.length < s.look.chDepth (64 * r.val + n.val)) : exec (.memScrubRead r n) s = done s
      (s.look.updChan (64 * r.val + n.val) fun k => { k with
        queue := k.queue ++ [⟨none, r.val * 2 ^ 35 + scrubOffset n (s.look.chan (64 * r.val + n.val)).scrub, 64, 0, none, none, 0, 0,
          s.look.chNow (64 * r.val + n.val)⟩], scrub := (k.scrub + 1) % 2 ^ 23 }) := by
  change execMemScrubRead r n s = _
  refine runs hp ?_
  dsimp only
  rw [hup, htrained, hen, decide_eq_true hfree]
  rfl

/-! ### Temperatures (R292, R293) -/

theorem foldl_max_mem (l : List Nat) (a : Nat) : l.foldl max a = a ∨ l.foldl max a ∈ l := by
  induction l generalizing a with
  | nil => exact .inl rfl
  | cons x l ih =>
    rcases ih (max a x) with h | h
    · rcases Nat.le_total a x with hax | hax
      · rw [Nat.max_eq_right hax] at h
        exact .inr (List.mem_cons.mpr (.inl ((List.foldl_cons ..).trans (by rw [Nat.max_eq_right hax, h]))))
      · rw [Nat.max_eq_left hax] at h
        exact .inl ((List.foldl_cons ..).trans (by rw [Nat.max_eq_left hax, h]))
    · exact .inr (List.mem_cons_of_mem _ h)

theorem le_foldl_max (l : List Nat) (a : Nat) : a ≤ l.foldl max a := by
  induction l generalizing a with
  | nil => exact Nat.le_refl a
  | cons x l ih => exact (Nat.le_max_left a x).trans (ih (max a x))

/-- The highest reading is one of the readings. -/
theorem maxOf_mem {l : List Nat} (h : l ≠ []) : maxOf l ∈ l := by
  cases l with
  | nil => exact absurd rfl h
  | cons x l =>
    rcases foldl_max_mem l (max 0 x) with hx | hx
    · exact List.mem_cons.mpr (.inl (hx.trans (Nat.zero_max x)))
    · exact List.mem_cons_of_mem _ hx

theorem layerTemps_top (layers : DWord) : maxOf (layerTemps layers) < 2 ^ 8 ∧
    (layerTemps layers).findIdx (fun x => decide (x = maxOf (layerTemps layers))) < 2 ^ 3 := by
  have hmem := maxOf_mem (l := layerTemps layers) (by simp [layerTemps])
  refine ⟨?_, ?_⟩
  · obtain ⟨i, -, h⟩ := List.mem_map.mp hmem
    rw [← h]
    exact Nat.mod_lt _ (Nat.two_pow_pos 8)
  · have hlen : (layerTemps layers).length = 2 ^ 3 := by simp [layerTemps]
    exact hlen ▸ List.findIdx_lt_length.mpr ⟨_, hmem, decide_eq_true rfl⟩

/-- MEM_TEMP as a sample leaves it. -/
def Work.tempRead (w : Work) (r top layer : Nat) : Work :=
  let u := (w.setFld (Reg.MEM_TEMP r) Fld.MEM_TEMP_MAX top).setFld (Reg.MEM_TEMP r) Fld.MEM_TEMP_LAYER layer
  u.setFld (Reg.MEM_TEMP r) Fld.MEM_TEMP_PEAK (max top (u.fld (Reg.MEM_TEMP r) Fld.MEM_TEMP_PEAK))

/-- The hot state as a reading leaves it (R293). -/
def Work.hotSet (w : Work) (r top : Nat) : Work :=
  if w.fld (Reg.MEM_REF_CFG r) Fld.MEM_REF_CFG_HOT_ON ≤ top then w.setFlag (Reg.MEM_STATUS r) Fld.MEM_STATUS_HOT true
  else if top < w.fld (Reg.MEM_REF_CFG r) Fld.MEM_REF_CFG_HOT_OFF then w.setFlag (Reg.MEM_STATUS r) Fld.MEM_STATUS_HOT false else w

section Temp
variable (w : Work) (r : Nat) {top layer : Nat}

theorem tempRead_words (top layer : Nat) : w.words (· = Reg.MEM_TEMP r) (w.tempRead r top layer) :=
  ((Work.words.at_ w (f := Fld.MEM_TEMP_MAX) top (by decide)).trans (.at_ _ (f := Fld.MEM_TEMP_LAYER) layer (by decide))).trans
    (.at_ _ (f := Fld.MEM_TEMP_PEAK) _ (by decide))

theorem tempRead_fields (htop : top < 2 ^ 8) (hlayer : layer < 2 ^ 3) : (w.tempRead r top layer).fld (Reg.MEM_TEMP r) Fld.MEM_TEMP_MAX = top ∧
    (w.tempRead r top layer).fld (Reg.MEM_TEMP r) Fld.MEM_TEMP_LAYER = layer ∧
      (w.tempRead r top layer).fld (Reg.MEM_TEMP r) Fld.MEM_TEMP_PEAK = max top (w.fld (Reg.MEM_TEMP r) Fld.MEM_TEMP_PEAK) := by
  have hpeak : w.fld (Reg.MEM_TEMP r) Fld.MEM_TEMP_PEAK < 2 ^ 8 := Nat.mod_lt _ (Nat.two_pow_pos 8)
  unfold Work.tempRead
  refine ⟨?_, ?_, ?_⟩
  · rw [fld_setFld_beside _ _ _ (by decide) (by decide) (by decide), fld_setFld_beside _ _ _ (by decide) (by decide) (by decide),
      fld_setFld_self _ _ _ _ (by decide)]
    exact Nat.mod_eq_of_lt htop
  · rw [fld_setFld_beside _ _ _ (by decide) (by decide) (by decide), fld_setFld_self _ _ _ _ (by decide)]
    exact Nat.mod_eq_of_lt hlayer
  · rw [fld_setFld_self _ _ _ _ (by decide), fld_setFld_beside _ _ _ (by decide) (by decide) (by decide),
      fld_setFld_beside _ _ _ (by decide) (by decide) (by decide)]
    exact Nat.mod_eq_of_lt (Nat.max_lt.mpr ⟨htop, hpeak⟩)

theorem hotSet_words (top : Nat) : w.words (· = Reg.MEM_STATUS r) (w.hotSet r top) := by
  unfold Work.hotSet
  split
  · exact .setFlag _ _ (by decide) rfl
  · split
    · exact .setFlag _ _ (by decide) rfl
    · exact .refl ..

theorem hotSet_flag (top : Nat) : (w.hotSet r top).flag (Reg.MEM_STATUS r) Fld.MEM_STATUS_HOT =
    if w.fld (Reg.MEM_REF_CFG r) Fld.MEM_REF_CFG_HOT_ON ≤ top then true
    else if top < w.fld (Reg.MEM_REF_CFG r) Fld.MEM_REF_CFG_HOT_OFF then false else w.flag (Reg.MEM_STATUS r) Fld.MEM_STATUS_HOT := by
  unfold Work.hotSet
  split
  · exact flag_setFlag_self _ _ (by decide) (by decide)
  · split
    · exact flag_setFlag_self _ _ (by decide) (by decide)
    · rfl

end Temp

theorem memTempSample_run {s : State} {r : RegionIx} (hp : s.powered = true) (hup : s.look.memUp r = true) (layers : DWord) :
    exec (.memTempSample r layers) s = done s ((s.look.tempRead r (maxOf (layerTemps layers))
      ((layerTemps layers).findIdx fun x => decide (x = maxOf (layerTemps layers)))).hotSet r (maxOf (layerTemps layers))) := by
  change execMemTempSample r layers s = _
  refine runs hp ?_
  generalize layerTemps layers = temps
  dsimp only
  rw [hup, Bool.not_true, Bool.false_and, if_neg Bool.false_ne_true, Work.hotSet, Work.tempRead]

theorem memTempSample_leaves {s : State} {r : RegionIx} (hp : s.powered = true) (hup : s.look.memUp r = true) (layers : DWord) :
    let top := maxOf (layerTemps layers); let a := Reg.MEM_TEMP r
    goesTo (exec (.memTempSample r layers) s) fun t => t.look.fld a Fld.MEM_TEMP_MAX = top ∧
      t.look.fld a Fld.MEM_TEMP_LAYER = (layerTemps layers).findIdx (fun x => decide (x = top)) ∧
      t.look.fld a Fld.MEM_TEMP_PEAK = max top (s.look.fld a Fld.MEM_TEMP_PEAK) ∧
      t.look.flag (Reg.MEM_STATUS r) Fld.MEM_STATUS_HOT = (if s.look.fld (Reg.MEM_REF_CFG r) Fld.MEM_REF_CFG_HOT_ON ≤ top then true
        else if top < s.look.fld (Reg.MEM_REF_CFG r) Fld.MEM_REF_CFG_HOT_OFF then false
        else s.look.flag (Reg.MEM_STATUS r) Fld.MEM_STATUS_HOT) ∧ onlyWords [a, Reg.MEM_STATUS r] s t := by
  intro top a
  obtain ⟨htop, hlayer⟩ := layerTemps_top layers
  have hrun := memTempSample_run hp hup layers
  generalize (layerTemps layers).findIdx (fun x => decide (x = maxOf (layerTemps layers))) = layer at hrun hlayer ⊢
  change top < 2 ^ 8 at htop
  change _ = done s ((s.look.tempRead r top layer).hotSet r top) at hrun
  clear_value top
  have htemp := tempRead_words s.look r top layer
  have hhot := hotSet_words (s.look.tempRead r top layer) r top
  have hall : s.look.words (fun x => x = a ∨ x = Reg.MEM_STATUS r) ((s.look.tempRead r top layer).hotSet r top) :=
    (htemp.mono fun _ => .inl).trans (hhot.mono fun _ => .inr)
  have hstatus : ¬ Reg.MEM_STATUS r = Reg.MEM_TEMP r := by simp only [Reg.MEM_STATUS, Reg.MEM_TEMP]; omega
  have hcfg : ¬ Reg.MEM_REF_CFG r = Reg.MEM_TEMP r := by simp only [Reg.MEM_REF_CFG, Reg.MEM_TEMP]; omega
  obtain ⟨hmax, hidx, hpeak⟩ := tempRead_fields s.look r htop hlayer
  refine ⟨_, hrun, ?_, ?_, ?_, ?_, hall.onlyWords fun x hx => by simpa only [List.mem_cons, List.not_mem_nil, or_false] using hx⟩
  · rw [hall.commit_fld, hhot.fld_eq (by decide) (Ne.symm hstatus), hmax]
  · rw [hall.commit_fld, hhot.fld_eq (by decide) (Ne.symm hstatus), hidx]
  · rw [hall.commit_fld, hhot.fld_eq (by decide) (Ne.symm hstatus), hpeak]
  · rw [hall.commit_flag, hotSet_flag, htemp.fld_eq (by decide) hcfg, htemp.fld_eq (by decide) hcfg, htemp.flag_eq (by decide) hstatus]

/-! ### The self-test of a channel (R300, R302) -/

/-- Where the self-test of a region stands. -/
def Work.setBist (w : Work) (r n : Nat) : Work := { w with hw := { w.hw with bistRun := SMap.set 0 w.hw.bistRun r n } }

theorem bits_one (v i : Nat) : bits v i 1 = (v.testBit i).toNat := by
  rw [bits_eq, Nat.pow_one, Nat.toNat_testBit]

theorem bits_getLsbD {n : Nat} (v : BitVec n) (i : Nat) : bits v.toNat i 1 = (v.getLsbD i).toNat := bits_one ..

/-- The two registers that show the self-test. -/
def bistWord (r a : Nat) : Prop := a = Reg.MEM_BIST_STAT r ∨ a = Reg.MEM_STATUS r

/-- The registers as the start of a self-test leaves them. -/
def Work.bistShown (w : Work) (r ch : Nat) : Work :=
  ((w.setFld (Reg.MEM_BIST_STAT r) Fld.MEM_BIST_STAT_CHAN ch).setFlag (Reg.MEM_BIST_STAT r) Fld.MEM_BIST_STAT_BUSY true).setFlag (Reg.MEM_STATUS r)
    Fld.MEM_STATUS_BIST_BUSY true

/-- The registers as the end of a self-test leaves them. -/
def Work.bistEnded (w : Work) (r : Nat) (pass transient : Bool) : Work :=
  (((w.setFlag (Reg.MEM_BIST_STAT r) Fld.MEM_BIST_STAT_BUSY false).setFlag (Reg.MEM_STATUS r) Fld.MEM_STATUS_BIST_BUSY false).setFlag
    (Reg.MEM_BIST_STAT r) Fld.MEM_BIST_STAT_PASS pass).setFlag (Reg.MEM_BIST_STAT r) Fld.MEM_BIST_STAT_TRANSIENT transient

theorem bistDone_eq (w : Work) (r : Nat) (pass transient : Bool) : w.bistDone r pass transient = (w.setBist r 0).bistEnded r pass transient := rfl

section Bist
variable (w : Work) (r : Nat)

theorem status_ne_bistStat : Reg.MEM_STATUS r ≠ Reg.MEM_BIST_STAT r := by
  simp only [Reg.MEM_STATUS, Reg.MEM_BIST_STAT]
  omega

theorem bistShown_words (ch : Nat) : w.words (bistWord r) (w.bistShown r ch) := by
  have hstat (u : Work) (f : Fld) (x : Nat) (hf : f.lsb + f.width ≤ 32) : u.words (bistWord r) (u.setFld (Reg.MEM_BIST_STAT r) f x) :=
    .setFld u x hf (.inl rfl)
  exact ((hstat _ _ _ (by decide)).trans (hstat _ _ _ (by decide))).trans (.setFlag _ _ (by decide) (.inr rfl))

theorem bistEnded_words (pass transient : Bool) : w.words (bistWord r) (w.bistEnded r pass transient) := by
  have hstat (u : Work) (f : Fld) (x : Bool) (hf : f.lsb + f.width ≤ 32) : u.words (bistWord r) (u.setFlag (Reg.MEM_BIST_STAT r) f x) :=
    .setFlag u x hf (.inl rfl)
  exact (((hstat _ _ _ (by decide)).trans (.setFlag _ _ (by decide) (.inr rfl))).trans (hstat _ _ _ (by decide))).trans (hstat _ _ _ (by decide))

theorem bistShown_fields {ch : Nat} (h : ch < 2 ^ 6) : (w.bistShown r ch).fld (Reg.MEM_BIST_STAT r) Fld.MEM_BIST_STAT_CHAN = ch ∧
    (w.bistShown r ch).flag (Reg.MEM_BIST_STAT r) Fld.MEM_BIST_STAT_BUSY = true ∧
      (w.bistShown r ch).flag (Reg.MEM_STATUS r) Fld.MEM_STATUS_BIST_BUSY = true := by
  have hne := (status_ne_bistStat r).symm
  unfold Work.bistShown
  refine ⟨?_, ?_, flag_setFlag_self _ _ (by decide) (by decide)⟩
  · rw [fld_setFlag_other _ _ (by decide) (by decide) hne, fld_setFlag_beside _ _ (by decide) (by decide) (by decide), fld_setFld_self _ _ _ _ (by decide)]
    exact Nat.mod_eq_of_lt h
  · rw [flag_setFlag_other _ _ (by decide) (by decide) hne, flag_setFlag_self _ _ (by decide) (by decide)]

theorem bistEnded_fields (pass transient : Bool) : (w.bistEnded r pass transient).flag (Reg.MEM_BIST_STAT r) Fld.MEM_BIST_STAT_BUSY = false ∧
    (w.bistEnded r pass transient).flag (Reg.MEM_BIST_STAT r) Fld.MEM_BIST_STAT_PASS = pass ∧
      (w.bistEnded r pass transient).flag (Reg.MEM_BIST_STAT r) Fld.MEM_BIST_STAT_TRANSIENT = transient ∧
        (w.bistEnded r pass transient).flag (Reg.MEM_STATUS r) Fld.MEM_STATUS_BIST_BUSY = false := by
  have hne := status_ne_bistStat r
  unfold Work.bistEnded
  refine ⟨?_, ?_, flag_setFlag_self _ _ (by decide) (by decide), ?_⟩
  · rw [flag_setFlag_beside _ _ (by decide) (by decide) (by decide), flag_setFlag_beside _ _ (by decide) (by decide) (by decide),
      flag_setFlag_other _ _ (by decide) (by decide) hne.symm, flag_setFlag_self _ _ (by decide) (by decide)]
  · rw [flag_setFlag_beside _ _ (by decide) (by decide) (by decide), flag_setFlag_self _ _ (by decide) (by decide)]
  · rw [flag_setFlag_other _ _ (by decide) (by decide) hne, flag_setFlag_other _ _ (by decide) (by decide) hne,
      flag_setFlag_self _ _ (by decide) (by decide)]

end Bist

/-- What follows from words written after the mark of a self-test. -/
theorem bist_leaves {s : State} {r n : Nat} {w : Work} (h : (s.look.setBist r n).words (bistWord r) w) : let t := Work.commit s w
    SMap.get 0 t.hw.bistRun r = n ∧ sameWordsBut [Reg.MEM_BIST_STAT r, Reg.MEM_STATUS r] s t ∧ sameBytes s t ∧
      t.hw = { s.hw with bistRun := t.hw.bistRun } ∧ t.pending = s.pending ∧ ∀ a f, t.look.flag a f = w.flag a f ∧ t.look.fld a f = w.fld a f := by
  have hmark : s.look.touches (bistWord r) noCore (s.look.setBist r n) := .of_hw rfl rfl rfl rfl rfl rfl
  have hall : s.look.touches (bistWord r) noCore w := hmark.trans (h.touches _)
  refine ⟨?_, hall.sameWordsBut fun a ha => by simpa only [List.mem_cons, List.not_mem_nil, or_false, bistWord] using ha, hall.sameBytes, ?_,
    commit_pending .., fun a f => ⟨commit_flag s w hall.csr a f, commit_fld s w hall.csr a f⟩⟩
  · rw [commit_hw, h.hw]
    exact SMap.get_set_self ..
  · rw [commit_hw, h.hw]
    rfl

theorem memBistStart_run {s : State} {r : RegionIx} (hp : s.powered = true) (htakes : s.look.regTakes (Reg.MEM_BIST_CTRL r) = true) (m : Master)
    (value : Word) : exec (.memBistStart m r value) s = done s (s.look.bistWrite m r value.toNat) := by
  change execMemBistStart m r value s = _
  refine runs hp ?_
  rw [Work.when, htakes]
  rfl

section End
variable {s : State} {r : RegionIx} (hp : s.powered = true) (hup : s.look.memUp r = true)
include hp hup

theorem memBistEnd_passes (hn : SMap.get 0 s.look.hw.bistRun r = 1) : exec (.memBistEnd r true) s = done s ((s.look.setBist r 0).bistEnded r true false) := by
  change execMemBistEnd r true s = _
  refine runs hp ?_
  dsimp only
  rw [hup, hn, if_neg (by decide), if_pos rfl, if_neg (by decide), decide_eq_false (by decide), bistDone_eq]

theorem memBistEnd_passesAgain (hn : SMap.get 0 s.look.hw.bistRun r = 2) : exec (.memBistEnd r true) s = done s
    ((s.look.bistDone r true true).chTransientCount (64 * r.val + s.look.fld (Reg.MEM_BIST_STAT r) Fld.MEM_BIST_STAT_CHAN)) := by
  change execMemBistEnd r true s = _
  refine runs hp ?_
  dsimp only
  rw [hup, hn, if_neg (by decide), if_pos rfl, if_pos rfl, decide_eq_true rfl]

theorem memBistEnd_again (hn : SMap.get 0 s.look.hw.bistRun r = 1) : exec (.memBistEnd r false) s = done s (s.look.setBist r 2) := by
  change execMemBistEnd r false s = _
  refine runs hp ?_
  dsimp only
  rw [hup, hn, if_neg (by decide), if_neg (by decide), if_pos rfl, Work.setBist]

theorem memBistEnd_fails (hn : SMap.get 0 s.look.hw.bistRun r = 2) : exec (.memBistEnd r false) s = done s
    ((((s.look.bistDone r false false).setFlag (Reg.MEM_ERR_STAT r) Fld.MEM_ERR_STAT_BIST_FAIL true).w32 (Reg.MEM_ERR_INFO r)
      (BitVec.ofNat 32 ((64 * r.val + s.look.fld (Reg.MEM_BIST_STAT r) Fld.MEM_BIST_STAT_CHAN) % 64 + 3 * 2 ^ 8))).failChannel
        (64 * r.val + s.look.fld (Reg.MEM_BIST_STAT r) Fld.MEM_BIST_STAT_CHAN)) := by
  change execMemBistEnd r false s = _
  refine runs hp ?_
  dsimp only
  rw [hup, hn, if_neg (by decide), if_neg (by decide), if_neg (by decide)]

end End

/-! ### The obligation -/

theorem csrDie_chRef (r : RegionIx) (n : Fin 64) : csrDie (Reg.MEM_CH_REF r n) = r := by
  rw [Reg.MEM_CH_REF, Nat.add_assoc, Nat.add_assoc]
  exact csrDie_window (by omega)

/-- Settles O27: the refresh count, the scrub's place, the reading's fields, and the two runs of a self-test. -/
theorem memUpkeep : Obligations.MemUpkeep := by
  unfold Obligations.MemUpkeep
  refine ⟨?_, ?_⟩
  · intro r s w
    refine ⟨?_, ?_⟩
    rotate_left
    · rintro layers temps top a on off ⟨hp, hup⟩
      exact memTempSample_leaves hp hup layers
    intro n ch k cnt cycles
    refine ⟨?_, ?_⟩
    · rintro ⟨hp, hup, hserve⟩
      have h := refreshed_leaves (s := s) (ch := ch) (cnt := cnt) (cycles := cycles) (f := fun k => { k with rows := [] })
      rw [csrDie_chRef] at h
      exact ⟨_, memRefresh_run hp hup hserve, h⟩
    · rintro ⟨hp, hup, htrained, hen, hfree⟩
      exact ⟨_, memScrubRead_run hp hup htrained hen hfree, (chan_commit ..).trans (chan_updChan_self ..),
        fun x hx => (chan_commit ..).trans (chan_updChan_other _ _ hx), rfl,
        sameBytes_of rfl rfl rfl, sameWords_of rfl rfl, rfl⟩
  · intro r s w st run ch
    refine ⟨fun m value ⟨hp, htakes⟩ => ?_, ?_, ?_, ?_, ?_⟩
    · have hrun := memBistStart_run hp htakes m value
      have hbit := bits_getLsbD value 8
      refine ⟨fun ⟨hstart, hidle⟩ => ?_, fun ⟨hstart, hbusy⟩ => ?_, fun hstart => ?_⟩ <;> rw [hstart] at hbit
      · rw [Work.bistWrite, if_neg (by rw [hbit]; decide), if_neg (by simpa using hidle)] at hrun
        have hwords := bistShown_words (w.setBist r 1) r (bits value.toNat 0 6)
        obtain ⟨hmark, hkept, hbytes, hhw, hpend, hfld⟩ := bist_leaves hwords
        obtain ⟨hchan, hshown, hstatus⟩ := bistShown_fields (w.setBist r 1) r (ch := bits value.toNat 0 6) (Nat.mod_lt _ (Nat.two_pow_pos 6))
        exact ⟨_, hrun, hmark, (hfld ..).2.trans hchan, (hfld ..).1.trans hshown, (hfld ..).1.trans hstatus, hkept, hbytes, hhw, hpend⟩
      · replace hbusy : SMap.get 0 s.look.hw.bistRun r ≠ 0 := hbusy
        rw [hrun, Work.bistWrite, if_neg (by rw [hbit]; decide), if_pos hbusy]
      · rw [hrun, Work.bistWrite, if_pos (by rw [hbit]; rfl)]
        rfl
    · rintro ⟨hp, hup, hn⟩
      obtain ⟨hmark, hkept, hbytes, hhw, -, hfld⟩ := bist_leaves (bistEnded_words (w.setBist r 0) r true false)
      obtain ⟨hbusy, hpass, htransient, hstatus⟩ := bistEnded_fields (w.setBist r 0) r true false
      exact ⟨_, memBistEnd_passes hp hup hn, hmark, (hfld ..).1.trans hbusy, (hfld ..).1.trans hpass, (hfld ..).1.trans htransient,
        (hfld ..).1.trans hstatus, hkept, hbytes, hhw⟩
    · rintro ⟨hp, hup, hn⟩
      obtain ⟨hmark, -, hbytes, hhw, -⟩ := bist_leaves (Work.words.refl (bistWord r) (s.look.setBist r 2))
      exact ⟨_, memBistEnd_again hp hup hn, hmark, sameWords_of rfl rfl, hbytes, hhw⟩
    · rintro ⟨hp, hup, hn⟩
      exact memBistEnd_passesAgain hp hup hn
    · rintro ⟨hp, hup, hn⟩
      exact memBistEnd_fails hp hup hn

end Sys2Proof.Machine
end

section
/-! PROOFS. Admission and accesses of the stacked memory (R275–R284, R294–R296). -/

namespace Sys2Proof.Machine

/-! ### Admission -/

/-- A channel that has taken the waiting request at place i. -/
def Chan.takes (k : Chan) (i : Nat) (a : Access) (input left : Nat) : Chan :=
  { k with waiting := k.waiting.eraseIdx i, arb := ⟨input, left, if input = 0 then a.master else k.arb.master⟩ }

/-- Do queued writes cover a read (R281)? -/
def Work.covers (w : Work) (k : Chan) (a : Access) : Bool := k.forwards a && !(k.queue.any fun x => w.writesPoison x && x.meets a)

/-- The machine whose channel holds the access at the end of its queue. -/
def Work.queued (w : Work) (ch : Nat) (taken : Chan) (a : Access) : Work :=
  (w.updChan ch fun _ => taken).updChan ch fun k => { k with queue := k.queue ++ [{ a with at_ := w.chNow ch }] }

section Take
variable {w : Work} {ch i input left : Nat} {a : Access} {taken : Chan} (htaken : (w.chan ch).takes i a input left = taken)
include htaken

theorem takeAccess_queues (hcov : w.covers taken a = false) (hwhole : ¬ (a.wr.isSome = true ∧ a.wholeCrumbs = true)) :
    w.takeAccess ch i a input left = w.queued ch taken a := by
  subst htaken
  unfold Work.takeAccess
  dsimp only
  rw [chan_updChan_self, if_neg, if_neg]
  · rfl
  · simpa only [Bool.and_eq_true] using hwhole
  · exact (Bool.not_eq_true _).mpr hcov

theorem takeAccess_accepts (hcov : w.covers taken a = false) (hwr : a.wr.isSome = true) (hwhole : a.wholeCrumbs = true) :
    w.takeAccess ch i a input left = (w.queued ch taken a).accessDone a (if w.chFailed ch then .poison a.lo else .ok) := by
  subst htaken
  unfold Work.takeAccess
  dsimp only
  rw [chan_updChan_self, if_neg, if_pos]
  · rfl
  · rw [hwr, hwhole]
    rfl
  · exact (Bool.not_eq_true _).mpr hcov

theorem takeAccess_forwards (hcov : w.covers taken a = true) : w.takeAccess ch i a input left =
    ((w.updChan ch fun _ => taken).accessData a ((List.range a.len).map fun j => taken.forwardByte (a.lo + j))).accessDone a .ok := by
  subst htaken
  unfold Work.takeAccess
  dsimp only
  rw [chan_updChan_self, if_pos]
  · rfl
  · exact hcov

end Take

theorem admitOne_eq {w : Work} {ch input left i : Nat} {a : Access} (hroom : (w.chan ch).queue.length < w.chDepth ch)
    (harb : (w.chan ch).arbitrate (w.hotLimit ch) = some (input, left)) (hcand : (w.chan ch).candidate input (w.hotLimit ch) = some (i, a)) :
    w.admitOne ch = w.takeAccess ch i a input left := by
  unfold Work.admitOne
  dsimp only
  rw [if_neg (by simpa using hroom), harb]
  dsimp only
  rw [hcand]

theorem memRequestAdmit_run {s : State} {r : RegionIx} {n : Fin 64} {w : Work} (hp : s.powered = true) (hup : s.look.memUp r = true)
    (hadm : s.look.memAdmits r = true) (htrained : s.look.flag (Reg.MEM_STATUS r) Fld.MEM_STATUS_TRAINED = true)
    (hdom : s.look.fld Reg.CLK_STATUS Fld.CLK_STATUS_DOM_SRC = 0) (h : s.look.admitOne (64 * r.val + n.val) = w) :
    exec (.memRequestAdmit r n) s = done s w := by
  change execMemRequestAdmit r n s = _
  refine runs hp ?_
  dsimp only
  rw [hup, hadm, htrained, decide_eq_true hdom]
  exact h

/-! ### One access -/

theorem memAccess_run {s : State} {r : RegionIx} {n : Fin 64} {i : Nat} {batch : Bool} {a : Access} (hp : s.powered = true)
    (hup : s.look.memUp r = true) (hserve : s.look.chServes (64 * r.val + n.val) = true)
    (hnext : s.look.nextAccess (64 * r.val + n.val) = (some i, batch)) (ha : (s.look.chan (64 * r.val + n.val)).queue[i]? = some a) (crumb : Fin 2)
    (ecc : EccEvent) : exec (.memAccess r n crumb ecc) s = done s ((s.look.updChan (64 * r.val + n.val) fun k =>
      { k with queue := k.queue.eraseIdx i, batch := batch }).performAccess (64 * r.val + n.val) a crumb ecc) := by
  change execMemAccess r n crumb ecc s = _
  refine runs hp ?_
  dsimp only
  rw [hup, hserve, Bool.and_self, if_pos rfl, Work.serveChannel, hnext]
  dsimp only
  rw [ha]

/-- What the counts of an access leave: the channels' queues, and everything but channels and registers. -/
structure Work.counted (ch : Nat) (w w' : Work) : Prop where
  mem : w'.mem = w.mem
  csr : w'.csr = w.csr
  wr : w'.wr = w.wr
  hw : w'.hw = { w.hw with chans := w'.hw.chans }
  queue : (w'.chan ch).queue = (w.chan ch).queue
  batch : (w'.chan ch).batch = (w.chan ch).batch

theorem Work.counted.trans_words {ch : Nat} {p : Nat → Prop} {u v w : Work} (h : u.counted ch v) (h' : v.words p w) : u.counted ch w := by
  obtain ⟨hmem, hcsr, hwr, hhw, hq, hb⟩ := h
  have hchan : w.chan ch = v.chan ch := by rw [Work.chan, h'.hw, Work.chan]
  exact ⟨h'.mem.trans hmem, h'.csr.trans hcsr, h'.wr.trans hwr, by rw [h'.hw, hhw], by rw [hchan, hq], by rw [hchan, hb]⟩

theorem words_any_bump (w : Work) (a n : Nat) : w.words (fun _ => True) (w.bump a n) := .bump w n trivial trivial

theorem chanCount_counted (w : Work) (ch : Nat) (a : Access) (act : Bool) : w.counted ch (w.chanCount ch a act) := by
  unfold Work.chanCount
  dsimp only
  have hrow (rows : SMap Nat) (wrote : Bool) : w.counted ch (w.updChan ch fun k => { k with rows := rows, wrote := wrote }) :=
    ⟨rfl, rfl, rfl, rfl, by rw [chan_updChan_self], by rw [chan_updChan_self]⟩
  split
  · exact ((hrow ..).trans_words (words_any_bump ..)).trans_words (words_any_bump ..)
  · exact ((((hrow ..).trans_words (words_any_bump ..)).trans_words (words_any_bump ..)).trans_words (words_any_bump ..)).trans_words
      (words_any_bump ..)

/-! ### A read -/

/-- Bytes put into a request's data from an offset on. -/
def putData (data : SMap Byte) (off : Nat) (bytes : List Byte) : SMap Byte × Nat :=
  bytes.foldl (fun (st : SMap Byte × Nat) b => (SMap.set 0 st.1 st.2 b, st.2 + 1)) (data, off)

theorem putData_below (bytes : List Byte) (data : SMap Byte) {off x : Nat} (h : x < off) :
    SMap.get 0 (putData data off bytes).1 x = SMap.get 0 data x := by
  induction bytes generalizing data off with
  | nil => rfl
  | cons v bytes ih => exact (ih (SMap.set 0 data off v) (Nat.lt_succ_of_lt h)).trans (SMap.get_set_other _ _ _ (Nat.ne_of_lt h))

theorem putData_at (bytes : List Byte) (data : SMap Byte) (off : Nat) {j : Nat} (h : j < bytes.length) :
    SMap.get 0 (putData data off bytes).1 (off + j) = bytes.getD j 0 := by
  induction bytes generalizing data off j with
  | nil => exact absurd h (Nat.not_lt_zero j)
  | cons v bytes ih =>
    cases j with
    | zero => exact (putData_below bytes (SMap.set 0 data off v) (Nat.lt_succ_self off)).trans (SMap.get_set_self ..)
    | succ j =>
      have hrest := ih (SMap.set 0 data off v) (off + 1) (Nat.lt_of_succ_lt_succ h)
      rw [Nat.add_right_comm, Nat.add_assoc] at hrest
      exact hrest

/-- A request of a control core with the data of its one access, answered. -/
def Req.given (q : Req) (off : Nat) (bytes : List Byte) : Req := { q with data := (putData q.data off bytes).1, stage := .replied }

/-- The work changes request i to q and nothing else. -/
structure Work.givesReq (i : Nat) (q : Req) (w w' : Work) : Prop where
  mem : w'.mem = w.mem
  csr : w'.csr = w.csr
  wr : w'.wr = w.wr
  cw : w'.cw = w.cw
  hw : w'.hw = { w.hw with reqs := w'.hw.reqs }
  self : w'.req? i = some q
  other : ∀ x, x ≠ i → w'.req? x = w.req? x

namespace Work.givesReq

variable {i : Nat} {q q' : Req} {u v w : Work}

theorem setReq (w : Work) (i : Nat) (q : Req) : w.givesReq i q (w.setReq i q) :=
  ⟨rfl, rfl, rfl, rfl, rfl, req_setReq_self .., fun _ hx => req_setReq_other _ _ hx⟩

theorem trans (h : u.givesReq i q v) (h' : v.givesReq i q' w) : u.givesReq i q' w := by
  obtain ⟨hmem, hcsr, hwr, hcw, hhw, -, hother⟩ := h
  obtain ⟨hmem', hcsr', hwr', hcw', hhw', hself', hother'⟩ := h'
  exact ⟨hmem'.trans hmem, hcsr'.trans hcsr, hwr'.trans hwr, hcw'.trans hcw, by rw [hhw', hhw], hself', fun x hx => (hother' x hx).trans (hother x hx)⟩

end Work.givesReq

theorem accessData_gives {w : Work} {a : Access} {i : Nat} {q : Req} (hreq : a.req = some i) (hq : w.req? i = some q) (bytes : List Byte) :
    w.givesReq i { q with data := (putData q.data a.off bytes).1 } (w.accessData a bytes) := by
  have h : w.accessData a bytes = w.setReq i { q with data := (putData q.data a.off bytes).1 } := by
    rw [Work.accessData, hreq]
    dsimp only
    rw [Work.updReq, hq]
    rfl
  rw [h]
  exact .setReq ..

/-- The last access of a cell's request answers it (R274). -/
theorem accessDone_gives {w : Work} {a : Access} {i : Nat} {q : Req} (hreq : a.req = some i) (hq : w.req? i = some q)
    (hsrc : q.src.core?.isSome = true) (hstage : q.stage = .memory 1) (hbad : q.bad = .ok) :
    w.givesReq i { q with stage := .replied } (w.accessDone a .ok) := by
  have hkept : { q with bad := if q.bad = ReqBad.ok then ReqBad.ok else q.bad } = q := by
    rw [if_pos hbad]
    exact congrArg (fun b => { q with bad := b }) hbad.symm
  have h : w.accessDone a .ok = (w.setReq i q).setReq i { q with stage := .replied } := by
    rw [Work.accessDone, hreq]
    dsimp only
    rw [hq]
    dsimp only
    rw [hkept, hstage]
    dsimp only
    rw [if_pos rfl, answer_of_cell (req_setReq_self ..) hsrc, if_pos hbad]
    exact congrArg (fun b => (w.setReq i q).setReq i { q with stage := .replied, bad := b }) hbad.symm
  rw [h]
  exact (Work.givesReq.setReq ..).trans (.setReq ..)

theorem accessRead_gives {w : Work} {a : Access} {i c : Nat} {q : Req} (hreq : a.req = some i) (hq : w.req? i = some q) (hsrc : q.src = .ctl c)
    (hstage : q.stage = .memory 1) (hbad : q.bad = .ok) : w.givesReq i (q.given a.off (w.rdBytes a.lo a.len)) (w.accessRead a []) := by
  have hdata := accessData_gives hreq hq (w.rdBytes a.lo a.len)
  have hcore : q.src.core?.isSome = true := by
    rw [hsrc]
    rfl
  exact hdata.trans (accessDone_gives hreq hdata.self hcore hstage hbad)

theorem given_byte (q : Req) (off : Nat) (bytes : List Byte) {j : Nat} (h : j < bytes.length) : (q.given off bytes).byte (off + j) = bytes.getD j 0 :=
  putData_at bytes q.data off h

/-- A clean read of crumbs that hold no poison finds them good. -/
theorem readFold_clean (ch : Nat) (a : Access) (w : Work) (l : List Nat) (h : ∀ k ∈ l, w.poisoned k = false) (event : Nat → EccEvent)
    (hevent : ∀ k, event k = .clean) : l.foldl (fun (st : Work × List Nat) k =>
      if st.1.poisoned k then (if a.req.isSome then st.1.chErrInfo ch 1 (32 * k) a.ctx else st.1, st.2 ++ [k])
      else ((st.1.readCheck ch k a (event k)).1, if (st.1.readCheck ch k a (event k)).2 then st.2 else st.2 ++ [k])) (w, []) = (w, []) := by
  induction l with
  | nil => rfl
  | cons k l ih =>
    have hk : ¬ (w.poisoned k = true) := by
      rw [h k List.mem_cons_self]
      decide
    rw [List.foldl_cons, if_neg hk, hevent]
    exact ih fun x hx => h x (List.mem_cons_of_mem _ hx)

/-- Does an access activate a row for one crumb only (R284)? -/
def Work.crumbAct (w : Work) (ch : Nat) (a : Access) : Bool :=
  !chIsCap ch && w.flag (Reg.MEM_CTRL (chRegion ch)) Fld.MEM_CTRL_CRUMB_ACT && decide (a.crumbs.1 = a.crumbs.2)

theorem performDram_read {w : Work} {ch : Nat} {a : Access} (hwr : a.wr = none) (hclean : ∀ k ∈ a.crumbList, w.poisoned k = false) (which : Nat) :
    w.performDram ch a which .clean = (w.chanCount ch a (w.crumbAct ch a)).accessRead a [] := by
  have hcount := chanCount_counted w ch a (w.crumbAct ch a)
  have hpoison : ∀ k ∈ a.crumbList, (w.chanCount ch a (w.crumbAct ch a)).poisoned k = false := by
    intro k hk
    rw [Work.poisoned, hcount.hw]
    exact hclean k hk
  rw [Work.performDram, ← Work.crumbAct]
  dsimp only
  rw [hwr]
  dsimp only
  rw [readFold_clean ch a _ _ hpoison _ fun k => ite_self _]

theorem performAccess_stacked {w : Work} {ch : Nat} (hch : ch < 1024) (hok : w.chFailed ch = false) (a : Access) (which : Nat) {ecc : EccEvent}
    (ht : ecc ≠ .cmdTransient) (hl : ecc ≠ .cmdLasting) : w.performAccess ch a which ecc = w.performDram ch a which ecc := by
  have hcap : ¬ chIsCap ch = true := by
    rw [chIsCap, decide_eq_true_eq]
    omega
  unfold Work.performAccess
  rw [if_neg (by rw [hok]; decide), if_neg hcap]
  cases ecc with
  | cmdTransient => exact absurd rfl ht
  | cmdLasting => exact absurd rfl hl
  | clean | corrected | transient | lasting => rfl

/-! ### A write of whole crumbs -/

/-- What writing the crumbs of an access changes: bytes of the access, and the poison marks. -/
structure Work.writesCrumbs (a : Access) (w w' : Work) : Prop where
  mem : w'.mem = w.mem
  csr : w'.csr = w.csr
  hw : w'.hw = { w.hw with poison := w'.hw.poison, wild := w'.hw.wild }
  byte : ∀ x, ¬ (a.lo ≤ x ∧ x < a.lo + a.len) → w'.rdB x = w.rdB x

namespace Work.writesCrumbs

variable {a : Access} {u v w : Work}

theorem refl (a : Access) (w : Work) : w.writesCrumbs a w := ⟨rfl, rfl, rfl, fun _ _ => rfl⟩

theorem trans (h : u.writesCrumbs a v) (h' : v.writesCrumbs a w) : u.writesCrumbs a w := by
  obtain ⟨hmem, hcsr, hhw, hbyte⟩ := h
  obtain ⟨hmem', hcsr', hhw', hbyte'⟩ := h'
  exact ⟨hmem'.trans hmem, hcsr'.trans hcsr, by rw [hhw', hhw], fun x hx => (hbyte' x hx).trans (hbyte x hx)⟩

theorem wrB (w : Work) {x : Nat} (v : Byte) (h : a.lo ≤ x ∧ x < a.lo + a.len) : w.writesCrumbs a (w.wrB x v) :=
  ⟨rfl, rfl, rfl, fun _ hy => rdB_wrB_other _ _ fun e => hy (e ▸ h)⟩

theorem setPoison (w : Work) (k : Nat) (b : Bool) : w.writesCrumbs a (w.setPoison k b) := ⟨rfl, rfl, rfl, fun _ _ => rfl⟩

end Work.writesCrumbs

/-- The bytes put by a list of writes, in order. -/
def Work.putAll (w : Work) (l : List (Nat × Byte)) : Work := l.foldl (fun w e => w.wrB e.1 e.2) w

theorem putAll_writes {a : Access} (l : List (Nat × Byte)) (h : ∀ e ∈ l, a.lo ≤ e.1 ∧ e.1 < a.lo + a.len) (w : Work) : w.writesCrumbs a (w.putAll l) := by
  induction l generalizing w with
  | nil => exact .refl a w
  | cons e l ih => exact (Work.writesCrumbs.wrB w e.2 (h e List.mem_cons_self)).trans (ih (fun e he => h e (List.mem_cons_of_mem _ he)) (w.wrB e.1 e.2))

theorem rdB_putAll_other (l : List (Nat × Byte)) (w : Work) {x : Nat} (h : ∀ e ∈ l, e.1 ≠ x) : (w.putAll l).rdB x = w.rdB x := by
  induction l generalizing w with
  | nil => rfl
  | cons e l ih => exact (ih _ fun e he => h e (List.mem_cons_of_mem _ he)).trans (rdB_wrB_other _ _ (h e List.mem_cons_self).symm)

/-- A byte reads as the writes to its address agree. -/
theorem rdB_putAll (l : List (Nat × Byte)) (w : Work) {x : Nat} {v : Byte} (hmem : (x, v) ∈ l) (hone : ∀ e ∈ l, e.1 = x → e.2 = v) :
    (w.putAll l).rdB x = v := by
  induction l generalizing w with
  | nil => exact absurd hmem List.not_mem_nil
  | cons e l ih =>
    have hrest : ∀ e ∈ l, e.1 = x → e.2 = v := fun e he => hone e (List.mem_cons_of_mem _ he)
    by_cases hlater : (x, v) ∈ l
    · exact ih _ hlater hrest
    · have hhead : e = (x, v) := ((List.mem_cons.mp hmem).resolve_right hlater).symm
      have hother : ∀ e ∈ l, e.1 ≠ x := fun e he heq => hlater (by rw [← heq, ← hrest e he heq]; exact he)
      rw [hhead]
      exact (rdB_putAll_other l (w.wrB x v) hother).trans (rdB_wrB_self ..)

/-- One crumb of the write: its poison mark goes, its bytes are set. -/
def Work.putCrumb (w : Work) (a : Access) (k : Nat) : Work := (w.setPoison k false).putAll (a.crumbBytes k)

theorem crumb_mem {a : Access} {j : Nat} (hj : j < a.len) : (a.lo + j) / 32 ∈ a.crumbList := by
  rw [Access.crumbList, Access.crumbs]
  exact List.mem_map.mpr ⟨(a.lo + j) / 32 - a.lo / 32, List.mem_range.mpr (by dsimp only; omega), by dsimp only; omega⟩

section Whole
variable {a : Access} {d : List (Option Byte)} (hwr : a.wr = some d)
include hwr

theorem mem_crumbBytes {k : Nat} {e : Nat × Byte} :
    e ∈ a.crumbBytes k ↔ ∃ i v, d[i]? = some (some v) ∧ (a.lo + i) / 32 = k ∧ e = (a.lo + i, v) := by
  rw [Access.crumbBytes, hwr]
  dsimp only
  rw [List.mem_filterMap]
  constructor
  · rintro ⟨i, -, hi⟩
    split at hi
    · next v hv =>
      split at hi
      · next hk => exact ⟨i, v, hv, hk, (Option.some.inj hi).symm⟩
      · cases hi
    · cases hi
  · rintro ⟨i, v, hv, hk, rfl⟩
    obtain ⟨hi, -⟩ := List.getElem?_eq_some_iff.mp hv
    refine ⟨i, List.mem_range.mpr hi, ?_⟩
    rw [hv]
    exact if_pos hk

/-- A byte of the access that its crumb's write has reached stays; and its crumb's write reaches it. -/
theorem rdB_putCrumb {j : Nat} {v : Byte} (hv : d[j]? = some (some v)) (w : Work) (k : Nat)
    (h : w.rdB (a.lo + j) = v ∨ k = (a.lo + j) / 32) : (w.putCrumb a k).rdB (a.lo + j) = v := by
  by_cases hk : k = (a.lo + j) / 32
  · refine rdB_putAll _ _ ((mem_crumbBytes hwr).mpr ⟨j, v, hv, hk.symm, rfl⟩) fun e he heq => ?_
    obtain ⟨i, x, hx, -, rfl⟩ := (mem_crumbBytes hwr).mp he
    have hij : i = j := Nat.add_left_cancel heq
    subst hij
    exact Option.some.inj (Option.some.inj (hx.symm.trans hv))
  · refine (rdB_putAll_other _ _ fun e he heq => hk ?_).trans (h.resolve_right hk)
    obtain ⟨i, x, -, hi, rfl⟩ := (mem_crumbBytes hwr).mp he
    rw [← hi]
    exact congrArg (· / 32) heq

theorem rdB_putCrumbs {j : Nat} {v : Byte} (hv : d[j]? = some (some v)) (l : List Nat) (w : Work)
    (h : w.rdB (a.lo + j) = v ∨ (a.lo + j) / 32 ∈ l) : (l.foldl (fun w k => w.putCrumb a k) w).rdB (a.lo + j) = v := by
  induction l generalizing w with
  | nil => exact h.resolve_right List.not_mem_nil
  | cons k l ih =>
    refine ih _ ?_
    rcases h with h | h
    · exact .inl (rdB_putCrumb hwr hv w k (.inl h))
    · rcases List.mem_cons.mp h with hk | hk
      · exact .inl (rdB_putCrumb hwr hv w k (.inr hk.symm))
      · exact .inr hk

variable (hlen : d.length = a.len)
include hlen

theorem putCrumb_writes (w : Work) (k : Nat) : w.writesCrumbs a (w.putCrumb a k) := by
  refine (Work.writesCrumbs.setPoison w k false).trans (putAll_writes _ (fun e he => ?_) _)
  obtain ⟨i, v, hv, -, rfl⟩ := (mem_crumbBytes hwr).mp he
  obtain ⟨hi, -⟩ := List.getElem?_eq_some_iff.mp hv
  exact ⟨Nat.le_add_right .., by omega⟩

theorem putCrumbs_writes (l : List Nat) (w : Work) : w.writesCrumbs a (l.foldl (fun w k => w.putCrumb a k) w) := by
  induction l generalizing w with
  | nil => exact .refl a w
  | cons k l ih => exact (putCrumb_writes hwr hlen w k).trans (ih _)

variable (hwhole : a.wholeCrumbs = true) (hpos : 0 < a.len)
include hwhole hpos

/-- An access of whole crumbs writes each crumb that it touches whole. -/
theorem wholeCrumb_of_wholeCrumbs {k : Nat} (hk : k ∈ a.crumbList) : a.wholeCrumb k = true := by
  rw [Access.wholeCrumbs, hwr] at hwhole
  simp only [Bool.and_eq_true, decide_eq_true_eq, List.all_eq_true] at hwhole
  obtain ⟨⟨hlo, hhi⟩, hall⟩ := hwhole
  obtain ⟨n, hn, rfl⟩ := List.mem_map.mp hk
  rw [List.mem_range, Access.crumbs] at hn
  dsimp only at hn
  rw [Access.wholeCrumb, hwr, Access.crumbs]
  dsimp only
  rw [List.all_eq_true]
  intro i hi
  rw [List.mem_range] at hi
  have hbelow : a.lo ≤ 32 * (a.lo / 32 + n) + i := by omega
  have hin : 32 * (a.lo / 32 + n) + i - a.lo < d.length := by omega
  obtain ⟨v, hv⟩ := Option.isSome_iff_exists.mp (hall _ (List.getElem_mem hin))
  rw [List.getElem?_eq_getElem hin, hv, decide_eq_true hbelow]
  rfl

theorem writeFold_whole (ch : Nat) (event : Nat → EccEvent) (l : List Nat) (hl : ∀ k ∈ l, k ∈ a.crumbList) (w : Work)
    (hpoison : w.writesPoison a = false) : (l.foldl (fun (st : Work × Bool) k =>
      ((st.1.writeCrumb ch k a (event k)).1, st.2 && (st.1.writeCrumb ch k a (event k)).2)) (w, true)) = (l.foldl (fun w k => w.putCrumb a k) w, true) := by
  induction l generalizing w with
  | nil => rfl
  | cons k l ih =>
    have hcrumb : w.writeCrumb ch k a (event k) = (w.putCrumb a k, true) := by
      rw [Work.writeCrumb, hpoison, Bool.false_and, Bool.false_and, if_neg Bool.false_ne_true,
        if_pos (wholeCrumb_of_wholeCrumbs hwr hlen hwhole hpos (hl k List.mem_cons_self))]
      rfl
    have hnext : (w.putCrumb a k).writesPoison a = false := by
      rw [← hpoison, Work.writesPoison, Work.writesPoison, (putCrumb_writes hwr hlen w k).hw]
    rw [List.foldl_cons, hcrumb]
    exact ih (fun x hx => hl x (List.mem_cons_of_mem _ hx)) _ hnext

theorem performDram_write {w : Work} (hpoison : w.writesPoison a = false) (ch which : Nat) (ecc : EccEvent) : w.performDram ch a which ecc =
    a.crumbList.foldl (fun w k => w.putCrumb a k) (w.chanCount ch a (w.crumbAct ch a)) := by
  have hkept : (w.chanCount ch a (w.crumbAct ch a)).writesPoison a = false := by
    rw [← hpoison, Work.writesPoison, Work.writesPoison, (chanCount_counted w ch a (w.crumbAct ch a)).hw]
  rw [Work.performDram, ← Work.crumbAct]
  dsimp only
  rw [hwr]
  dsimp only
  rw [writeFold_whole hwr hlen hwhole hpos ch _ a.crumbList (fun _ => id) _ hkept]
  dsimp only
  rw [if_pos hwhole]

end Whole

/-! ### The obligation -/

section Serve
variable {s : State} {r : RegionIx} {n : Fin 64} {i : Nat} {batch : Bool} {a : Access}

/-- The machine whose channel has taken the access out of its queue. -/
def Work.serving (w : Work) (ch i : Nat) (batch : Bool) : Work := w.updChan ch fun k => { k with queue := k.queue.eraseIdx i, batch := batch }

theorem serving_chan (w : Work) (ch i : Nat) (batch : Bool) : (w.serving ch i batch).chan ch =
    { w.chan ch with queue := (w.chan ch).queue.eraseIdx i, batch := batch } := chan_updChan_self ..

/-- A read returns the bytes of memory, and answers its request with its last part. -/
theorem memAccess_reads {w : Work} {ch id c which : Nat} {q : Req} (hch : ch < 1024) (hok : w.chFailed ch = false) (hwr : a.wr = none)
    (hclean : a.crumbList.any w.poisoned = false) (hreq : a.req = some id) (hq : w.req? id = some q) (hsrc : q.src = .ctl c)
    (hstage : q.stage = .memory 1) (hbad : q.bad = .ok) : ∃ u : Work, w.counted ch u ∧
      u.givesReq id (q.given a.off (w.rdBytes a.lo a.len)) (w.performAccess ch a which .clean) := by
  have hgood : ∀ k ∈ a.crumbList, w.poisoned k = false := fun k hk => by
    simpa using List.any_eq_false.mp hclean k hk
  have hcount := chanCount_counted w ch a (w.crumbAct ch a)
  refine ⟨w.chanCount ch a (w.crumbAct ch a), hcount, ?_⟩
  have hbytes : (w.chanCount ch a (w.crumbAct ch a)).rdBytes a.lo a.len = w.rdBytes a.lo a.len := by
    unfold Work.rdBytes Work.rdB
    rw [hcount.mem, hcount.wr, hcount.hw]
  have hq' : (w.chanCount ch a (w.crumbAct ch a)).req? id = some q := by
    rw [Work.req?, hcount.hw]
    exact hq
  rw [performAccess_stacked hch hok a which (by decide) (by decide), performDram_read hwr hgood, ← hbytes]
  exact accessRead_gives hreq hq' hsrc hstage hbad

theorem rdBytes_getD (w : Work) (lo : Nat) {len j : Nat} (h : j < len) : (w.rdBytes lo len).getD j 0 = w.rdB (lo + j) := by
  rw [Work.rdBytes, List.getD_eq_getElem _ _ (by simpa using h), List.getElem_map, List.getElem_range]

theorem memAccess_read {ch id c : Nat} {q : Req} {crumb : Fin 2} (hrun : ∀ ecc, exec (.memAccess r n crumb ecc) s =
      done s ((s.look.serving ch i batch).performAccess ch a crumb ecc)) (hch : ch < 1024) (hok : s.look.chFailed ch = false) (hwr : a.wr = none)
    (hclean : a.crumbList.any s.look.poisoned = false) (hreq : a.req = some id) (hq : s.look.req? id = some q) (hsrc : q.src = .ctl c)
    (hstage : q.stage = .memory 1) (hbad : q.bad = .ok) : goesTo (exec (.memAccess r n crumb .clean) s) fun t =>
      (∃ q', t.look.req? id = some q' ∧ q'.stage = .replied ∧ q'.bad = .ok ∧ q'.src = q.src ∧ q'.off = q.off ∧
        ∀ j, j < a.len → q'.byte (a.off + j) = s.look.rdB (a.lo + j)) ∧
      (∀ x, x ≠ id → t.look.req? x = s.look.req? x) ∧ (t.look.chan ch).queue = (s.look.chan ch).queue.eraseIdx i ∧ (t.look.chan ch).batch = batch ∧
        sameBytes s t ∧ t.hw.cores = s.hw.cores ∧ t.pending = s.pending := by
  obtain ⟨u, hcount, hgives⟩ := memAccess_reads (w := s.look.serving ch i batch) (which := crumb) hch hok hwr hclean hreq hq hsrc hstage hbad
  generalize hv : (s.look.serving ch i batch).performAccess ch a crumb .clean = v at hgives
  have hchan : v.chan ch = u.chan ch := by rw [Work.chan, hgives.hw, Work.chan]
  have hserve := serving_chan s.look ch i batch
  refine ⟨_, (hrun .clean).trans (congrArg (done s) hv), ⟨_, hgives.self, rfl, hbad, rfl, rfl, fun j hj => ?_⟩, fun x hx => ?_, ?_, ?_, ?_, ?_, commit_pending ..⟩
  · rw [given_byte _ _ _ (by rw [Work.rdBytes, List.length_map, List.length_range]; exact hj), rdBytes_getD _ _ hj]
    rfl
  · refine (hgives.other x hx).trans ?_
    rw [Work.req?, hcount.hw]
    rfl
  · exact (congrArg Chan.queue hchan :).trans (hcount.queue.trans (congrArg Chan.queue hserve :))
  · exact (congrArg Chan.batch hchan :).trans (hcount.batch.trans (congrArg Chan.batch hserve :))
  · exact sameBytes_of (hgives.mem.trans hcount.mem) (hgives.wr.trans hcount.wr) (by rw [hgives.hw, hcount.hw]; rfl)
  · rw [commit_hw, hgives.hw, hcount.hw]
    rfl

theorem memAccess_write {ch : Nat} {d : List (Option Byte)} {crumb : Fin 2} {ecc : EccEvent} (hrun : ∀ ecc, exec (.memAccess r n crumb ecc) s =
      done s ((s.look.serving ch i batch).performAccess ch a crumb ecc)) (hch : ch < 1024) (hok : s.look.chFailed ch = false) (hwr : a.wr = some d)
    (hlen : d.length = a.len) (hwhole : a.wholeCrumbs = true) (hpos : 0 < a.len) (hpoison : s.look.writesPoison a = false)
    (ht : ecc ≠ .cmdTransient) (hl : ecc ≠ .cmdLasting) : goesTo (exec (.memAccess r n crumb ecc) s) fun t =>
      (∀ j v, j < a.len → d[j]? = some (some v) → t.look.rdB (a.lo + j) = v) ∧
      sameBytesBut (fun x => a.lo ≤ x ∧ x < a.lo + a.len) s t ∧ (t.look.chan ch).queue = (s.look.chan ch).queue.eraseIdx i ∧
        (t.look.chan ch).batch = batch ∧ t.hw.cores = s.hw.cores ∧ t.hw.reqs = s.hw.reqs ∧ t.pending = s.pending := by
  have hdram := performAccess_stacked (w := s.look.serving ch i batch) hch hok a crumb ht hl
  rw [performDram_write (w := s.look.serving ch i batch) hwr hlen hwhole hpos hpoison] at hdram
  have hserve := serving_chan s.look ch i batch
  have hcount := chanCount_counted (s.look.serving ch i batch) ch a ((s.look.serving ch i batch).crumbAct ch a)
  generalize (s.look.serving ch i batch).chanCount ch a ((s.look.serving ch i batch).crumbAct ch a) = u at hdram hcount
  have hput := putCrumbs_writes hwr hlen a.crumbList u
  have hbyte {j : Nat} {v : Byte} (hj : j < a.len) (hv : d[j]? = some (some v)) := rdB_putCrumbs hwr hv a.crumbList u (.inr (crumb_mem hj))
  generalize a.crumbList.foldl (fun w k => w.putCrumb a k) u = v at hdram hput hbyte
  have hchan : v.chan ch = u.chan ch := by rw [Work.chan, hput.hw, Work.chan]
  have hu (x : Nat) : u.rdB x = s.look.rdB x := by
    rw [Work.rdB, hcount.mem, hcount.wr, hcount.hw]
    rfl
  have hmem : v.mem = s.mem := hput.mem.trans hcount.mem
  refine ⟨_, (hrun ecc).trans (congrArg (done s) hdram), fun j x hj hx => (commit_rdB s v hmem _).trans (hbyte hj hx),
    fun x hx => (commit_rdB s v hmem x).trans ((hput.byte x hx).trans (hu x)), ?_, ?_, ?_, ?_, commit_pending ..⟩
  · exact (congrArg Chan.queue hchan :).trans (hcount.queue.trans (congrArg Chan.queue hserve :))
  · exact (congrArg Chan.batch hchan :).trans (hcount.batch.trans (congrArg Chan.batch hserve :))
  · rw [commit_hw, hput.hw, hcount.hw]
    rfl
  · rw [commit_hw, hput.hw, hcount.hw]
    rfl

end Serve

theorem memRequestAdmit_admits {s : State} {r : RegionIx} {n : Fin 64} {input left i : Nat} {a : Access} {w : Work} (hp : s.powered = true)
    (hup : s.look.memUp r = true) (hadm : s.look.memAdmits r = true) (htrained : s.look.flag (Reg.MEM_STATUS r) Fld.MEM_STATUS_TRAINED = true)
    (hdom : s.look.fld Reg.CLK_STATUS Fld.CLK_STATUS_DOM_SRC = 0)
    (hroom : (s.look.chan (64 * r.val + n.val)).queue.length < s.look.chDepth (64 * r.val + n.val))
    (harb : (s.look.chan (64 * r.val + n.val)).arbitrate (s.look.hotLimit (64 * r.val + n.val)) = some (input, left))
    (hcand : (s.look.chan (64 * r.val + n.val)).candidate input (s.look.hotLimit (64 * r.val + n.val)) = some (i, a))
    (h : s.look.takeAccess (64 * r.val + n.val) i a input left = w) : exec (.memRequestAdmit r n) s = done s w :=
  memRequestAdmit_run hp hup hadm htrained hdom ((admitOne_eq hroom harb hcand).trans h)

/-- The queue behind an admission, and that nothing else has changed. -/
theorem queued_leaves (s : State) (ch : Nat) (taken : Chan) (a : Access) (hq : taken.queue = (s.look.chan ch).queue) :
    let t := Work.commit s (s.look.queued ch taken a)
    t.look.chan ch = { taken with queue := (s.look.chan ch).queue ++ [{ a with at_ := s.look.chNow ch }] } ∧
      (∀ x, x ≠ ch → t.look.chan x = s.look.chan x) ∧ t.hw = { s.hw with chans := t.hw.chans } ∧ sameBytes s t ∧ sameWords s t ∧
        t.pending = s.pending := by
  refine ⟨(chan_commit ..).trans ?_, fun x hx => (chan_commit ..).trans ?_, rfl, sameBytes_of rfl rfl rfl, sameWords_of rfl rfl, rfl⟩
  · rw [Work.queued, chan_updChan_self, chan_updChan_self, hq]
  · rw [Work.queued, chan_updChan_other _ _ hx, chan_updChan_other _ _ hx]

/-- Settles O26: an admission is one entry of the reorder queue, and an access moves its own bytes alone. -/
theorem memAccesses : Obligations.MemAccesses := by
  unfold Obligations.MemAccesses
  refine ⟨?_, ?_⟩
  · rintro r n s input left i a w ch k taken covered ⟨hp, hup, hadm, htrained, hdom, hroom, harb, hcand⟩
    have htaken : (w.chan ch).takes i a input left = taken := rfl
    have hrun {v : Work} (h : w.takeAccess ch i a input left = v) := memRequestAdmit_admits hp hup hadm htrained hdom hroom harb hcand h
    exact ⟨fun ⟨hcov, hwhole⟩ => ⟨_, hrun (takeAccess_queues htaken hcov hwhole), queued_leaves s ch taken a rfl⟩,
      fun ⟨hcov, hwr, hwhole⟩ => hrun (takeAccess_accepts htaken hcov hwr hwhole), fun hcov => hrun (takeAccess_forwards htaken hcov)⟩
  · intro r n crumb s i batch a w ch k taken turn
    have hch : ch < 1024 := by
      have hr := r.isLt
      have hn := n.isLt
      exact Nat.lt_of_lt_of_le (Nat.add_lt_add_left hn _) (by omega)
    have hrun (hp : s.powered = true) (hup : w.memUp r = true) (hserve : w.chServes ch = true) (hnext : w.nextAccess ch = (some i, batch))
        (ha : k.queue[i]? = some a) : ∀ ecc, exec (.memAccess r n crumb ecc) s = done s ((w.serving ch i batch).performAccess ch a crumb ecc) :=
      memAccess_run hp hup hserve hnext ha crumb
    refine ⟨?_, ?_, ?_⟩
    · rintro id q c ⟨⟨hp, hup, hserve, hok, hnext, ha⟩, hwr, hclean, hreq, hq, hsrc, hstage, hbad⟩
      exact memAccess_read (hrun hp hup hserve hnext ha) hch hok hwr hclean hreq hq hsrc hstage hbad
    · rintro d ecc ⟨⟨hp, hup, hserve, hok, hnext, ha⟩, hwr, hlen, hwhole, hpos, hpoison, ht, hl⟩
      exact memAccess_write (hrun hp hup hserve hnext ha) hch hok hwr hlen hwhole hpos hpoison ht hl
    · rintro ⟨hp, hup, hserve, hnext, ha⟩
      exact hrun hp hup hserve hnext ha

end Sys2Proof.Machine
end

section
/-! SUPPORT. A master's write of one 32-bit register with every byte set (R13, R56–R59, R63–R67). -/

namespace Sys2Proof.Machine

/-- Counting a clamp writes the clamp counters and the capture, and nothing else. -/
theorem clamp_words {who : ClampBy} (h : who.hasCounter) (w : Work) (addr word lsb : Nat) (rule : ClampRule) :
    w.words clampWord (w.clamp who addr word lsb rule) := by
  have hkept := clamp_touches w who addr word lsb rule
  exact ⟨hkept.mem, hkept.csr, hkept.wr, clamp_hw .., (clamp_writes h w addr word lsb rule).word⟩

theorem countClamps_words {who : ClampBy} (h : who.hasCounter) (w : Work) (addr : Nat) (vs : List FieldVal) :
    w.words clampWord (w.countClamps who addr vs) := by
  refine .forEach _ (fun u v _ => ?_) w
  split
  · split
    · exact .refl ..
    · exact clamp_words h ..
  · exact .refl ..

/-- What a write of v leaves in the 32-bit register at a, of map row `row`. -/
def Work.rowStored (w : Work) (row : RegRow) (a v : Nat) : Nat :=
  packFields (w.r32 a).toNat (joined w ⟨row, a⟩ (writeFields row.fields (w.r32 a).toNat v (byteMask 0 [true, true, true, true])))

section Word
variable {row : RegRow} {a : Nat} (hat : regAt a = some ⟨row, a⟩) (hsize : row.size = 4)
include hat hsize

theorem regParts_word (v : Nat) : regParts a 4 15 v = [⟨⟨row, a⟩, [true, true, true, true], v⟩] := by
  have henabled : (List.range 4).map (fun i => decide (a ≤ a + i) && decide (a + i < a + 4) && decide (bits 15 (a + i - a) 1 = 1)) =
      [true, true, true, true] := by
    simp only [Nat.add_sub_cancel_left, Nat.le_add_right, Nat.add_lt_add_iff_left, decide_true, Bool.true_and]
    decide
  rw [regParts, hat, if_neg (by decide)]
  dsimp only
  rw [hsize, henabled, if_pos (Nat.le_refl a), Nat.sub_self]
  rfl

omit hat in
theorem takesWrite_word (v : Nat) : (⟨⟨row, a⟩, [true, true, true, true], v⟩ : RegPart).takesWrite 4 15 = true := by
  unfold RegPart.takesWrite
  dsimp only
  split
  · rw [if_neg (by rw [hsize]; decide)]
    decide
  · rfl

variable {w : Work} {m : Master} (htakes : w.regTakes a = true) (halign : a % 4 = 0)
include htakes halign

theorem regWrite_eq (v : Nat) : w.regWrite m a .w32 0xF v = w.storeReg (w.clampBy m) ⟨row, a⟩ [true, true, true, true] v := by
  have hdown : a / 4 * 4 = a := Nat.div_mul_cancel (Nat.dvd_of_mod_eq_zero halign)
  have hans : w.answers a = .usual := of_decide_eq_true htakes
  change w.storeParts m 4 15 (regParts (a / 4 * 4) 4 15 v) = _
  rw [hdown, regParts_word hat hsize, Work.storeParts, Work.forEach, List.foldl_cons, List.foldl_nil]
  dsimp only
  rw [takesWrite_word hsize, hans]
  rfl

variable (hname : row.name ≠ "CORE_LINK_CFG_k") (hclamp : ¬ clampWord a)
include hname hclamp

/-- The write reaches its register, and the counters of the clamps that it meets. -/
theorem regWrite_word (v : Nat) : w.words (fun x => clampWord x ∨ x = a) (w.regWrite m a .w32 0xF v) ∧
    (w.regWrite m a .w32 0xF v).r32 a = BitVec.ofNat 32 (w.rowStored row a v) := by
  have h8 : ¬ row.size = 8 := by
    rw [hsize]
    decide
  rw [regWrite_eq hat hsize htakes halign, Work.storeReg]
  dsimp only
  rw [if_neg h8, if_neg h8, if_neg hname]
  change _ ∧ _ = BitVec.ofNat 32 (w.rowStored row a v)
  have hcount := countClamps_words (hasCounter_clampBy w m) w a
    (joined w ⟨row, a⟩ (writeFields row.fields (w.r32 a).toNat v (byteMask 0 [true, true, true, true])))
  have hkept := hcount.mono (q := fun x => clampWord x ∨ x = a) fun _ => .inl
  rw [← Work.rowStored]
  split
  · next heq =>
    refine ⟨hkept, (hcount.word a hclamp).trans ?_⟩
    rw [heq, BitVec.ofNat_toNat, BitVec.setWidth_eq]
  · exact ⟨hkept.trans (.w32 _ _ (.inr rfl)), r32_w32_self ..⟩

end Word

/-! ### The fields that a write leaves (R13, R63) -/

/-- One field after a write. -/
def fieldWritten (old data mask : Nat) (f : FieldRow) : FieldVal :=
  let m := bits mask f.lsb f.width
  let o := bits old f.lsb f.width
  let d := bits data f.lsb f.width
  match f.acc with
  | .rw =>
    if m = 0 then ⟨f, o, o, none⟩
    else
      let x := (o &&& (2 ^ f.width - 1 - m)) ||| (d &&& m)
      let r := f.legal.apply x
      ⟨f, x, r.1, r.2⟩
  | .w1c => ⟨f, o, o &&& (2 ^ f.width - 1 - (d &&& m)), none⟩
  | .w1s => ⟨f, o, o ||| (d &&& m), none⟩
  | _ => ⟨f, o, o, none⟩

theorem writeFields_eq (rows : List FieldRow) (old data mask : Nat) : writeFields rows old data mask = rows.map (fieldWritten old data mask) := rfl

theorem fieldWritten_row (old data mask : Nat) (f : FieldRow) : (fieldWritten old data mask f).row = f := by
  unfold fieldWritten
  dsimp only
  split
  · split <;> rfl
  · rfl
  · rfl
  · rfl

/-- A field that takes any value, with all its bits written. -/
theorem fieldWritten_any (old data : Nat) {mask : Nat} {f : FieldRow} (hacc : f.acc = .rw) (hlegal : f.legal = .any) (hpos : 0 < f.width)
    (hmask : bits mask f.lsb f.width = 2 ^ f.width - 1) : (fieldWritten old data mask f).value = bits data f.lsb f.width := by
  have hne : ¬ 2 ^ f.width - 1 = 0 := by
    have := Nat.one_lt_two_pow (Nat.pos_iff_ne_zero.mp hpos)
    omega
  unfold fieldWritten
  dsimp only
  rw [hacc]
  dsimp only
  rw [hmask, if_neg hne, hlegal]
  dsimp only [Legal.apply]
  rw [Nat.sub_self, Nat.and_zero, Nat.zero_or, Nat.and_two_pow_sub_one_eq_mod]
  exact Nat.mod_mod ..

theorem mem_joinSet {vs : List FieldVal} {lsb x : Nat} {u : FieldVal} (h : u ∈ joinSet vs lsb x) :
    ∃ v ∈ vs, u.row = v.row ∧ (v.row.lsb ≠ lsb → u = v) := by
  obtain ⟨v, hv, rfl⟩ := List.mem_map.mp h
  refine ⟨v, hv, ?_, fun hne => if_neg fun h => hne h.1⟩
  split <;> rfl

/-- The contents show a field that stands beside the other fields. -/
theorem bits_packFields {l n c : Nat} (vs : List FieldVal) (old : Nat)
    (hrows : ∀ x ∈ vs, (x.row.lsb = l ∧ x.row.width = n ∧ x.value % 2 ^ n = c) ∨ x.row.lsb + x.row.width ≤ l ∨ l + n ≤ x.row.lsb)
    (hone : bits old l n = c ∨ ∃ x ∈ vs, x.row.lsb = l ∧ x.row.width = n ∧ x.value % 2 ^ n = c) : bits (packFields old vs) l n = c := by
  induction vs generalizing old with
  | nil => exact hone.resolve_right fun ⟨x, hx, _⟩ => List.not_mem_nil hx
  | cons x vs ih =>
    refine ih (setBits old x.row.lsb x.row.width x.value) (fun y hy => hrows y (List.mem_cons_of_mem _ hy)) ?_
    rcases hrows x List.mem_cons_self with ⟨hl, hn, hc⟩ | hbeside
    · left
      rw [hl, hn, bits_setBits_self, hc]
    · rcases hone with h | ⟨y, hy, hl, hn, hc⟩
      · left
        rw [← h]
        rcases hbeside with hb | hb
        · exact bits_setBits_above _ _ _ hb
        · exact bits_setBits_below _ _ hb
      · rcases List.mem_cons.mp hy with rfl | hy
        · left
          rw [hl, hn, bits_setBits_self, hc]
        · exact .inr ⟨y, hy, hl, hn, hc⟩

end Sys2Proof.Machine
end

section
/-! PROOFS. Capacity ports: admission, refresh, temperature, scrub (R314–R323, R327). -/

namespace Sys2Proof.Machine

/-! ### Channels -/

theorem capRequestAdmit_run {s : State} {d p : Fin 4} {n : Fin 8} {w : Work} (hp : s.powered = true) (hclock : s.look.clocked = true)
    (hadm : s.look.capAdmits (1024 + 8 * (4 * d.val + p.val) + n.val) = true) (hdom : s.look.fld Reg.CLK_STATUS Fld.CLK_STATUS_DOM_SRC = 0)
    (h : s.look.admitOne (1024 + 8 * (4 * d.val + p.val) + n.val) = w) : exec (.capRequestAdmit d p n) s = done s w := by
  change execCapRequestAdmit d p n s = _
  refine runs hp ?_
  dsimp only
  rw [hclock, hadm, decide_eq_true hdom]
  exact h

/-- Nothing queued covers a read of some crumb. -/
theorem covers_nil {w : Work} {k : Chan} {a : Access} (hq : k.queue = []) (hcrumbs : a.crumbList ≠ []) : w.covers k a = false := by
  obtain ⟨c, l, hc⟩ := List.exists_cons_of_ne_nil hcrumbs
  rw [Work.covers, Chan.forwards, hq, hc]
  simp

section Access
variable {s : State} {d p : Fin 4} {n : Fin 8} {w : Work} (hp : s.powered = true) (hclock : s.look.clocked = true)
include hp hclock

theorem capAccess_serves {i : Nat} {batch : Bool} {a : Access} (hserve : s.look.chServes (1024 + 8 * (4 * d.val + p.val) + n.val) = true)
    (hgone : s.look.capGone (1024 + 8 * (4 * d.val + p.val) + n.val) = false)
    (hnext : s.look.nextAccess (1024 + 8 * (4 * d.val + p.val) + n.val) = (some i, batch))
    (ha : (s.look.chan (1024 + 8 * (4 * d.val + p.val) + n.val)).queue[i]? = some a) (crumb : Fin 2) (ecc : EccEvent) :
    exec (.capAccess d p n crumb ecc) s = done s ((s.look.updChan (1024 + 8 * (4 * d.val + p.val) + n.val) fun k =>
      { k with queue := k.queue.eraseIdx i, batch := batch }).performAccess (1024 + 8 * (4 * d.val + p.val) + n.val) a crumb ecc) := by
  change execCapAccess d p n crumb ecc s = _
  refine runs hp ?_
  dsimp only
  rw [hclock, hgone, hserve, Bool.not_true, if_neg Bool.false_ne_true, if_neg Bool.false_ne_true, if_pos rfl, Work.serveChannel, hnext]
  dsimp only
  rw [ha]

theorem capAccess_gone {a : Access} {rest : List Access} {id : Nat} {q : Req}
    (hgone : s.look.capGone (1024 + 8 * (4 * d.val + p.val) + n.val) = true)
    (hqueue : (s.look.chan (1024 + 8 * (4 * d.val + p.val) + n.val)).queue = a :: rest) (hreq : a.req = some id) (hq : s.look.req? id = some q)
    (crumb : Fin 2) (ecc : EccEvent) : exec (.capAccess d p n crumb ecc) s = done s
      (((s.look.updChan (1024 + 8 * (4 * d.val + p.val) + n.val) fun k => { k with queue := rest }).accessDone a .ok).reqFault
        { q with dpa := a.lo, isDpa := true } 0x01 0) := by
  have hbind (f : Chan → Chan) : a.req.bind (s.look.updChan (1024 + 8 * (4 * d.val + p.val) + n.val) f).req? = some q := by
    rw [hreq]
    exact hq
  change execCapAccess d p n crumb ecc s = _
  refine runs hp ?_
  dsimp only
  rw [hclock, hgone, Bool.not_true, if_neg Bool.false_ne_true, if_pos rfl, Work.serveGone, hqueue]
  dsimp only
  rw [hbind]

theorem capRefresh_run (hserve : s.look.chServes (1024 + 8 * (4 * d.val + p.val) + n.val) = true)
    (hok : s.look.chFailed (1024 + 8 * (4 * d.val + p.val) + n.val) = false)
    (h : (if s.look.flag (Reg.CAP_CTRL d) Fld.CAP_CTRL_REF_PB then s.look.refreshed (1024 + 8 * (4 * d.val + p.val) + n.val) (Reg.CAP_P_REF d p)
      (s.look.fld (Reg.CAP_TIMING_3 d) Fld.CAP_TIMING_3_TRFCPB) fun k => { k with rows := SMap.set 0 k.rows k.refBank 0, refBank := (k.refBank + 1) % 16 }
      else s.look.refreshed (1024 + 8 * (4 * d.val + p.val) + n.val) (Reg.CAP_P_REF d p) (16 * s.look.fld (Reg.CAP_TIMING_3 d) Fld.CAP_TIMING_3_TRFCAB)
        fun k => { k with rows := [] }) = w) : exec (.capRefresh d p n) s = done s w := by
  change execCapRefresh d p n s = _
  refine runs hp ?_
  dsimp only
  rw [hclock, hserve, hok, Bool.not_true, Bool.or_false, Bool.or_false, if_neg Bool.false_ne_true]
  exact h

end Access

theorem csrDie_capRef (d p : Fin 4) : csrDie (Reg.CAP_P_REF d p) = 24 + d.val := by
  rw [Reg.CAP_P_REF, Nat.add_assoc]
  exact csrDie_window (by omega)

/-! ### Ports -/

/-- What a valid reading of a rank's temperature leaves (R319). -/
def Work.rankRead (w : Work) (d q rank rate : Nat) (hot : Bool) : Work :=
  { w.setFld (Reg.CAP_PORT_INFO d q) Fld.CAP_PORT_INFO_REF_RATE rate with
    hw := { w.hw with capHot := SMap.set false w.hw.capHot (2 * (4 * d + q) + rank) hot } }

section Temp
variable {s : State} {d p : Fin 4} (hp : s.powered = true) (hclock : s.look.clocked = true)
  (htrained : bits (s.look.fld (Reg.CAP_STATUS d) Fld.CAP_STATUS_TRAINED) p 1 = 1)
include hp hclock htrained

theorem capTempRead_run (rank : Fin 2) (check : ReadCheck) (rate : Fin 8) (hot : Bool) : exec (.capTempRead d p rank check rate hot) s = done s
    (match check with
      | .clean => s.look.rankRead d p rank rate hot
      | .transient => (s.look.chTransient (1024 + 8 * (4 * d.val + p.val)) Fld.CAP_ERR_STAT_PORT_TRANSIENT).rankRead d p rank rate hot
      | .lasting => (s.look.setFlag (Reg.CAP_ERR_STAT d) Fld.CAP_ERR_STAT_PORT_FAIL true).capPortFails d p 2) := by
  have hguard : ¬ (!s.look.clocked || decide (bits (s.look.fld (Reg.CAP_STATUS d) Fld.CAP_STATUS_TRAINED) p 1 = 0)) = true := by
    rw [hclock, htrained]
    decide
  change execCapTempRead d p rank check rate hot s = _
  refine runs hp ?_
  dsimp only
  rw [if_neg hguard]
  cases check with
  | clean | transient =>
    dsimp only
    rw [Work.rankRead]
  | lasting => rfl

theorem capTempRead_transient (rank : Fin 2) (rate : Fin 8) (hot : Bool) {v : Work}
    (hv : s.look.chTransient (1024 + 8 * (4 * d.val + p.val)) Fld.CAP_ERR_STAT_PORT_TRANSIENT = v) :
    exec (.capTempRead d p rank .transient rate hot) s = done s { (v.setFld (Reg.CAP_PORT_INFO d p) Fld.CAP_PORT_INFO_REF_RATE rate.val) with
      hw := { v.hw with capHot := SMap.set false v.hw.capHot (2 * (4 * d.val + p.val) + rank.val) hot } } := by
  have hrun := capTempRead_run hp hclock htrained rank .transient rate hot
  rw [hv, Work.rankRead] at hrun
  exact hrun

theorem capTempRead_clean (rank : Fin 2) (rate : Fin 8) (hot : Bool) : goesTo (exec (.capTempRead d p rank .clean rate hot) s) fun t =>
    t.look.fld (Reg.CAP_PORT_INFO d p) Fld.CAP_PORT_INFO_REF_RATE = rate.val ∧
      SMap.get false t.hw.capHot (2 * (4 * d.val + p.val) + rank.val) = hot ∧ sameWordsBut [Reg.CAP_PORT_INFO d p] s t ∧ sameBytes s t ∧
        t.hw = { s.hw with capHot := t.hw.capHot } ∧ t.pending = s.pending := by
  have hall : s.look.touches (· = Reg.CAP_PORT_INFO d p) noCore (s.look.rankRead d p rank rate hot) := by
    have hinfo := Work.words.at_ (a := Reg.CAP_PORT_INFO d p) s.look (f := Fld.CAP_PORT_INFO_REF_RATE) rate.val (by decide)
    refine ⟨hinfo.mem, hinfo.csr, hinfo.wr, rfl, fun a ha => hinfo.word a ha, fun _ _ => rfl⟩
  refine ⟨_, capTempRead_run hp hclock htrained rank .clean rate hot, ?_, SMap.get_set_self .., hall.sameWordsBut fun a ha =>
    List.mem_singleton.mpr ha, hall.sameBytes, rfl, commit_pending ..⟩
  refine (hall.commit_fld ..).trans ((fld_setFld_self s.look _ _ _ (by decide)).trans ?_)
  exact Nat.mod_eq_of_lt rate.isLt

end Temp

/-! ### Scrubbing (R322) -/

/-- Where the scrubber of a port stands within its backed range. -/
def Work.scrubAt (w : Work) (d p : Nat) : Nat :=
  if (w.chan (1024 + 8 * (4 * d + p))).scrub < w.fld (Reg.CAP_PORT_INFO d p) Fld.CAP_PORT_INFO_USABLE * 2 ^ 23 then
    (w.chan (1024 + 8 * (4 * d + p))).scrub else 0

/-- A scrub read of the burst at a joins its channel, and the walk kept with channel ch goes on behind place n. -/
def Work.scrubs (w : Work) (ch a n : Nat) : Work :=
  (w.updChan (w.chanOf a) fun k => { k with queue := k.queue ++ [⟨none, a, 64, 0, none, none, 0, 0, w.chNow (w.chanOf a)⟩] }).updChan ch
    fun k => { k with scrub := n + 1 }

theorem scrubs_leaves (s : State) (ch a n : Nat) : let on := s.look.chanOf a; let t := Work.commit s (s.look.scrubs ch a n)
    (t.look.chan on).queue = (s.look.chan on).queue ++ [⟨none, a, 64, 0, none, none, 0, 0, s.look.chNow on⟩] ∧ (t.look.chan ch).scrub = n + 1 ∧
      (∀ x, x ≠ ch → x ≠ on → t.look.chan x = s.look.chan x) ∧ t.hw = { s.hw with chans := t.hw.chans } ∧ sameBytes s t ∧ sameWords s t ∧
        t.pending = s.pending := by
  intro on t
  refine ⟨?_, ?_, fun x hx hon => ?_, rfl, sameBytes_of rfl rfl rfl, sameWords_of rfl rfl, rfl⟩
  · refine (congrArg Chan.queue (chan_commit s (s.look.scrubs ch a n) on) :).trans ?_
    rw [Work.scrubs]
    by_cases h : on = ch
    · rw [h, chan_updChan_self, ← h, chan_updChan_self]
    · rw [chan_updChan_other _ _ h, chan_updChan_self]
  · refine (congrArg Chan.scrub (chan_commit s (s.look.scrubs ch a n) ch) :).trans ?_
    rw [Work.scrubs, chan_updChan_self]
  · refine (chan_commit ..).trans ?_
    rw [Work.scrubs, chan_updChan_other _ _ hx, chan_updChan_other _ _ hon]

theorem capScrubRead_run {s : State} {d p : Fin 4} {a : Nat} (hp : s.powered = true) (hclock : s.look.clocked = true)
    (hpos : 0 < s.look.fld (Reg.CAP_PORT_INFO d p) Fld.CAP_PORT_INFO_USABLE * 2 ^ 23)
    (hen : s.look.flag (Reg.CAP_CTRL d) Fld.CAP_CTRL_SCRUB_EN = true)
    (ha : a = 0x20000000000 + (4 * d.val + p.val) * 2 ^ 37 + 64 * s.look.scrubAt d p) (hecc : s.look.chHasEcc (s.look.chanOf a) = true)
    (hgone : s.look.capGone (s.look.chanOf a) = false) (hok : s.look.chFailed (s.look.chanOf a) = false)
    (hroom : (s.look.chan (s.look.chanOf a)).queue.length < s.look.chDepth (s.look.chanOf a)) :
    exec (.capScrubRead d p) s = done s (s.look.scrubs (1024 + 8 * (4 * d.val + p.val)) a (s.look.scrubAt d p)) := by
  have hplace : (a - (0x20000000000 + (4 * d.val + p.val) * 2 ^ 37)) / 64 = s.look.scrubAt d p := by
    rw [ha, Nat.add_sub_cancel_left, Nat.mul_div_cancel_left _ (by decide)]
  have hguard : (s.look.clocked && decide (0 < s.look.fld (Reg.CAP_PORT_INFO d p) Fld.CAP_PORT_INFO_USABLE * 2 ^ 23) &&
      s.look.flag (Reg.CAP_CTRL d) Fld.CAP_CTRL_SCRUB_EN && s.look.chHasEcc (s.look.chanOf a) && !s.look.capGone (s.look.chanOf a) &&
        !s.look.chFailed (s.look.chanOf a) && decide ((s.look.chan (s.look.chanOf a)).queue.length < s.look.chDepth (s.look.chanOf a))) = true := by
    rw [hclock, decide_eq_true hpos, hen, hecc, hgone, hok, decide_eq_true hroom]
    rfl
  change execCapScrubRead d p s = _
  refine runs hp ?_
  dsimp only
  rw [← Work.scrubAt, ← ha, if_pos hguard, hplace, Work.scrubs]

/-! ### Training (R324–R327) -/

/-- CAP_STATUS as the start of a training leaves it. -/
def Work.trainBegun (w : Work) (d : Nat) : Work :=
  ((w.setFlag (Reg.CAP_STATUS d) Fld.CAP_STATUS_BUSY true).setFld (Reg.CAP_STATUS d) Fld.CAP_STATUS_TRAINED 0).setFld (Reg.CAP_STATUS d)
    Fld.CAP_STATUS_FAILED 0

theorem trainBegun_words (w : Work) (d : Nat) : w.words (· = Reg.CAP_STATUS d) (w.trainBegun d) :=
  ((Work.words.at_ w (f := Fld.CAP_STATUS_BUSY) _ (by decide)).trans (.at_ _ (f := Fld.CAP_STATUS_TRAINED) _ (by decide))).trans
    (.at_ _ (f := Fld.CAP_STATUS_FAILED) _ (by decide))

theorem trainBegun_fields (w : Work) (d : Nat) : (w.trainBegun d).flag (Reg.CAP_STATUS d) Fld.CAP_STATUS_BUSY = true ∧
    (w.trainBegun d).fld (Reg.CAP_STATUS d) Fld.CAP_STATUS_TRAINED = 0 ∧ (w.trainBegun d).fld (Reg.CAP_STATUS d) Fld.CAP_STATUS_FAILED = 0 := by
  unfold Work.trainBegun
  refine ⟨?_, ?_, fld_setFld_self _ _ _ _ (by decide)⟩
  · rw [flag_setFld_beside _ _ (by decide) (by decide) (by decide), flag_setFld_beside _ _ (by decide) (by decide) (by decide),
      flag_setFlag_self _ _ (by decide) (by decide)]
  · rw [fld_setFld_beside _ _ _ (by decide) (by decide) (by decide), fld_setFld_self _ _ _ _ (by decide)]
    rfl

theorem capTrain_run {s : State} {d : Fin 4} {value : Word} (hp : s.powered = true) (htakes : s.look.regTakes (Reg.CAP_CMD d) = true)
    (hgo : value.getLsbD 0 = true) (m : Master) : exec (.capTrain m d value) s = done s
      (if s.look.flag (Reg.CAP_STATUS d) Fld.CAP_STATUS_BUSY || !s.look.flag (Reg.CAP_CTRL d) Fld.CAP_CTRL_EN then
        s.look.clamp (s.look.clampBy m) (Reg.CAP_CMD d) 0 0 .joined else s.look.trainBegun d) := by
  have hbit := bits_getLsbD value 0
  rw [hgo] at hbit
  change execCapTrain m d value s = _
  refine runs hp ?_
  rw [Work.when, htakes, if_pos rfl, Work.capCmdWrite, if_neg (by rw [hbit]; decide)]
  rfl

/-- What CAP_PORT_INFO shows of a port whose devices report so (R310, R328). -/
def portInfo (type inline : Nat) (p : PortReport) : Nat :=
  p.installed.toNat + (if type ≠ 2 ∧ inline = 1 then p.installed.toNat - p.installed.toNat / 8 else p.installed.toNat) * 2 ^ 16 +
    (if p.twoRank then 1 else 0) * 2 ^ 25

/-- A port whose training has ended, its report kept and its rows closed. -/
def Work.portReported (w : Work) (d q info : Nat) : Work :=
  (w.w32 (Reg.CAP_PORT_INFO d q) (BitVec.ofNat 32 info)).forEach (List.range 8) fun w c =>
    w.updChan (1024 + 8 * (4 * d + q) + c) fun k => { k with rows := [] }

/-- A port that has passed. -/
def Work.portTrained (w : Work) (d q info : Nat) : Work :=
  (w.portReported d q info).setFld (Reg.CAP_STATUS d) Fld.CAP_STATUS_TRAINED
    ((w.portReported d q info).fld (Reg.CAP_STATUS d) Fld.CAP_STATUS_TRAINED ||| 2 ^ q)

/-- One port ends its training. -/
def Work.portEnds (w : Work) (d type inline : Nat) (bad : Bool) (p : PortReport) (q : Nat) : Work :=
  let n := p.installed.toNat
  let usable := if type ≠ 2 ∧ inline = 1 then n - n / 8 else n
  let w := w.w32 (Reg.CAP_PORT_INFO d q) (BitVec.ofNat 32 (n + usable * 2 ^ 16 + (if p.twoRank then 1 else 0) * 2 ^ 25))
  let w := w.forEach (List.range 8) fun w c => w.updChan (1024 + 8 * (4 * d + q) + c) fun k => { k with rows := [] }
  if !portPasses p then (w.setFlag (Reg.CAP_ERR_STAT d) Fld.CAP_ERR_STAT_TRAIN_FAIL true).capPortFails d q 3
  else
    let w := if p.first then w else w.chTransient (1024 + 8 * (4 * d + q)) Fld.CAP_ERR_STAT_PORT_TRANSIENT
    if bad then w.capPortFails d q 3
    else w.setFld (Reg.CAP_STATUS d) Fld.CAP_STATUS_TRAINED (w.fld (Reg.CAP_STATUS d) Fld.CAP_STATUS_TRAINED ||| 2 ^ q)

theorem portEnds_passes {p : PortReport} (hpass : portPasses p = true) (hfirst : p.first = true) (w : Work) (d type inline q : Nat) :
    w.portEnds d type inline false p q = w.portTrained d q (portInfo type inline p) := by
  rw [Work.portEnds, hpass, hfirst, Bool.not_true, if_neg Bool.false_ne_true]
  dsimp only
  rw [if_pos rfl, if_neg Bool.false_ne_true, Work.portTrained, Work.portReported, portInfo]

/-- The organisations in force and the hot marks of the capacity ports. -/
def Work.inMode (w : Work) (mode : SMap Nat) (hot : SMap Bool) : Work := { w with hw := { w.hw with capMode := mode, capHot := hot } }

theorem inMode_touches (p q : Nat → Prop) (w : Work) (mode : SMap Nat) (hot : SMap Bool) : w.touches p q (w.inMode mode hot) :=
  .of_hw rfl rfl rfl rfl rfl rfl

@[simp] theorem inMode_r32 (w : Work) (mode : SMap Nat) (hot : SMap Bool) (a : Nat) : (w.inMode mode hot).r32 a = w.r32 a := rfl

/-- A die as its training finds it: the organisation that its control asks for is in force, its ranks are not hot. -/
def Work.organised (w : Work) (d : Nat) : Work :=
  let v := w.setFlag (Reg.CAP_STATUS d) Fld.CAP_STATUS_BUSY false
  v.inMode (SMap.set 0 v.hw.capMode d (1 + v.fld (Reg.CAP_CTRL d) Fld.CAP_CTRL_TYPE + 4 * v.fld (Reg.CAP_CTRL d) Fld.CAP_CTRL_INLINE_ECC +
    8 * v.fld (Reg.CAP_CTRL d) Fld.CAP_CTRL_RATE)) ((List.range 8).foldl (fun m i => SMap.set false m (8 * d + i) false) v.hw.capHot)

/-- CAP_STATUS shows whether the die mismatches, and that its devices have left self-refresh. -/
def Work.matched (w : Work) (d : Nat) (bad : Bool) : Work :=
  (w.setFlag (Reg.CAP_STATUS d) Fld.CAP_STATUS_MISMATCH bad).setFlag (Reg.CAP_STATUS d) Fld.CAP_STATUS_SELFREF false

theorem capTrainDone_ports {s : State} {d : Fin 4} {p0 p1 p2 p3 : PortReport} {bad : Bool} (hp : s.powered = true)
    (hbusy : s.look.flag (Reg.CAP_STATUS d) Fld.CAP_STATUS_BUSY = true)
    (hon : (s.look.setFlag (Reg.CAP_STATUS d) Fld.CAP_STATUS_BUSY false).flag (Reg.CAP_CTRL d) Fld.CAP_CTRL_EN = true)
    (hbad : (s.look.organised d).capMismatch d [p0, p1, p2, p3] = bad) : exec (.capTrainDone d p0 p1 p2 p3) s = done s
      (((s.look.organised d).matched d bad).forEach [p0, p1, p2, p3].zipIdx fun w pq =>
        w.portEnds d ((s.look.setFlag (Reg.CAP_STATUS d) Fld.CAP_STATUS_BUSY false).fld (Reg.CAP_CTRL d) Fld.CAP_CTRL_TYPE)
          ((s.look.setFlag (Reg.CAP_STATUS d) Fld.CAP_STATUS_BUSY false).fld (Reg.CAP_CTRL d) Fld.CAP_CTRL_INLINE_ECC) bad pq.1 pq.2) := by
  change execCapTrainDone d p0 p1 p2 p3 s = _
  refine runs hp ?_
  generalize [p0, p1, p2, p3] = ps at hbad ⊢
  subst hbad
  dsimp only
  rw [hbusy, Bool.not_true, if_neg Bool.false_ne_true, hon, Bool.not_true, if_neg Bool.false_ne_true]
  unfold Work.matched Work.organised Work.inMode Work.portEnds
  rfl

/-- What the end of a training changes: channels, and the die's status and port registers. -/
structure Work.trains (d : Nat) (w w' : Work) : Prop where
  mem : w'.mem = w.mem
  csr : w'.csr = w.csr
  wr : w'.wr = w.wr
  hw : w'.hw = { w.hw with chans := w'.hw.chans }
  word : ∀ a, a ≠ Reg.CAP_STATUS d → (∀ q, q < 4 → a ≠ Reg.CAP_PORT_INFO d q) → w'.r32 a = w.r32 a

theorem Work.trains.trans {d : Nat} {u v w : Work} (h : u.trains d v) (h' : v.trains d w) : u.trains d w := by
  obtain ⟨hmem, hcsr, hwr, hhw, hword⟩ := h
  obtain ⟨hmem', hcsr', hwr', hhw', hword'⟩ := h'
  exact ⟨hmem'.trans hmem, hcsr'.trans hcsr, hwr'.trans hwr, by rw [hhw', hhw], fun a ha hq => (hword' a ha hq).trans (hword a ha hq)⟩

theorem capStatus_ne_info (d q : Nat) : Reg.CAP_STATUS d ≠ Reg.CAP_PORT_INFO d q := by
  simp only [Reg.CAP_STATUS, Reg.CAP_PORT_INFO]
  omega

section Ports
variable (w : Work) (d : Nat)

theorem rowsClosed_parts (l : List Nat) (base : Nat) : (w.forEach l fun w c => w.updChan (base + c) fun k => { k with rows := [] }).cw = w.cw ∧
    (w.forEach l fun w c => w.updChan (base + c) fun k => { k with rows := [] }).csr = w.csr ∧
    (w.forEach l fun w c => w.updChan (base + c) fun k => { k with rows := [] }).mem = w.mem ∧
    (w.forEach l fun w c => w.updChan (base + c) fun k => { k with rows := [] }).wr = w.wr ∧
    (w.forEach l fun w c => w.updChan (base + c) fun k => { k with rows := [] }).hw =
      { w.hw with chans := (w.forEach l fun w c => w.updChan (base + c) fun k => { k with rows := [] }).hw.chans } := by
  unfold Work.forEach
  induction l generalizing w with
  | nil => exact ⟨rfl, rfl, rfl, rfl, rfl⟩
  | cons c l ih =>
    obtain ⟨hcw, hcsr, hmem, hwr, hhw⟩ := ih (w.updChan (base + c) fun k => { k with rows := [] })
    exact ⟨hcw, hcsr, hmem, hwr, hhw⟩

theorem portReported_r32 (q info a : Nat) : (w.portReported d q info).r32 a = (w.w32 (Reg.CAP_PORT_INFO d q) (BitVec.ofNat 32 info)).r32 a := by
  obtain ⟨hcw, hcsr, -⟩ := rowsClosed_parts (w.w32 (Reg.CAP_PORT_INFO d q) (BitVec.ofNat 32 info)) (List.range 8) (1024 + 8 * (4 * d + q))
  exact r32_of_cw _ _ hcw hcsr a

theorem portTrained_trains {q : Nat} (hq : q < 4) (info : Nat) : w.trains d (w.portTrained d q info) := by
  obtain ⟨-, hcsr, hmem, hwr, hhw⟩ := rowsClosed_parts (w.w32 (Reg.CAP_PORT_INFO d q) (BitVec.ofNat 32 info)) (List.range 8) (1024 + 8 * (4 * d + q))
  have hset := Work.words.at_ (a := Reg.CAP_STATUS d) (w.portReported d q info) (f := Fld.CAP_STATUS_TRAINED)
    ((w.portReported d q info).fld (Reg.CAP_STATUS d) Fld.CAP_STATUS_TRAINED ||| 2 ^ q) (by decide)
  refine ⟨hset.mem.trans hmem, hset.csr.trans hcsr, hset.wr.trans hwr, ?_, fun a ha hinfo => (hset.word a ha).trans ?_⟩
  · exact hset.hw.trans (hhw.trans (congrArg (fun m => { w.hw with chans := m }) (congrArg Hw.chans hset.hw).symm))
  · rw [portReported_r32, r32_w32_other _ _ (hinfo q hq)]

theorem portTrained_info (q info : Nat) : (w.portTrained d q info).r32 (Reg.CAP_PORT_INFO d q) = BitVec.ofNat 32 info := by
  rw [Work.portTrained, r32_setFld_other _ _ _ (by decide) (capStatus_ne_info d q).symm, portReported_r32, r32_w32_self]

theorem portTrained_info_other {q p : Nat} (info : Nat) (h : p ≠ q) :
    (w.portTrained d q info).r32 (Reg.CAP_PORT_INFO d p) = w.r32 (Reg.CAP_PORT_INFO d p) := by
  rw [Work.portTrained, r32_setFld_other _ _ _ (by decide) (capStatus_ne_info d p).symm, portReported_r32, r32_w32_other]
  simp only [Reg.CAP_PORT_INFO]
  omega

theorem portTrained_trained (q info : Nat) : (w.portTrained d q info).fld (Reg.CAP_STATUS d) Fld.CAP_STATUS_TRAINED =
    (w.fld (Reg.CAP_STATUS d) Fld.CAP_STATUS_TRAINED ||| 2 ^ q) % 2 ^ 4 := by
  have hstatus : (w.portReported d q info).fld (Reg.CAP_STATUS d) Fld.CAP_STATUS_TRAINED = w.fld (Reg.CAP_STATUS d) Fld.CAP_STATUS_TRAINED :=
    fld_of_r32 (by decide) ((portReported_r32 ..).trans (r32_w32_other _ _ (capStatus_ne_info d q)))
  rw [Work.portTrained, hstatus, fld_setFld_self _ _ _ _ (by decide)]
  rfl

theorem portTrained_flag (q info : Nat) {f : Fld} (hf : f.lsb + f.width ≤ 32) (h : 4 ≤ f.lsb) :
    (w.portTrained d q info).flag (Reg.CAP_STATUS d) f = w.flag (Reg.CAP_STATUS d) f := by
  rw [Work.portTrained, flag_setFld_beside _ _ (f := Fld.CAP_STATUS_TRAINED) (by decide) hf (.inl h), Work.flag, Work.flag]
  exact congrArg (fun x => decide (x = 1)) (fld_of_r32 hf ((portReported_r32 ..).trans (r32_w32_other _ _ (capStatus_ne_info d q))))

/-- All four ports have passed. -/
def Work.allTrained (f : Nat → Nat) : Work :=
  (((w.portTrained d 0 (f 0)).portTrained d 1 (f 1)).portTrained d 2 (f 2)).portTrained d 3 (f 3)

theorem allTrained_trains (f : Nat → Nat) : w.trains d (w.allTrained d f) :=
  (((portTrained_trains w d (by decide) _).trans (portTrained_trains _ d (by decide) _)).trans (portTrained_trains _ d (by decide) _)).trans
    (portTrained_trains _ d (by decide) _)

theorem allTrained_info (f : Nat → Nat) (q : Fin 4) : (w.allTrained d f).r32 (Reg.CAP_PORT_INFO d q) = BitVec.ofNat 32 (f q) := by
  unfold Work.allTrained
  match q with
  | 0 => rw [portTrained_info_other _ _ _ (by decide), portTrained_info_other _ _ _ (by decide), portTrained_info_other _ _ _ (by decide)]
         exact portTrained_info ..
  | 1 => rw [portTrained_info_other _ _ _ (by decide), portTrained_info_other _ _ _ (by decide)]
         exact portTrained_info ..
  | 2 => rw [portTrained_info_other _ _ _ (by decide)]
         exact portTrained_info ..
  | 3 => exact portTrained_info ..

theorem allTrained_trained (f : Nat → Nat) : (w.allTrained d f).fld (Reg.CAP_STATUS d) Fld.CAP_STATUS_TRAINED = 15 := by
  have hlt : w.fld (Reg.CAP_STATUS d) Fld.CAP_STATUS_TRAINED < 16 := Nat.mod_lt _ (Nat.two_pow_pos 4)
  have hor : ∀ x : Fin 16, ((((x.val ||| 2 ^ 0) % 2 ^ 4 ||| 2 ^ 1) % 2 ^ 4 ||| 2 ^ 2) % 2 ^ 4 ||| 2 ^ 3) % 2 ^ 4 = 15 := by decide
  unfold Work.allTrained
  rw [portTrained_trained, portTrained_trained, portTrained_trained, portTrained_trained]
  exact hor ⟨_, hlt⟩

theorem allTrained_flag (f : Nat → Nat) {g : Fld} (hg : g.lsb + g.width ≤ 32) (h : 4 ≤ g.lsb) :
    (w.allTrained d f).flag (Reg.CAP_STATUS d) g = w.flag (Reg.CAP_STATUS d) g := by
  unfold Work.allTrained
  rw [portTrained_flag _ _ _ _ hg h, portTrained_flag _ _ _ _ hg h, portTrained_flag _ _ _ _ hg h, portTrained_flag _ _ _ _ hg h]

end Ports

theorem portInfo_usable (type inline : Nat) (p : PortReport) : bits (BitVec.ofNat 32 (portInfo type inline p)).toNat 16 9 =
    if type ≠ 2 ∧ inline = 1 then p.installed.toNat - p.installed.toNat / 8 else p.installed.toNat := by
  have hinst : p.installed.toNat < 512 := p.installed.isLt
  have htwo : (if p.twoRank then 1 else 0) ≤ 1 := by split <;> omega
  have husable : (if type ≠ 2 ∧ inline = 1 then p.installed.toNat - p.installed.toNat / 8 else p.installed.toNat) < 512 := by split <;> omega
  rw [bits_eq, portInfo, BitVec.toNat_ofNat]
  generalize (if type ≠ 2 ∧ inline = 1 then p.installed.toNat - p.installed.toNat / 8 else p.installed.toNat) = u at husable ⊢
  generalize (if p.twoRank then 1 else 0) = t at htwo ⊢
  omega

/-- Whether a die mismatches is a matter of the control registers. -/
theorem capMismatch_of_ctl {u w : Work} (h : ∀ i, u.r32 (Reg.CAP_CTRL i) = w.r32 (Reg.CAP_CTRL i)) (d : Nat) (ps : List PortReport) :
    u.capMismatch d ps = w.capMismatch d ps := by
  have hfld (i : Nat) (f : Fld) (hf : f.lsb + f.width ≤ 32) : u.fld (Reg.CAP_CTRL i) f = w.fld (Reg.CAP_CTRL i) f := fld_of_r32 hf (h i)
  unfold Work.capMismatch Work.flag
  simp only [hfld _ Fld.CAP_CTRL_TYPE (by decide), hfld _ Fld.CAP_CTRL_EN (by decide), hfld _ Fld.CAP_CTRL_RATE (by decide)]

theorem ctl_ne_status (i d : Nat) : Reg.CAP_CTRL i ≠ Reg.CAP_STATUS d := by
  simp only [Reg.CAP_CTRL, Reg.CAP_STATUS, dieWindow]
  omega

section Done
variable (w : Work) (d : Nat)

theorem organised_touches : w.touches (· = Reg.CAP_STATUS d) noCore (w.organised d) := by
  have hbusy : w.words (· = Reg.CAP_STATUS d) (w.setFlag (Reg.CAP_STATUS d) Fld.CAP_STATUS_BUSY false) := .setFlag w false (by decide) rfl
  exact (hbusy.touches noCore).trans (inMode_touches ..)

theorem organised_r32 (a : Nat) : (w.organised d).r32 a = (w.setFlag (Reg.CAP_STATUS d) Fld.CAP_STATUS_BUSY false).r32 a := by
  rw [Work.organised, inMode_r32]

theorem matched_words (bad : Bool) : w.words (· = Reg.CAP_STATUS d) (w.matched d bad) :=
  (Work.words.at_ w (f := Fld.CAP_STATUS_MISMATCH) _ (by decide)).trans (.at_ _ (f := Fld.CAP_STATUS_SELFREF) _ (by decide))

/-- The die at the end of a training that every port has passed. -/
def Work.trainEnded (w : Work) (d : Nat) (f : Nat → Nat) : Work := ((w.organised d).matched d false).allTrained d f

theorem trainEnded_touches (f : Nat → Nat) :
    w.touches (fun a => a = Reg.CAP_STATUS d ∨ ∃ q, q < 4 ∧ a = Reg.CAP_PORT_INFO d q) noCore (w.trainEnded d f) := by
  have hstatus : w.touches (fun a => a = Reg.CAP_STATUS d ∨ ∃ q, q < 4 ∧ a = Reg.CAP_PORT_INFO d q) noCore ((w.organised d).matched d false) :=
    ((organised_touches w d).trans ((matched_words ..).touches _)).mono (fun _ => .inl) fun _ => id
  have hports := allTrained_trains ((w.organised d).matched d false) d f
  unfold Work.trainEnded
  refine hstatus.trans ⟨hports.mem, hports.csr, hports.wr, by rw [hports.hw], fun a ha => ?_, fun c _ => ?_⟩
  · exact hports.word a (fun h => ha (.inl h)) fun q hq h => ha (.inr ⟨q, hq, h⟩)
  · exact core_of_cores _ _ (by rw [hports.hw]) c

theorem trainEnded_flags (f : Nat → Nat) : (w.trainEnded d f).flag (Reg.CAP_STATUS d) Fld.CAP_STATUS_BUSY = false ∧
    (w.trainEnded d f).flag (Reg.CAP_STATUS d) Fld.CAP_STATUS_MISMATCH = false := by
  unfold Work.trainEnded
  rw [allTrained_flag _ _ _ (by decide) (by decide), allTrained_flag _ _ _ (by decide) (by decide)]
  unfold Work.matched
  refine ⟨?_, ?_⟩
  · rw [flag_setFlag_beside _ _ (by decide) (by decide) (by decide), flag_setFlag_beside _ _ (by decide) (by decide) (by decide)]
    rw [Work.flag, fld_of_r32 (by decide) (organised_r32 w d (Reg.CAP_STATUS d)), ← Work.flag]
    exact flag_setFlag_self w _ (by decide) (by decide)
  · rw [flag_setFlag_beside _ _ (by decide) (by decide) (by decide), flag_setFlag_self _ _ (by decide) (by decide)]

theorem trainEnded_mode (f : Nat → Nat) : SMap.get 0 (w.trainEnded d f).hw.capMode d = 1 + w.fld (Reg.CAP_CTRL d) Fld.CAP_CTRL_TYPE +
    4 * w.fld (Reg.CAP_CTRL d) Fld.CAP_CTRL_INLINE_ECC + 8 * w.fld (Reg.CAP_CTRL d) Fld.CAP_CTRL_RATE := by
  have hctl (g : Fld) (hg : g.lsb + g.width ≤ 32) :
      (w.setFlag (Reg.CAP_STATUS d) Fld.CAP_STATUS_BUSY false).fld (Reg.CAP_CTRL d) g = w.fld (Reg.CAP_CTRL d) g :=
    fld_setFlag_other _ _ (by decide) hg (ctl_ne_status d d)
  rw [Work.trainEnded, (allTrained_trains ..).hw, (matched_words ..).hw, Work.organised, Work.inMode]
  dsimp only
  rw [SMap.get_set_self, hctl _ (by decide), hctl _ (by decide), hctl _ (by decide)]

end Done

theorem capTrainDone_passes {s : State} {d : Fin 4} {p0 p1 p2 p3 : PortReport} (hp : s.powered = true)
    (hbusy : s.look.flag (Reg.CAP_STATUS d) Fld.CAP_STATUS_BUSY = true) (hon : s.look.flag (Reg.CAP_CTRL d) Fld.CAP_CTRL_EN = true)
    (hmatch : s.look.capMismatch d [p0, p1, p2, p3] = false) (hpass : ∀ p ∈ [p0, p1, p2, p3], portPasses p = true ∧ p.first = true) :
    exec (.capTrainDone d p0 p1 p2 p3) s = done s (s.look.trainEnded d fun q => portInfo (s.look.fld (Reg.CAP_CTRL d) Fld.CAP_CTRL_TYPE)
      (s.look.fld (Reg.CAP_CTRL d) Fld.CAP_CTRL_INLINE_ECC) ([p0, p1, p2, p3].getD q p0)) := by
  have hctl (g : Fld) (hg : g.lsb + g.width ≤ 32) :
      (s.look.setFlag (Reg.CAP_STATUS d) Fld.CAP_STATUS_BUSY false).fld (Reg.CAP_CTRL d) g = s.look.fld (Reg.CAP_CTRL d) g :=
    fld_setFlag_other _ _ (by decide) hg (ctl_ne_status d d)
  have hstill : (s.look.organised d).capMismatch d [p0, p1, p2, p3] = false :=
    (capMismatch_of_ctl (fun i => (organised_touches s.look d).word _ (ctl_ne_status i d)) d _).trans hmatch
  have hrun := capTrainDone_ports hp hbusy ((flag_setFlag_other _ _ (by decide) (by decide) (ctl_ne_status d d)).trans hon) hstill
  rw [hctl _ (by decide), hctl _ (by decide)] at hrun
  simp only [List.mem_cons, List.not_mem_nil, or_false, forall_eq_or_imp, forall_eq] at hpass
  obtain ⟨⟨h0, f0⟩, ⟨h1, f1⟩, ⟨h2, f2⟩, h3, f3⟩ := hpass
  rw [hrun]
  unfold Work.forEach
  simp only [List.zipIdx_cons, List.zipIdx_nil, List.foldl_cons, List.foldl_nil, portEnds_passes h0 f0, portEnds_passes h1 f1, portEnds_passes h2 f2,
    portEnds_passes h3 f3]
  rw [Work.trainEnded, Work.allTrained]
  rfl

/-! ### Clearing EN (R327) -/

/-- The row of CAP_CTRL in the register map. -/
def capCtrlRow : RegRow := ⟨"CAP_CTRL", 0, 0, 1, 0, 1, 4, false, 0x102c,
  [⟨0, 2, .rw, (.take 3 3 2)⟩, ⟨2, 1, .rw, .any⟩, ⟨3, 1, .rw, .any⟩, ⟨4, 1, .rw, .any⟩, ⟨5, 1, .rw, .any⟩, ⟨8, 6, .rw, .any⟩]⟩

theorem regAt_capCtrl : ∀ d : Fin 4, regAt (Reg.CAP_CTRL d) = some ⟨capCtrlRow, Reg.CAP_CTRL d⟩ := by decide +kernel

theorem capCtrl_place : ∀ d : Fin 4, Reg.CAP_CTRL d % 4 = 0 ∧ ¬ clampWord (Reg.CAP_CTRL d) := by
  unfold clampWord
  decide

theorem joined_capCtrl (w : Work) (a : Nat) (vs : List FieldVal) : ∃ x y, joined w ⟨capCtrlRow, a⟩ vs = joinSet (joinSet vs 8 x) 8 y := by
  have hname : (⟨capCtrlRow, a⟩ : RegHit).row.name = "CAP_CTRL" := rfl
  unfold joined
  rw [hname, if_neg (by decide), if_neg (by decide), if_neg (by decide), if_neg (by decide), if_neg (by decide), if_pos rfl]
  exact ⟨_, _, rfl⟩

/-- EN is as it was written. -/
theorem capCtrl_en (w : Work) (a v : Nat) : bits (w.rowStored capCtrlRow a v) 4 1 = bits v 4 1 := by
  generalize hwritten : fieldWritten (w.r32 a).toNat v (byteMask 0 [true, true, true, true]) = written
  have hrow (f : FieldRow) : (written f).row = f := hwritten ▸ fieldWritten_row ..
  obtain ⟨x, y, hjoin⟩ := joined_capCtrl w a (capCtrlRow.fields.map written)
  have hmem : ∀ u ∈ joinSet (joinSet (capCtrlRow.fields.map written) 8 x) 8 y,
      ∃ f ∈ capCtrlRow.fields, u.row = f ∧ (f.lsb ≠ 8 → u = written f) := by
    intro u hu
    obtain ⟨u1, hu1, hr1, he1⟩ := mem_joinSet hu
    obtain ⟨u2, hu2, hr2, he2⟩ := mem_joinSet hu1
    obtain ⟨f, hf, rfl⟩ := List.mem_map.mp hu2
    have hu1row : u1.row = f := hr2.trans (hrow f)
    refine ⟨f, hf, hr1.trans hu1row, fun hne => ?_⟩
    rw [hu1row] at he1
    rw [hrow f] at he2
    exact (he1 hne).trans (he2 hne)
  have hrows : ∀ f ∈ capCtrlRow.fields, f = ⟨4, 1, .rw, .any⟩ ∨ f.lsb + f.width ≤ 4 ∨ 4 + 1 ≤ f.lsb := by decide
  have hen : (written ⟨4, 1, .rw, .any⟩).value = bits v 4 1 := hwritten ▸ fieldWritten_any _ v rfl rfl (by decide) (by decide)
  have hlt : bits v 4 1 % 2 ^ 1 = bits v 4 1 := Nat.mod_mod ..
  rw [Work.rowStored, writeFields_eq, hwritten, hjoin]
  refine bits_packFields _ _ (fun u hu => ?_) (.inr ?_)
  · obtain ⟨f, hf, hur, hue⟩ := hmem u hu
    rw [hur]
    rcases hrows f hf with rfl | h
    · exact .inl ⟨rfl, rfl, by rw [hue (by decide), hen, hlt]⟩
    · exact .inr h
  · refine ⟨written ⟨4, 1, .rw, .any⟩, ?_, congrArg FieldRow.lsb (hrow _), congrArg FieldRow.width (hrow _), by rw [hen, hlt]⟩
    have hkept {vs : List FieldVal} {z : Nat} (h : written ⟨4, 1, .rw, .any⟩ ∈ vs) : written ⟨4, 1, .rw, .any⟩ ∈ joinSet vs 8 z := by
      refine List.mem_map.mpr ⟨_, h, if_neg ?_⟩
      rw [hrow]
      exact fun h => absurd h.1 (by decide)
    exact hkept (hkept (List.mem_map_of_mem (by decide)))

/-- CAP_STATUS and the organisation of a die whose ranges go out of use. -/
def Work.outOfUse (w : Work) (d : Nat) : Work :=
  let v := (w.setFld (Reg.CAP_STATUS d) Fld.CAP_STATUS_TRAINED 0).setFlag (Reg.CAP_STATUS d) Fld.CAP_STATUS_SELFREF true
  v.inMode (SMap.set 0 v.hw.capMode d 0) v.hw.capHot

theorem outOfUse_r32 (w : Work) (d a : Nat) : (w.outOfUse d).r32 a =
    ((w.setFld (Reg.CAP_STATUS d) Fld.CAP_STATUS_TRAINED 0).setFlag (Reg.CAP_STATUS d) Fld.CAP_STATUS_SELFREF true).r32 a := by
  rw [Work.outOfUse, inMode_r32]

theorem outOfUse_touches (w : Work) (d : Nat) : w.touches (· = Reg.CAP_STATUS d) noCore (w.outOfUse d) := by
  have hstatus : w.words (· = Reg.CAP_STATUS d)
      ((w.setFld (Reg.CAP_STATUS d) Fld.CAP_STATUS_TRAINED 0).setFlag (Reg.CAP_STATUS d) Fld.CAP_STATUS_SELFREF true) :=
    (Work.words.at_ w (f := Fld.CAP_STATUS_TRAINED) 0 (by decide)).trans (.setFlag _ true (by decide) rfl)
  exact (hstatus.touches noCore).trans (inMode_touches ..)

theorem bits_ofNat (v : Nat) {l n : Nat} (h : l + n ≤ 32) : bits (BitVec.ofNat 32 v).toNat l n = bits v l n := by
  rw [bits_eq, bits_eq, BitVec.toNat_ofNat, ← Nat.mod_mul_right_div_self, ← Nat.mod_mul_right_div_self (m := v), ← pow_add]
  rw [Nat.mod_mod_of_dvd _ (pow_dvd_pow 2 h)]

theorem capCtrlHook_off {w : Work} {d : Nat} (h : w.flag (Reg.CAP_CTRL d) Fld.CAP_CTRL_EN = false) : w.capCtrlHook d true = w.outOfUse d := by
  have hguard : (true && !w.flag (Reg.CAP_CTRL d) Fld.CAP_CTRL_EN) = true := by
    rw [h]
    rfl
  rw [Work.capCtrlHook, if_pos hguard, Work.outOfUse, Work.inMode]

theorem capEnClear_run {s : State} {d : Fin 4} {value : Word} (m : Master) (hp : s.powered = true) (hclear : value.getLsbD 4 = false)
    (hon : s.look.flag (Reg.CAP_CTRL d) Fld.CAP_CTRL_EN = true)
    (hoff : (s.look.regWrite m (Reg.CAP_CTRL d) .w32 0xF value.toNat).flag (Reg.CAP_CTRL d) Fld.CAP_CTRL_EN = false) :
    exec (.capEnClear m d value) s = done s ((s.look.regWrite m (Reg.CAP_CTRL d) .w32 0xF value.toNat).outOfUse d) := by
  have hbit := bits_getLsbD value 4
  rw [hclear] at hbit
  change execCapEnClear m d value s = _
  refine runs hp ?_
  rw [if_neg (by rw [hbit]; decide), hon]
  exact capCtrlHook_off hoff

theorem outOfUse_cores (w : Work) (d : Nat) : (w.outOfUse d).hw.cores = w.hw.cores := by
  rw [Work.outOfUse, Work.inMode]
  dsimp only
  rw [Work.setFlag, setFld_hw, setFld_hw]

theorem outOfUse_capMode (w : Work) (d : Nat) : SMap.get 0 (w.outOfUse d).hw.capMode d = 0 := by
  rw [Work.outOfUse, Work.inMode]
  exact SMap.get_set_self 0 _ d 0

theorem outOfUse_trained (w : Work) (d : Nat) : (w.outOfUse d).fld (Reg.CAP_STATUS d) Fld.CAP_STATUS_TRAINED = 0 := by
  rw [fld_of_r32 (by decide) (outOfUse_r32 w d _), fld_setFlag_beside _ _ (by decide) (by decide) (by decide), fld_setFld_self _ _ _ _ (by decide)]
  exact Nat.zero_mod _

theorem outOfUse_selfref (w : Work) (d : Nat) : (w.outOfUse d).flag (Reg.CAP_STATUS d) Fld.CAP_STATUS_SELFREF = true := by
  rw [Work.flag, fld_of_r32 (by decide) (outOfUse_r32 w d _), ← Work.flag, flag_setFlag_self _ _ (by decide) (by decide)]

theorem flag_of_fld {w : Work} {a : Nat} {f : Fld} {n : Nat} (h : w.fld a f = n) : w.flag a f = decide (n = 1) := by
  rw [Work.flag, h]

theorem capEnClear_writes {s : State} {d : Fin 4} {value : Word} (m : Master) (htakes : s.look.regTakes (Reg.CAP_CTRL d) = true)
    (hclear : value.getLsbD 4 = false) :
    (s.look.regWrite m (Reg.CAP_CTRL d) .w32 0xF value.toNat).flag (Reg.CAP_CTRL d) Fld.CAP_CTRL_EN = false := by
  obtain ⟨halign, hclamp⟩ := capCtrl_place d
  obtain ⟨-, hword⟩ := regWrite_word (m := m) (regAt_capCtrl d) rfl htakes halign (by decide) hclamp value.toNat
  have hbit := bits_getLsbD value 4
  rw [hclear] at hbit
  refine flag_of_fld (n := 0) ?_
  rw [Work.fld, if_pos (by decide), hword]
  exact (bits_ofNat _ (by decide)).trans ((capCtrl_en ..).trans hbit)

theorem capEnClear_leaves {s : State} {d : Fin 4} {value : Word} (m : Master) (hp : s.powered = true)
    (htakes : s.look.regTakes (Reg.CAP_CTRL d) = true) (hclear : value.getLsbD 4 = false)
    (hon : s.look.flag (Reg.CAP_CTRL d) Fld.CAP_CTRL_EN = true) : goesTo (exec (.capEnClear m d value) s) fun t =>
      t.look.flag (Reg.CAP_CTRL d) Fld.CAP_CTRL_EN = false ∧ t.look.fld (Reg.CAP_STATUS d) Fld.CAP_STATUS_TRAINED = 0 ∧
        t.look.flag (Reg.CAP_STATUS d) Fld.CAP_STATUS_SELFREF = true ∧ SMap.get 0 t.hw.capMode d = 0 ∧ sameBytes s t ∧ t.hw.cores = s.hw.cores := by
  obtain ⟨halign, hclamp⟩ := capCtrl_place d
  obtain ⟨hwords, -⟩ := regWrite_word (m := m) (regAt_capCtrl d) rfl htakes halign (by decide) hclamp value.toNat
  have hoff := capEnClear_writes m htakes hclear
  have hrun := capEnClear_run m hp hclear hon hoff
  generalize s.look.regWrite m (Reg.CAP_CTRL d) .w32 0xF value.toNat = u at hwords hoff hrun
  have hout := outOfUse_touches u d
  have hall : s.look.touches (fun x => (clampWord x ∨ x = Reg.CAP_CTRL d) ∨ x = Reg.CAP_STATUS d) noCore (u.outOfUse d) :=
    ((hwords.touches noCore).mono (fun _ => .inl) fun _ => id).trans (hout.mono (fun _ => .inr) fun _ => id)
  have hctl : (u.outOfUse d).flag (Reg.CAP_CTRL d) Fld.CAP_CTRL_EN = false := by
    rw [Work.flag, hout.fld_eq (by decide) (ctl_ne_status d d)]
    exact hoff
  have hcores : (u.outOfUse d).hw.cores = s.hw.cores := (outOfUse_cores u d).trans (congrArg Hw.cores hwords.hw)
  have htrained := outOfUse_trained u d
  have hself := outOfUse_selfref u d
  have hmode := outOfUse_capMode u d
  generalize u.outOfUse d = v at hrun hall hctl hcores htrained hself hmode
  refine ⟨_, hrun, ?_, ?_, ?_, ?_, hall.sameBytes, ?_⟩
  · rw [Work.flag, hall.commit_fld]
    exact hctl
  · rw [hall.commit_fld]
    exact htrained
  · rw [Work.flag, hall.commit_fld]
    exact hself
  · rw [commit_hw]
    exact hmode
  · rw [commit_hw]
    exact hcores

/-! ### The obligation -/

theorem inMode_cores (w : Work) (mode : SMap Nat) (hot : SMap Bool) : (w.inMode mode hot).hw.cores = w.hw.cores := rfl

theorem Work.trains.cores {d : Nat} {w w' : Work} (h : w.trains d w') : w'.hw.cores = w.hw.cores := by rw [h.hw]

theorem Work.words.cores {p : Nat → Prop} {w w' : Work} (h : w.words p w') : w'.hw.cores = w.hw.cores := by rw [h.hw]

theorem organised_cores (w : Work) (d : Nat) : (w.organised d).hw.cores = w.hw.cores := by
  rw [Work.organised, inMode_cores]
  exact (Work.words.setFlag (p := fun _ => True) w _ (by decide) trivial).cores

theorem trainEnded_cores (w : Work) (d : Nat) (f : Nat → Nat) : (w.trainEnded d f).hw.cores = w.hw.cores := by
  rw [Work.trainEnded, (allTrained_trains ..).cores, (matched_words ..).cores, organised_cores]

theorem trainEnded_usable (w : Work) (d : Nat) (f : Nat → Nat) (q : Fin 4) :
    (w.trainEnded d f).fld (Reg.CAP_PORT_INFO d q) Fld.CAP_PORT_INFO_USABLE = bits (BitVec.ofNat 32 (f q)).toNat 16 9 := by
  rw [Work.fld, if_pos (by decide), Work.trainEnded, allTrained_info]
  rfl

theorem capTrainDone_leaves {s : State} {d : Fin 4} {p0 p1 p2 p3 : PortReport} (hp : s.powered = true)
    (hbusy : s.look.flag (Reg.CAP_STATUS d) Fld.CAP_STATUS_BUSY = true) (hon : s.look.flag (Reg.CAP_CTRL d) Fld.CAP_CTRL_EN = true)
    (hmatch : s.look.capMismatch d [p0, p1, p2, p3] = false) (hpass : ∀ p ∈ [p0, p1, p2, p3], portPasses p = true ∧ p.first = true) :
    goesTo (exec (.capTrainDone d p0 p1 p2 p3) s) fun t => t.look.flag (Reg.CAP_STATUS d) Fld.CAP_STATUS_BUSY = false ∧
      t.look.flag (Reg.CAP_STATUS d) Fld.CAP_STATUS_MISMATCH = false ∧ bits (t.look.fld (Reg.CAP_STATUS d) Fld.CAP_STATUS_TRAINED) 0 4 = 15 ∧
      SMap.get 0 t.hw.capMode d = 1 + s.look.fld (Reg.CAP_CTRL d) Fld.CAP_CTRL_TYPE + 4 * s.look.fld (Reg.CAP_CTRL d) Fld.CAP_CTRL_INLINE_ECC +
        8 * s.look.fld (Reg.CAP_CTRL d) Fld.CAP_CTRL_RATE ∧
      (∀ q : Fin 4, t.look.fld (Reg.CAP_PORT_INFO d q) Fld.CAP_PORT_INFO_USABLE =
        if s.look.fld (Reg.CAP_CTRL d) Fld.CAP_CTRL_TYPE ≠ 2 ∧ s.look.fld (Reg.CAP_CTRL d) Fld.CAP_CTRL_INLINE_ECC = 1 then
          ([p0, p1, p2, p3].getD q p0).installed.toNat - ([p0, p1, p2, p3].getD q p0).installed.toNat / 8
        else ([p0, p1, p2, p3].getD q p0).installed.toNat) ∧
      sameWordsBut ([Reg.CAP_STATUS d] ++ (List.range 4).map (Reg.CAP_PORT_INFO d)) s t ∧ sameBytes s t ∧ t.hw.cores = s.hw.cores := by
  have hrun := capTrainDone_passes hp hbusy hon hmatch hpass
  generalize [p0, p1, p2, p3] = ps at hrun ⊢
  generalize hf : (fun q => portInfo (s.look.fld (Reg.CAP_CTRL d) Fld.CAP_CTRL_TYPE) (s.look.fld (Reg.CAP_CTRL d) Fld.CAP_CTRL_INLINE_ECC)
    (ps.getD q p0)) = f at hrun
  have hall := trainEnded_touches s.look d f
  have hcores : (s.look.trainEnded d f).hw.cores = s.hw.cores := trainEnded_cores ..
  obtain ⟨hidle, hmatched⟩ := trainEnded_flags s.look d f
  have htrained : (s.look.trainEnded d f).fld (Reg.CAP_STATUS d) Fld.CAP_STATUS_TRAINED = 15 := allTrained_trained ..
  have hinfo := trainEnded_usable s.look d f
  have hmode := trainEnded_mode s.look d f
  generalize s.look.trainEnded d f = v at hrun hall hcores hidle hmatched htrained hinfo hmode
  refine ⟨_, hrun, ?_, ?_, ?_, ?_, fun q => ?_, hall.sameWordsBut fun a ha => ?_, hall.sameBytes, ?_⟩
  · rw [Work.flag, hall.commit_fld]
    exact hidle
  · rw [Work.flag, hall.commit_fld]
    exact hmatched
  · rw [hall.commit_fld, htrained]
    decide
  · rw [commit_hw]
    exact hmode
  · rw [hall.commit_fld, hinfo, ← hf]
    exact portInfo_usable ..
  · rcases ha with rfl | ⟨q, hq, rfl⟩
    · exact List.mem_append_left _ List.mem_cons_self
    · exact List.mem_append_right _ (List.mem_map_of_mem (List.mem_range.mpr hq))
  · rw [commit_hw]
    exact hcores

/-- Settles O28: a channel's admissions, accesses and refreshes are those of its die; a training touches the die's own words. -/
theorem capPorts : Obligations.CapPorts := by
  unfold Obligations.CapPorts
  refine ⟨?_, ?_, ?_⟩
  · intro d p n s w ch k cnt ctl tm counted serves
    have hch : ch = 1024 + 8 * (4 * d.val + p.val) + n.val := rfl
    clear_value ch
    refine ⟨?_, ?_, ?_, ?_, ?_⟩
    · rintro input left i a ⟨hp, hclock, hadm, hdom, hroom, harb, hcand, hrd, hqueue, hcrumbs⟩
      have hwhole : ¬ (a.wr.isSome = true ∧ a.wholeCrumbs = true) := by
        rw [hrd]
        exact fun h => Bool.false_ne_true h.1
      have htaken : (w.chan ch).takes i a input left = (w.chan ch).takes i a input left := rfl
      have hadmit := (admitOne_eq hroom harb hcand).trans (takeAccess_queues htaken (covers_nil hqueue hcrumbs) hwhole)
      obtain ⟨hchan, hother, hhw, hbytes, hwords, -⟩ := queued_leaves s ch ((w.chan ch).takes i a input left) a rfl
      subst hch
      refine ⟨_, capRequestAdmit_run hp hclock hadm hdom hadmit, hchan.trans ?_, hother, hhw, hbytes, hwords⟩
      rw [hqueue]
      rfl
    · rintro crumb ecc i batch a ⟨⟨hp, hclock, hserve⟩, hgone, hnext, ha⟩
      subst hch
      exact capAccess_serves hp hclock hserve hgone hnext ha crumb ecc
    · rintro crumb ecc a rest id q ⟨hp, hclock, hgone, hqueue, hreq, hq⟩
      subst hch
      exact capAccess_gone hp hclock hgone hqueue hreq hq crumb ecc
    · rintro ⟨⟨hp, hclock, hserve⟩, hok, hbank⟩
      have h := refreshed_leaves (s := s) (ch := ch) (cnt := cnt) (cycles := w.fld tm Fld.CAP_TIMING_3_TRFCPB)
        (f := fun k => { k with rows := SMap.set 0 k.rows k.refBank 0, refBank := (k.refBank + 1) % 16 })
      rw [csrDie_capRef] at h
      obtain ⟨hchan, hother, hcnt, hwords, hbytes, hhw, hpend⟩ := h
      subst hch
      exact ⟨_, capRefresh_run hp hclock hserve hok (if_pos hbank), hchan, hcnt, hwords, hbytes, hother, hhw, hpend⟩
    · rintro ⟨⟨hp, hclock, hserve⟩, hok, hall⟩
      have h := refreshed_leaves (s := s) (ch := ch) (cnt := cnt) (cycles := 16 * w.fld tm Fld.CAP_TIMING_3_TRFCAB) (f := fun k => { k with rows := [] })
      rw [csrDie_capRef] at h
      obtain ⟨hchan, hother, hcnt, hwords, hbytes, hhw, hpend⟩ := h
      subst hch
      exact ⟨_, capRefresh_run hp hclock hserve hok (if_neg (ne_true_of_eq_false hall)), hchan, hcnt, hwords, hbytes, hother, hhw, hpend⟩
  · intro d p s w port ch info
    have hch : ch = 1024 + 8 * (4 * d.val + p.val) := rfl
    clear_value ch
    refine ⟨?_, ?_⟩
    · rintro rank rate hot ⟨hp, hclock, htrained⟩
      refine ⟨capTempRead_clean hp hclock htrained rank rate hot, ?_, capTempRead_run hp hclock htrained rank .lasting rate hot⟩
      intro v
      have hv : w.chTransient ch Fld.CAP_ERR_STAT_PORT_TRANSIENT = v := rfl
      clear_value v
      subst hch
      exact capTempRead_transient hp hclock htrained rank rate hot hv
    · rintro bursts n a on ⟨hp, hclock, hpos, hen, hecc, hgone, hok, hroom⟩
      subst hch
      have hplace : s.look.scrubAt d p = if n < bursts then n else 0 := by rw [Work.scrubAt]
      have ha : a = 0x20000000000 + (4 * d.val + p.val) * 2 ^ 37 + 64 * s.look.scrubAt d p := by rw [hplace]
      have hrun := capScrubRead_run hp hclock hpos hen ha hecc hgone hok hroom
      have hleaves := scrubs_leaves s (1024 + 8 * (4 * d.val + p.val)) a (s.look.scrubAt d p)
      clear_value a
      clear ha
      rw [hplace] at hrun hleaves
      exact ⟨_, hrun, hleaves⟩
  · intro m d value s w st ctl busy on ty inline rate takes
    refine ⟨?_, ?_, ?_, ?_⟩
    · rintro ⟨⟨hp, htakes⟩, hgo, hbusy, hon⟩
      have hguard : ¬ (busy || !on) = true := by
        rw [hbusy, hon]
        decide
      have hwords := trainBegun_words w d
      obtain ⟨hshown, htrained, hfailed⟩ := trainBegun_fields w d
      refine ⟨_, (capTrain_run hp htakes hgo m).trans (congrArg (done s) (if_neg hguard)), ?_, ?_, ?_, hwords.onlyWords fun a ha => List.mem_singleton.mpr ha⟩
      · exact (hwords.commit_flag ..).trans hshown
      · exact (hwords.commit_fld ..).trans htrained
      · exact (hwords.commit_fld ..).trans hfailed
    · rintro ⟨⟨hp, htakes⟩, hgo, hno⟩
      refine (capTrain_run hp htakes hgo m).trans (congrArg (done s) (if_pos ?_))
      rcases hno with h | h
      · exact (congrArg (· || !on) h :).trans (Bool.true_or _)
      · exact (congrArg (busy || !·) h :).trans (Bool.or_true _)
    · rintro p0 p1 p2 p3 ps ⟨hp, hbusy, hon, hmatch, hpass⟩
      exact capTrainDone_leaves hp hbusy hon hmatch hpass
    · rintro ⟨hp, htakes, hclear, hon⟩
      exact capEnClear_leaves m hp htakes hclear hon

end Sys2Proof.Machine
end

section
/-! PROOFS. Host ports: their links and configuration spaces, the doorbell and interrupt words, completions and vectors (R613–R625). -/

namespace Sys2Proof.Machine

section Links
variable {s : State} {h : Fin 2} (hp : s.powered = true)
include hp

theorem pcieFundamentalReset_run (l : LinkUp) : exec (.pcieFundamentalReset h l) s =
    done s ((s.look.dropHost h).linkTrains h { l with up := l.up && (s.look.dropHost h).railsOn }) := by
  change execPcieFundamentalReset h l s = _
  exact runs hp rfl

variable (hup : s.look.linkInL0 h = true)
include hup

theorem pcieHotReset_disables (l : LinkUp) : exec (.pcieHotReset h true l) s = done s
    ((((s.look.dropHost h).resetConfig h).linkSet h { l with up := false }).setFld (Reg.HUB_STATUS h) Fld.HUB_STATUS_LTSSM 6) := by
  change execPcieHotReset h true l s = _
  refine runs hp ?_
  rw [Work.when, hup, if_pos rfl]
  dsimp only
  rw [if_pos rfl]

theorem pcieHotReset_trains (l : LinkUp) : exec (.pcieHotReset h false l) s = done s (((s.look.dropHost h).resetConfig h).linkSet h l) := by
  change execPcieHotReset h false l s = _
  refine runs hp ?_
  rw [Work.when, hup, if_pos rfl]
  dsimp only
  rw [if_neg Bool.false_ne_true]

theorem pcieFlr_run : exec (.pcieFlr h) s = done s ((s.look.dropHost h).resetConfig h) := by
  change execPcieFlr h s = _
  refine runs hp ?_
  rw [Work.when, hup, if_pos rfl]

theorem pcieLinkDown_run {l : LinkUp} {w : Work} (hw : w = s.look.linkSet h l) : exec (.pcieLinkDown h l) s = done s
    (if l.up then w.transient (hostPortFault h w.hw.genChip false) (Reg.HUB_ERR_STAT h) Fld.HUB_ERR_STAT_LINK_TRANSIENT Fld.HUB_ERR_STAT_TRANSIENT_CNT
      else ((w.setFlag (Reg.HUB_ERR_STAT h) Fld.HUB_ERR_STAT_LINK_LASTING true).setFlag (Reg.HUB_STATUS h) Fld.HUB_STATUS_FAILED true).fault
        (hostPortFault h w.hw.genChip true)) := by
  change execPcieLinkDown h l s = _
  refine runs hp ?_
  rw [Work.when, hup, if_pos rfl, hw]

theorem aerCorrectableError_run : exec (.aerCorrectableError h) s = done s
    (s.look.transient (hostPortFault h s.look.hw.genChip false) (Reg.HUB_ERR_STAT h) Fld.HUB_ERR_STAT_LINK_TRANSIENT Fld.HUB_ERR_STAT_TRANSIENT_CNT) := by
  change execAerCorrectableError h s = _
  refine runs hp ?_
  rw [Work.when, hup, if_pos rfl]

theorem pcieConfigAccess_run (change : ConfigWrite) : exec (.pcieConfigAccess h change) s = done s
    (match change with
      | .bar2Size i => (s.look.setPci h { s.look.pciPort h with bar2 := 30 + i.val }).alignBar2 h none
      | .msix enable mask => s.look.setPci h { s.look.pciPort h with msix := enable, masked := mask }
      | .power d3 => s.look.setPci h { s.look.pciPort h with d3 := d3 }) := by
  change execPcieConfigAccess h change s = _
  refine runs hp ?_
  rw [Work.when, hup]
  cases change <;> exact if_pos rfl

end Links

/-- A link's training shows in the port's status word. -/
theorem linkSet_words (w : Work) (h : Nat) (l : LinkUp) : w.words (· = Reg.HUB_STATUS h) (w.linkSet h l) := by
  unfold Work.linkSet
  split
  exact ((Work.words.at_ w (f := Fld.HUB_STATUS_LTSSM) _ (by decide)).trans (.at_ _ (f := Fld.HUB_STATUS_RATE) _ (by decide))).trans
    (.at_ _ (f := Fld.HUB_STATUS_WIDTH) _ (by decide))

theorem resetConfig_dropHost_touches (p q : Nat → Prop) (w : Work) (h : Nat) : w.touches p q ((w.dropHost h).resetConfig h) :=
  .of_hw rfl rfl rfl rfl rfl rfl

/-- Disabling the link leaves the port as a reset of its configuration does, but for the word that shows the state (R613, R620). -/
theorem linkDisabled_leaves {s : State} {h : Nat} {quiet : Work} (l : LinkUp) (hq : s.look.touches (fun _ => False) noCore quiet) :
    let t := Work.commit s ((quiet.linkSet h l).setFld (Reg.HUB_STATUS h) Fld.HUB_STATUS_LTSSM 6)
    t.look.fld (Reg.HUB_STATUS h) Fld.HUB_STATUS_LTSSM = 6 ∧ t.hw = quiet.hw ∧ sameWordsBut [Reg.HUB_STATUS h] s t ∧ sameBytes s t ∧
      t.pending = s.pending := by
  have hlink := linkSet_words quiet h l
  have hself := fld_setFld_self (quiet.linkSet h l) (Reg.HUB_STATUS h) Fld.HUB_STATUS_LTSSM 6 (by decide)
  have hset : quiet.words (· = Reg.HUB_STATUS h) ((quiet.linkSet h l).setFld (Reg.HUB_STATUS h) Fld.HUB_STATUS_LTSSM 6) :=
    hlink.trans (.at_ _ (f := Fld.HUB_STATUS_LTSSM) _ (by decide))
  generalize (quiet.linkSet h l).setFld (Reg.HUB_STATUS h) Fld.HUB_STATUS_LTSSM 6 = v at hset hself
  have hall : s.look.touches (· = Reg.HUB_STATUS h) noCore v := (hq.mono (fun _ hf => hf.elim) fun _ hc => hc).trans (hset.touches noCore)
  exact ⟨(hall.commit_fld ..).trans (hself.trans (Nat.mod_eq_of_lt (by decide))), (commit_hw ..).trans hset.hw,
    hall.sameWordsBut fun a ha => List.mem_singleton.mpr ha, hall.sameBytes, commit_pending ..⟩

section LinkDown
variable {s : State} {h : Fin 2} {l : LinkUp} (hp : s.powered = true) (hup : s.look.linkInL0 h = true)
include hp hup

theorem pcieLinkDown_returns (hl : l.up = true) : exec (.pcieLinkDown h l) s = done s
    ((s.look.linkSet h l).transient (hostPortFault h s.hw.genChip false) (Reg.HUB_ERR_STAT h) Fld.HUB_ERR_STAT_LINK_TRANSIENT
      Fld.HUB_ERR_STAT_TRANSIENT_CNT) := by
  have hgen : (s.look.linkSet h l).hw.genChip = s.hw.genChip := congrArg Hw.genChip (linkSet_words s.look h l).hw
  rw [pcieLinkDown_run hp hup rfl, if_pos hl, hgen]

theorem pcieLinkDown_fails (hl : l.up = false) : exec (.pcieLinkDown h l) s = done s
    ((((s.look.linkSet h l).setFlag (Reg.HUB_ERR_STAT h) Fld.HUB_ERR_STAT_LINK_LASTING true).setFlag (Reg.HUB_STATUS h) Fld.HUB_STATUS_FAILED true).fault
      (hostPortFault h s.hw.genChip true)) := by
  have hgen : (s.look.linkSet h l).hw.genChip = s.hw.genChip := congrArg Hw.genChip (linkSet_words s.look h l).hw
  rw [pcieLinkDown_run hp hup rfl, if_neg (ne_true_of_eq_false hl), hgen]

end LinkDown

/-- Settles O53: each event of a link runs its own operation while the link is up. -/
theorem hubLinks : Obligations.HubLinks := by
  unfold Obligations.HubLinks
  intro h l s w e up p lost quiet
  have hquiet := resetConfig_dropHost_touches (fun _ => False) noCore w h
  refine ⟨fun hp => pcieFundamentalReset_run hp l, ?_, ?_, ?_, ?_, ?_, ?_, ?_, ?_, ?_⟩
  · exact fun ⟨hp, hup⟩ => ⟨_, pcieHotReset_disables hp hup l, linkDisabled_leaves _ hquiet⟩
  · exact fun ⟨hp, hup⟩ => pcieHotReset_trains hp hup l
  · exact fun ⟨hp, hup⟩ => ⟨_, pcieFlr_run hp hup, commit_hw .., sameWords_of rfl rfl, hquiet.sameBytes, commit_pending ..⟩
  · exact fun ⟨⟨hp, hup⟩, hl⟩ => pcieLinkDown_returns hp hup hl
  · exact fun ⟨⟨hp, hup⟩, hl⟩ => pcieLinkDown_fails hp hup hl
  · exact fun ⟨hp, hup⟩ => aerCorrectableError_run hp hup
  · exact fun i ⟨hp, hup⟩ => pcieConfigAccess_run hp hup (.bar2Size i)
  · exact fun en mask ⟨hp, hup⟩ => pcieConfigAccess_run hp hup (.msix en mask)
  · exact fun d3 ⟨hp, hup⟩ => pcieConfigAccess_run hp hup (.power d3)

/-! ### Doorbell and interrupt words, completions, vectors -/

section Hub
variable {s : State} (hp : s.powered = true)
include hp

theorem hubDbWrite_run {n : Fin 1024} (hup : s.look.hubUp = true) (add : Bool) (value : DWord) : exec (.hubDbWrite n add value) s = done s
    ((s.look.w64 (Reg.HUB_DB 0 n) (if add then s.look.r64 (Reg.HUB_DB 0 n) + value else value)).doorbellInput n (if add then 1 else 0) value) := by
  change execHubDbWrite n add value s = _
  refine runs hp ?_
  rw [Work.when, hup, if_pos rfl]
  cases add <;> rfl

theorem hubIwWrite_run {h : Fin 2} {v : Fin 256} (hup : s.look.hubUp = true) (hv : 2 ≤ v.val) (add : Bool) (value : DWord) :
    exec (.hubIwWrite h v add value) s = done s
      ((s.look.w64 (Reg.HUB_IW h v) (if add then s.look.r64 (Reg.HUB_IW h v) + value else value)).pendVector h v) := by
  change execHubIwWrite h v add value s = _
  refine runs hp ?_
  rw [Work.when, hup, decide_eq_true hv, Bool.true_and, if_pos rfl]
  cases add <;> rfl

/-- A read whose completion is late is an orphan, and completes with an abort (R620). -/
def Work.aborted (w : Work) (req : Nat) (q : Req) (p tag : Nat) : Work :=
  let w := (w.dropReq req).setFlag (Reg.HUB_ERR_STAT p) Fld.HUB_ERR_STAT_CPL_LATE true
  { w with hw := { w.hw with
      orphans := SMap.put w.hw.orphans req q
      completions := SMap.put w.hw.completions (1024 * p + tag) ⟨true, false, []⟩ } }

theorem cplTimeout_run {req p tag n : Nat} {q : Req} (hq : s.look.req? req = some q) (hsrc : q.src = .host p tag) (hop : q.op = .read n)
    (hstage : q.stage ≠ .replied) : exec (.cplTimeout req) s = done s (s.look.aborted req q p tag) := by
  change execCplTimeout req s = _
  refine runs hp ?_
  rw [hq]
  dsimp only
  rw [hsrc, hop, decide_eq_true hstage]
  rfl

theorem msixSend_run {h : Fin 2} {v : Fin 256} (hready : s.look.msixReady h v = true) : exec (.msixSend h v) s = done s
    { (s.look.bumpErr (Reg.HUB_TX_BYTES h) 4) with hw := { s.hw with
      msixPend := SMap.set false s.hw.msixPend (256 * h.val + v.val) false
      msixSent := SMap.set 0 s.hw.msixSent (256 * h.val + v.val) (s.hw.uptime + 1) } } := by
  change execMsixSend h v s = _
  refine runs hp ?_
  rw [Work.when, hready, if_pos rfl]
  rfl

end Hub

theorem cplTimeout_leaves {s : State} {req p tag n : Nat} {q : Req} (hp : s.powered = true) (hq : s.look.req? req = some q) (hsrc : q.src = .host p tag)
    (hop : q.op = .read n) (hstage : q.stage ≠ .replied) : goesTo (exec (.cplTimeout req) s) fun t =>
      t.look.flag (Reg.HUB_ERR_STAT p) Fld.HUB_ERR_STAT_CPL_LATE = true ∧ sameWordsBut [Reg.HUB_ERR_STAT p] s t ∧ sameBytes s t ∧
        t.hw = { (s.look.dropReq req).hw with
          orphans := SMap.put (s.look.dropReq req).hw.orphans req q
          completions := SMap.put (s.look.dropReq req).hw.completions (1024 * p + tag) ⟨true, false, []⟩ } ∧ t.pending = s.pending := by
  have hrun := cplTimeout_run hp hq hsrc hop hstage
  have hlate : (s.look.dropReq req).words (· = Reg.HUB_ERR_STAT p)
    ((s.look.dropReq req).setFlag (Reg.HUB_ERR_STAT p) Fld.HUB_ERR_STAT_CPL_LATE true) := .setFlag _ true (by decide) rfl
  have hflag := flag_setFlag_self (a := Reg.HUB_ERR_STAT p) (s.look.dropReq req) (f := Fld.HUB_ERR_STAT_CPL_LATE) true (by decide) rfl
  rw [Work.aborted] at hrun
  generalize (s.look.dropReq req).setFlag (Reg.HUB_ERR_STAT p) Fld.HUB_ERR_STAT_CPL_LATE true = v at hrun hlate hflag
  dsimp only at hrun
  rw [hlate.hw] at hrun
  have hall : s.look.touches (· = Reg.HUB_ERR_STAT p) noCore { v with hw := { (s.look.dropReq req).hw with
      orphans := SMap.put (s.look.dropReq req).hw.orphans req q
      completions := SMap.put (s.look.dropReq req).hw.completions (1024 * p + tag) ⟨true, false, []⟩ } } :=
    ⟨hlate.mem, hlate.csr, hlate.wr, rfl, hlate.word, fun _ _ => rfl⟩
  exact ⟨_, hrun, (Machine.commit_flag s _ hall.csr ..).trans hflag, hall.sameWordsBut fun a ha => List.mem_singleton.mpr ha, hall.sameBytes,
    commit_hw .., commit_pending ..⟩

/-- Settles O54: a word takes its value and tells whom it is for; a late read aborts; a vector that may go is sent. -/
theorem hubWordsAndVectors : Obligations.HubWordsAndVectors := by
  unfold Obligations.HubWordsAndVectors
  intro value s w up
  refine ⟨?_, ?_, ?_, ?_, ?_, ?_⟩
  · exact fun n ⟨hp, hup⟩ => hubDbWrite_run hp hup false value
  · exact fun n ⟨hp, hup⟩ => hubDbWrite_run hp hup true value
  · exact fun h v ⟨⟨hp, hup⟩, hv⟩ => hubIwWrite_run hp hup hv false value
  · exact fun h v ⟨⟨hp, hup⟩, hv⟩ => hubIwWrite_run hp hup hv true value
  · rintro req q p tag n ⟨hp, hq, hsrc, hop, hstage⟩
    exact cplTimeout_leaves hp hq hsrc hop hstage
  · rintro h v ⟨hp, hready⟩
    exact msixSend_run hp hready

end Sys2Proof.Machine
end

section
/-! PROOFS. Clock sources (R562, R564–R572). -/

namespace Sys2Proof.Machine

/-! ### A reference that fails -/

/-- A reference that shows no edge any more (R564, R565). -/
def Work.refLost (w : Work) (i : Nat) (present stable : Fld) : Work :=
  let w := (w.setFlag Reg.CLK_STATUS present false).setFlag Reg.CLK_STATUS stable false
  { w with hw := { w.hw with stableWins := SMap.set 0 w.hw.stableWins i 0 } }

theorem refAbsent_run {s : State} (hp : s.powered = true) (ref : Fin 2) {u : Work}
    (hu : s.look.refLost ref.val (if ref.val = 0 then Fld.CLK_STATUS_A_PRESENT else Fld.CLK_STATUS_B_PRESENT)
      (if ref.val = 0 then Fld.CLK_STATUS_A_STABLE else Fld.CLK_STATUS_B_STABLE) = u) : exec (.refAbsent ref) s = done s
    (if u.refActive ≠ ref.val ∨ !u.clocked then u
      else if u.chipState = 1 ∧ u.refStable (1 - ref.val) then u.stopClocks.orderReset 48
      else if u.refStable (1 - ref.val) ∧ u.flag Reg.CLK_CTRL Fld.CLK_CTRL_FAILOVER then u.failover (1 - ref.val)
      else u.haltClocks) := by
  subst hu
  change execRefAbsent ref s = _
  exact runs hp rfl

section Absent
variable {s : State} {ref : Fin 2} {u : Work} (h : exec (.refAbsent ref) s = done s
    (if u.refActive ≠ ref.val ∨ !u.clocked then u
      else if u.chipState = 1 ∧ u.refStable (1 - ref.val) then u.stopClocks.orderReset 48
      else if u.refStable (1 - ref.val) ∧ u.flag Reg.CLK_CTRL Fld.CLK_CTRL_FAILOVER then u.failover (1 - ref.val)
      else u.haltClocks))
include h

theorem refAbsent_unused (hunused : u.refActive ≠ ref.val ∨ u.clocked = false) : exec (.refAbsent ref) s = done s u := by
  rw [h, if_pos]
  exact hunused.imp_right fun h => by rw [h]; rfl

variable (hactive : u.refActive = ref.val) (hclock : u.clocked = true)
include hactive hclock

theorem refAbsent_used : exec (.refAbsent ref) s = done s
    (if u.chipState = 1 ∧ u.refStable (1 - ref.val) then u.stopClocks.orderReset 48
      else if u.refStable (1 - ref.val) ∧ u.flag Reg.CLK_CTRL Fld.CLK_CTRL_FAILOVER then u.failover (1 - ref.val)
      else u.haltClocks) := by
  rw [h, if_neg]
  rw [hclock]
  exact fun h => h.elim (fun h => h hactive) Bool.false_ne_true

theorem refAbsent_recovering (hchip : u.chipState = 1) (hother : u.refStable (1 - ref.val) = true) :
    exec (.refAbsent ref) s = done s (u.stopClocks.orderReset 48) := by
  rw [refAbsent_used h hactive hclock, if_pos ⟨hchip, hother⟩]

variable (hserving : ¬ (u.chipState = 1 ∧ u.refStable (1 - ref.val) = true))
include hserving

theorem refAbsent_failsOver (hother : u.refStable (1 - ref.val) = true) (hctrl : u.flag Reg.CLK_CTRL Fld.CLK_CTRL_FAILOVER = true) :
    exec (.refAbsent ref) s = done s (u.failover (1 - ref.val)) := by
  rw [refAbsent_used h hactive hclock, if_neg hserving, if_pos ⟨hother, hctrl⟩]

theorem refAbsent_halts (hno : u.refStable (1 - ref.val) = false ∨ u.flag Reg.CLK_CTRL Fld.CLK_CTRL_FAILOVER = false) :
    exec (.refAbsent ref) s = done s u.haltClocks := by
  rw [refAbsent_used h hactive hclock, if_neg hserving, if_neg]
  rintro ⟨hother, hctrl⟩
  rcases hno with hno | hno
  · exact Bool.false_ne_true (hno.symm.trans hother)
  · exact Bool.false_ne_true (hno.symm.trans hctrl)

end Absent

/-! ### Relock, loss of lock, return -/

section Sources
variable {s : State} (hp : s.powered = true)
include hp

theorem clkRelock_run {m : Master} {value : Word} {n : Nat} {v : Work} (hwrite : s.look.woWrite (s.look.clampBy m) Reg.CLK_CMD value.toNat = (n, v)) :
    exec (.clkRelock m value) s = done s (if bits n 0 1 = 0 then v else if v.chipState = 0 then v.relock v.refActive
      else v.clamp (s.look.clampBy m) Reg.CLK_CMD 0 0 .joined) := by
  change execClkRelock m value s = _
  refine runs hp ?_
  rw [Work.clkCmd, hwrite]

theorem pllLockLoss_run (hclock : s.look.clocked = true) (hlocked : s.look.flag Reg.CLK_STATUS Fld.CLK_STATUS_LOCKED = true) :
    exec .pllLockLoss s = done s (s.look.setFlag Reg.CLK_ERR_STAT Fld.CLK_ERR_STAT_LOCK_LOSS true).haltClocks := by
  change execPllLockLoss s = _
  refine runs hp ?_
  rw [Work.when, hclock, hlocked, Bool.and_true, if_pos rfl]

theorem refStableReturn_run (hhalted : s.look.flag Reg.CLK_STATUS Fld.CLK_STATUS_HALTED = true)
    (hstable : s.look.refStable 0 = true ∨ s.look.refStable 1 = true) : exec .refStableReturn s = done s (s.look.orderReset 16) := by
  change execRefStableReturn s = _
  refine runs hp ?_
  rw [Work.when, hhalted, Bool.true_and, if_pos ((Bool.or_eq_true ..).mpr hstable)]

theorem mgmtAbsent_run : exec .mgmtAbsent s = .next { s with hw := { s.hw with mgmtHere := false } } := by
  change execMgmtAbsent s = _
  exact run_powered s _ hp

end Sources

theorem runsAlways {s : State} {f : Work → Work} {w : Work} (h : f s.look = w) : runAlways s f = done s w := congrArg (done s) h

theorem mgmtReturn_run {s : State} (hstandby : s.hw.standby = true) (haway : s.hw.mgmtHere = false) {l : Work}
    (hl : (({ s.look with hw := { s.look.hw with mgmtHere := true } } : Work).setFlag Reg.CLK_ERR_STAT Fld.CLK_ERR_STAT_MGMT_LOSS true).stopClocks = l) :
    exec .mgmtReturn s = done s ((l.loseCapacity.fault (clockFault true l.hw.genChip 0)).orderReset 16) := by
  have hguard : (s.look.hw.standby && !s.look.hw.mgmtHere) = true := by
    change (s.hw.standby && !s.hw.mgmtHere) = true
    rw [hstandby, haway]
    rfl
  change execMgmtReturn s = _
  refine runsAlways ?_
  rw [Work.when, hguard, if_pos rfl]
  dsimp only
  rw [hl]

/-! ### The comparison window (R564–R566) -/

section Window
variable (w : Work)

/-- The deviations that a window has measured, in ppm. -/
def Work.devsShown (w : Work) (a b ab : Nat) : Work :=
  ((w.setFld Reg.CLK_MON_A Fld.CLK_MON_A_DEV a).setFld Reg.CLK_MON_B Fld.CLK_MON_B_DEV b).setFld Reg.CLK_MON_AB Fld.CLK_MON_AB_DEV ab

/-- What a window judges. -/
def Work.judged (w : Work) (j : Bool × Bool × Bool × Bool) : Work :=
  (((w.setFlag Reg.CLK_STATUS Fld.CLK_STATUS_A_OFF j.1).setFlag Reg.CLK_STATUS Fld.CLK_STATUS_B_OFF j.2.1).setFlag Reg.CLK_STATUS
    Fld.CLK_STATUS_XTAL_SUSPECT j.2.2.1).setFlag Reg.CLK_STATUS Fld.CLK_STATUS_MARGINAL j.2.2.2

/-- A sticky bit of CLK_ERR_STAT. -/
def Work.sticky (w : Work) (f : Fld) (b : Bool) : Work := if b then w.setFlag Reg.CLK_ERR_STAT f true else w

/-- The windows in a row for which a reference has been good. -/
def Work.goodWindows (w : Work) (i : Nat) (edges off : Bool) : Nat := if edges && !off then min 15 (SMap.get 0 w.hw.stableWins i + 1) else 0

/-- The windows in a row of a reference. -/
def Work.setWindows (w : Work) (i n : Nat) : Work := { w with hw := { w.hw with stableWins := SMap.set 0 w.hw.stableWins i n } }

/-- A reference after n good windows in a row, with its marks in CLK_STATUS. -/
def Work.refShown (w : Work) (i n : Nat) (edges : Bool) (present stable : Fld) : Work :=
  (if edges then (w.setWindows i n).setFlag Reg.CLK_STATUS present true else w.setWindows i n).setFlag Reg.CLK_STATUS stable
    (decide ((w.setWindows i n).fld Reg.CLK_MON_CFG Fld.CLK_MON_CFG_STABLE_N ≤ n))

theorem setWindows_touches (p q : Nat → Prop) (i n : Nat) : w.touches p q (w.setWindows i n) := .of_hw rfl rfl rfl rfl rfl rfl

theorem setWindows_flag (i n a : Nat) (f : Fld) : (w.setWindows i n).flag a f = w.flag a f := rfl

theorem setWindows_fld (i n a : Nat) (f : Fld) : (w.setWindows i n).fld a f = w.fld a f := rfl

theorem devsShown_words (a b ab : Nat) : w.words (fun x => x = Reg.CLK_MON_A ∨ x = Reg.CLK_MON_B ∨ x = Reg.CLK_MON_AB) (w.devsShown a b ab) :=
  ((Work.words.setFld w (f := Fld.CLK_MON_A_DEV) _ (by decide) (.inl rfl)).trans
    (.setFld _ (f := Fld.CLK_MON_B_DEV) _ (by decide) (.inr (.inl rfl)))).trans (.setFld _ (f := Fld.CLK_MON_AB_DEV) _ (by decide) (.inr (.inr rfl)))

theorem devsShown_flds {a b ab : Nat} (ha : a < 2 ^ 16) (hb : b < 2 ^ 16) (hab : ab < 2 ^ 16) :
    (w.devsShown a b ab).fld Reg.CLK_MON_A Fld.CLK_MON_A_DEV = a ∧ (w.devsShown a b ab).fld Reg.CLK_MON_B Fld.CLK_MON_B_DEV = b ∧
      (w.devsShown a b ab).fld Reg.CLK_MON_AB Fld.CLK_MON_AB_DEV = ab := by
  unfold Work.devsShown
  refine ⟨?_, ?_, ?_⟩
  · rw [fld_setFld_other _ _ _ _ (by decide) (by decide) (by decide), fld_setFld_other _ _ _ _ (by decide) (by decide) (by decide),
      fld_setFld_self _ _ _ _ (by decide)]
    exact Nat.mod_eq_of_lt ha
  · rw [fld_setFld_other _ _ _ _ (by decide) (by decide) (by decide), fld_setFld_self _ _ _ _ (by decide)]
    exact Nat.mod_eq_of_lt hb
  · rw [fld_setFld_self _ _ _ _ (by decide)]
    exact Nat.mod_eq_of_lt hab

theorem judged_words (j : Bool × Bool × Bool × Bool) : w.words (· = Reg.CLK_STATUS) (w.judged j) := by
  have hset (u : Work) (f : Fld) (b : Bool) (hf : f.lsb + f.width ≤ 32) : u.words (· = Reg.CLK_STATUS) (u.setFlag Reg.CLK_STATUS f b) :=
    .setFlag u b hf rfl
  exact (((hset w _ _ (by decide)).trans (hset _ _ _ (by decide))).trans (hset _ _ _ (by decide))).trans (hset _ _ _ (by decide))

theorem judged_flags (j : Bool × Bool × Bool × Bool) : (w.judged j).flag Reg.CLK_STATUS Fld.CLK_STATUS_A_OFF = j.1 ∧
    (w.judged j).flag Reg.CLK_STATUS Fld.CLK_STATUS_B_OFF = j.2.1 ∧ (w.judged j).flag Reg.CLK_STATUS Fld.CLK_STATUS_XTAL_SUSPECT = j.2.2.1 ∧
      (w.judged j).flag Reg.CLK_STATUS Fld.CLK_STATUS_MARGINAL = j.2.2.2 := by
  unfold Work.judged
  simp (disch := decide) only [flag_setFlag_beside, flag_setFlag_self, and_self]

theorem sticky_words (f : Fld) (b : Bool) (hf : f.lsb + f.width ≤ 32) : w.words (· = Reg.CLK_ERR_STAT) (w.sticky f b) := by
  unfold Work.sticky
  split
  · exact .setFlag w true hf rfl
  · exact .refl ..

/-- A window before the references' marks: what it measured, what it judged, and the sticky bits. -/
def Work.windowShown (w : Work) (a b ab : Nat) (j : Bool × Bool × Bool × Bool) : Work :=
  ((((w.devsShown a b ab).judged j).sticky Fld.CLK_ERR_STAT_A_OFF_SEEN j.1).sticky Fld.CLK_ERR_STAT_B_OFF_SEEN j.2.1).sticky
    Fld.CLK_ERR_STAT_XTAL_SEEN j.2.2.1

/-- The words that a window shows its outcome in. -/
def windowWord (a : Nat) : Prop := a = Reg.CLK_MON_A ∨ a = Reg.CLK_MON_B ∨ a = Reg.CLK_MON_AB ∨ a = Reg.CLK_STATUS ∨ a = Reg.CLK_ERR_STAT

theorem stickies_words (x y z : Bool) : w.words (· = Reg.CLK_ERR_STAT)
    (((w.sticky Fld.CLK_ERR_STAT_A_OFF_SEEN x).sticky Fld.CLK_ERR_STAT_B_OFF_SEEN y).sticky Fld.CLK_ERR_STAT_XTAL_SEEN z) :=
  ((sticky_words w _ _ (by decide)).trans (sticky_words _ _ _ (by decide))).trans (sticky_words _ _ _ (by decide))

theorem windowShown_words (a b ab : Nat) (j : Bool × Bool × Bool × Bool) : w.words windowWord (w.windowShown a b ab j) := by
  have hdev := (devsShown_words w a b ab).mono (q := windowWord) fun x hx => hx.imp_right fun hx => hx.imp_right .inl
  have hjudged := (judged_words (w.devsShown a b ab) j).mono (q := windowWord) fun x hx => .inr (.inr (.inr (.inl hx)))
  have hsticky := (stickies_words ((w.devsShown a b ab).judged j) j.1 j.2.1 j.2.2.1).mono (q := windowWord) fun x hx => .inr (.inr (.inr (.inr hx)))
  exact (hdev.trans hjudged).trans hsticky

theorem windowShown_flags (a b ab : Nat) (j : Bool × Bool × Bool × Bool) :
    (w.windowShown a b ab j).flag Reg.CLK_STATUS Fld.CLK_STATUS_A_OFF = j.1 ∧
    (w.windowShown a b ab j).flag Reg.CLK_STATUS Fld.CLK_STATUS_B_OFF = j.2.1 ∧
    (w.windowShown a b ab j).flag Reg.CLK_STATUS Fld.CLK_STATUS_XTAL_SUSPECT = j.2.2.1 ∧
    (w.windowShown a b ab j).flag Reg.CLK_STATUS Fld.CLK_STATUS_MARGINAL = j.2.2.2 := by
  have hsticky := stickies_words ((w.devsShown a b ab).judged j) j.1 j.2.1 j.2.2.1
  have hkept (f : Fld) (hf : f.lsb + f.width ≤ 32) := hsticky.flag_eq (a := Reg.CLK_STATUS) hf (by decide)
  rw [Work.windowShown, hkept _ (by decide), hkept _ (by decide), hkept _ (by decide), hkept _ (by decide)]
  exact judged_flags ..

theorem windowShown_flds {a b ab : Nat} (ha : a < 2 ^ 16) (hb : b < 2 ^ 16) (hab : ab < 2 ^ 16) (j : Bool × Bool × Bool × Bool) :
    (w.windowShown a b ab j).fld Reg.CLK_MON_A Fld.CLK_MON_A_DEV = a ∧ (w.windowShown a b ab j).fld Reg.CLK_MON_B Fld.CLK_MON_B_DEV = b ∧
      (w.windowShown a b ab j).fld Reg.CLK_MON_AB Fld.CLK_MON_AB_DEV = ab := by
  have hkept : (w.devsShown a b ab).words (fun x => x = Reg.CLK_STATUS ∨ x = Reg.CLK_ERR_STAT) (w.windowShown a b ab j) :=
    ((judged_words _ j).mono fun _ => .inl).trans ((stickies_words ..).mono fun _ => .inr)
  rw [hkept.fld_eq (by decide) (by decide), hkept.fld_eq (by decide) (by decide), hkept.fld_eq (by decide) (by decide)]
  exact devsShown_flds w ha hb hab

theorem refShown_touches (i n : Nat) (edges : Bool) {present stable : Fld} (hpresent : present.lsb + present.width ≤ 32)
    (hstable : stable.lsb + stable.width ≤ 32) : w.touches (· = Reg.CLK_STATUS) noCore (w.refShown i n edges present stable) := by
  unfold Work.refShown
  refine .trans ?_ (.setFld32 _ _ hstable rfl)
  split
  · exact (setWindows_touches ..).trans (.setFld32 _ _ hpresent rfl)
  · exact setWindows_touches ..

theorem refShown_flag (i n : Nat) (edges : Bool) {present stable f : Fld} (hpresent : present.lsb + present.width ≤ 32)
    (hstable : stable.lsb + stable.width ≤ 32) (hf : f.lsb + f.width ≤ 32)
    (h : present.lsb + present.width ≤ f.lsb ∨ f.lsb + f.width ≤ present.lsb) (h' : stable.lsb + stable.width ≤ f.lsb ∨ f.lsb + f.width ≤ stable.lsb) :
    (w.refShown i n edges present stable).flag Reg.CLK_STATUS f = w.flag Reg.CLK_STATUS f := by
  rw [Work.refShown, flag_setFlag_beside _ _ hstable hf h']
  split
  · rw [flag_setFlag_beside _ _ hpresent hf h, setWindows_flag]
  · rw [setWindows_flag]

theorem refShown_stable (i n : Nat) (edges : Bool) {present stable : Fld} (hstable : stable.lsb + stable.width ≤ 32) (hone : stable.width = 1) :
    (w.refShown i n edges present stable).flag Reg.CLK_STATUS stable = decide (w.fld Reg.CLK_MON_CFG Fld.CLK_MON_CFG_STABLE_N ≤ n) := by
  rw [Work.refShown, flag_setFlag_self _ _ hstable hone, setWindows_fld]

end Window

theorem clkMonWindow_run {s : State} (hp : s.powered = true) (ea eb : Bool) (da db dab : BitVec 16) {j : Bool × Bool × Bool × Bool}
    (hj : judge (decide (da.toInt.natAbs ≤ 10 * s.look.fld Reg.CLK_MON_CFG Fld.CLK_MON_CFG_TOL))
      (decide (db.toInt.natAbs ≤ 10 * s.look.fld Reg.CLK_MON_CFG Fld.CLK_MON_CFG_TOL))
      (decide (dab.toInt.natAbs ≤ 10 * s.look.fld Reg.CLK_MON_CFG Fld.CLK_MON_CFG_TOL)) = j) {u a : Work}
    (hu : s.look.windowShown da.toNat db.toNat dab.toNat j = u)
    (ha : u.refShown 0 (u.goodWindows 0 ea j.1) ea Fld.CLK_STATUS_A_PRESENT Fld.CLK_STATUS_A_STABLE = a) :
    exec (.clkMonWindow ea eb da db dab) s = done s (a.refShown 1 (a.goodWindows 1 eb j.2.1) eb Fld.CLK_STATUS_B_PRESENT Fld.CLK_STATUS_B_STABLE) := by
  change execClkMonWindow ea eb da db dab s = _
  refine runs hp ?_
  extract_lets st er ok w1 sticky one
  have hw1 : s.look.devsShown da.toNat db.toNat dab.toNat = w1 := rfl
  have hsticky : sticky = Work.sticky := rfl
  have hone : one = fun w i edges off present stable => w.refShown i (w.goodWindows i edges off) edges present stable := rfl
  change judge (ok da) (ok db) (ok dab) = j at hj
  rw [hj, hone, hsticky]
  rw [Work.windowShown, hw1] at hu
  clear_value w1
  obtain ⟨aOff, bOff, xtal, marginal⟩ := j
  rw [Work.judged] at hu
  dsimp only at hu ha ⊢
  rw [hu, ha]

/-- The references' marks at the end of a window. -/
def Work.refsShown (u : Work) (n m : Nat) (ea eb : Bool) : Work :=
  (u.refShown 0 n ea Fld.CLK_STATUS_A_PRESENT Fld.CLK_STATUS_A_STABLE).refShown 1 m eb Fld.CLK_STATUS_B_PRESENT Fld.CLK_STATUS_B_STABLE

section Refs
variable (u : Work) (n m : Nat) (ea eb : Bool)

theorem refsShown_touches : u.touches (· = Reg.CLK_STATUS) noCore (u.refsShown n m ea eb) :=
  (refShown_touches u 0 n ea (by decide) (by decide)).trans (refShown_touches _ 1 m eb (by decide) (by decide))

theorem refsShown_flag {f : Fld} (hf : f.lsb + f.width ≤ 32) (h : 5 ≤ f.lsb) : (u.refsShown n m ea eb).flag Reg.CLK_STATUS f = u.flag Reg.CLK_STATUS f := by
  have hbelow (g : Fld) (hg : g.lsb + g.width ≤ 5) : g.lsb + g.width ≤ f.lsb ∨ f.lsb + f.width ≤ g.lsb := .inl (hg.trans h)
  rw [Work.refsShown,
    refShown_flag _ _ _ _ (present := Fld.CLK_STATUS_B_PRESENT) (by decide) (by decide) hf (hbelow _ (by decide)) (hbelow _ (by decide)),
    refShown_flag _ _ _ _ (present := Fld.CLK_STATUS_A_PRESENT) (by decide) (by decide) hf (hbelow _ (by decide)) (hbelow _ (by decide))]

theorem refsShown_stable :
    (u.refsShown n m ea eb).flag Reg.CLK_STATUS Fld.CLK_STATUS_A_STABLE = decide (u.fld Reg.CLK_MON_CFG Fld.CLK_MON_CFG_STABLE_N ≤ n) ∧
    (u.refsShown n m ea eb).flag Reg.CLK_STATUS Fld.CLK_STATUS_B_STABLE = decide (u.fld Reg.CLK_MON_CFG Fld.CLK_MON_CFG_STABLE_N ≤ m) := by
  have hcfg := (refShown_touches u 0 n ea (present := Fld.CLK_STATUS_A_PRESENT) (stable := Fld.CLK_STATUS_A_STABLE) (by decide) (by decide)).fld_eq
    (a := Reg.CLK_MON_CFG) (f := Fld.CLK_MON_CFG_STABLE_N) (by decide) (by decide)
  rw [Work.refsShown]
  refine ⟨?_, ?_⟩
  · rw [refShown_flag _ _ _ _ (by decide) (by decide) (by decide) (by decide) (by decide), refShown_stable _ _ _ _ (by decide) (by decide)]
  · rw [refShown_stable _ _ _ _ (by decide) (by decide), hcfg]

end Refs

theorem refShown_windows (u : Work) (n : Nat) (edges : Bool) {present stable : Fld} (hpresent : present.lsb + present.width ≤ 32)
    (hstable : stable.lsb + stable.width ≤ 32) (e off : Bool) :
    (u.refShown 0 n edges present stable).goodWindows 1 e off = u.goodWindows 1 e off := by
  have hpresent : (u.setWindows 0 n).words (fun _ => True) (if edges then (u.setWindows 0 n).setFlag Reg.CLK_STATUS present true else u.setWindows 0 n) := by
    split
    · exact .setFlag _ true hpresent trivial
    · exact .refl ..
  have hall : (u.setWindows 0 n).words (fun _ => True) (u.refShown 0 n edges present stable) := hpresent.trans (.setFlag _ _ hstable trivial)
  have hwins : SMap.get 0 (u.setWindows 0 n).hw.stableWins 1 = SMap.get 0 u.hw.stableWins 1 := SMap.get_set_other _ _ _ (by decide)
  rw [Work.goodWindows, hall.hw, hwins, ← Work.goodWindows]

/-- What a comparison window leaves. -/
theorem clkMonWindow_leaves {s : State} (hp : s.powered = true) (ea eb : Bool) (da db dab : BitVec 16) {j : Bool × Bool × Bool × Bool}
    (hj : judge (decide (da.toInt.natAbs ≤ 10 * s.look.fld Reg.CLK_MON_CFG Fld.CLK_MON_CFG_TOL))
      (decide (db.toInt.natAbs ≤ 10 * s.look.fld Reg.CLK_MON_CFG Fld.CLK_MON_CFG_TOL))
      (decide (dab.toInt.natAbs ≤ 10 * s.look.fld Reg.CLK_MON_CFG Fld.CLK_MON_CFG_TOL)) = j) :
    goesTo (exec (.clkMonWindow ea eb da db dab) s) fun t =>
      t.look.fld Reg.CLK_MON_A Fld.CLK_MON_A_DEV = da.toNat ∧ t.look.fld Reg.CLK_MON_B Fld.CLK_MON_B_DEV = db.toNat ∧
      t.look.fld Reg.CLK_MON_AB Fld.CLK_MON_AB_DEV = dab.toNat ∧ t.look.flag Reg.CLK_STATUS Fld.CLK_STATUS_A_OFF = j.1 ∧
      t.look.flag Reg.CLK_STATUS Fld.CLK_STATUS_B_OFF = j.2.1 ∧ t.look.flag Reg.CLK_STATUS Fld.CLK_STATUS_XTAL_SUSPECT = j.2.2.1 ∧
      t.look.flag Reg.CLK_STATUS Fld.CLK_STATUS_MARGINAL = j.2.2.2 ∧
      t.look.flag Reg.CLK_STATUS Fld.CLK_STATUS_A_STABLE = decide (s.look.fld Reg.CLK_MON_CFG Fld.CLK_MON_CFG_STABLE_N ≤ s.look.goodWindows 0 ea j.1) ∧
      t.look.flag Reg.CLK_STATUS Fld.CLK_STATUS_B_STABLE = decide (s.look.fld Reg.CLK_MON_CFG Fld.CLK_MON_CFG_STABLE_N ≤ s.look.goodWindows 1 eb j.2.1) ∧
      sameWordsBut [Reg.CLK_MON_A, Reg.CLK_MON_B, Reg.CLK_MON_AB, Reg.CLK_STATUS, Reg.CLK_ERR_STAT] s t ∧ sameBytes s t ∧ t.pending = s.pending := by
  have hrun := clkMonWindow_run hp ea eb da db dab hj rfl rfl
  have hwords := windowShown_words s.look da.toNat db.toNat dab.toNat j
  have hwins (i : Nat) (e off : Bool) : (s.look.windowShown da.toNat db.toNat dab.toNat j).goodWindows i e off = s.look.goodWindows i e off := by
    rw [Work.goodWindows, hwords.hw, ← Work.goodWindows]
  have hcfg := hwords.fld_eq (a := Reg.CLK_MON_CFG) (f := Fld.CLK_MON_CFG_STABLE_N) (by decide) (by unfold windowWord; decide)
  obtain ⟨hda, hdb, hdab⟩ := windowShown_flds s.look da.isLt db.isLt dab.isLt j
  obtain ⟨hoffA, hoffB, hxtal, hmarginal⟩ := windowShown_flags s.look da.toNat db.toNat dab.toNat j
  generalize s.look.windowShown da.toNat db.toNat dab.toNat j = u at *
  rw [refShown_windows _ _ _ (by decide) (by decide), hwins, hwins, ← Work.refsShown] at hrun
  have hrefs := refsShown_touches u (s.look.goodWindows 0 ea j.1) (s.look.goodWindows 1 eb j.2.1) ea eb
  have hflag {f : Fld} := refsShown_flag u (s.look.goodWindows 0 ea j.1) (s.look.goodWindows 1 eb j.2.1) ea eb (f := f)
  obtain ⟨hstableA, hstableB⟩ := refsShown_stable u (s.look.goodWindows 0 ea j.1) (s.look.goodWindows 1 eb j.2.1) ea eb
  rw [hcfg] at hstableA hstableB
  generalize u.refsShown (s.look.goodWindows 0 ea j.1) (s.look.goodWindows 1 eb j.2.1) ea eb = v at *
  have hall : s.look.touches windowWord noCore v :=
    (hwords.touches noCore).trans (hrefs.mono (fun _ h => .inr (.inr (.inr (.inl h)))) fun _ => id)
  have hshown (a : Nat) (f : Fld) := hall.commit_fld a f
  have hmark (f : Fld) : (Work.commit s v).look.flag Reg.CLK_STATUS f = v.flag Reg.CLK_STATUS f := Machine.commit_flag s v hall.csr ..
  refine ⟨_, hrun, ?_, ?_, ?_, ?_, ?_, ?_, ?_, (hmark _).trans hstableA, (hmark _).trans hstableB, hall.sameWordsBut fun a ha => ?_, hall.sameBytes,
    commit_pending ..⟩
  · rw [hshown, hrefs.fld_eq (by decide) (by decide), hda]
  · rw [hshown, hrefs.fld_eq (by decide) (by decide), hdb]
  · rw [hshown, hrefs.fld_eq (by decide) (by decide), hdab]
  · rw [hmark, hflag (by decide) (by decide), hoffA]
  · rw [hmark, hflag (by decide) (by decide), hoffB]
  · rw [hmark, hflag (by decide) (by decide), hxtal]
  · rw [hmark, hflag (by decide) (by decide), hmarginal]
  · simpa only [windowWord, List.mem_cons, List.not_mem_nil, or_false] using ha

/-- Settles O47: each event of a source is one operation on the clocks, and a window's marks are its own. -/
theorem clkSources : Obligations.ClkSources := by
  unfold Obligations.ClkSources
  intro m value n v ref s w st er i pres stab lost u
  refine ⟨?_, ?_, ?_, ?_, ?_, ?_, ?_⟩
  · rintro ⟨hp, hwrite⟩
    have hrun := clkRelock_run hp hwrite
    refine ⟨fun h => ?_, fun ⟨h, hchip⟩ => ?_, fun ⟨h, hchip⟩ => ?_⟩
    · rw [hrun, if_pos h]
    · rw [hrun, if_neg (by rw [h]; decide), if_pos hchip]
    · rw [hrun, if_neg (by rw [h]; decide), if_neg hchip]
  · intro hp
    have hu : w.refLost i pres stab = u := rfl
    have hrun := refAbsent_run hp ref hu
    clear_value u
    refine ⟨refAbsent_unused hrun, fun ⟨hactive, hclock, hchip, hother⟩ => refAbsent_recovering hrun hactive hclock hchip hother,
      fun ⟨hactive, hclock, hserving⟩ => ⟨fun ⟨hother, hctrl⟩ => ?_, fun hno => ?_⟩⟩
    · exact refAbsent_failsOver hrun hactive hclock hserving hother hctrl
    · exact refAbsent_halts hrun hactive hclock hserving hno
  · exact fun ⟨hp, hclock, hlocked⟩ => pllLockLoss_run hp hclock hlocked
  · exact fun ⟨hp, hhalted, hstable⟩ => refStableReturn_run hp hhalted hstable
  · intro ea eb da db dab ok j need wins hp
    exact clkMonWindow_leaves hp ea eb da db dab rfl
  · exact mgmtAbsent_run
  · rintro ⟨hstandby, haway⟩ u l
    exact mgmtReturn_run hstandby haway rfl

end Sys2Proof.Machine
end

section
/-! PROOFS. Heat and supplies (R581–R584, R657, R658). -/

namespace Sys2Proof.Machine

/-! ### Temperatures (R581, R582) -/

theorem setBits_bits (v lsb width : Nat) : setBits v lsb width (bits v lsb width) = v := by
  unfold setBits bits
  rw [Nat.mod_mod, Nat.shiftRight_eq_div_pow, Nat.shiftRight_eq_div_pow, pow_add, ← Nat.div_div_eq_div_mul]
  have hlow := Nat.mod_add_div v (2 ^ lsb)
  have hhigh := Nat.mod_add_div (v / 2 ^ lsb) (2 ^ width)
  calc _ = v % 2 ^ lsb + 2 ^ lsb * (v / 2 ^ lsb % 2 ^ width + 2 ^ width * (v / 2 ^ lsb / 2 ^ width)) := by ring
    _ = v := by rw [hhigh, hlow]

/-- Writing the value that a field holds changes no word. -/
theorem r32_setFld_fld (w : Work) (a : Nat) {f : Fld} (hf : f.lsb + f.width ≤ 32) (x : Nat) : (w.setFld a f (w.fld a f)).r32 x = w.r32 x := by
  rw [Work.setFld, Work.fld, if_pos hf, if_pos hf, setBits_bits]
  by_cases h : x = a
  · rw [h, r32_w32_self, BitVec.ofNat_toNat, BitVec.setWidth_eq]
  · rw [r32_w32_other _ _ h]

/-- A die's reading. -/
def Work.sensed (w : Work) (d j : Nat) : Work := { w with hw := { w.hw with junction := SMap.set 0 w.hw.junction d j } }

theorem sensed_touches (p q : Nat → Prop) (w : Work) (d n : Nat) : w.touches p q (w.sensed d n) := .of_hw rfl rfl rfl rfl rfl rfl

/-- The ceiling that a reading of j on die d gives its region (R581). -/
def Work.ceilNext (w : Work) (d j : Nat) : Nat :=
  if w.fld Reg.PWR_THERM_CFG Fld.PWR_THERM_CFG_THROT_J ≤ j ∨
      w.fld Reg.PWR_THERM_CFG Fld.PWR_THERM_CFG_THROT_D ≤ w.fld (Reg.MEM_TEMP d) Fld.MEM_TEMP_MAX then
    ladderStep (w.fld (Reg.PWR_RG_STATUS d) Fld.PWR_RG_STATUS_CEIL) 1
  else if j + w.fld Reg.PWR_THERM_CFG Fld.PWR_THERM_CFG_HYST_T < w.fld Reg.PWR_THERM_CFG Fld.PWR_THERM_CFG_THROT_J ∧
      w.fld (Reg.MEM_TEMP d) Fld.MEM_TEMP_MAX + w.fld Reg.PWR_THERM_CFG Fld.PWR_THERM_CFG_HYST_T <
        w.fld Reg.PWR_THERM_CFG Fld.PWR_THERM_CFG_THROT_D then
    ladderStep (w.fld (Reg.PWR_RG_STATUS d) Fld.PWR_RG_STATUS_CEIL) 8
  else w.fld (Reg.PWR_RG_STATUS d) Fld.PWR_RG_STATUS_CEIL

section Sample
variable {s : State} (hp : s.powered = true) (die : DieIx) (j : Byte)
include hp

theorem thermalSample_run : exec (.thermalSample die j) s = done s
    (if die.val < 16 then
      if s.look.ceilNext die j.toNat = s.look.fld (Reg.PWR_RG_STATUS die) Fld.PWR_RG_STATUS_CEIL then
        (s.look.sensed die j.toNat).setFld (Reg.PWR_RG_STATUS die) Fld.PWR_RG_STATUS_CEIL (s.look.ceilNext die j.toNat)
      else ((s.look.sensed die j.toNat).setFld (Reg.PWR_RG_STATUS die) Fld.PWR_RG_STATUS_CEIL (s.look.ceilNext die j.toNat)).forEach (List.range 16)
        fun w i => w.sendCap (17 * die.val + i)
    else if die.val < 30 then
      if s.look.fld Reg.PWR_THERM_CFG Fld.PWR_THERM_CFG_THROT_J ≤ j.toNat then
        (s.look.sensed die j.toNat).setFlag Reg.PWR_ERR_STAT Fld.PWR_ERR_STAT_EDGE_HOT true
      else s.look.sensed die j.toNat
    else (s.look.sensed die j.toNat).setFld (Reg.PWR_SD_TEMP (die.val - 30)) Fld.PWR_SD_TEMP_C j.toNat) := by
  change execThermalSample die j s = _
  exact runs hp rfl

/-- A ceiling that stands: the reading is all that changes. -/
theorem thermalSample_keeps (hd : die.val < 16)
    (hnext : s.look.ceilNext die j.toNat = s.look.fld (Reg.PWR_RG_STATUS die) Fld.PWR_RG_STATUS_CEIL) :
    goesTo (exec (.thermalSample die j) s) fun t => t.look.junction die = j.toNat ∧ sameWords s t ∧ sameBytes s t ∧
      t.hw = { s.hw with junction := t.hw.junction } ∧ t.pending = s.pending := by
  have hrun := thermalSample_run hp die j
  rw [if_pos hd, if_pos hnext, hnext] at hrun
  have hwords := Work.words.at_ (a := Reg.PWR_RG_STATUS die) (s.look.sensed die j.toNat) (f := Fld.PWR_RG_STATUS_CEIL)
    (s.look.fld (Reg.PWR_RG_STATUS die) Fld.PWR_RG_STATUS_CEIL) (by decide)
  have hsame (x : Nat) := r32_setFld_fld (s.look.sensed die j.toNat) (Reg.PWR_RG_STATUS die) (f := Fld.PWR_RG_STATUS_CEIL) (by decide) x
  have hfld : (s.look.sensed die j.toNat).fld (Reg.PWR_RG_STATUS die) Fld.PWR_RG_STATUS_CEIL =
    s.look.fld (Reg.PWR_RG_STATUS die) Fld.PWR_RG_STATUS_CEIL := rfl
  rw [hfld] at hsame
  generalize (s.look.sensed die j.toNat).setFld (Reg.PWR_RG_STATUS die) Fld.PWR_RG_STATUS_CEIL
    (s.look.fld (Reg.PWR_RG_STATUS die) Fld.PWR_RG_STATUS_CEIL) = v at hrun hwords hsame
  have hhw : v.hw = { s.hw with junction := SMap.set 0 s.hw.junction die j.toNat } := hwords.hw
  have hall := (sensed_touches (fun _ => True) noCore s.look die j.toNat).trans ((hwords.mono fun _ _ => trivial).touches _)
  refine ⟨_, hrun, ?_, fun x => (commit_r32 s v hwords.csr x).trans (hsame x), hall.sameBytes, ?_, commit_pending ..⟩
  · rw [Work.junction, commit_look_hw, hhw]
    exact SMap.get_set_self ..
  · rw [commit_hw, hhw]

theorem thermalSample_edge (hd : 16 ≤ die.val) (hd' : die.val < 30) (hhot : s.look.fld Reg.PWR_THERM_CFG Fld.PWR_THERM_CFG_THROT_J ≤ j.toNat) :
    goesTo (exec (.thermalSample die j) s) fun t => t.look.flag Reg.PWR_ERR_STAT Fld.PWR_ERR_STAT_EDGE_HOT = true ∧
      sameWordsBut [Reg.PWR_ERR_STAT] s t ∧ sameBytes s t := by
  have hrun := thermalSample_run hp die j
  rw [if_neg (Nat.not_lt.mpr hd), if_pos hd', if_pos hhot] at hrun
  have hflag := flag_setFlag_self (a := Reg.PWR_ERR_STAT) (f := Fld.PWR_ERR_STAT_EDGE_HOT) (s.look.sensed die j.toNat) true (by decide) rfl
  have hall : s.look.touches (· = Reg.PWR_ERR_STAT) noCore ((s.look.sensed die j.toNat).setFlag Reg.PWR_ERR_STAT Fld.PWR_ERR_STAT_EDGE_HOT true) :=
    (sensed_touches ..).trans (Work.touches.setFld32 _ (f := Fld.PWR_ERR_STAT_EDGE_HOT) 1 (by decide) rfl)
  exact ⟨_, hrun, (Machine.commit_flag s _ hall.csr ..).trans hflag, hall.sameWordsBut fun a ha => List.mem_singleton.mpr ha, hall.sameBytes⟩

theorem thermalSample_supply (hd : 30 ≤ die.val) : goesTo (exec (.thermalSample die j) s) fun t =>
    t.look.fld (Reg.PWR_SD_TEMP (die.val - 30)) Fld.PWR_SD_TEMP_C = j.toNat ∧ sameWordsBut [Reg.PWR_SD_TEMP (die.val - 30)] s t ∧ sameBytes s t := by
  have hrun := thermalSample_run hp die j
  rw [if_neg (by omega), if_neg (Nat.not_lt.mpr hd)] at hrun
  have hfld := fld_setFld_self (s.look.sensed die j.toNat) (Reg.PWR_SD_TEMP (die.val - 30)) Fld.PWR_SD_TEMP_C j.toNat (by decide)
  have hall : s.look.touches (· = Reg.PWR_SD_TEMP (die.val - 30)) noCore
      ((s.look.sensed die j.toNat).setFld (Reg.PWR_SD_TEMP (die.val - 30)) Fld.PWR_SD_TEMP_C j.toNat) :=
    (sensed_touches ..).trans ((Work.words.at_ _ (f := Fld.PWR_SD_TEMP_C) _ (by decide)).touches _)
  exact ⟨_, hrun, (hall.commit_fld ..).trans (hfld.trans (Nat.mod_eq_of_lt j.isLt)), hall.sameWordsBut fun a ha => List.mem_singleton.mpr ha,
    hall.sameBytes⟩

theorem thermalSample_moves (hd : die.val < 16)
    (hnext : s.look.ceilNext die j.toNat ≠ s.look.fld (Reg.PWR_RG_STATUS die) Fld.PWR_RG_STATUS_CEIL) :
    exec (.thermalSample die j) s = done s (((s.look.sensed die j.toNat).setFld (Reg.PWR_RG_STATUS die) Fld.PWR_RG_STATUS_CEIL
      (s.look.ceilNext die j.toNat)).forEach (List.range 16) fun w i => w.sendCap (17 * die.val + i)) := by
  rw [thermalSample_run hp die j, if_pos hd, if_neg hnext]

end Sample

/-! ### Trips (R583, R584) -/

section Trips
variable {s : State} (hp : s.powered = true)
include hp

theorem inputGoodReturn_run {good : Work}
    (hgood : s.look.forEach [0, 1] (fun w d => w.setFlag (Reg.PWR_SD_STATUS d) Fld.PWR_SD_STATUS_PGOOD_IN true) = good) :
    exec .inputGoodReturn s = done s
      (if (good.tripped && decide (good.fld Reg.PWR_TRIP_INFO Fld.PWR_TRIP_INFO_CAUSE = 2)) = true then { good with hw := { good.hw with railsDue := true } }
        else good) := by
  subst hgood
  change execInputGoodReturn s = _
  exact runs hp rfl

theorem pwrRestart_run {m : Master} {value : Word} {n : Nat} {v : Work} (hwrite : s.look.woWrite (s.look.clampBy m) Reg.PWR_CMD value.toNat = (n, v)) :
    exec (.pwrRestart m value) s = done s (if bits n 0 1 = 1 ∧ v.tripped ∧ v.fld Reg.PWR_TRIP_INFO Fld.PWR_TRIP_INFO_CAUSE ≠ 2 ∧ v.cool then
      { v with hw := { v.hw with railsDue := true } } else v) := by
  change execPwrRestart m value s = _
  refine runs hp ?_
  rw [Work.pwrCmd, hwrite]

variable (htrip : s.look.tripped = false) (hon : s.look.railsOn = true)
include htrip hon

theorem thermalTrip_run (die : DieIx) (dram : Bool) : exec (.thermalTrip die dram) s = done s
    (if dram then
      if die.val < 16 ∧ 98 ≤ s.look.fld (Reg.MEM_TEMP die) Fld.MEM_TEMP_MAX then
        s.look.trip 1 die (s.look.fld (Reg.MEM_TEMP die) Fld.MEM_TEMP_MAX) Fld.PWR_ERR_STAT_THERM_TRIP
      else s.look
    else if 110 ≤ s.look.junction die ∧ die.val < 30 then s.look.trip 0 die (s.look.junction die) Fld.PWR_ERR_STAT_THERM_TRIP else s.look) := by
  change execThermalTrip die dram s = _
  refine runs hp ?_
  rw [htrip, hon, Bool.not_true, Bool.or_false, if_neg Bool.false_ne_true]

theorem thermalTrip_dram {die : DieIx} (hd : die.val < 16) (hhot : 98 ≤ s.look.fld (Reg.MEM_TEMP die) Fld.MEM_TEMP_MAX) :
    exec (.thermalTrip die true) s = done s (s.look.trip 1 die (s.look.fld (Reg.MEM_TEMP die) Fld.MEM_TEMP_MAX) Fld.PWR_ERR_STAT_THERM_TRIP) := by
  rw [thermalTrip_run hp htrip hon, if_pos rfl, if_pos ⟨hd, hhot⟩]

theorem thermalTrip_junction {die : DieIx} (hd : die.val < 30) (hhot : 110 ≤ s.look.junction die) :
    exec (.thermalTrip die false) s = done s (s.look.trip 0 die (s.look.junction die) Fld.PWR_ERR_STAT_THERM_TRIP) := by
  rw [thermalTrip_run hp htrip hon, if_neg Bool.false_ne_true, if_pos ⟨hhot, hd⟩]

theorem pgoodLoss_rails (sd : Fin 2) (rails : Byte) : exec (.pgoodLoss sd false rails) s = done s
    ((s.look.setFld (Reg.PWR_SD_STATUS sd) Fld.PWR_SD_STATUS_RAIL_FAULT rails.toNat).trip 3 (30 + sd.val) (s.look.junction (30 + sd.val))
      Fld.PWR_ERR_STAT_RAIL_FAULT) := by
  change execPgoodLoss sd false rails s = _
  refine runs hp ?_
  dsimp only
  rw [if_neg Bool.false_ne_true, htrip, if_neg Bool.false_ne_true, if_neg Bool.false_ne_true, hon, if_pos rfl]

theorem pgoodLoss_input (sd : Fin 2) (rails : Byte) {input : Work}
    (hinput : s.look.setFlag (Reg.PWR_SD_STATUS sd) Fld.PWR_SD_STATUS_PGOOD_IN false = input) : exec (.pgoodLoss sd true rails) s = done s
    ((input.setFld (Reg.PWR_SD_STATUS sd) Fld.PWR_SD_STATUS_RAIL_FAULT rails.toNat).trip 2 (30 + sd.val) (s.look.junction (30 + sd.val))
      Fld.PWR_ERR_STAT_PGOOD_LOSS) := by
  have hne : Reg.PWR_STATUS ≠ Reg.PWR_SD_STATUS sd := by
    unfold Reg.PWR_STATUS Reg.PWR_SD_STATUS dieWindow
    omega
  have hword : s.look.words (· = Reg.PWR_SD_STATUS sd) input := hinput ▸ .setFlag _ false (by decide) rfl
  have hstill : input.tripped = false := by
    rw [Work.tripped, hword.flag_eq (by decide) hne]
    exact htrip
  have hjunction : input.junction (30 + sd.val) = s.look.junction (30 + sd.val) := by rw [Work.junction, hword.hw, Work.junction]
  change execPgoodLoss sd true rails s = _
  refine runs hp ?_
  dsimp only
  rw [if_pos rfl, hinput, hstill, if_neg Bool.false_ne_true, if_pos rfl, hon, Bool.true_or, if_pos rfl, hjunction]

end Trips

/-! ### Rails and standby (R584, R657, R658) -/

/-- A training leaves a host port's status word and configuration space. -/
structure Work.linksOnly (w w' : Work) : Prop where
  mem : w'.mem = w.mem
  csr : w'.csr = w.csr
  wr : w'.wr = w.wr
  hw : w'.hw = { w.hw with pci := w'.hw.pci }
  word : ∀ a, a ≠ Reg.HUB_STATUS 0 → a ≠ Reg.HUB_STATUS 1 → w'.r32 a = w.r32 a

theorem Work.linksOnly.trans {u v w : Work} (h : u.linksOnly v) (h' : v.linksOnly w) : u.linksOnly w := by
  obtain ⟨hmem, hcsr, hwr, hhw, hword⟩ := h
  obtain ⟨hmem', hcsr', hwr', hhw', hword'⟩ := h'
  exact ⟨hmem'.trans hmem, hcsr'.trans hcsr, hwr'.trans hwr, by rw [hhw', hhw], fun a h0 h1 => (hword' a h0 h1).trans (hword a h0 h1)⟩

theorem linkTrains_eq (w : Work) (h : Nat) (l : LinkUp) :
    ∃ p, w.linkTrains h l = ((w.setFlag (Reg.HUB_STATUS h) Fld.HUB_STATUS_FAILED false).setPci h p).linkSet h l := ⟨_, rfl⟩

theorem linkTrains_linksOnly (w : Work) {h : Nat} (hh : h = 0 ∨ h = 1) (l : LinkUp) : w.linksOnly (w.linkTrains h l) := by
  have hfailed : w.words (· = Reg.HUB_STATUS h) (w.setFlag (Reg.HUB_STATUS h) Fld.HUB_STATUS_FAILED false) := .setFlag _ false (by decide) rfl
  obtain ⟨p, hp⟩ := linkTrains_eq w h l
  rw [hp]
  generalize w.setFlag (Reg.HUB_STATUS h) Fld.HUB_STATUS_FAILED false = u at hfailed
  have hset := linkSet_words (u.setPci h p) h l
  have hother {a : Nat} (h0 : a ≠ Reg.HUB_STATUS 0) (h1 : a ≠ Reg.HUB_STATUS 1) : a ≠ Reg.HUB_STATUS h := by
    rcases hh with rfl | rfl
    · exact h0
    · exact h1
  refine ⟨hset.mem.trans hfailed.mem, hset.csr.trans hfailed.csr, hset.wr.trans hfailed.wr, ?_, fun a h0 h1 => ?_⟩
  · rw [hset.hw, Work.setPci, hfailed.hw]
  · exact (hset.word a (hother h0 h1)).trans (hfailed.word a (hother h0 h1))

/-- Both supply dies report the input good and the rails in regulation and on (R658). -/
def Work.railsUp (w : Work) : Work :=
  w.forEach [0, 1] fun w d => w.w32 (Reg.PWR_SD_STATUS d) (BitVec.ofNat 32 (setBits (w.r32 (Reg.PWR_SD_STATUS d)).toNat 0 4 7))

theorem railsUp_words (w : Work) : w.words (fun a => a = Reg.PWR_SD_STATUS 0 ∨ a = Reg.PWR_SD_STATUS 1) w.railsUp :=
  .forEach [0, 1] (fun u d hd => .w32 u _ (by
    simp only [List.mem_cons, List.not_mem_nil, or_false] at hd
    exact hd.imp (congrArg _) (congrArg _))) w

theorem railsUp_flag (w : Work) : w.railsUp.railsOn = true := by
  have hon (v : Word) : bits (BitVec.ofNat 32 (setBits v.toNat 0 4 7)).toNat 2 1 = 1 := by
    rw [BitVec.toNat_ofNat, Nat.mod_eq_of_lt (setBits_lt _ _ _ _ 32 (by decide) v.isLt)]
    unfold bits setBits
    rw [Nat.shiftRight_eq_div_pow]
    omega
  have hset (u : Work) (d : Nat) : (u.w32 (Reg.PWR_SD_STATUS d) (BitVec.ofNat 32 (setBits (u.r32 (Reg.PWR_SD_STATUS d)).toNat 0 4 7))).flag
      (Reg.PWR_SD_STATUS d) Fld.PWR_SD_STATUS_RAILS_ON = true := by
    rw [Work.flag, Work.fld, if_pos (by decide), r32_w32_self]
    exact decide_eq_true (hon _)
  have hne : Reg.PWR_SD_STATUS 0 ≠ Reg.PWR_SD_STATUS 1 := by decide
  rw [Work.railsOn, Work.railsUp, Work.forEach, List.foldl_cons, List.foldl_cons, List.foldl_nil, hset, Bool.and_true]
  rw [Work.flag, fld_of_r32 (by decide) (r32_w32_other _ _ hne), ← Work.flag, hset]

/-- A machine whose trip is over, with no reset due. -/
def Work.rearmed (w : Work) : Work := { w with hw := { w.hw with railsDue := false, thermTrip := false, resetsDue := [] } }

theorem orderReset_rearmed {w : Work} (h : w.hw.resetsDue = []) (n : Nat) : w.orderReset n = { w with hw := { w.hw with resetsDue := [n] } } := by
  rw [Work.orderReset, h]
  rfl

theorem railsUp_run {s : State} (hp : s.powered = true) (hdue : s.hw.railsDue = true) (hstarter : s.hw.starterOk = true)
    (hoff : s.look.railsOn = false) (l0 l1 : LinkUp) : exec (.railsUp l0 l1) s = done s
    ((((s.look.railsUp.setFlag Reg.PWR_STATUS Fld.PWR_STATUS_TRIPPED false).rearmed.linkTrains 0 l0).linkTrains 1 l1).orderReset
      (if s.look.railsUp.tripped then 16 else 48)) := by
  have hguard : (s.look.hw.railsDue && s.look.hw.starterOk && !s.look.railsOn) = true := by
    change (s.hw.railsDue && s.hw.starterOk && !s.look.railsOn) = true
    rw [hdue, hstarter, hoff]
    rfl
  change execRailsUp l0 l1 s = _
  refine runs hp ?_
  rw [Work.when, hguard, if_pos rfl]
  rfl

theorem rearmed_touches (p q : Nat → Prop) (w : Work) : w.touches p q w.rearmed := .of_hw rfl rfl rfl rfl rfl rfl

theorem railsUp_leaves {s : State} (hp : s.powered = true) (hdue : s.hw.railsDue = true) (hstarter : s.hw.starterOk = true)
    (hoff : s.look.railsOn = false) (l0 l1 : LinkUp) : goesTo (exec (.railsUp l0 l1) s) fun t =>
      t.look.railsOn = true ∧ t.look.tripped = false ∧ t.hw.railsDue = false ∧ t.hw.thermTrip = false ∧
        t.hw.resetsDue = [if s.look.tripped then 16 else 48] ∧ sameBytes s t := by
  have hrun := railsUp_run hp hdue hstarter hoff l0 l1
  have hup := railsUp_words s.look
  have hon := railsUp_flag s.look
  have htripped : s.look.railsUp.tripped = s.look.tripped := hup.flag_eq (by decide) (by decide)
  rw [htripped] at hrun
  generalize s.look.railsUp = u at *
  have hclear : u.words (· = Reg.PWR_STATUS) (u.setFlag Reg.PWR_STATUS Fld.PWR_STATUS_TRIPPED false) := .setFlag _ false (by decide) rfl
  have hflag := flag_setFlag_self (a := Reg.PWR_STATUS) (f := Fld.PWR_STATUS_TRIPPED) u false (by decide) rfl
  generalize u.setFlag Reg.PWR_STATUS Fld.PWR_STATUS_TRIPPED false = v at *
  have hlinks := (linkTrains_linksOnly v.rearmed (.inl rfl) l0).trans (linkTrains_linksOnly _ (.inr rfl) l1)
  generalize (v.rearmed.linkTrains 0 l0).linkTrains 1 l1 = x at *
  have hdues : x.hw.resetsDue = [] := by
    rw [hlinks.hw]
    rfl
  rw [orderReset_rearmed hdues] at hrun
  have hcsr : x.csr = s.look.csr := hlinks.csr.trans (hclear.csr.trans hup.csr)
  have hword {a : Nat} {f : Fld} (hf : f.lsb + f.width ≤ 32) (h0 : a ≠ Reg.HUB_STATUS 0) (h1 : a ≠ Reg.HUB_STATUS 1) : x.flag a f = v.flag a f := by
    rw [Work.flag, fld_of_r32 hf (hlinks.word a h0 h1)]
    rfl
  have hmark (a : Nat) (f : Fld) := Machine.commit_flag s { x with hw := { x.hw with resetsDue := [if s.look.tripped then 16 else 48] } } hcsr a f
  have hsame (a : Nat) (f : Fld) : ({ x with hw := { x.hw with resetsDue := [if s.look.tripped then 16 else 48] } } : Work).flag a f = x.flag a f := rfl
  refine ⟨_, hrun, ?_, ?_, ?_, ?_, rfl, sameBytes_of ?_ ?_ ?_⟩
  · rw [Work.railsOn, hmark, hmark, hsame, hsame, hword (by decide) (by decide) (by decide), hword (by decide) (by decide) (by decide),
      hclear.flag_eq (by decide) (by decide), hclear.flag_eq (by decide) (by decide)]
    exact hon
  · rw [Work.tripped, hmark, hsame, hword (by decide) (by decide) (by decide)]
    exact hflag
  · rw [commit_hw]
    exact congrArg Hw.railsDue hlinks.hw
  · rw [commit_hw]
    exact congrArg Hw.thermTrip hlinks.hw
  · exact hlinks.mem.trans (hclear.mem.trans hup.mem)
  · exact hlinks.wr.trans (hclear.wr.trans hup.wr)
  · refine (congrArg Hw.wild hlinks.hw).trans ?_
    exact (congrArg Hw.wild hclear.hw).trans (congrArg Hw.wild hup.hw)

/-- Every register word takes its reset value. -/
def Work.resetWords (w : Work) (l : List Nat) : Work := w.forEach l fun w a => w.w32 a (csrReset a)

theorem resetWords_parts (w : Work) (l : List Nat) : (w.resetWords l).mem = w.mem ∧ (w.resetWords l).csr = w.csr ∧ (w.resetWords l).hw = w.hw := by
  unfold Work.resetWords Work.forEach
  induction l generalizing w with
  | nil => exact ⟨rfl, rfl, rfl⟩
  | cons a l ih => exact ih (w.w32 a (csrReset a))

theorem resetWords_r32 (w : Work) (l : List Nat) {x : Nat} (h : w.r32 x = csrReset x ∨ x ∈ l) : (w.resetWords l).r32 x = csrReset x := by
  unfold Work.resetWords Work.forEach
  induction l generalizing w with
  | nil => exact h.resolve_right List.not_mem_nil
  | cons a l ih =>
    refine ih (w.w32 a (csrReset a)) ?_
    by_cases hx : x = a
    · subst hx
      exact .inl (r32_w32_self ..)
    · rw [r32_w32_other _ _ hx]
      exact h.imp_right fun h => (List.mem_cons.mp h).resolve_left hx

/-- A word that the register file does not list reads its reset value. -/
theorem r32_look_unlisted {s : State} {x : Nat} (h : x ∉ s.csr.map Prod.fst) : s.look.r32 x = csrReset x := by
  have hfind : SMap.find? s.csr x = none := by
    generalize s.csr = m at h
    induction m with
    | nil => rfl
    | cons e m ih =>
      rw [List.map_cons, List.mem_cons, not_or] at h
      rw [SMap.find?, if_neg (Ne.symm h.1)]
      exact ih h.2
  change Csr.read s.csr x = _
  rw [Csr.read, SMap.get, hfind]
  rfl

theorem loseMemory_parts (w : Work) : w.loseMemory.cw = w.cw ∧ w.loseMemory.csr = w.csr ∧
    w.loseMemory.hw = { w.hw with wild := w.loseMemory.hw.wild, draws := w.loseMemory.hw.draws } := ⟨rfl, rfl, rfl⟩

/-- The fuses keep their word, and the flash its bytes, over a loss of the standby input (R584, R611). -/
def Work.powerOn (w : Work) (fuse : Word) (h : Hw) : Work :=
  ({ w.w32 (Reg.BOOT_FUSE 0) fuse with hw := { Hw.reset with flash := h.flash, draws := h.draws } } : Work).loseMemory

theorem standbyGood_run {s : State} (hdown : s.hw.standby = false) : exec .standbyGood s = done s
    ((s.look.resetWords (s.csr.map Prod.fst ++ [])).powerOn (s.look.r32 (Reg.BOOT_FUSE 0)) s.hw) := by
  have hguard : (!s.look.hw.standby) = true := by
    change (!s.hw.standby) = true
    rw [hdown]
    rfl
  change execStandbyGood s = _
  refine runsAlways ?_
  rw [Work.when, hguard, if_pos rfl]
  rfl

theorem powerOn_r32 (w : Work) (fuse : Word) (h : Hw) (x : Nat) : (w.powerOn fuse h).r32 x = (w.w32 (Reg.BOOT_FUSE 0) fuse).r32 x := by
  obtain ⟨hcw, hcsr, -⟩ := loseMemory_parts { w.w32 (Reg.BOOT_FUSE 0) fuse with hw := { Hw.reset with flash := h.flash, draws := h.draws } }
  exact r32_of_cw _ _ hcw hcsr x

theorem powerOn_hw (w : Work) (fuse : Word) (h : Hw) : (w.powerOn fuse h).hw.standby = Hw.reset.standby ∧ (w.powerOn fuse h).hw.flash = h.flash ∧
    (w.powerOn fuse h).hw.cores = [] ∧ (w.powerOn fuse h).csr = w.csr := ⟨rfl, rfl, rfl, rfl⟩

theorem standbyGood_leaves {s : State} (hdown : s.hw.standby = false) : goesTo (exec .standbyGood s) fun t =>
    t.hw.standby = State.reset.hw.standby ∧ t.hw.flash = s.hw.flash ∧ t.look.r32 (Reg.BOOT_FUSE 0) = s.look.r32 (Reg.BOOT_FUSE 0) ∧
      (∀ x, x ≠ Reg.BOOT_FUSE 0 → t.look.r32 x = csrReset x) ∧ t.hw.cores = [] ∧ t.pending = s.pending := by
  have hrun := standbyGood_run hdown
  rw [List.append_nil] at hrun
  obtain ⟨-, hcsr, -⟩ := resetWords_parts s.look (s.csr.map Prod.fst)
  have hreset (x : Nat) : (s.look.resetWords (s.csr.map Prod.fst)).r32 x = csrReset x := by
    refine resetWords_r32 _ _ ?_
    by_cases h : x ∈ s.csr.map Prod.fst
    · exact .inr h
    · exact .inl (r32_look_unlisted h)
  generalize s.look.resetWords (s.csr.map Prod.fst) = u at *
  obtain ⟨hstandby, hflash, hcores, hcsr'⟩ := powerOn_hw u (s.look.r32 (Reg.BOOT_FUSE 0)) s.hw
  have hword := powerOn_r32 u (s.look.r32 (Reg.BOOT_FUSE 0)) s.hw
  generalize u.powerOn (s.look.r32 (Reg.BOOT_FUSE 0)) s.hw = v at *
  have hshown (x : Nat) := commit_r32 s v (hcsr'.trans hcsr) x
  refine ⟨_, hrun, hstandby, hflash, ?_, fun x hx => ?_, hcores, commit_pending ..⟩
  · rw [hshown, hword, r32_w32_self]
  · rw [hshown, hword, r32_w32_other _ _ hx, hreset]

/-- Settles O48: a reading moves one ceiling, a trip is one operation, and standby power starts the plane as reset does. -/
theorem pwrTripsAndSupplies : Obligations.PwrTripsAndSupplies := by
  unfold Obligations.PwrTripsAndSupplies
  intro m value n v die j sd rails l0 l1 s w d th hot hotD hyst stack a ceil next input
  have hnext : next = w.ceilNext d j.toNat := by rw [Work.ceilNext]
  refine ⟨?_, ?_, ?_, ?_, ?_, ?_, ?_, ?_, ?_, standbyGood_leaves⟩
  · rintro ⟨hp, hd, hkeep, -⟩
    exact thermalSample_keeps hp die j hd (hnext.symm.trans hkeep)
  · rintro ⟨hp, hd, hmove⟩ u
    rw [hnext]
    exact thermalSample_moves hp die j hd (hnext ▸ hmove)
  · exact fun ⟨hp, hd, hd', hhot⟩ => thermalSample_edge hp die j hd hd' hhot
  · exact fun ⟨hp, hd⟩ => thermalSample_supply hp die j hd
  · rintro ⟨hp, htrip, hon⟩
    exact ⟨fun ⟨hd, hhot⟩ => thermalTrip_junction hp htrip hon hd hhot, fun ⟨hd, hhot⟩ => thermalTrip_dram hp htrip hon hd hhot,
      pgoodLoss_rails hp htrip hon sd rails, pgoodLoss_input hp htrip hon sd rails rfl⟩
  · intro hp good due
    exact inputGoodReturn_run hp rfl
  · rintro ⟨hp, hwrite⟩ restarts
    have hrun := pwrRestart_run hp hwrite
    exact ⟨fun h => hrun.trans (congrArg (done s) (if_pos h)), fun h => hrun.trans (congrArg (done s) (if_neg h))⟩
  · exact fun ⟨hp, hdue, hstarter, hoff⟩ => railsUp_leaves hp hdue hstarter hoff l0 l1
  · change execStandbyLoss s = _
    rfl

end Sys2Proof.Machine
end

section
/-! PROOFS. Straps and the address chain (R587–R591). -/

namespace Sys2Proof.Machine

/-! ### Straps -/

/-- The straps are taken from the sample v (R588). -/
def Work.strapTaken (w : Work) (v extra : Nat) : Work :=
  let u := w.w32 (Reg.BOOT_STRAP 1) (BitVec.ofNat 32 (bits v 0 8 + (1 - bits v 8 1) * 2 ^ 8 + extra))
  ({ u with hw := { u.hw with strapRound := 2 } } : Work).showIds

section Strap
variable {s : State} {samples : BitVec 72} (hp : s.powered = true)
include hp

theorem strapSample_run : exec (.strapSample samples) s = done s
    (if s.hw.strapRound = 2 then s.look
      else if (List.range 8).all (fun i => decide (bits samples.toNat (9 * i) 9 = bits samples.toNat (9 * 7) 9)) = true then
        s.look.strapTaken (bits samples.toNat (9 * 7) 9) 0
      else if s.hw.strapRound = 0 then { s.look with hw := { s.hw with strapRound := 1 } }
      else s.look.strapTaken (bits samples.toNat (9 * 7) 9) (2 ^ 9)) := by
  change execStrapSample samples s = _
  refine runs hp ?_
  unfold Work.strapTaken
  rfl

theorem strapSample_after (hround : s.hw.strapRound = 2) : exec (.strapSample samples) s = .next s := by
  rw [strapSample_run hp, if_pos hround, done, commit_look]

variable (hround : s.hw.strapRound ≠ 2)
include hround

theorem strapSample_agrees (h : ∀ i, i < 8 → bits samples.toNat (9 * i) 9 = bits samples.toNat (9 * 7) 9) :
    exec (.strapSample samples) s = done s (s.look.strapTaken (bits samples.toNat (9 * 7) 9) 0) := by
  have hall : (List.range 8).all (fun i => decide (bits samples.toNat (9 * i) 9 = bits samples.toNat (9 * 7) 9)) = true :=
    List.all_eq_true.mpr fun i hi => decide_eq_true (h i (List.mem_range.mp hi))
  rw [strapSample_run hp, if_neg hround, if_pos hall]

variable (h : ¬ ∀ i, i < 8 → bits samples.toNat (9 * i) 9 = bits samples.toNat (9 * 7) 9)
include h

theorem strapSample_differs : exec (.strapSample samples) s = done s
    (if s.hw.strapRound = 0 then { s.look with hw := { s.hw with strapRound := 1 } } else s.look.strapTaken (bits samples.toNat (9 * 7) 9) (2 ^ 9)) := by
  have hall : ¬ (List.range 8).all (fun i => decide (bits samples.toNat (9 * i) 9 = bits samples.toNat (9 * 7) 9)) = true :=
    fun hall => h fun i hi => of_decide_eq_true (List.all_eq_true.mp hall i (List.mem_range.mpr hi))
  rw [strapSample_run hp, if_neg hround, if_neg hall]

theorem strapSample_again (hfirst : s.hw.strapRound = 0) : exec (.strapSample samples) s = .next { s with hw := { s.hw with strapRound := 1 } } := by
  rw [strapSample_differs hp hround h, if_pos hfirst]
  rfl

theorem strapSample_unstable (hsecond : s.hw.strapRound ≠ 0) :
    exec (.strapSample samples) s = done s (s.look.strapTaken (bits samples.toNat (9 * 7) 9) (2 ^ 9)) := by
  rw [strapSample_differs hp hround h, if_neg hsecond]

end Strap

/-! ### The chain (R589–R591) -/

/-- What the next chip is sent. -/
def Work.passesOn (w : Work) (frame : BitVec 19) : Work :=
  { w with hw := { w.hw with achainOut := some (bits frame.toNat 1 8, min 255 (bits frame.toNat 9 8 + 1)) } }

/-- A good frame is taken (R590, R591). -/
def Work.frameTaken (w : Work) (frame : BitVec 19) : Work :=
  if w.flag (Reg.BOOT_ACHAIN_STAT 1) Fld.BOOT_ACHAIN_STAT_VALID then
    if w.fld (Reg.BOOT_ACHAIN_STAT 1) Fld.BOOT_ACHAIN_STAT_BLOCK = bits frame.toNat 1 8 then w
    else w.setFlag (Reg.BOOT_ACHAIN_ERR 1) Fld.BOOT_ACHAIN_ERR_CONFLICT true
  else (w.w32 (Reg.BOOT_ACHAIN_STAT 1) (BitVec.ofNat 32 (bits frame.toNat 1 8 + 2 ^ 8 + bits frame.toNat 9 8 * 2 ^ 16))).showIds

section Chain
variable {s : State} {frame : BitVec 19} (hp : s.powered = true) (hstart : frame.getLsbD 0 = false)
include hp hstart

theorem achainFrame_good (hgood : frameGood frame = true) : exec (.achainFrame frame) s = done s
    (((if s.hw.badFrame then s.look.chainError false else s.look).passesOn frame).frameTaken frame) := by
  change execAchainFrame frame s = _
  refine runs hp ?_
  dsimp only
  rw [hstart, if_neg Bool.false_ne_true, if_pos hgood, Work.frameTaken, Work.passesOn]
  rfl

/-- A good frame that follows none bad. -/
theorem achainFrame_next (hgood : frameGood frame = true) (hbad : s.hw.badFrame = false) :
    exec (.achainFrame frame) s = done s ((s.look.passesOn frame).frameTaken frame) := by
  rw [achainFrame_good hp hstart hgood, if_neg (ne_true_of_eq_false hbad)]

theorem achainFrame_bad (hbad : frameGood frame = false) : exec (.achainFrame frame) s = done s
    (if (s.look.satAdd (Reg.BOOT_ACHAIN_ERR 1) Fld.BOOT_ACHAIN_ERR_BAD_FRAMES 1).hw.badFrame then
      (s.look.satAdd (Reg.BOOT_ACHAIN_ERR 1) Fld.BOOT_ACHAIN_ERR_BAD_FRAMES 1).chainError true
    else { (s.look.satAdd (Reg.BOOT_ACHAIN_ERR 1) Fld.BOOT_ACHAIN_ERR_BAD_FRAMES 1) with
      hw := { (s.look.satAdd (Reg.BOOT_ACHAIN_ERR 1) Fld.BOOT_ACHAIN_ERR_BAD_FRAMES 1).hw with badFrame := true } }) := by
  change execAchainFrame frame s = _
  refine runs hp ?_
  dsimp only
  rw [hstart, if_neg Bool.false_ne_true, if_neg (ne_true_of_eq_false hbad)]

end Chain

/-- The words of the link dies that show the chip's block and position. -/
def idWord (a : Nat) : Prop := ∃ l, l < 8 ∧ (a = Reg.RTE_IDSTAT l ∨ a = Reg.RTE_SELF l)

theorem showIds_words (w : Work) : w.words idWord w.showIds := by
  unfold Work.showIds
  refine .forEach linkDies (fun u l hl => ?_) w
  have hl8 : l < 8 := by
    simp only [linkDies, List.mem_cons, List.not_mem_nil, or_false] at hl
    omega
  have hid : idWord (Reg.RTE_IDSTAT l) := ⟨l, hl8, .inl rfl⟩
  exact (((Work.words.setFld u _ (by decide) hid).trans (.setFlag _ _ (by decide) hid)).trans (.setFld _ _ (by decide) hid)).trans
    (.setFld _ _ (by decide) ⟨l, hl8, .inr rfl⟩)

theorem achainErr_not_idWord : ¬ idWord (Reg.BOOT_ACHAIN_ERR 1) := by
  rintro ⟨l, hl, h | h⟩ <;> unfold Reg.BOOT_ACHAIN_ERR at h
  · unfold Reg.RTE_IDSTAT dieWindow at h
    omega
  · unfold Reg.RTE_SELF dieWindow at h
    omega

section Taken
variable (w : Work) (frame : BitVec 19)

theorem frameTaken_words : w.words (fun _ => True) (w.frameTaken frame) := by
  unfold Work.frameTaken
  split
  · split
    · exact .refl ..
    · exact .setFlag w true (by decide) trivial
  · exact (Work.words.w32 w _ trivial).trans ((showIds_words _).mono fun _ _ => trivial)

/-- Taking a frame leaves the mark of an earlier error. -/
theorem frameTaken_transient : (w.frameTaken frame).flag (Reg.BOOT_ACHAIN_ERR 1) Fld.BOOT_ACHAIN_ERR_PARITY_TRANSIENT =
    w.flag (Reg.BOOT_ACHAIN_ERR 1) Fld.BOOT_ACHAIN_ERR_PARITY_TRANSIENT := by
  unfold Work.frameTaken
  split
  · split
    · rfl
    · exact flag_setFlag_beside w true (by decide) (by decide) (by decide)
  · rw [(showIds_words _).flag_eq (by decide) achainErr_not_idWord]
    exact (Work.words.w32 (p := (· = Reg.BOOT_ACHAIN_STAT 1)) w _ rfl).flag_eq (by decide) (by decide)

end Taken

/-- A chain that waits for no good frame. -/
def Work.heard (w : Work) : Work := { w with hw := { w.hw with badFrame := false } }

/-- The chain's transient error, with its count. -/
def Work.chainMarked (w : Work) : Work :=
  (w.setFlag (Reg.BOOT_ACHAIN_ERR 1) Fld.BOOT_ACHAIN_ERR_PARITY_TRANSIENT true).bumpErr (Reg.ERR_TRANSIENT 29) 1

theorem chainError_transient (w : Work) : w.chainError false = w.chainMarked.heard := by
  rw [Work.chainError, if_neg Bool.false_ne_true, if_neg Bool.false_ne_true, Work.heard, Work.chainMarked]

theorem chainMarked_words (w : Work) : w.words (fun _ => True) w.chainMarked :=
  (Work.words.setFlag w true (by decide) trivial).trans (.bumpErr _ _ trivial trivial)

theorem chainMarked_flag (w : Work) : w.chainMarked.flag (Reg.BOOT_ACHAIN_ERR 1) Fld.BOOT_ACHAIN_ERR_PARITY_TRANSIENT = true := by
  have hcount (u : Work) : u.words (fun a => a = Reg.ERR_TRANSIENT 29 ∨ a = Reg.ERR_TRANSIENT 29 + 4) (u.bumpErr (Reg.ERR_TRANSIENT 29) 1) :=
    .bumpErr u 1 (.inl rfl) (.inr rfl)
  rw [Work.chainMarked, (hcount _).flag_eq (by decide) (by decide)]
  exact flag_setFlag_self w true (by decide) rfl

/-- A good frame after a bad one: the error was transient, and the frame counts. -/
theorem achainFrame_clears {s : State} {frame : BitVec 19} (hp : s.powered = true) (hstart : frame.getLsbD 0 = false)
    (hgood : frameGood frame = true) (hbad : s.hw.badFrame = true) : goesTo (exec (.achainFrame frame) s) fun t =>
      t.hw.badFrame = false ∧ t.hw.achainOut = some (bits frame.toNat 1 8, min 255 (bits frame.toNat 9 8 + 1)) ∧
        t.look.flag (Reg.BOOT_ACHAIN_ERR 1) Fld.BOOT_ACHAIN_ERR_PARITY_TRANSIENT = true ∧ sameBytes s t ∧ t.pending = s.pending := by
  have hrun := achainFrame_good hp hstart hgood
  rw [if_pos hbad, chainError_transient] at hrun
  have hmarked := chainMarked_words s.look
  have hflag := chainMarked_flag s.look
  generalize s.look.chainMarked = u at *
  have htaken := frameTaken_words (u.heard.passesOn frame) frame
  have hmark := frameTaken_transient (u.heard.passesOn frame) frame
  generalize (u.heard.passesOn frame).frameTaken frame = v at *
  refine ⟨_, hrun, congrArg Hw.badFrame htaken.hw, congrArg Hw.achainOut htaken.hw, ?_, sameBytes_of ?_ ?_ ?_, commit_pending ..⟩
  · exact (Machine.commit_flag s v (htaken.csr.trans hmarked.csr) ..).trans (hmark.trans hflag)
  · exact htaken.mem.trans hmarked.mem
  · exact htaken.wr.trans hmarked.wr
  · exact (congrArg Hw.wild htaken.hw :).trans (congrArg Hw.wild hmarked.hw :)

theorem satAdd_words (w : Work) (a : Nat) {f : Fld} (hf : f.lsb + f.width ≤ 32) (n : Nat) : w.words (fun _ => True) (w.satAdd a f n) :=
  .setFld w _ hf trivial

theorem achainBadTimeout_run {s : State} (hp : s.powered = true) (hbad : s.hw.badFrame = true) :
    exec .achainBadTimeout s = done s (s.look.chainError true) := by
  change execAchainBadTimeout s = _
  refine runs hp ?_
  exact if_pos hbad

theorem achainRelearn_run {s : State} {m : Master} {value : Word} {n : Nat} {u : Work} (hp : s.powered = true)
    (hwrite : s.look.woWrite (s.look.clampBy m) (Reg.BOOT_ACHAIN_CMD 1) value.toNat = (n, u)) (hn : bits n 0 1 = 1) :
    exec (.achainRelearn m value) s = done s (u.w32 (Reg.BOOT_ACHAIN_STAT 1) 0).showIds := by
  change execAchainRelearn m value s = _
  refine runs hp ?_
  rw [Work.chainCmd, hwrite]
  exact if_pos hn

/-- Settles O50: a round is taken, tried again or unstable; a frame is latched, agrees, conflicts or is bad. -/
theorem bootStrapsAndChain : Obligations.BootStrapsAndChain := by
  unfold Obligations.BootStrapsAndChain
  intro samples frame m value s w round v agree st er block hop bad strap took good passOn
  refine ⟨?_, ?_, ?_, ?_, ?_, ?_, ?_, ?_, ?_, ?_, ?_, ?_⟩
  · exact fun ⟨hp, hround⟩ => strapSample_after hp hround
  · exact fun ⟨hp, hround, h⟩ => strapSample_agrees hp hround h
  · exact fun ⟨hp, hround, h⟩ => strapSample_again hp (by rw [show s.hw.strapRound = 0 from hround]; decide) h hround
  · exact fun ⟨hp, hfirst, hround, h⟩ => strapSample_unstable hp hround h hfirst
  · rintro ⟨⟨hp, hstart, hgood⟩, hbad, hvalid⟩
    exact (achainFrame_next hp hstart hgood hbad).trans (congrArg (done s) (if_neg (ne_true_of_eq_false hvalid)))
  · rintro ⟨⟨hp, hstart, hgood⟩, hbad, hvalid, hblock⟩
    exact (achainFrame_next hp hstart hgood hbad).trans (congrArg (done s) ((if_pos hvalid).trans (if_pos hblock)))
  · rintro ⟨⟨hp, hstart, hgood⟩, hbad, hvalid, hblock⟩
    exact (achainFrame_next hp hstart hgood hbad).trans (congrArg (done s) ((if_pos hvalid).trans (if_neg hblock)))
  · exact fun ⟨⟨hp, hstart, hgood⟩, hbad⟩ => achainFrame_clears hp hstart hgood hbad
  · rintro ⟨hp, hstart, hgood, hbad⟩
    have hhw : (s.look.satAdd er Fld.BOOT_ACHAIN_ERR_BAD_FRAMES 1).hw = s.hw := (satAdd_words _ _ (by decide) _).hw
    rw [achainFrame_bad hp hstart hgood, hhw, if_neg (ne_true_of_eq_false hbad)]
  · rintro ⟨hp, hstart, hgood, hbad⟩
    have hhw : (s.look.satAdd er Fld.BOOT_ACHAIN_ERR_BAD_FRAMES 1).hw = s.hw := (satAdd_words _ _ (by decide) _).hw
    rw [achainFrame_bad hp hstart hgood, hhw, if_pos hbad]
  · exact fun ⟨hp, hbad⟩ => achainBadTimeout_run hp hbad
  · exact fun n u ⟨hp, hwrite, hn⟩ => achainRelearn_run hp hwrite hn

end Sys2Proof.Machine
end

section
/-! PROOFS. Boots (R594, R598–R604). -/

namespace Sys2Proof.Machine

/-! ### Records are a matter of the flash -/

theorem flB_of_flash {u w : Work} (h : u.hw.flash = w.hw.flash) (a : Nat) : u.flB a = w.flB a := by rw [Work.flB, h, Work.flB]

theorem flBytes_of_flash {u w : Work} (h : u.hw.flash = w.hw.flash) (a n : Nat) : u.flBytes a n = w.flBytes a n := by
  unfold Work.flBytes
  simp only [flB_of_flash h]

theorem flLE_of_flash {u w : Work} (h : u.hw.flash = w.hw.flash) (a n : Nat) : u.flLE a n = w.flLE a n := by
  rw [Work.flLE, flBytes_of_flash h, Work.flLE]

theorem recCrc_of_flash {u w : Work} (h : u.hw.flash = w.hw.flash) (i : Nat) : u.recCrc i = w.recCrc i := by
  rw [Work.recCrc, flBytes_of_flash h, flLE_of_flash h, Work.recCrc]

theorem records_of_flash {u w : Work} (h : u.hw.flash = w.hw.flash) : u.records = w.records := by
  unfold Work.records
  simp only [flLE_of_flash h, recCrc_of_flash h, flBytes_of_flash h]

/-- The words that a boot's look at the records shows its outcome in. -/
def recordWord (a : Nat) : Prop := a = Reg.BOOT_STATUS 0 ∨ a = Reg.BOOT_ERR_STAT 0 ∨ a = Reg.BOOT_ERR_INFO 0 ∨ a = Reg.BOOT_REC 0 ∨ a = Reg.BOOT_ACTIVE 0 ∨
  a = Reg.BOOT_ACT_SEQ 0

theorem showPointer_words (w : Work) : w.words recordWord w.showPointer := by
  have hstatus : recordWord (Reg.BOOT_STATUS 0) := .inl rfl
  have hactive : recordWord (Reg.BOOT_ACTIVE 0) := .inr (.inr (.inr (.inr (.inl rfl))))
  have hseq : recordWord (Reg.BOOT_ACT_SEQ 0) := .inr (.inr (.inr (.inr (.inr rfl))))
  have hrec (x : Word) : w.words recordWord (w.w32 (Reg.BOOT_REC 0) x) := .w32 w x (.inr (.inr (.inr (.inl rfl))))
  unfold Work.showPointer
  extract_lets l u st
  have hu : w.words recordWord u := hrec _
  cases pointerOf l with
  | some p =>
    exact (((hu.trans (.w32 _ _ hactive)).trans (.w32 _ _ hseq)).trans (.setFlag _ _ (by decide) hstatus)).trans (.setFld _ _ (by decide) hstatus)
  | none =>
    exact (((hu.trans (.w32 _ _ hactive)).trans (.w32 _ _ hseq)).trans (.setFlag _ _ (by decide) hstatus)).trans (.setFld _ _ (by decide) hstatus)

theorem scanRecords_words (w : Work) : w.words recordWord w.scanRecords := by
  unfold Work.scanRecords
  split
  · exact ((Work.words.setFlag w _ (by decide) (.inr (.inl rfl))).trans (.setFld _ _ (by decide) (.inr (.inr (.inl rfl))))).trans (showPointer_words _)
  · exact showPointer_words w

/-- The records as a boot finds them (R602). -/
def Work.bootScanned (w : Work) : Work :=
  (((w.setFlag (Reg.BOOT_STATUS 0) Fld.BOOT_STATUS_NO_POINTER false).setFlag (Reg.BOOT_STATUS 0) Fld.BOOT_STATUS_REVERTED false).setFlag
    (Reg.BOOT_STATUS 0) Fld.BOOT_STATUS_NO_BLOCK false).scanRecords

theorem bootScanned_words (w : Work) : w.words recordWord w.bootScanned :=
  (((Work.words.setFlag w _ (by decide) (.inl rfl)).trans (.setFlag _ _ (by decide) (.inl rfl))).trans (.setFlag _ _ (by decide) (.inl rfl))).trans
    (scanRecords_words _)

/-- A boot without a pointer: the first slot that passes, or host recovery (R602). -/
def Work.bootUnpointed (w : Work) (read : Nat → ReadCheck) (bad : Nat → Nat) : Work :=
  let a := w.loadImage 0 false (read 0) (bad 0)
  let b := a.2.loadImage 1 false (read 1) (bad 1)
  if a.1 then a.2.setFlag (Reg.BOOT_STATUS 0) Fld.BOOT_STATUS_NO_POINTER true
  else if b.1 then b.2.setFlag (Reg.BOOT_STATUS 0) Fld.BOOT_STATUS_NO_POINTER true
  else b.2.hostRecovery false

/-- A boot by a pointer that may still be tried (R601, R602). -/
def Work.bootPointed (w : Work) (l : List SlotRec) (p : SlotRec) (read : Nat → ReadCheck) (bad : Nat → Nat) : Work :=
  let a := w.loadImage p.slot (decide (p.digest ≠ w.hdrDigest p.slot / 2 ^ (8 * 20))) (read p.slot) (bad p.slot)
  if a.1 then (if confirmed l p then a.2 else a.2.appendRecord 2 p.slot false (some p.seq)) else a.2.fallBack p.slot read bad

/-- A boot that the straps leave to the records. -/
def Work.bootByRecords (w : Work) (l : List SlotRec) (read : Nat → ReadCheck) (bad : Nat → Nat) : Work :=
  match pointerOf l with
  | none => w.bootUnpointed read bad
  | some p => if !confirmed l p && decide (3 ≤ attempts l p) then w.fallBack p.slot read bad else w.bootPointed l p read bad

section Load
variable {s : State} (hp : s.powered = true)
include hp

theorem bootImageLoad_run (readA readB : ReadCheck) (badA badB : Fin 7) (hstarter : s.hw.starterOk = true) (hchip : s.look.chipState = 1)
    (hstage : s.look.fld (Reg.BOOT_STATUS 0) Fld.BOOT_STATUS_STAGE = 1) : exec (.bootImageLoad readA badA readB badB) s = done s
    (if s.look.bootScanned.flag (Reg.BOOT_STRAP 1) Fld.BOOT_STRAP_RECOVERY then s.look.bootScanned.hostRecovery true
      else s.look.bootScanned.bootByRecords s.look.bootScanned.records (fun i => if i = 0 then readA else readB)
        fun i => (if i = 0 then badA.val else badB.val) + 1) := by
  have hguard : ¬ ((!s.look.hw.starterOk) = true ∨ s.look.chipState ≠ 1 ∨ s.look.fld (Reg.BOOT_STATUS 0) Fld.BOOT_STATUS_STAGE ≠ 1) := by
    rintro (h | h | h)
    · exact Bool.false_ne_true ((congrArg (!·) hstarter :).symm.trans h)
    · exact h hchip
    · exact h hstage
  change execBootImageLoad readA badA readB badB s = _
  refine runs hp ?_
  extract_lets st read bad v u l
  have hu : u = s.look.bootScanned := rfl
  have hl : l = u.records := rfl
  have hread : read = fun i => if i = 0 then readA else readB := rfl
  have hbad : bad = fun i => (if i = 0 then badA.val else badB.val) + 1 := rfl
  rw [if_neg hguard, ← hu, ← hl, ← hread, ← hbad]
  clear_value u read bad l
  rw [Work.bootByRecords]
  cases pointerOf l with
  | none =>
    dsimp only
    rw [Work.bootUnpointed]
  | some p =>
    dsimp only
    rw [Work.bootPointed]

end Load

/-- What the Starter's check of its region comes to (R594). -/
theorem starterCheck_run {s : State} (hp : s.powered = true) (hfresh : s.hw.starterOk = false)
    (hstage : s.look.fld (Reg.BOOT_STATUS 0) Fld.BOOT_STATUS_STAGE = 0) (r1 r2 : Bool) {digest : Bool}
    (hdigest : decide (sha384 (s.look.flBytes 0 0x200000) = Config.starterDigest) = digest) : exec (.starterCheck r1 r2) s = done s
    (if r1 && digest then { s.look with hw := { s.look.hw with starterOk := true } }
      else if r2 && digest then { s.look.flashFault false with hw := { (s.look.flashFault false).hw with starterOk := true } }
      else (s.look.setFld (Reg.BOOT_STATUS 0) Fld.BOOT_STATUS_STAGE 5).setFlag (Reg.BOOT_ERR_STAT 0) Fld.BOOT_ERR_STAT_STARTER_BAD true) := by
  have hguard : ¬ (s.look.hw.starterOk = true ∨ s.look.fld (Reg.BOOT_STATUS 0) Fld.BOOT_STATUS_STAGE ≠ 0) := by
    rintro (h | h)
    · exact Bool.false_ne_true (hfresh.symm.trans h)
    · exact h hstage
  change execStarterCheck r1 r2 s = _
  refine runs hp ?_
  dsimp only
  rw [if_neg hguard, hdigest]

theorem recordSectorErase_run {s : State} (hp : s.powered = true) {k : Nat} (hk : s.hw.recErase = some k)
    (hstage : 3 ≤ s.look.fld (Reg.BOOT_STATUS 0) Fld.BOOT_STATUS_STAGE) : exec .recordSectorErase s = done s
    (({ s.look with hw := { s.look.hw with recErase := none } } : Work).flErase (0x200000 + 65536 * k)) := by
  change execRecordSectorErase s = _
  refine runs hp ?_
  have hsome : s.look.hw.recErase = some k := hk
  rw [hsome]
  dsimp only
  rw [Work.when, decide_eq_true hstage, if_pos rfl]

/-- BOOT_STATUS when the management cores start (R602). -/
def Work.released (w : Work) (blockless cold : Bool) : Work :=
  ((w.setFlag (Reg.BOOT_STATUS 0) Fld.BOOT_STATUS_NO_BLOCK blockless).setFlag (Reg.BOOT_STATUS 0) Fld.BOOT_STATUS_COLD cold).setFld
    (Reg.BOOT_STATUS 0) Fld.BOOT_STATUS_STAGE 3

theorem released_words (w : Work) (blockless cold : Bool) : w.words (· = Reg.BOOT_STATUS 0) (w.released blockless cold) :=
  ((Work.words.at_ w (f := Fld.BOOT_STATUS_NO_BLOCK) _ (by decide)).trans (.at_ _ (f := Fld.BOOT_STATUS_COLD) _ (by decide))).trans
    (.at_ _ (f := Fld.BOOT_STATUS_STAGE) _ (by decide))

theorem released_fields (w : Work) (blockless cold : Bool) : (w.released blockless cold).fld (Reg.BOOT_STATUS 0) Fld.BOOT_STATUS_STAGE = 3 ∧
    (w.released blockless cold).flag (Reg.BOOT_STATUS 0) Fld.BOOT_STATUS_COLD = cold ∧
      (w.released blockless cold).flag (Reg.BOOT_STATUS 0) Fld.BOOT_STATUS_NO_BLOCK = blockless := by
  unfold Work.released
  refine ⟨fld_setFld_self _ _ _ _ (by decide), ?_, ?_⟩
  · rw [flag_setFld_beside _ _ (by decide) (by decide) (by decide), flag_setFlag_self _ _ (by decide) (by decide)]
  · rw [flag_setFld_beside _ _ (by decide) (by decide) (by decide), flag_setFlag_beside _ _ (by decide) (by decide) (by decide),
      flag_setFlag_self _ _ (by decide) (by decide)]

theorem bootRelease_run {s : State} (hp : s.powered = true) (hstage : s.look.fld (Reg.BOOT_STATUS 0) Fld.BOOT_STATUS_STAGE = 2)
    (hbooted : s.hw.booted = true) {v : Work}
    (hv : s.look.released (!s.look.flag (Reg.BOOT_ACHAIN_STAT 1) Fld.BOOT_ACHAIN_STAT_VALID) false = v) :
    exec .bootRelease s = done s { v with hw := { v.hw with booted := true, flashHeld := false } } := by
  have hcold : (!s.look.hw.booted) = false := congrArg (!·) hbooted
  change execBootRelease s = _
  refine runs hp ?_
  dsimp only
  rw [hcold, if_neg (fun h => h hstage), if_neg Bool.false_ne_true, ← Work.released, hv]

theorem bootRelease_leaves {s : State} (hp : s.powered = true) (hstage : s.look.fld (Reg.BOOT_STATUS 0) Fld.BOOT_STATUS_STAGE = 2)
    (hbooted : s.hw.booted = true) : goesTo (exec .bootRelease s) fun t =>
      t.look.fld (Reg.BOOT_STATUS 0) Fld.BOOT_STATUS_STAGE = 3 ∧ t.look.flag (Reg.BOOT_STATUS 0) Fld.BOOT_STATUS_COLD = false ∧
      t.look.flag (Reg.BOOT_STATUS 0) Fld.BOOT_STATUS_NO_BLOCK = !s.look.flag (Reg.BOOT_ACHAIN_STAT 1) Fld.BOOT_ACHAIN_STAT_VALID ∧
      t.hw = { s.hw with flashHeld := false } ∧ sameWordsBut [Reg.BOOT_STATUS 0] s t ∧ sameBytes s t ∧ t.pending = s.pending := by
  have hrun := bootRelease_run hp hstage hbooted rfl
  have hwords := released_words s.look (!s.look.flag (Reg.BOOT_ACHAIN_STAT 1) Fld.BOOT_ACHAIN_STAT_VALID) false
  obtain ⟨hthree, hcold, hblock⟩ := released_fields s.look (!s.look.flag (Reg.BOOT_ACHAIN_STAT 1) Fld.BOOT_ACHAIN_STAT_VALID) false
  generalize s.look.released (!s.look.flag (Reg.BOOT_ACHAIN_STAT 1) Fld.BOOT_ACHAIN_STAT_VALID) false = v at *
  have hhw : v.hw = s.hw := hwords.hw
  have hsame : ({ v.hw with booted := true, flashHeld := false } : Hw) = { s.hw with flashHeld := false } := by rw [hhw, ← hbooted]
  have hall : s.look.touches (· = Reg.BOOT_STATUS 0) noCore { v with hw := { v.hw with booted := true, flashHeld := false } } :=
    (hwords.touches noCore).trans (.of_hw rfl rfl rfl rfl rfl rfl)
  refine ⟨_, hrun, (hall.commit_fld ..).trans hthree, (Machine.commit_flag s _ hall.csr ..).trans hcold,
    (Machine.commit_flag s _ hall.csr ..).trans hblock, hsame, hall.sameWordsBut fun a ha => List.mem_singleton.mpr ha, hall.sameBytes, commit_pending ..⟩

/-- Settles O51: a boot reads the records once, and its pointer, its attempts and the checks choose what it loads. -/
theorem bootChoosesAndLoads : Obligations.BootChoosesAndLoads := by
  unfold Obligations.BootChoosesAndLoads
  intro r1 r2 readA readB badA badB s w st digest fresh passed asked v read bad boots load
  have hscan := bootScanned_words w
  have hrecovery : v.flag (Reg.BOOT_STRAP 1) Fld.BOOT_STRAP_RECOVERY = w.flag (Reg.BOOT_STRAP 1) Fld.BOOT_STRAP_RECOVERY :=
    hscan.flag_eq (by decide) (by unfold recordWord; decide)
  have hrecords : v.records = w.records := records_of_flash (congrArg Hw.flash hscan.hw)
  have hload (h : asked) : load = done s (if v.flag (Reg.BOOT_STRAP 1) Fld.BOOT_STRAP_RECOVERY then v.hostRecovery true
      else v.bootByRecords w.records read bad) := by
    obtain ⟨hp, hstarter, hchip, hstage⟩ := h
    rw [← hrecords]
    exact bootImageLoad_run hp readA readB badA badB hstarter hchip hstage
  have hby (h : boots) : load = done s (v.bootByRecords w.records read bad) := by
    rw [hload h.1, hrecovery, if_neg (ne_true_of_eq_false h.2)]
  clear_value v load read bad
  refine ⟨?_, ?_, ?_, ?_, ?_, ?_, ?_⟩
  · exact fun ⟨hp, hfresh, hstage⟩ => starterCheck_run hp hfresh hstage r1 r2 rfl
  · rintro ⟨hasked, hrec⟩
    rw [hload hasked, hrecovery, if_pos hrec]
  · rintro ⟨hboots, hnone⟩
    rw [hby hboots, Work.bootByRecords, hnone]
    dsimp only
    rw [Work.bootUnpointed]
  · rintro p ⟨hboots, hsome, hunconfirmed, htried⟩
    rw [hby hboots, Work.bootByRecords, hsome]
    dsimp only
    rw [hunconfirmed, decide_eq_true htried, Bool.not_false, Bool.true_and, if_pos rfl]
  · rintro p ⟨hboots, hsome, hmay⟩
    have hguard : ¬ (!confirmed w.records p && decide (3 ≤ attempts w.records p)) = true := by
      rw [Bool.and_eq_true, decide_eq_true_eq, Bool.not_eq_true']
      rintro ⟨hno, htried⟩
      rcases hmay with h | h
      · exact Bool.false_ne_true (hno.symm.trans h)
      · omega
    rw [hby hboots, Work.bootByRecords, hsome]
    dsimp only
    rw [if_neg hguard, Work.bootPointed]
    cases (v.loadImage p.slot (decide (p.digest ≠ v.hdrDigest p.slot / 2 ^ (8 * 20))) (read p.slot) (bad p.slot)).1 <;> rfl
  · exact fun ⟨hp, hstage, hbooted⟩ => bootRelease_leaves hp hstage hbooted
  · exact fun k ⟨hp, hk, hstage⟩ => recordSectorErase_run hp hk hstage

end Sys2Proof.Machine
end

section
/-! PROOFS. Flash commands (R605–R608). -/

namespace Sys2Proof.Machine

/-! ### Starting a command -/

theorem bootCmdRow_starts {op : Nat} {m : Master} {value : Word} {s : State} (hop : bits value.toNat 0 4 = op) :
    bootCmdRow op m value s = run s fun w => w.bootCmd m value.toNat := by
  unfold bootCmdRow Work.when
  rw [decide_eq_true hop]
  rfl

theorem flashRead_starts {m : Master} {value : Word} {s : State} (hop : 8 ≤ bits value.toNat 0 4) :
    execFlashRead m value s = run s fun w => w.bootCmd m value.toNat := by
  unfold execFlashRead Work.when
  rw [decide_eq_true hop]
  rfl

/-- The command that a write of BOOT_CMD starts: its code, slot and key, the argument and the data that stand then (R607). -/
def Work.cmdOf (v : Work) (n : Nat) : FlashCmd := ⟨bits n 0 4, bits n 4 1, bits n 5 2, (v.r32 (Reg.BOOT_CMD_ARG 0)).toNat,
  (List.range 64).flatMap fun i => leBytes 4 (v.r32 (Reg.BOOT_DATA 0 i)).toNat⟩

/-- BOOT_CMD_STAT of a command that has started. -/
def Work.cmdShown (v : Work) (op : Nat) : Work :=
  (v.setFlag (Reg.BOOT_CMD_STAT 0) Fld.BOOT_CMD_STAT_BUSY true).setFld (Reg.BOOT_CMD_STAT 0) Fld.BOOT_CMD_STAT_OP op

/-- A command in progress. -/
def Work.inProgress (v : Work) (c : Option FlashCmd) : Work := { v with hw := { v.hw with flashCmd := c } }

theorem cmdShown_words (v : Work) (op : Nat) : v.words (· = Reg.BOOT_CMD_STAT 0) (v.cmdShown op) :=
  (Work.words.at_ v (f := Fld.BOOT_CMD_STAT_BUSY) _ (by decide)).trans (.at_ _ (f := Fld.BOOT_CMD_STAT_OP) _ (by decide))

theorem cmdShown_fields (v : Work) (op : Nat) : (v.cmdShown op).flag (Reg.BOOT_CMD_STAT 0) Fld.BOOT_CMD_STAT_BUSY = true ∧
    (v.cmdShown op).fld (Reg.BOOT_CMD_STAT 0) Fld.BOOT_CMD_STAT_OP = op % 2 ^ 4 := by
  unfold Work.cmdShown
  refine ⟨?_, fld_setFld_self _ _ _ _ (by decide)⟩
  rw [flag_setFld_beside _ _ (by decide) (by decide) (by decide), flag_setFlag_self _ _ (by decide) (by decide)]

section Start
variable {s : State} {m : Master} {value : Nat} {o : Host.Outcome State Fault Refusal} (hp : s.powered = true)
  (ho : o = run s fun w => w.bootCmd m value)
include hp ho

theorem bootCmd_refused (htakes : s.look.bootTakes m = false) : o = .next s := by
  have h : s.look.bootCmd m value = s.look := by
    rw [Work.bootCmd, htakes]
    rfl
  rw [ho, runs hp h, done, commit_look]

variable (htakes : s.look.bootTakes m = true)
include htakes

theorem bootCmd_busy (hbusy : s.look.flag (Reg.BOOT_CMD_STAT 0) Fld.BOOT_CMD_STAT_BUSY = true) : o = done s
    ((s.look.clamp (s.look.clampBy m) (Reg.BOOT_CMD 0) 0 0 .joined).setFlag (Reg.BOOT_ERR_STAT 0) Fld.BOOT_ERR_STAT_CMD_DROP true) := by
  rw [ho]
  refine runs hp ?_
  rw [Work.bootCmd, htakes, Bool.not_true, if_neg Bool.false_ne_true, hbusy, if_pos rfl]

theorem bootCmd_starts (hidle : s.look.flag (Reg.BOOT_CMD_STAT 0) Fld.BOOT_CMD_STAT_BUSY = false) {n : Nat} {v : Work}
    (hwrite : s.look.woWrite (s.look.clampBy m) (Reg.BOOT_CMD 0) value = (n, v)) :
    o = done s ((v.cmdShown (bits n 0 4)).inProgress (some (v.cmdOf n))) := by
  rw [ho]
  refine runs hp ?_
  rw [Work.bootCmd, htakes, Bool.not_true, if_neg Bool.false_ne_true, hidle, if_neg Bool.false_ne_true, hwrite, Work.inProgress, Work.cmdOf,
    Work.cmdShown]

theorem bootCmd_leaves (hidle : s.look.flag (Reg.BOOT_CMD_STAT 0) Fld.BOOT_CMD_STAT_BUSY = false) {n : Nat} {v : Work}
    (hwrite : s.look.woWrite (s.look.clampBy m) (Reg.BOOT_CMD 0) value = (n, v)) : goesTo o fun t =>
      t.look.flag (Reg.BOOT_CMD_STAT 0) Fld.BOOT_CMD_STAT_BUSY = true ∧ t.look.fld (Reg.BOOT_CMD_STAT 0) Fld.BOOT_CMD_STAT_OP = bits n 0 4 ∧
        t.hw = { v.hw with flashCmd := some (v.cmdOf n) } ∧ (∀ x, x ≠ Reg.BOOT_CMD_STAT 0 → t.look.r32 x = v.r32 x) ∧ sameBytes s t ∧
          t.pending = s.pending := by
  have hrun := bootCmd_starts hp ho htakes hidle hwrite
  obtain ⟨hmem, hcsr, hwr, hhw⟩ := woWrite_parts s.look (s.look.clampBy m) (Reg.BOOT_CMD 0) value
  rw [hwrite] at hmem hcsr hwr hhw
  have hwords := cmdShown_words v (bits n 0 4)
  obtain ⟨hbusy, hop⟩ := cmdShown_fields v (bits n 0 4)
  generalize v.cmdShown (bits n 0 4) = u at *
  have hcsr' : (u.inProgress (some (v.cmdOf n))).csr = s.csr := hwords.csr.trans hcsr
  refine ⟨_, hrun, (Machine.commit_flag s _ hcsr' ..).trans hbusy, (Machine.commit_fld s _ hcsr' ..).trans (hop.trans ?_), ?_,
    fun x hx => (commit_r32 s _ hcsr' x).trans (hwords.word x hx), sameBytes_of (hwords.mem.trans hmem) (hwords.wr.trans hwr) ?_, commit_pending ..⟩
  · exact Nat.mod_mod ..
  · rw [commit_hw, Work.inProgress, hwords.hw]
  · rw [Work.inProgress, hwords.hw, hhw]
    rfl

end Start

/-! ### Completing one (R606–R608) -/

/-- A slot that an ERASE or PROGRAM at a opens is not verified any more. -/
def Work.opened (w : Work) (a : Nat) : Work :=
  match slotOfOffset a with
  | some k => w.setFlag (Reg.BOOT_SLOT 0 k) Fld.BOOT_SLOT_VERIFIED false
  | none => w

/-- RAISE_SVN completes (R607). -/
def Work.raiseDone (w : Work) : Work :=
  match w.runningSlot with
  | some r =>
    if w.fld (Reg.BOOT_FUSE 0) Fld.BOOT_FUSE_SVN_MIN < w.hdrSvn r then
      (w.setFld (Reg.BOOT_FUSE 0) Fld.BOOT_FUSE_SVN_MIN (w.hdrSvn r)).cmdResult 0 0
    else w.cmdResult 5 0
  | none => w.cmdResult 5 0

/-- A key is revoked in the fuses. -/
def Work.revoked (w : Work) (key : Nat) : Work :=
  (w.setFld (Reg.BOOT_FUSE 0) Fld.BOOT_FUSE_KEY_REVOKED (w.fld (Reg.BOOT_FUSE 0) Fld.BOOT_FUSE_KEY_REVOKED ||| 2 ^ key)).cmdResult 0 0

/-- REVOKE_KEY completes (R607). -/
def Work.revokeDone (w : Work) (key : Nat) : Work :=
  match w.runningSlot with
  | some r => if w.hdrKey r = key then w.cmdResult 6 0 else w.revoked key
  | none => w.revoked key

/-- CONFIRM completes (R607). -/
def Work.confirmDone (w : Work) (l : List SlotRec) : Work :=
  match pointerOf l with
  | some p =>
    if confirmed l p ∨ w.runningSlot ≠ some p.slot then w.cmdResult 5 0 else (w.appendRecord 3 p.slot false (some p.seq)).cmdResult 0 0
  | none => w.cmdResult 5 0

/-- ACTIVATE completes (R607). -/
def Work.activateDone (w : Work) (slot : Nat) : Work :=
  if w.flag (Reg.BOOT_SLOT 0 slot) Fld.BOOT_SLOT_VERIFIED then (w.appendRecord 1 slot false none).cmdResult 0 0 else w.cmdResult 2 0

/-- VERIFY completes: with the outcome of the checks (R607). -/
def Work.verifyDone (w : Work) (slot : Nat) (a : Nat × Work) : Work :=
  if w.runningSlot = some slot then w.cmdResult 1 0 else if a.1 = 0 then a.2.cmdResult 0 0 else a.2.cmdResult 4 a.1

/-- READ completes (R607). -/
def Work.readDone (w filled : Work) (f1 f2 : Bool) : Work :=
  if f1 then filled.cmdResult 0 0 else if f2 then (filled.flashFault false).cmdResult 0 0 else (w.flashFault true).cmdResult 3 0

/-- What the completion of a command does, by its code (R607). -/
def Work.cmdDone (w : Work) (c : FlashCmd) (f1 f2 : Bool) (read : ReadCheck) (bad : Nat) : Work :=
  match c.op with
  | 0 => w.cmdResult 0 0
  | 1 => w.raiseDone
  | 2 => w.revokeDone c.key
  | 3 => w.confirmDone w.records
  | 4 => w.activateDone c.slot
  | 5 => w.flChange (c.arg / 65536 * 65536) 65536 f1 f2 fun w => w.flErase (c.arg / 65536 * 65536)
  | 6 => w.flChange (c.arg / 256 * 256) 256 f1 f2 fun w => w.flProgram (c.arg / 256 * 256) c.data
  | 7 => w.verifyDone c.slot (w.runChecks c.slot false read bad)
  | _ => w.readDone (w.fillData (w.flBytes c.arg 256)) f1 f2

theorem confirmDone_denied {w : Work} {l : List SlotRec} (h : (pointerOf l).all (fun p => confirmed l p || decide (w.runningSlot ≠ some p.slot)) = true) :
    w.confirmDone l = w.cmdResult 5 0 := by
  rw [Work.confirmDone]
  cases hp : pointerOf l with
  | none => rfl
  | some p =>
    rw [hp, Option.all_some, Bool.or_eq_true, decide_eq_true_eq] at h
    exact if_pos h

section Codes
variable (w : Work) {c : FlashCmd} (f1 f2 : Bool) (read : ReadCheck) (bad : Nat)

theorem cmdDone_nop (h : c.op = 0) : w.cmdDone c f1 f2 read bad = w.cmdResult 0 0 := by
  rw [Work.cmdDone, h]
  rfl

theorem cmdDone_raise (h : c.op = 1) : w.cmdDone c f1 f2 read bad = w.raiseDone := by
  rw [Work.cmdDone, h]
  rfl

theorem cmdDone_revoke (h : c.op = 2) : w.cmdDone c f1 f2 read bad = w.revokeDone c.key := by
  rw [Work.cmdDone, h]
  rfl

theorem cmdDone_confirm (h : c.op = 3) : w.cmdDone c f1 f2 read bad = w.confirmDone w.records := by
  rw [Work.cmdDone, h]
  rfl

theorem cmdDone_activate (h : c.op = 4) : w.cmdDone c f1 f2 read bad = w.activateDone c.slot := by
  rw [Work.cmdDone, h]
  rfl

theorem cmdDone_erase (h : c.op = 5) : w.cmdDone c f1 f2 read bad =
    w.flChange (c.arg / 65536 * 65536) 65536 f1 f2 fun w => w.flErase (c.arg / 65536 * 65536) := by
  rw [Work.cmdDone, h]
  rfl

theorem cmdDone_program (h : c.op = 6) : w.cmdDone c f1 f2 read bad =
    w.flChange (c.arg / 256 * 256) 256 f1 f2 fun w => w.flProgram (c.arg / 256 * 256) c.data := by
  rw [Work.cmdDone, h]
  rfl

theorem cmdDone_verify (h : c.op = 7) : w.cmdDone c f1 f2 read bad = w.verifyDone c.slot (w.runChecks c.slot false read bad) := by
  rw [Work.cmdDone, h]
  rfl

theorem cmdDone_read (h : 8 ≤ c.op) : w.cmdDone c f1 f2 read bad = w.readDone (w.fillData (w.flBytes c.arg 256)) f1 f2 := by
  obtain ⟨k, hk⟩ := Nat.exists_eq_add_of_le' h
  rw [Work.cmdDone, hk]
  rfl

end Codes

section Done
variable {s : State} {c : FlashCmd} (hp : s.powered = true) (hcmd : s.hw.flashCmd = some c)
include hp hcmd

theorem flashCmdDone_held (hheld : s.hw.flashHeld = true) (f1 f2 : Bool) (read : ReadCheck) (bad : Fin 7) :
    exec (.flashCmdDone f1 f2 read bad) s = .next s := by
  have hsome : s.look.hw.flashCmd = some c := hcmd
  have hlook : s.look.hw.flashHeld = true := hheld
  change execFlashCmdDone f1 f2 read bad s = _
  refine (runs hp (w := s.look) ?_).trans (congrArg Host.Outcome.next (commit_look s))
  rw [hsome]
  dsimp only
  rw [hlook, if_pos rfl]

theorem flashCmdDone_run (hfree : s.hw.flashHeld = false) (f1 f2 : Bool) (read : ReadCheck) (bad : Fin 7) :
    exec (.flashCmdDone f1 f2 read bad) s = done s (s.look.cmdDone c f1 f2 read (bad.val + 1)) := by
  have hsome : s.look.hw.flashCmd = some c := hcmd
  have hlook : s.look.hw.flashHeld = false := hfree
  change execFlashCmdDone f1 f2 read bad s = _
  refine runs hp ?_
  rw [hsome]
  dsimp only
  rw [hlook, if_neg Bool.false_ne_true]
  obtain ⟨op, slot, key, arg, data⟩ := c
  dsimp only
  match op with
  | 0 | 5 | 6 => rfl
  | 1 =>
    rw [cmdDone_raise _ _ _ _ _ rfl, Work.raiseDone]
    rfl
  | 2 =>
    rw [cmdDone_revoke _ _ _ _ _ rfl, Work.revokeDone]
    rfl
  | 3 =>
    rw [cmdDone_confirm _ _ _ _ _ rfl, Work.confirmDone]
    generalize s.look.records = l
    generalize @Work.appendRecord = append
    rfl
  | 4 =>
    rw [cmdDone_activate _ _ _ _ _ rfl, Work.activateDone]
    rfl
  | 7 =>
    rw [cmdDone_verify _ _ _ _ _ rfl, Work.verifyDone]
    generalize s.look.runChecks slot false read (bad.val + 1) = a
    rfl
  | _ + 8 =>
    rw [cmdDone_read _ _ _ _ _ (Nat.le_add_left ..), Work.readDone]
    rfl

end Done

theorem flChange_protected {w : Work} {a : Nat} (h : w.flProtected a = true) (n : Nat) (f1 f2 : Bool) (f : Work → Work) :
    w.flChange a n f1 f2 f = w.cmdResult 1 0 := by rw [Work.flChange, if_pos h]

section Change
variable {w : Work} {a : Nat} (h : w.flProtected a = false) (n : Nat) (f : Work → Work)
include h

theorem flChange_open (f1 f2 : Bool) : w.flChange a n f1 f2 f =
    if f1 then (f (w.opened a)).cmdResult 0 0 else if f2 then ((f (w.opened a)).flashFault false).cmdResult 0 0
      else (((w.opened a).flLose a n).flashFault true).cmdResult 3 0 := by
  rw [Work.flChange]
  exact if_neg (ne_true_of_eq_false h)

/-- The three outcomes of the attempts (R607). -/
theorem flChange_outcomes (f1 f2 : Bool) : (f1 = true → w.flChange a n f1 f2 f = (f (w.opened a)).cmdResult 0 0) ∧
    (f1 = false ∧ f2 = true → w.flChange a n f1 f2 f = ((f (w.opened a)).flashFault false).cmdResult 0 0) ∧
    (f1 = false ∧ f2 = false → w.flChange a n f1 f2 f = (((w.opened a).flLose a n).flashFault true).cmdResult 3 0) := by
  rw [flChange_open h]
  refine ⟨fun h1 => ?_, fun ⟨h1, h2⟩ => ?_, fun ⟨h1, h2⟩ => ?_⟩
  · rw [if_pos h1]
  · rw [if_neg (ne_true_of_eq_false h1), if_pos h2]
  · rw [if_neg (ne_true_of_eq_false h1), if_neg (ne_true_of_eq_false h2)]

end Change

/-- Settles O52: a command that is taken starts, and one that completes does what its code says. -/
theorem flashCommands : Obligations.FlashCommands := by
  unfold Obligations.FlashCommands
  refine ⟨?_, ?_⟩
  · intro m value s w op cs who outcomes
    have hstart {o : Host.Outcome State Fault Refusal} (ho : o = run s fun w => w.bootCmd m value.toNat) : outcomes o :=
      ⟨fun ⟨hp, htakes⟩ => bootCmd_refused hp ho htakes, fun ⟨hp, htakes, hbusy⟩ => bootCmd_busy hp ho htakes hbusy,
        fun n v ⟨hp, htakes, hidle, hwrite⟩ => bootCmd_leaves hp ho htakes hidle hwrite⟩
    exact ⟨fun h => hstart (bootCmdRow_starts h), fun h => hstart (bootCmdRow_starts h), fun h => hstart (bootCmdRow_starts h),
      fun h => hstart (bootCmdRow_starts h), fun h => hstart (bootCmdRow_starts h), fun h => hstart (bootCmdRow_starts h),
      fun h => hstart (bootCmdRow_starts h), fun h => hstart (bootCmdRow_starts h), fun h => hstart (flashRead_starts h)⟩
  · intro f1 f2 read bad c s w o fuse runs l sector page opened
    have hrun {op : Nat} (h : runs op) : o = done s (w.cmdDone c f1 f2 read (bad.val + 1)) ∧ c.op = op :=
      ⟨flashCmdDone_run h.1 h.2.1 h.2.2.1 f1 f2 read bad, h.2.2.2⟩
    have hheld : s.powered = true ∧ s.hw.flashCmd = some c ∧ s.hw.flashHeld = true → o = .next s :=
      fun ⟨hp, hcmd, hheld⟩ => flashCmdDone_held hp hcmd hheld f1 f2 read bad
    clear_value o runs
    refine ⟨hheld, ?_, ?_, ?_, ?_, ?_, ?_, ?_, ?_, ?_, ?_, ?_, ?_, ?_, ?_, ?_⟩
    · intro h
      obtain ⟨ho, hop⟩ := hrun h
      rw [ho, cmdDone_nop _ _ _ _ _ hop]
    · rintro r ⟨h, hr⟩
      obtain ⟨ho, hop⟩ := hrun h
      rw [ho, cmdDone_raise _ _ _ _ _ hop, Work.raiseDone, hr]
      exact ⟨fun h => congrArg (done s) (if_pos h), fun h => congrArg (done s) (if_neg (Nat.not_lt.mpr h))⟩
    · rintro ⟨h, hr⟩
      obtain ⟨ho, hop⟩ := hrun h
      rw [ho, cmdDone_raise _ _ _ _ _ hop, Work.raiseDone, hr]
    · rintro r ⟨h, hr, hkey⟩
      obtain ⟨ho, hop⟩ := hrun h
      rw [ho, cmdDone_revoke _ _ _ _ _ hop, Work.revokeDone, hr]
      exact congrArg (done s) (if_pos hkey)
    · rintro ⟨h, hr⟩
      obtain ⟨ho, hop⟩ := hrun h
      rw [ho, cmdDone_revoke _ _ _ _ _ hop, Work.revokeDone]
      cases hslot : w.runningSlot with
      | none => rfl
      | some r =>
        rw [hslot] at hr
        exact congrArg (done s) (if_neg (of_decide_eq_true hr))
    · rintro p ⟨h, hpointer, hno, hslot⟩
      have hguard : ¬ (confirmed w.records p = true ∨ w.runningSlot ≠ some p.slot) := by
        rintro (h | h)
        · exact Bool.false_ne_true (hno.symm.trans h)
        · exact h hslot
      obtain ⟨ho, hop⟩ := hrun h
      rw [ho, cmdDone_confirm _ _ _ _ _ hop, Work.confirmDone, hpointer]
      exact congrArg (done s) (if_neg hguard)
    · rintro ⟨h, hall⟩
      obtain ⟨ho, hop⟩ := hrun h
      rw [ho, cmdDone_confirm _ _ _ _ _ hop, confirmDone_denied hall]
    · rintro ⟨h, hverified⟩
      obtain ⟨ho, hop⟩ := hrun h
      rw [ho, cmdDone_activate _ _ _ _ _ hop]
      exact congrArg (done s) (if_pos hverified)
    · rintro ⟨h, hverified⟩
      obtain ⟨ho, hop⟩ := hrun h
      rw [ho, cmdDone_activate _ _ _ _ _ hop]
      exact congrArg (done s) (if_neg (ne_true_of_eq_false hverified))
    · rintro (⟨h, hprot⟩ | ⟨h, hprot⟩)
      · obtain ⟨ho, hop⟩ := hrun h
        rw [ho, cmdDone_erase _ _ _ _ _ hop]
        exact congrArg (done s) (flChange_protected hprot ..)
      · obtain ⟨ho, hop⟩ := hrun h
        rw [ho, cmdDone_program _ _ _ _ _ hop]
        exact congrArg (done s) (flChange_protected hprot ..)
    · rintro ⟨h, hprot⟩
      obtain ⟨ho, hop⟩ := hrun h
      obtain ⟨hfirst, hsecond, hfails⟩ := flChange_outcomes hprot 65536 (fun w => w.flErase sector) f1 f2
      rw [ho, cmdDone_erase _ _ _ _ _ hop]
      exact ⟨fun h => congrArg (done s) (hfirst h), fun h => congrArg (done s) (hsecond h), fun h => congrArg (done s) (hfails h)⟩
    · rintro ⟨h, hprot⟩
      obtain ⟨ho, hop⟩ := hrun h
      obtain ⟨hfirst, hsecond, hfails⟩ := flChange_outcomes hprot 256 (fun w => w.flProgram page c.data) f1 f2
      rw [ho, cmdDone_program _ _ _ _ _ hop]
      exact ⟨fun h => congrArg (done s) (hfirst h), fun h => congrArg (done s) (hsecond h), fun h => congrArg (done s) (hfails h)⟩
    · rintro ⟨h, hslot⟩
      obtain ⟨ho, hop⟩ := hrun h
      rw [ho, cmdDone_verify _ _ _ _ _ hop]
      exact congrArg (done s) (if_pos hslot)
    · rintro ⟨h, hslot⟩
      obtain ⟨ho, hop⟩ := hrun h
      rw [ho, cmdDone_verify _ _ _ _ _ hop]
      exact congrArg (done s) (if_neg hslot)
    · rintro op ⟨hge, h⟩ filled
      obtain ⟨ho, hop⟩ := hrun h
      rw [ho, cmdDone_read _ _ _ _ _ (hop ▸ hge)]
      refine ⟨fun h1 => congrArg (done s) (if_pos h1), fun ⟨h1, h2⟩ => ?_, fun ⟨h1, h2⟩ => ?_⟩
      · exact congrArg (done s) ((if_neg (ne_true_of_eq_false h1)).trans (if_pos h2))
      · exact congrArg (done s) ((if_neg (ne_true_of_eq_false h1)).trans (if_neg (ne_true_of_eq_false h2)))

end Sys2Proof.Machine
end

section
/-! PROOFS. Watchdogs, time-outs and orphans (R528, R536–R539, R544, R556). -/

namespace Sys2Proof.Machine

section Watchdogs
variable {s : State} (hp : s.powered = true)
include hp

theorem abortStuck_leaves (hwaits : s.look.abortWaits = true) : goesTo (exec .abortStuck s) fun t =>
    t.look.flag (Reg.ERR_STATUS 28) Fld.ERR_STATUS_ABORT_STUCK = true ∧ onlyWords [Reg.ERR_STATUS 28] s t := by
  have hrun : exec .abortStuck s = done s (s.look.setFlag (Reg.ERR_STATUS 28) Fld.ERR_STATUS_ABORT_STUCK true) := by
    change execAbortStuck s = _
    refine runs hp ?_
    rw [Work.when, hwaits, if_pos rfl]
  have hwords := Work.words.at_ (a := Reg.ERR_STATUS 28) s.look (f := Fld.ERR_STATUS_ABORT_STUCK) 1 (by decide)
  exact ⟨_, hrun, (hwords.commit_flag ..).trans (flag_setFlag_self _ true (by decide) rfl),
    hwords.onlyWords fun a ha => List.mem_singleton.mpr ha⟩

theorem coreHang_run {c : CoreIx} {x : Nat} (hctx : s.look.placedCtx c = some x) (hup : s.look.coreUp c = true) (hhalt : (s.look.core c).halt = .none) :
    exec (.coreHang c) s = done s (s.look.cellFault c 0x0C 0 (s.look.hangTag c) (some x) none (s.look.core c).pc.toNat) := by
  change execCoreHang c s = _
  refine runs hp ?_
  dsimp only
  rw [hctx]
  dsimp only
  rw [Work.when, hup, decide_eq_true hhalt, Bool.and_true, if_pos rfl]

/-- A request that is over time: an orphan, and its answer (R537). -/
def Work.timedOut (w : Work) (req : Nat) (q : Req) : Work :=
  (({ w with hw := { w.hw with orphans := SMap.put w.hw.orphans req q } } : Work).setReq req { q with stage := .replied }).answer req .timeout

theorem reqTimeout_cell {req : Nat} {q : Req} (hq : s.look.req? req = some q) (hstage : q.stage ≠ .replied) (hcell : q.src.core? ≠ none) :
    exec (.reqTimeout req) s = done s (s.look.timedOut req q) := by
  change execReqTimeout req s = _
  refine runs hp ?_
  rw [hq]
  dsimp only
  cases hsrc : q.src with
  | ctl c | str c d | syn c =>
    dsimp only
    rw [Work.when, decide_eq_true hstage, Bool.and_true, if_pos rfl, if_neg Bool.false_ne_true, Work.timedOut, hsrc]
  | host p t | link d a b c e f | unit d f =>
    rw [hsrc] at hcell
    exact absurd rfl hcell

theorem reqTimeout_host {req port tag : Nat} {q : Req} (hq : s.look.req? req = some q) (hstage : q.stage ≠ .replied) (hsrc : q.src = .host port tag) :
    exec (.reqTimeout req) s = done s ((s.look.timedOut req q).reqFault q 0x05 0) := by
  change execReqTimeout req s = _
  refine runs hp ?_
  rw [hq]
  dsimp only
  rw [hsrc]
  dsimp only
  rw [Work.when, decide_eq_true hstage, Bool.and_true, if_pos rfl, if_pos rfl, Work.timedOut, hsrc]

theorem reqTimeout_leaves {req : Nat} {q : Req} (hq : s.look.req? req = some q) (hstage : q.stage ≠ .replied) (hcell : q.src.core? ≠ none)
    (hbad : q.bad = .ok) : goesTo (exec (.reqTimeout req) s) fun t => t.look.req? req = some { q with stage := .replied, bad := .timeout } ∧
      t.hw = { s.hw with reqs := t.hw.reqs, orphans := SMap.put s.hw.orphans req q } ∧ (∀ x, x ≠ req → t.look.req? x = s.look.req? x) ∧
        sameBytes s t ∧ sameWords s t ∧ t.pending = s.pending := by
  have hsome : q.src.core?.isSome = true := Option.isSome_iff_ne_none.mpr hcell
  have hrun := reqTimeout_cell hp hq hstage hcell
  rw [Work.timedOut, answer_of_cell (q := { q with stage := .replied }) (req_setReq_self ..) hsome, if_pos hbad] at hrun
  refine ⟨_, hrun, req_setReq_self .., rfl, fun x hx => ?_, sameBytes_of rfl rfl rfl, sameWords_of rfl rfl, commit_pending ..⟩
  exact (req_setReq_other _ _ hx).trans (req_setReq_other _ _ hx)

theorem regionHang_run {r : RegionIx} {n : Fin 64} (hclock : s.look.clocked = true) (hr : s.look.regionDisabled r = false)
    (hqueue : (s.look.chan (64 * r.val + n.val)).queue ≠ []) (hbist : SMap.get 0 s.hw.bistRun r = 0) : exec (.regionHang r n) s =
      done s (s.look.fault { kind := 0x15, level := 2, lasting := true, ctx := none, die := r, unit := 7, core := 0,
                             gen := SMap.get 0 s.hw.genRegion r, tag := 0, addr := none, detail := n.val }) := by
  have hwork : (s.look.chan (64 * r.val + n.val)).queue.isEmpty = false := by simpa using hqueue
  change execRegionHang r n s = _
  refine runs hp ?_
  dsimp only
  rw [Work.when, hclock, hr, hwork]
  exact if_pos (decide_eq_true hbist)

/-- A fault of the fabric (R528, R529). -/
def fabricFault (die gen : Nat) (lasting : Bool) : FaultInfo :=
  { kind := 0x23, level := 3, lasting := lasting, ctx := none, die := die, unit := 14, core := 0, gen := gen, tag := 0, addr := none, detail := 0 }

theorem fabricLineRetry_run (die : DieIx) (hclock : s.look.clocked = true) :
    exec (.fabricLineRetry die true) s =
      done s ((s.look.countFault (fabricFault die s.hw.genChip false)).record (fabricFault die s.hw.genChip false) false) ∧
    exec (.fabricLineRetry die false) s = done s (s.look.fault (fabricFault die s.hw.genChip true)) := by
  have hgen : s.look.hw.genChip = s.hw.genChip := rfl
  refine ⟨?_, ?_⟩
  · change execFabricLineRetry die true s = _
    refine runs hp ?_
    dsimp only
    rw [Work.when, hclock, if_pos rfl, if_pos rfl, fabricFault, Bool.not_true, hgen]
  · change execFabricLineRetry die false s = _
    refine runs hp ?_
    dsimp only
    rw [Work.when, hclock, if_pos rfl, if_neg Bool.false_ne_true, fabricFault, Bool.not_false, hgen]

theorem lateReplyDrop_host {i port tag : Nat} {q : Req} (hq : SMap.find? s.hw.orphans i = some q) (hsrc : q.src = .host port tag) :
    exec (.lateReplyDrop i) s = done s (((s.look.dropReply fun e => decide (e.1 = i)).bumpErr (Reg.HUB_CPL_DROP port) 1).retryResets) := by
  have hlook : SMap.find? s.look.hw.orphans i = some q := hq
  change execLateReplyDrop i s = _
  refine runs hp ?_
  rw [hlook]
  dsimp only
  rw [hsrc]

theorem lateReplyDrop_cell {i : Nat} {q : Req} (hq : SMap.find? s.hw.orphans i = some q) (hcell : q.src.core? ≠ none) :
    exec (.lateReplyDrop i) s = done s ((s.look.dropReply fun e => decide (e.1 = i)).retryResets) := by
  have hlook : SMap.find? s.look.hw.orphans i = some q := hq
  change execLateReplyDrop i s = _
  refine runs hp ?_
  rw [hlook]
  dsimp only
  cases hsrc : q.src with
  | ctl c | str c d | syn c | link d a b c e f | unit d f => dsimp only
  | host p t =>
    rw [hsrc] at hcell
    exact absurd rfl hcell

theorem orphanExpire_run (i : Nat) : exec (.orphanExpire i) s =
    done s ({ s.look with hw := { s.look.hw with orphans := SMap.del s.look.hw.orphans i } } : Work).retryResets := by
  change execOrphanExpire i s = _
  exact runs hp rfl

end Watchdogs

/-- A management core whose heartbeat is late is marked, or its mark is taken away. -/
def Work.setLate (w : Work) (m : Nat) (b : Bool) : Work := { w with hw := { w.hw with fwLate := SMap.set false w.hw.fwLate m b } }

/-- The sections of a management core are copied from the image again (R539, R603). -/
def Work.recopied (w : Work) (slot type : Nat) : Work :=
  w.forEach ((w.sections slot).filter fun x => decide (x.type = type)) fun w x => w.copySection slot x

section Firmware
variable {s : State} {mc : Fin 8} (hstage : s.look.fld (Reg.BOOT_STATUS 0) Fld.BOOT_STATUS_STAGE = 3)
  (hsrc : s.look.fld (Reg.BOOT_STATUS 0) Fld.BOOT_STATUS_SOURCE ≠ 0)
include hstage hsrc

theorem fwHang_guard : ¬ (s.look.fld (Reg.BOOT_STATUS 0) Fld.BOOT_STATUS_STAGE ≠ 3 ∨ s.look.fld (Reg.BOOT_STATUS 0) Fld.BOOT_STATUS_SOURCE = 0) :=
  fun h => h.elim (fun h => h hstage) hsrc

variable (hp : s.powered = true)
include hp

/-- The second time in a row the fault is lasting. -/
theorem fwHang_again (hlate : SMap.get false s.hw.fwLate mc = true) (read : ReadCheck) : exec (.fwHang mc read) s =
    done s ((s.look.setLate mc false).fault (s.look.fwFault true 0)) := by
  replace hlate : SMap.get false s.look.hw.fwLate mc = true := hlate
  change execFwHang mc read s = _
  refine runs hp ?_
  dsimp only
  rw [if_neg (fwHang_guard hstage hsrc), if_pos hlate, Work.setLate]

variable (hlate : SMap.get false s.hw.fwLate mc = false)
include hlate

theorem fwHang_restarts (hpass : s.look.checkPasses (s.look.fld (Reg.BOOT_STATUS 0) Fld.BOOT_STATUS_SOURCE - 1) 6 = true) {u : Work}
    (hu : s.look.recopied (s.look.fld (Reg.BOOT_STATUS 0) Fld.BOOT_STATUS_SOURCE - 1) (1 + mc.val / 4) = u) : exec (.fwHang mc .clean) s =
      done s ((u.setLate mc true).record (u.fwFault false 0) false) := by
  replace hlate : SMap.get false s.look.hw.fwLate mc = false := hlate
  rw [Work.recopied] at hu
  change execFwHang mc .clean s = _
  refine runs hp ?_
  dsimp only
  rw [if_neg (fwHang_guard hstage hsrc), if_neg (ne_true_of_eq_false hlate), if_neg (show ReadCheck.clean ≠ .transient by decide), hpass, Bool.true_and,
    if_pos (by decide), hu, Work.setLate]

theorem fwHang_fails {read : ReadCheck} (hread : read ≠ .transient)
    (hno : s.look.checkPasses (s.look.fld (Reg.BOOT_STATUS 0) Fld.BOOT_STATUS_SOURCE - 1) 6 = false ∨ read = .lasting) :
    exec (.fwHang mc read) s = done s (s.look.fault (s.look.fwFault true 0)) := by
  have hguard : ¬ (s.look.checkPasses (s.look.fld (Reg.BOOT_STATUS 0) Fld.BOOT_STATUS_SOURCE - 1) 6 && decide (read ≠ .lasting)) = true := by
    rw [Bool.and_eq_true, decide_eq_true_eq]
    rintro ⟨hpass, hlasting⟩
    rcases hno with h | h
    · exact Bool.false_ne_true (h.symm.trans hpass)
    · exact hlasting h
  replace hlate : SMap.get false s.look.hw.fwLate mc = false := hlate
  change execFwHang mc read s = _
  refine runs hp ?_
  dsimp only
  rw [if_neg (fwHang_guard hstage hsrc), if_neg (ne_true_of_eq_false hlate), if_neg hread, if_neg hguard]

end Firmware

/-- Settles O45: each watchdog reports what hangs, a time-out leaves an orphan, and an orphan ends once. -/
theorem errWatchdogs : Obligations.ErrWatchdogs := by
  unfold Obligations.ErrWatchdogs
  intro s w
  refine ⟨?_, ?_, ?_, ?_, ?_, ?_, ?_, ?_, ?_⟩
  · exact fun ⟨hp, hwaits⟩ => abortStuck_leaves hp hwaits
  · exact fun c x ⟨hp, hctx, hup, hhalt⟩ => coreHang_run hp hctx hup hhalt
  · exact fun req q ⟨hp, hq, hstage, hcell, hbad⟩ => reqTimeout_leaves hp hq hstage hcell hbad
  · exact fun req q port tag ⟨hp, hq, hstage, hsrc⟩ => reqTimeout_host hp hq hstage hsrc
  · exact fun r n ⟨hp, hclock, hr, hqueue, hbist⟩ => regionHang_run hp hclock hr hqueue hbist
  · rintro die f ⟨hp, hclock⟩
    exact fabricLineRetry_run hp die hclock
  · rintro i q port tag ⟨hp, hq⟩ u
    exact ⟨fun hsrc => lateReplyDrop_host hp hq hsrc, fun hcell => lateReplyDrop_cell hp hq hcell⟩
  · exact fun i hp => orphanExpire_run hp i
  · rintro mc rd src m ⟨hp, hstage, hsrc⟩
    refine ⟨fun hlate => fwHang_again hstage hsrc hp hlate rd, ?_, fun ⟨hlate, hno, hread⟩ => fwHang_fails hstage hsrc hp hlate hread hno⟩
    rintro ⟨hlate, hpass, rfl⟩ u
    exact fwHang_restarts hstage hsrc hp hlate hpass rfl

end Sys2Proof.Machine
end

section
/-! PROOFS. The management plane (R628, R630, R633, R634). -/

namespace Sys2Proof.Machine

/-! ### Fields beyond the first word of a register -/

section High
variable (w : Work) {a : Nat} {f : Fld}

theorem words_setFld_wide (x : Nat) : w.words (fun b => b = a ∨ b = a + 4) (w.setFld a f x) := by
  unfold Work.setFld
  split
  · exact .w32 w _ (.inl rfl)
  · split
    · exact .w32 w _ (.inr rfl)
    · exact .w64 w _ (.inl rfl) (.inr rfl)

theorem fld_setFld_high (x : Nat) (hlo : 32 ≤ f.lsb) (hw : 0 < f.width) (hhi : f.lsb + f.width ≤ 64) : (w.setFld a f x).fld a f = x % 2 ^ f.width := by
  have hno : ¬ f.lsb + f.width ≤ 32 := by omega
  rw [Work.setFld, if_neg hno, if_pos hlo, Work.fld, if_neg hno, if_pos hlo, r32_w32_self, BitVec.toNat_ofNat,
    Nat.mod_eq_of_lt (setBits_lt _ _ _ _ 32 (by omega) (w.r32 (a + 4)).isLt), bits_setBits_self]

end High

/-! ### Mailboxes -/

/-- The header of a message in the host mailbox (R628). -/
def hmbHeader (src msgid len : Nat) : DWord := BitVec.ofNat 64 (src % 65536 + msgid % 65536 * 2 ^ 16 + len % 8192 * 2 ^ 32 + 2 ^ 63)

theorem hmbFill_eq (w : Work) (k src msgid len : Nat) :
    w.hmbFill k src msgid len = (w.w64 (Reg.MGT_HMB_HDR 0 k) (hmbHeader src msgid len)).raiseVector 1 := by rw [Work.hmbFill, hmbHeader]

theorem hmbHeader_toNat (src : Nat) {msgid len : Nat} (hmsgid : msgid < 2 ^ 16) (hlen : len < 2 ^ 13) :
    (hmbHeader src msgid len).toNat = src % 65536 + msgid * 2 ^ 16 + len * 2 ^ 32 + 2 ^ 63 := by
  rw [hmbHeader, BitVec.toNat_ofNat]
  omega

theorem raiseVector_parts (w : Work) (i : Nat) : (w.raiseVector i).mem = w.mem ∧ (w.raiseVector i).csr = w.csr ∧ (w.raiseVector i).wr = w.wr ∧
    (w.raiseVector i).hw.wild = w.hw.wild ∧ (∀ a, (w.raiseVector i).r32 a = w.r32 a) ∧ ∀ a, (w.raiseVector i).r64 a = w.r64 a := by
  rw [Work.raiseVector]
  exact ⟨rfl, rfl, rfl, rfl, fun _ => rfl, fun _ => rfl⟩

theorem raiseVector_hw {u v : Work} (h : u.hw = v.hw) (i : Nat) : (u.raiseVector i).hw = (v.raiseVector i).hw := by
  rw [Work.raiseVector, Work.raiseVector, h]

section Post
variable {s : State} (hp : s.powered = true) {m : Master} {value : DWord} {n : Nat} {v : Work}
  (hwrite : s.look.woWrite (s.look.clampBy m) (Reg.MGT_HMB_POST 0) value.toNat = (n, v))
include hp hwrite

theorem hmbPost_run : exec (.hmbPost m value) s = done s
    (if v.hmbValid (bits n 0 3) then v.mboxDrop 0 else v.hmbFill (bits n 0 3) v.selfNode (bits n 16 16) (bits n 3 13)) := by
  change execHmbPost m value s = _
  refine runs hp ?_
  rw [Work.hmbPost, hwrite]

theorem hmbPost_leaves (hfree : v.hmbValid (bits n 0 3) = false) : goesTo (exec (.hmbPost m value) s) fun t =>
    (t.look.r64 (Reg.MGT_HMB_HDR 0 (bits n 0 3))).toNat = v.selfNode % 65536 + bits n 16 16 * 2 ^ 16 + bits n 3 13 * 2 ^ 32 + 2 ^ 63 ∧
    t.hw = (v.raiseVector 1).hw ∧
    (∀ x, x ∉ [Reg.MGT_HMB_HDR 0 (bits n 0 3), Reg.MGT_HMB_HDR 0 (bits n 0 3) + 4] → t.look.r32 x = v.r32 x) ∧ sameBytes s t ∧
      t.pending = s.pending := by
  have hrun := hmbPost_run hp hwrite
  rw [if_neg (ne_true_of_eq_false hfree), hmbFill_eq] at hrun
  obtain ⟨hmem, hcsr, hwr, hhw⟩ := woWrite_parts s.look (s.look.clampBy m) (Reg.MGT_HMB_POST 0) value.toNat
  rw [hwrite] at hmem hcsr hwr hhw
  have htoNat := hmbHeader_toNat v.selfNode (msgid := bits n 16 16) (len := bits n 3 13) (Nat.mod_lt _ (Nat.two_pow_pos 16))
    (Nat.mod_lt _ (Nat.two_pow_pos 13))
  generalize hmbHeader v.selfNode (bits n 16 16) (bits n 3 13) = header at *
  have hword : v.words (fun x => x = Reg.MGT_HMB_HDR 0 (bits n 0 3) ∨ x = Reg.MGT_HMB_HDR 0 (bits n 0 3) + 4)
    (v.w64 (Reg.MGT_HMB_HDR 0 (bits n 0 3)) header) := .w64 v _ (.inl rfl) (.inr rfl)
  have hself := r64_w64_self v (Reg.MGT_HMB_HDR 0 (bits n 0 3)) header
  generalize v.w64 (Reg.MGT_HMB_HDR 0 (bits n 0 3)) header = u at *
  obtain ⟨hmem', hcsr', hwr', hwild, hr32, hr64⟩ := raiseVector_parts u 1
  have hvec := raiseVector_hw hword.hw 1
  generalize u.raiseVector 1 = x at *
  have hcsrx : x.csr = s.csr := hcsr'.trans (hword.csr.trans hcsr)
  refine ⟨_, hrun, ?_, hvec, fun a ha => ?_, sameBytes_of (hmem'.trans (hword.mem.trans hmem)) (hwr'.trans (hword.wr.trans hwr))
    (hwild.trans (congrArg Hw.wild (hword.hw.trans hhw))), commit_pending ..⟩
  · rw [Machine.commit_r64 s _ hcsrx, hr64, hself]
    exact htoNat
  · refine (commit_r32 s _ hcsrx a).trans ((hr32 a).trans (hword.word a ?_))
    simpa only [List.mem_cons, List.not_mem_nil, or_false] using ha

end Post

/-! ### Telemetry (R634) -/

/-- The first words of a telemetry copy. -/
def Work.telCopied (w : Work) (f : Nat → Nat) (n : Nat) : Work := w.forEach (List.range n) fun w k => w.w64 (Reg.MGT_TEL 0 k) (BitVec.ofNat 64 (f k))

section Tel
variable (w : Work) (f : Nat → Nat)

theorem telCopied_succ (n : Nat) : w.telCopied f (n + 1) = (w.telCopied f n).w64 (Reg.MGT_TEL 0 n) (BitVec.ofNat 64 (f n)) := by
  rw [Work.telCopied, Work.forEach, List.range_succ, List.foldl_append, List.foldl_cons, List.foldl_nil, ← Work.forEach, ← Work.telCopied]

theorem telCopied_words (n : Nat) : w.words (fun a => ∃ k, k < n ∧ (a = Reg.MGT_TEL 0 k ∨ a = Reg.MGT_TEL 0 k + 4)) (w.telCopied f n) :=
  .forEach (List.range n) (fun u k hk => .w64 u _ ⟨k, List.mem_range.mp hk, .inl rfl⟩ ⟨k, List.mem_range.mp hk, .inr rfl⟩) w

theorem telCopied_r64 {n k : Nat} (h : k < n) : (w.telCopied f n).r64 (Reg.MGT_TEL 0 k) = BitVec.ofNat 64 (f k) := by
  induction n with
  | zero => omega
  | succ n ih =>
    rw [telCopied_succ]
    by_cases hk : k = n
    · rw [hk, r64_w64_self]
    · have hother : (w.telCopied f n).words (fun a => a = Reg.MGT_TEL 0 n ∨ a = Reg.MGT_TEL 0 n + 4)
          ((w.telCopied f n).w64 (Reg.MGT_TEL 0 n) (BitVec.ofNat 64 (f n))) := .w64 _ _ (.inl rfl) (.inr rfl)
      rw [hother.r64_eq, ih (by omega)] <;> unfold Reg.MGT_TEL <;> omega

end Tel

/-- A telemetry copy, with its sequence number (R634). -/
def Work.telTaken (v : Work) (f : Nat → Nat) : Work :=
  (v.telCopied f 8).w32 (Reg.MGT_TEL_SEQ 0) ((v.telCopied f 8).r32 (Reg.MGT_TEL_SEQ 0) + 1)

theorem telSnap_run {s : State} (hp : s.powered = true) {m : Master} {value : Word} {n : Nat} {v : Work}
    (hwrite : s.look.woWrite (s.look.clampBy m) (Reg.MGT_TEL_CTRL 0) value.toNat = (n, v)) : exec (.telSnap m value) s = done s
      (if bits n 0 1 = 1 then v.telTaken v.telemetry else v) := by
  change execTelSnap m value s = _
  refine runs hp ?_
  rw [Work.telSnap, hwrite, Work.telTaken, Work.telCopied]

theorem telWord_ne_seq (k : Nat) : Reg.MGT_TEL_SEQ 0 ≠ Reg.MGT_TEL 0 k ∧ Reg.MGT_TEL_SEQ 0 ≠ Reg.MGT_TEL 0 k + 4 := by
  unfold Reg.MGT_TEL_SEQ Reg.MGT_TEL
  omega

theorem telTaken_words (v : Work) (f : Nat → Nat) : v.words (fun a => a = Reg.MGT_TEL_SEQ 0 ∨ ∃ k, k < 8 ∧ (a = Reg.MGT_TEL 0 k ∨ a = Reg.MGT_TEL 0 k + 4))
    (v.telTaken f) := ((telCopied_words v f 8).mono fun _ => .inr).trans (.w32 _ _ (.inl rfl))

theorem telTaken_seq (v : Work) (f : Nat → Nat) : (v.telTaken f).r32 (Reg.MGT_TEL_SEQ 0) = v.r32 (Reg.MGT_TEL_SEQ 0) + 1 := by
  rw [Work.telTaken, r32_w32_self, (telCopied_words v f 8).word]
  rintro ⟨k, -, h⟩
  exact h.elim (telWord_ne_seq k).1 (telWord_ne_seq k).2

theorem telTaken_r64 (v : Work) (f : Nat → Nat) {k : Nat} (h : k < 8) : (v.telTaken f).r64 (Reg.MGT_TEL 0 k) = BitVec.ofNat 64 (f k) := by
  have hseq : (v.telCopied f 8).words (· = Reg.MGT_TEL_SEQ 0) (v.telTaken f) := .w32 _ _ rfl
  rw [hseq.r64_eq (telWord_ne_seq k).1.symm (telWord_ne_seq k).2.symm, telCopied_r64 v f h]

theorem telSnap_leaves {s : State} (hp : s.powered = true) {m : Master} {value : Word} {n : Nat} {v : Work}
    (hwrite : s.look.woWrite (s.look.clampBy m) (Reg.MGT_TEL_CTRL 0) value.toNat = (n, v)) (hn : bits n 0 1 = 1) :
    goesTo (exec (.telSnap m value) s) fun t =>
      (∀ k, k < 8 → t.look.r64 (Reg.MGT_TEL 0 k) = BitVec.ofNat 64 (v.telemetry k)) ∧
      t.look.r32 (Reg.MGT_TEL_SEQ 0) = v.r32 (Reg.MGT_TEL_SEQ 0) + 1 ∧ t.hw = v.hw ∧
      (∀ x, x ≠ Reg.MGT_TEL_SEQ 0 → (∀ k, k < 8 → x ≠ Reg.MGT_TEL 0 k ∧ x ≠ Reg.MGT_TEL 0 k + 4) → t.look.r32 x = v.r32 x) ∧ sameBytes s t ∧
        t.pending = s.pending := by
  have hrun := telSnap_run hp hwrite
  rw [if_pos hn] at hrun
  obtain ⟨hmem, hcsr, hwr, hhw⟩ := woWrite_parts s.look (s.look.clampBy m) (Reg.MGT_TEL_CTRL 0) value.toNat
  rw [hwrite] at hmem hcsr hwr hhw
  have hwords := telTaken_words v v.telemetry
  have hseq := telTaken_seq v v.telemetry
  have hcopy {k : Nat} := telTaken_r64 v v.telemetry (k := k)
  generalize v.telTaken v.telemetry = u at *
  have hcsr' : u.csr = s.csr := hwords.csr.trans hcsr
  refine ⟨_, hrun, fun k hk => (Machine.commit_r64 s u hcsr' _).trans (hcopy hk), (commit_r32 s u hcsr' _).trans hseq, hwords.hw,
    fun x hx hk => (commit_r32 s u hcsr' x).trans (hwords.word x ?_), sameBytes_of (hwords.mem.trans hmem) (hwords.wr.trans hwr) ?_,
    commit_pending ..⟩
  · rintro (h | ⟨k, h8, h⟩)
    · exact hx h
    · exact h.elim (hk k h8).1 (hk k h8).2
  · exact congrArg Hw.wild (hwords.hw.trans hhw)

section Sideband
variable {s : State} (hp : s.powered = true)
include hp

theorem hmbFree_leaves (k : Fin 8) : goesTo (exec (.hmbFree k) s) fun t => t.look.flag (Reg.MGT_HMB_HDR 0 k) Fld.MGT_HMB_HDR_VALID = false ∧
    onlyWords [Reg.MGT_HMB_HDR 0 k, Reg.MGT_HMB_HDR 0 k + 4] s t := by
  have hrun : exec (.hmbFree k) s = done s (s.look.setFlag (Reg.MGT_HMB_HDR 0 k) Fld.MGT_HMB_HDR_VALID false) := by
    change execHmbFree k s = _
    exact runs hp rfl
  have hwords := words_setFld_wide s.look (a := Reg.MGT_HMB_HDR 0 k) (f := Fld.MGT_HMB_HDR_VALID) 0
  have hfld := fld_setFld_high s.look (a := Reg.MGT_HMB_HDR 0 k) (f := Fld.MGT_HMB_HDR_VALID) 0 (by decide) (by decide) (by decide)
  refine ⟨_, hrun, (hwords.commit_flag ..).trans ?_, hwords.onlyWords fun a ha => by simpa only [List.mem_cons, List.not_mem_nil, or_false] using ha⟩
  exact (flag_of_fld hfld).trans (by decide)

theorem dynamicAddress_leaves (addr : BitVec 7) (hmode : s.look.flag (Reg.MGT_SB_CFG 1) Fld.MGT_SB_CFG_MODE = true) :
    goesTo (exec (.dynamicAddressAssignment addr) s) fun t =>
      t.look.fld (Reg.MGT_SB_STAT 1) Fld.MGT_SB_STAT_DYNAMIC = addr.toNat ∧ onlyWords [Reg.MGT_SB_STAT 1] s t := by
  have hrun : exec (.dynamicAddressAssignment addr) s = done s (s.look.setFld (Reg.MGT_SB_STAT 1) Fld.MGT_SB_STAT_DYNAMIC addr.toNat) := by
    change execDynamicAddressAssignment addr s = _
    refine runs hp ?_
    rw [Work.when, hmode, if_pos rfl]
  have hwords := Work.words.at_ (a := Reg.MGT_SB_STAT 1) s.look (f := Fld.MGT_SB_STAT_DYNAMIC) addr.toNat (by decide)
  refine ⟨_, hrun, (hwords.commit_fld ..).trans ?_, hwords.onlyWords fun a ha => List.mem_singleton.mpr ha⟩
  exact (fld_setFld_self _ _ _ _ (by decide)).trans (Nat.mod_eq_of_lt addr.isLt)

theorem ibiAcknowledge_leaves : goesTo (exec .ibiAcknowledge s) fun t =>
    t.look.flag (Reg.MGT_SB_STAT 1) Fld.MGT_SB_STAT_IBI_PEND = false ∧ onlyWords [Reg.MGT_SB_STAT 1] s t := by
  have hrun : exec .ibiAcknowledge s = done s (s.look.setFlag (Reg.MGT_SB_STAT 1) Fld.MGT_SB_STAT_IBI_PEND false) := by
    change execIbiAcknowledge s = _
    exact runs hp rfl
  have hwords := Work.words.at_ (a := Reg.MGT_SB_STAT 1) s.look (f := Fld.MGT_SB_STAT_IBI_PEND) 0 (by decide)
  exact ⟨_, hrun, (hwords.commit_flag ..).trans (flag_setFlag_self _ false (by decide) rfl), hwords.onlyWords fun a ha => List.mem_singleton.mpr ha⟩

end Sideband

/-- Settles O56: a post fills its slot or is counted, and the other words of the plane are their own. -/
theorem mgtPlane : Obligations.MgtPlane := by
  unfold Obligations.MgtPlane
  intro m s w who st
  refine ⟨?_, ?_, ?_, ?_, ?_⟩
  · rintro value n v ⟨hp, hwrite⟩ k
    refine ⟨fun htaken => ?_, fun hfree => hmbPost_leaves hp hwrite hfree⟩
    exact (hmbPost_run hp hwrite).trans (congrArg (done s) (if_pos htaken))
  · exact fun k hp => hmbFree_leaves hp k
  · exact fun addr ⟨hp, hmode⟩ => dynamicAddress_leaves hp addr hmode
  · exact fun hp => ibiAcknowledge_leaves hp
  · rintro value n v ⟨hp, hwrite⟩
    refine ⟨fun hn => ?_, fun hn => telSnap_leaves hp hwrite hn⟩
    exact (telSnap_run hp hwrite).trans (congrArg (done s) (if_neg (by rw [hn]; decide)))

end Sys2Proof.Machine
end

section
/-! PROOFS. The trigger unit, the trace and OBS samples (R637–R646). -/

namespace Sys2Proof.Machine

/-! ### Firing -/

/-- The words that a firing changes beside the unit's own status and stamp: the trace's, and the freezes with their stamps. -/
def fireWord (a : Nat) : Prop := a = Reg.DBG_TRACE_STAT ∨ ∃ d, a = Reg.DBG_CNT_CTRL d ∨ a = Reg.DBG_FREEZE_STAMP d ∨ a = Reg.DBG_FREEZE_STAMP d + 4

theorem trigStat_not_fireWord : ¬ fireWord Reg.DBG_TRIG_STAT := by
  rintro (h | ⟨d, h⟩)
  · revert h
    decide
  · unfold Reg.DBG_TRIG_STAT Reg.DBG_CNT_CTRL Reg.DBG_FREEZE_STAMP dieWindow at h
    omega

theorem trigStamp_not_fireWord : ¬ fireWord Reg.DBG_TRIG_STAMP ∧ ¬ fireWord (Reg.DBG_TRIG_STAMP + 4) := by
  refine ⟨?_, ?_⟩ <;> rintro (h | ⟨d, h⟩)
  · revert h
    decide
  · unfold Reg.DBG_TRIG_STAMP Reg.DBG_CNT_CTRL Reg.DBG_FREEZE_STAMP dieWindow at h
    omega
  · revert h
    decide
  · unfold Reg.DBG_TRIG_STAMP Reg.DBG_CNT_CTRL Reg.DBG_FREEZE_STAMP dieWindow at h
    omega

/-- The status and the stamp of a firing (R642). -/
def Work.fired (w : Work) (by_ : Nat) : Work :=
  ((w.setFlag Reg.DBG_TRIG_STAT Fld.DBG_TRIG_STAT_HIT true).setFld Reg.DBG_TRIG_STAT Fld.DBG_TRIG_STAT_BY by_).w64 Reg.DBG_TRIG_STAMP
    (BitVec.ofNat 64 w.hw.uptime)

/-- A_OUT: the output rises. -/
def Work.fireOut (w : Work) : Work := if w.trigCtl Fld.DBG_TRIG_CTRL_A_OUT then { w with hw := { w.hw with trigRise := 4 } } else w

/-- A_TRACE: the capture counts the samples that follow. -/
def Work.fireTrace (w : Work) : Work :=
  if w.trigCtl Fld.DBG_TRIG_CTRL_A_TRACE && w.hw.traceOn then
    let w := w.setFld Reg.DBG_TRACE_STAT Fld.DBG_TRACE_STAT_TRIG_IDX (w.fld Reg.DBG_TRACE_STAT Fld.DBG_TRACE_STAT_WPTR + 8191)
    { w with hw := { w.hw with tracePost := some (w.fld Reg.DBG_TRACE_CFG Fld.DBG_TRACE_CFG_POST) } }
  else w

/-- A_FREEZE: every die's counters stop. -/
def Work.fireFreeze (w : Work) : Work :=
  if w.trigCtl Fld.DBG_TRIG_CTRL_A_FREEZE then w.forEach (List.range 32) fun w d => w.setFreeze d true else w

/-- A_HALT: the cores of the regions that the unit names halt. -/
def Work.fireHalt (w : Work) : Work :=
  if w.trigCtl Fld.DBG_TRIG_CTRL_A_HALT then
    w.forEach ((List.range 16).filter fun r => decide (bits (w.fld Reg.DBG_TRIG_HALT Fld.DBG_TRIG_HALT_REGIONS) r 1 = 1)) Work.haltRegion
  else w

/-- No condition waits to fire. -/
def Work.unfired (w : Work) : Work := { w with hw := { w.hw with trigConds := 0 } }

theorem fire_eq (w : Work) (by_ : Nat) : w.fire by_ = ((((w.fired by_).fireOut).fireTrace).fireFreeze).fireHalt.unfired := rfl

section Fire
variable (w : Work)

/-- Any core slot. -/
def anyCore (_ : Nat) : Prop := True

theorem fireOut_touches : w.touches fireWord anyCore w.fireOut := by
  unfold Work.fireOut
  split
  · exact .of_hw rfl rfl rfl rfl rfl rfl
  · exact .refl ..

theorem fireTrace_touches : w.touches fireWord anyCore w.fireTrace := by
  unfold Work.fireTrace
  split
  · extract_lets u
    have hu : w.touches fireWord anyCore u := .setFld32 w _ (by decide) (.inl rfl)
    exact hu.trans (.of_hw rfl rfl rfl rfl rfl rfl)
  · exact .refl ..

theorem setFreeze_touches (d : Nat) (b : Bool) : w.touches fireWord anyCore (w.setFreeze d b) := by
  unfold Work.setFreeze
  split
  · exact .refl ..
  · exact .trans (.setFld32 w (f := Fld.DBG_CNT_CTRL_FREEZE) _ (by decide) (.inr ⟨d, .inl rfl⟩))
      (.w64 _ _ (.inr ⟨d, .inr (.inl rfl)⟩) (.inr ⟨d, .inr (.inr rfl)⟩))

theorem fireFreeze_touches : w.touches fireWord anyCore w.fireFreeze := by
  unfold Work.fireFreeze
  split
  · exact .forEach _ (fun u d _ => setFreeze_touches u d true) w
  · exact .refl ..

theorem haltCore_touches (p : Nat → Prop) (c : Nat) : w.touches p anyCore (w.haltCore c) := by
  unfold Work.haltCore
  split
  · exact .updCore w _ trivial
  · exact .refl ..

theorem haltRegion_touches (p : Nat → Prop) (r : Nat) : w.touches p anyCore (w.haltRegion r) := by
  unfold Work.haltRegion
  refine .forEach _ (fun u i _ => ?_) w
  dsimp only
  split
  · exact .refl ..
  · exact haltCore_touches ..

theorem fireHalt_touches : w.touches fireWord anyCore w.fireHalt := by
  unfold Work.fireHalt
  split
  · exact .forEach _ (fun u r _ => haltRegion_touches u _ r) w
  · exact .refl ..

/-- The unit's own words are as the firing shows them, whatever its control asks for. -/
theorem fire_touches (by_ : Nat) : (w.fired by_).touches fireWord anyCore (w.fire by_) := by
  rw [fire_eq]
  refine .trans ((((fireOut_touches _).trans (fireTrace_touches _)).trans (fireFreeze_touches _)).trans (fireHalt_touches _)) ?_
  exact .of_hw rfl rfl rfl rfl rfl rfl

theorem fired_words (by_ : Nat) : w.words (fun a => a = Reg.DBG_TRIG_STAT ∨ a = Reg.DBG_TRIG_STAMP ∨ a = Reg.DBG_TRIG_STAMP + 4) (w.fired by_) :=
  ((Work.words.setFlag w _ (by decide) (.inl rfl)).trans (.setFld _ _ (by decide) (.inl rfl))).trans (.w64 _ _ (.inr (.inl rfl)) (.inr (.inr rfl)))

theorem fired_fields (by_ : Nat) : (w.fired by_).flag Reg.DBG_TRIG_STAT Fld.DBG_TRIG_STAT_HIT = true ∧
    (w.fired by_).fld Reg.DBG_TRIG_STAT Fld.DBG_TRIG_STAT_BY = by_ % 32 ∧
    (w.fired by_).r64 Reg.DBG_TRIG_STAMP = BitVec.ofNat 64 w.hw.uptime := by
  unfold Work.fired
  have hstamp (u : Work) (x : DWord) : u.words (fun a => a = Reg.DBG_TRIG_STAMP ∨ a = Reg.DBG_TRIG_STAMP + 4) (u.w64 Reg.DBG_TRIG_STAMP x) :=
    .w64 u x (.inl rfl) (.inr rfl)
  refine ⟨?_, ?_, r64_w64_self ..⟩
  · rw [(hstamp _ _).flag_eq (by decide) (by decide), flag_setFld_beside _ _ (by decide) (by decide) (by decide), flag_setFlag_self _ _ (by decide) rfl]
  · rw [(hstamp _ _).fld_eq (by decide) (by decide), fld_setFld_self _ _ _ _ (by decide)]
    rfl

end Fire

theorem triggerFire_leaves {s : State} (hp : s.powered = true) (hconds : s.hw.trigConds ≠ 0) : goesTo (exec .triggerFire s) fun t =>
    t.hw.trigConds = 0 ∧ t.look.flag Reg.DBG_TRIG_STAT Fld.DBG_TRIG_STAT_HIT = true ∧
      t.look.fld Reg.DBG_TRIG_STAT Fld.DBG_TRIG_STAT_BY = s.hw.trigConds % 32 ∧
      t.look.r64 Reg.DBG_TRIG_STAMP = BitVec.ofNat 64 s.hw.uptime ∧ t.pending = s.pending := by
  have hrun : exec .triggerFire s = done s (s.look.fire s.hw.trigConds) := by
    change execTriggerFire s = _
    refine runs hp ?_
    rw [Work.fireDue]
    exact if_neg hconds
  have hfire := fire_touches s.look s.hw.trigConds
  obtain ⟨hhit, hby, hstamp⟩ := fired_fields s.look s.hw.trigConds
  have hwords := fired_words s.look s.hw.trigConds
  have hzero : (s.look.fire s.hw.trigConds).hw.trigConds = 0 := by rw [fire_eq, Work.unfired]
  generalize s.look.fire s.hw.trigConds = v at *
  generalize s.look.fired s.hw.trigConds = u at *
  have hcsr : v.csr = s.csr := hfire.csr.trans hwords.csr
  refine ⟨_, hrun, hzero, ?_, ?_, ?_, commit_pending ..⟩
  · rw [Machine.commit_flag s v hcsr, Work.flag, hfire.fld_eq (by decide) trigStat_not_fireWord]
    exact hhit
  · rw [Machine.commit_fld s v hcsr, hfire.fld_eq (by decide) trigStat_not_fireWord, hby]
  · rw [Machine.commit_r64 s v hcsr, hfire.r64_eq trigStamp_not_fireWord.1 trigStamp_not_fireWord.2, hstamp]
    rfl

/-! ### Commands of the unit and of the trace -/

section Commands
variable {s : State} (hp : s.powered = true)
include hp

theorem trigCmdFire_run {m : Master} {value : Word} {n : Nat} {v : Work} (hfire : value.getLsbD 0 = true)
    (hwrite : s.look.woWrite (s.look.clampBy m) Reg.DBG_TRIG_CMD value.toNat = (n, v)) (hn : bits n 0 1 = 1) :
    exec (.trigCmdFire m value) s = done s (if bits n 1 1 = 1 then (v.condsHold 16 true).trigOutLow else v.condsHold 16 true) := by
  change execTrigCmdFire m value s = _
  refine runs hp ?_
  rw [Work.when, hfire, if_pos rfl, Work.trigCmd, hwrite]
  dsimp only
  rw [if_pos hn]

theorem trigClearOut_run {m : Master} {value : Word} {n : Nat} {v : Work} (hclear : value.getLsbD 1 = true)
    (hwrite : s.look.woWrite (s.look.clampBy m) Reg.DBG_TRIG_CMD value.toNat = (n, v)) (hn : bits n 0 1 = 0) (hout : bits n 1 1 = 1) :
    exec (.trigClearOut m value) s = done s v.trigOutLow := by
  change execTrigClearOut m value s = _
  refine runs hp ?_
  rw [Work.when, hclear, if_pos rfl, Work.trigCmd, hwrite]
  dsimp only
  rw [if_pos hout, if_neg (by rw [hn]; decide)]

theorem trigOutEnd_leaves (hleft : s.hw.trigLeft = 1) : goesTo (exec .trigOutEnd s) fun t =>
    t.look.flag Reg.DBG_TRIG_STAT Fld.DBG_TRIG_STAT_OUT = false ∧ t.hw = { s.hw with trigLeft := 0 } ∧ sameWordsBut [Reg.DBG_TRIG_STAT] s t ∧
      sameBytes s t ∧ t.pending = s.pending := by
  have hrun : exec .trigOutEnd s = done s s.look.trigOutLow := by
    change execTrigOutEnd s = _
    refine runs hp ?_
    rw [Work.outEndDue]
    exact if_pos hleft
  have hwords := Work.words.at_ (a := Reg.DBG_TRIG_STAT) s.look (f := Fld.DBG_TRIG_STAT_OUT) 0 (by decide)
  have hflag := flag_setFlag_self s.look (a := Reg.DBG_TRIG_STAT) (f := Fld.DBG_TRIG_STAT_OUT) false (by decide) rfl
  rw [Work.trigOutLow] at hrun
  change s.look.words (· = Reg.DBG_TRIG_STAT) (s.look.setFlag Reg.DBG_TRIG_STAT Fld.DBG_TRIG_STAT_OUT false) at hwords
  generalize s.look.setFlag Reg.DBG_TRIG_STAT Fld.DBG_TRIG_STAT_OUT false = u at *
  have hall : s.look.touches (· = Reg.DBG_TRIG_STAT) noCore { u with hw := { u.hw with trigLeft := 0 } } :=
    (hwords.touches noCore).trans (.of_hw rfl rfl rfl rfl rfl rfl)
  refine ⟨_, hrun, (Machine.commit_flag s _ hall.csr ..).trans hflag, ?_, hall.sameWordsBut fun a ha => List.mem_singleton.mpr ha, hall.sameBytes,
    commit_pending ..⟩
  rw [commit_hw, hwords.hw]
  rfl

theorem trigRearm_leaves : goesTo (exec .trigRearm s) fun t => t.look.flag Reg.DBG_TRIG_STAT Fld.DBG_TRIG_STAT_HIT = false ∧
    onlyWords [Reg.DBG_TRIG_STAT] s t := by
  have hrun : exec .trigRearm s = done s (s.look.setFlag Reg.DBG_TRIG_STAT Fld.DBG_TRIG_STAT_HIT false) := by
    change execTrigRearm s = _
    exact runs hp rfl
  have hwords := Work.words.at_ (a := Reg.DBG_TRIG_STAT) s.look (f := Fld.DBG_TRIG_STAT_HIT) 0 (by decide)
  exact ⟨_, hrun, (hwords.commit_flag ..).trans (flag_setFlag_self _ false (by decide) rfl), hwords.onlyWords fun a ha => List.mem_singleton.mpr ha⟩

theorem traceEnable_run {m : Master} {value : Word} {trace : Work} (hen : value.getLsbD 0 = true)
    (hwrite : s.look.regWrite m Reg.DBG_TRACE_CFG .w32 15 value.toNat = trace) (hon : trace.flag Reg.DBG_TRACE_CFG Fld.DBG_TRACE_CFG_EN = true) :
    exec (.traceEnable m value) s = done s { (trace.w32 Reg.DBG_TRACE_STAT 0) with hw := { trace.hw with traceOn := true, tracePost := none } } := by
  change execTraceEnable m value s = _
  refine runs hp ?_
  rw [Work.when, hen, if_pos rfl, hwrite, Work.traceCfgHook, if_pos hon]

theorem traceFreeze_leaves (hpost : s.hw.tracePost = some 0) : goesTo (exec .traceFreeze s) fun t =>
    t.look.flag Reg.DBG_TRACE_STAT Fld.DBG_TRACE_STAT_FROZEN = true ∧ t.hw = { s.hw with traceOn := false, tracePost := none } ∧
      sameWordsBut [Reg.DBG_TRACE_STAT] s t ∧ sameBytes s t ∧ t.pending = s.pending := by
  have hrun : exec .traceFreeze s = done s s.look.traceDue := by
    change execTraceFreeze s = _
    exact runs hp rfl
  have hlook : s.look.hw.tracePost = some 0 := hpost
  rw [Work.traceDue, if_pos hlook] at hrun
  dsimp only at hrun
  have hwords : s.look.words (· = Reg.DBG_TRACE_STAT) (s.look.setFlag Reg.DBG_TRACE_STAT Fld.DBG_TRACE_STAT_FROZEN true) :=
    .at_ s.look (f := Fld.DBG_TRACE_STAT_FROZEN) 1 (by decide)
  have hflag := flag_setFlag_self s.look (a := Reg.DBG_TRACE_STAT) (f := Fld.DBG_TRACE_STAT_FROZEN) true (by decide) rfl
  generalize s.look.setFlag Reg.DBG_TRACE_STAT Fld.DBG_TRACE_STAT_FROZEN true = u at *
  have hall : s.look.touches (· = Reg.DBG_TRACE_STAT) noCore { u with hw := { u.hw with traceOn := false, tracePost := none } } :=
    (hwords.touches noCore).trans (.of_hw rfl rfl rfl rfl rfl rfl)
  refine ⟨_, hrun, (Machine.commit_flag s _ hall.csr ..).trans hflag, ?_, hall.sameWordsBut fun a ha => List.mem_singleton.mpr ha, hall.sameBytes,
    commit_pending ..⟩
  rw [commit_hw, hwords.hw]
  rfl

theorem obsEnable_run {m : Master} {value : Word} {cfg : Work} (hen : value.getLsbD 0 = true)
    (hwrite : s.look.regWrite m Reg.DBG_OBS_CFG .w32 15 value.toNat = cfg) (hon : cfg.flag Reg.DBG_OBS_CFG Fld.DBG_OBS_CFG_EN = true) :
    exec (.obsEnable m value) s = done s (if s.look.flag Reg.DBG_OBS_CFG Fld.DBG_OBS_CFG_EN then cfg else { cfg with hw := { cfg.hw with obsCount := 0 } }) := by
  change execObsEnable m value s = _
  refine runs hp ?_
  rw [Work.when, hen, if_pos rfl, hwrite, Work.obsCfgHook]
  dsimp only
  simp only [hon, Bool.true_and, Bool.not_true, Bool.false_and, Bool.not_eq_true', Bool.false_eq_true, if_false]
  cases s.look.flag Reg.DBG_OBS_CFG Fld.DBG_OBS_CFG_EN
  · rw [if_pos rfl, if_neg Bool.false_ne_true]
  · rw [if_neg Bool.true_eq_false.mp, if_pos rfl]

theorem cntFreeze_run {m : Master} {die : DieIx} {value : Word} {cnt : Work}
    (hwrite : s.look.regWrite m (Reg.DBG_CNT_CTRL die) .w32 15 value.toNat = cnt) : exec (.cntFreeze m die value) s = done s
      (if cnt.frozen die = s.look.frozen die then cnt else cnt.w64 (Reg.DBG_FREEZE_STAMP die) (BitVec.ofNat 64 cnt.hw.uptime)) := by
  change execCntFreeze m die value s = _
  refine runs hp ?_
  rw [hwrite, Work.cntCtrlHook]

end Commands

theorem trig_both {m : Master} {value : Word} (s : State) (h0 : value.getLsbD 0 = true) (h1 : value.getLsbD 1 = true) :
    exec (.trigClearOut m value) s = exec (.trigCmdFire m value) s := by
  change execTrigClearOut m value s = execTrigCmdFire m value s
  rw [execTrigClearOut, execTrigCmdFire, h0, h1]

/-! ### An OCLK edge (R638–R645) -/

/-- The words that a sample changes. -/
def sampleWord (a : Nat) : Prop := a = Reg.DBG_TRIG_STAT ∨ a = Reg.DBG_TRACE_STAT ∨ ∃ k, a = Reg.DBG_TRACE k

theorem trigReg_not_sampleWord {a : Nat} (ha : a = Reg.DBG_TRIG_CTRL ∨ a = Reg.DBG_TRIG_MATCH ∨ a = Reg.DBG_TRIG_CFG) : ¬ sampleWord a := by
  rintro (h | h | ⟨k, h⟩)
  · rcases ha with rfl | rfl | rfl <;> revert h <;> decide
  · rcases ha with rfl | rfl | rfl <;> revert h <;> decide
  · unfold Reg.DBG_TRIG_CTRL Reg.DBG_TRIG_MATCH Reg.DBG_TRIG_CFG at ha
    unfold Reg.DBG_TRACE at h
    omega

section Sample
variable (w : Work)

theorem traceSample_parts : w.touches sampleWord noCore w.traceSample ∧ ∃ x, w.traceSample.hw = { w.hw with tracePost := x } := by
  unfold Work.traceSample
  split
  · exact ⟨.refl .., _, rfl⟩
  · extract_lets st i u v
    have hu : w.words sampleWord u := .setFld w _ (by
      dsimp only
      omega) (.inr (.inr ⟨_, rfl⟩))
    have hv : u.words sampleWord v := .setFld u _ (by decide) (.inr (.inl rfl))
    have huv := hu.trans hv
    clear_value v
    exact ⟨(huv.touches noCore).trans (.of_hw rfl rfl rfl rfl rfl rfl), v.hw.tracePost.map (· - 1),
      congrArg (fun h : Hw => { h with tracePost := v.hw.tracePost.map (· - 1) }) huv.hw⟩

theorem pulseSample_parts : w.touches sampleWord noCore w.pulseSample ∧ ∃ x y, w.pulseSample.hw = { w.hw with trigRise := x, trigLeft := y } := by
  unfold Work.pulseSample
  split
  · extract_lets n u
    have hu : w.words sampleWord u := .setFlag w _ (by decide) (.inl rfl)
    clear_value u
    refine ⟨(hu.touches noCore).trans (.of_hw rfl rfl rfl rfl rfl rfl), 0, if u.obsLow || decide (n = 0) then 0 else n + 1, ?_⟩
    exact congrArg (fun h : Hw => { h with trigRise := 0, trigLeft := if u.obsLow || decide (n = 0) then 0 else n + 1 }) hu.hw
  · exact ⟨.of_hw rfl rfl rfl rfl rfl rfl, _, _, rfl⟩

theorem condsHold_parts (conds : Nat) : w.touches sampleWord noCore (w.condsHold conds false) ∧
    ∃ x, (w.condsHold conds false).hw = { w.hw with trigConds := x } := by
  unfold Work.condsHold
  split
  · exact ⟨.refl .., _, rfl⟩
  · split
    · have hu : w.words sampleWord (w.satAdd Reg.DBG_TRIG_STAT Fld.DBG_TRIG_STAT_MISSED 1) := .setFld w _ (by decide) (.inl rfl)
      exact ⟨hu.touches noCore, _, hu.hw⟩
    · rw [if_neg Bool.false_ne_true]
      exact ⟨.of_hw rfl rfl rfl rfl rfl rfl, _, rfl⟩

/-- The end of a sample: the run of matches, TRIG_IN and the unit's own copy of its registers. -/
def Work.sampled (w : Work) (run : Nat) (trigIn : Bool) : Work :=
  { w with hw := { w.hw with
      matchRun := run, trigIn := [trigIn, w.hw.trigIn.getD 0 false], dbgBreak := false, dbgFault := false
      trigRegs := ⟨w.r32 Reg.DBG_TRIG_CTRL, w.r32 Reg.DBG_TRIG_MATCH, w.r32 Reg.DBG_TRIG_CFG⟩ } }

theorem obsSample_run {lo hi : BitVec 16} {trigIn : Bool} {s : State} (hp : s.powered = true) (hruns : s.look.oclkRuns = true)
    (hdue : s.look.fireDue.traceDue.outEndDue = w) : exec (.obsSample lo hi trigIn) s =
      done s (((w.obsShift (w.obsWord lo.toNat hi.toNat)).traceSample.pulseSample.sampled (w.obsShift (w.obsWord lo.toNat hi.toNat)).trigTest.2 trigIn).condsHold
        (w.obsShift (w.obsWord lo.toNat hi.toNat)).trigTest.1 false) := by
  change execObsSample lo hi trigIn s = _
  refine runs hp ?_
  rw [Work.when, hruns, if_pos rfl, hdue]
  rfl

/-- Nothing is left over from the last sample. -/
theorem nothing_due (hconds : w.hw.trigConds = 0) (hpost : w.hw.tracePost ≠ some 0) (hleft : w.hw.trigLeft ≠ 1) :
    w.fireDue.traceDue.outEndDue = w := by
  rw [show w.fireDue = w from if_pos hconds, show w.traceDue = w from if_neg hpost]
  exact if_neg hleft

/-- What a sample leaves of the shifted OBS word. -/
theorem sample_parts (run conds : Nat) (trigIn : Bool) :
    w.touches sampleWord noCore ((w.traceSample.pulseSample.sampled run trigIn).condsHold conds false) ∧
    ∃ a b c d e, ((w.traceSample.pulseSample.sampled run trigIn).condsHold conds false).hw = { w.hw with
      tracePost := a, trigRise := b, trigLeft := c, trigConds := d, matchRun := e, dbgBreak := false, dbgFault := false
      trigIn := [trigIn, w.hw.trigIn.getD 0 false]
      trigRegs := ⟨w.r32 Reg.DBG_TRIG_CTRL, w.r32 Reg.DBG_TRIG_MATCH, w.r32 Reg.DBG_TRIG_CFG⟩ } := by
  obtain ⟨htrace, a, htraceHw⟩ := traceSample_parts w
  obtain ⟨hpulse, b, c, hpulseHw⟩ := pulseSample_parts w.traceSample
  have hsampled (u : Work) : u.touches sampleWord noCore (u.sampled run trigIn) := .of_hw rfl rfl rfl rfl rfl rfl
  obtain ⟨hconds, d, hcondsHw⟩ := condsHold_parts (w.traceSample.pulseSample.sampled run trigIn) conds
  have hall := htrace.trans hpulse
  refine ⟨(hall.trans (hsampled _)).trans hconds, a, b, c, d, run, ?_⟩
  rw [hcondsHw, Work.sampled, hall.word _ (trigReg_not_sampleWord (.inl rfl)), hall.word _ (trigReg_not_sampleWord (.inr (.inl rfl))),
    hall.word _ (trigReg_not_sampleWord (.inr (.inr rfl)))]
  dsimp only
  rw [hpulseHw, htraceHw]

end Sample

theorem obsSample_leaves {lo hi : BitVec 16} {trigIn : Bool} {s : State} {word : Nat} (hp : s.powered = true) (hruns : s.look.oclkRuns = true)
    (hconds : s.hw.trigConds = 0) (hpost : s.hw.tracePost ≠ some 0) (hleft : s.hw.trigLeft ≠ 1)
    (hword : s.look.fireDue.traceDue.outEndDue.obsWord lo.toNat hi.toNat = word) : goesTo (exec (.obsSample lo hi trigIn) s) fun t =>
      t.hw.obsPipe = (word :: s.hw.obsPipe).take 24 ∧ t.hw.obsToggle = !s.hw.obsToggle ∧ t.hw.obsCount = (s.hw.obsCount + 1) % 65536 ∧
      t.hw.trigIn = [trigIn, s.hw.trigIn.getD 0 false] ∧
      t.hw.trigRegs = ⟨s.look.r32 Reg.DBG_TRIG_CTRL, s.look.r32 Reg.DBG_TRIG_MATCH, s.look.r32 Reg.DBG_TRIG_CFG⟩ ∧
      t.hw.dbgBreak = false ∧ t.hw.dbgFault = false ∧ t.hw.obsPins = (s.look.obsShift word).hw.obsPins ∧
      sameBytes s t ∧ t.pending = s.pending := by
  have hdue : s.look.fireDue.traceDue.outEndDue = s.look := nothing_due _ hconds hpost hleft
  rw [hdue] at hword
  have hrun := obsSample_run s.look (lo := lo) (hi := hi) (trigIn := trigIn) hp hruns hdue
  rw [hword] at hrun
  obtain ⟨htouch, a, b, c, d, e, hhw⟩ := sample_parts (s.look.obsShift word) (s.look.obsShift word).trigTest.2 (s.look.obsShift word).trigTest.1 trigIn
  have hall : s.look.touches sampleWord noCore (s.look.obsShift word) := .of_hw rfl rfl rfl rfl rfl rfl
  refine ⟨_, hrun, ?_⟩
  dsimp only
  rw [commit_hw, hhw]
  exact ⟨rfl, rfl, rfl, rfl, rfl, rfl, rfl, rfl, (hall.trans htouch).sameBytes, commit_pending ..⟩

/-- What the pins show after an edge: low, or the word that has left the pipe, with the strobe in its place. -/
theorem obsShift_pins (w : Work) (word : Nat) :
    (w.obsLow = true → (w.obsShift word).hw.obsPins = 0) ∧
    (w.obsLow = false ∧ w.flag Reg.DBG_OBS_CFG Fld.DBG_OBS_CFG_STROBE = false → (w.obsShift word).hw.obsPins = (word :: w.hw.obsPipe).getD 24 0) ∧
    (w.obsLow = false ∧ w.flag Reg.DBG_OBS_CFG Fld.DBG_OBS_CFG_STROBE = true →
      (w.obsShift word).hw.obsPins = setBits ((word :: w.hw.obsPipe).getD 24 0) 15 1 (bit (!w.hw.obsToggle))) := by
  refine ⟨fun h => ?_, fun ⟨h, hstrobe⟩ => ?_, fun ⟨h, hstrobe⟩ => ?_⟩ <;> rw [Work.obsShift] <;> dsimp only <;> rw [h]
  · rw [if_pos rfl]
  · rw [if_neg Bool.false_ne_true, hstrobe, if_neg Bool.false_ne_true]
  · rw [if_neg Bool.false_ne_true, hstrobe, if_pos rfl]

theorem done_look_self (s : State) : done s s.look = .next s := rfl

/-- A firing on command: not armed, already fired, or now (R642, R644). -/
theorem condsHold_now (v : Work) : (v.trigCtl Fld.DBG_TRIG_CTRL_ARM = false → v.condsHold 16 true = v) ∧
    (v.trigCtl Fld.DBG_TRIG_CTRL_ARM = true ∧ v.flag Reg.DBG_TRIG_STAT Fld.DBG_TRIG_STAT_HIT = true →
      v.condsHold 16 true = v.satAdd Reg.DBG_TRIG_STAT Fld.DBG_TRIG_STAT_MISSED 1) ∧
    (v.trigCtl Fld.DBG_TRIG_CTRL_ARM = true ∧ v.flag Reg.DBG_TRIG_STAT Fld.DBG_TRIG_STAT_HIT = false → v.condsHold 16 true = v.fire 16) := by
  unfold Work.condsHold
  refine ⟨fun h => ?_, fun ⟨h, hhit⟩ => ?_, fun ⟨h, hhit⟩ => ?_⟩ <;> rw [h]
  · exact if_pos (.inr rfl)
  · rw [if_neg (by decide), if_pos hhit]
  · rw [if_neg (by decide), if_neg (ne_true_of_eq_false hhit), if_pos rfl]

/-- Settles O57: each command is its own function on the machine, with the words and the hardware state that it changes. -/
theorem dbgTriggersAndSamples : Obligations.DbgTriggersAndSamples := by
  unfold Obligations.DbgTriggersAndSamples
  refine ⟨fun m value die s => ?_, fun lo hi trigIn s => ?_⟩
  · refine ⟨fun ⟨hp, hconds⟩ => ?_, fun ⟨hp, hconds⟩ => triggerFire_leaves hp hconds, fun n v ⟨hp, hfire, hwrite, hn⟩ => ?_,
      fun n v ⟨hp, hclear, hwrite, hn, hout⟩ => trigClearOut_run hp hclear hwrite hn hout, fun ⟨h0, h1⟩ => trig_both s h0 h1,
      fun ⟨hp, hleft⟩ => trigOutEnd_leaves hp hleft, trigRearm_leaves, fun ⟨hp, hen, hon⟩ => traceEnable_run hp hen rfl hon,
      fun ⟨hp, hpost⟩ => traceFreeze_leaves hp hpost, fun ⟨hp, hen, hon, hpre⟩ => ?_, fun ⟨hp, hen, hon, hpre⟩ => ?_,
      fun hp => ⟨fun h => ?_, fun h => ?_⟩⟩
    · change execTriggerFire s = _
      rw [← done_look_self s]
      exact runs hp (if_pos hconds)
    · obtain ⟨hunarmed, hagain, hnow⟩ := condsHold_now v
      have hrun := trigCmdFire_run hp hfire hwrite hn
      exact ⟨fun h => by rw [hrun, hunarmed h], fun h => by rw [hrun, hagain h], fun h => by rw [hrun, hnow h]⟩
    · exact (obsEnable_run hp hen rfl hon).trans (congrArg (done s) (if_neg (ne_true_of_eq_false hpre)))
    · exact (obsEnable_run hp hen rfl hon).trans (congrArg (done s) (if_pos hpre))
    · exact (cntFreeze_run hp rfl).trans (congrArg (done s) (if_pos h))
    · exact (cntFreeze_run hp rfl).trans (congrArg (done s) (if_neg h))
  · refine ⟨fun ⟨hp, hruns⟩ => ?_, fun ⟨hp, hruns, hconds, hpost, hleft⟩ => ?_⟩
    · change execObsSample lo hi trigIn s = _
      rw [← done_look_self s]
      refine runs hp ?_
      rw [Work.when, hruns, if_neg Bool.false_ne_true]
    · obtain ⟨t, hgo, hpipe, htoggle, hcount, hin, hregs, hbreak, hfault, hpins, hbytes, hpending⟩ :=
        obsSample_leaves (lo := lo) (hi := hi) (trigIn := trigIn) hp hruns hconds hpost hleft rfl
      obtain ⟨hlow, hplain, hstrobe⟩ := obsShift_pins s.look (s.look.fireDue.traceDue.outEndDue.obsWord lo.toNat hi.toNat)
      exact ⟨t, hgo, hpipe, htoggle, hcount, hin, hregs, hbreak, hfault, fun h => hpins.trans (hlow h), fun h => hpins.trans (hplain h),
        fun h => hpins.trans (hstrobe h), hbytes, hpending⟩

end Sys2Proof.Machine
end

section
/-! PROOFS. Clean copies and translation shootdowns (R339, R340). -/

namespace Sys2Proof.Machine

/-! ### A write through a clean copy (R339) -/

section ShadowClear
variable {req : Nat} {q : Req} {t : TbEntry} {s : State} {v : Work} (hp : s.powered = true) (hreq : s.look.req? req = some q)
  (hup : s.look.pgeUp q.pge = true) (hheld : q.stage = .held) (hwrite : q.op.isWrite = true)
  (hhit : (s.look.pge q.pge).lookup (q.ctx.getD 0) q.page = some t)
include hp hreq hup hheld hwrite hhit

/-- The entry still names the buffered leaf's frame, with its clean copy. -/
theorem shadowClear_clean {a e : Nat} (hwalk : s.look.walk q.pge (q.ctx.getD 0) q.page = (.leaf t.id a e, v)) (htier : leafTier e = 0)
    (hstill : leafMigrating e = false) (hshadow : leafShadowV e = true) (hframe : leafFrame t.id.slab e = leafFrame t.id.slab t.leaf.toNat) :
    exec (.shadowClear req) s = done s ((((v.unitPut a 8 (setBits e 3 1 0)).releaseFrames 1 (leafShadow t.id.slab e) t.id.slab false).updPge q.pge fun p =>
      { p with tb := p.tb.map fun y => if y.id = t.id then { y with leaf := BitVec.ofNat 64 (setBits e 3 1 0) } else y }).throughLeaf req
        { q with stage := .translate } t.id (setBits e 3 1 0)) := by
  change execShadowClear req s = _
  refine runs hp ?_
  have hleft : ¬ (q.stage ≠ .held ∨ (!s.look.pgeUp q.pge) = true ∨ (!q.op.isWrite) = true) := by simp [hheld, hup, hwrite]
  rw [hreq]
  dsimp only
  rw [hhit]
  dsimp only
  rw [if_neg hleft, hwalk]
  dsimp only
  rw [if_pos ⟨rfl, htier, by rw [hstill]; rfl, hframe⟩, if_pos hshadow]

/-- The leaf that the buffer holds is dropped, and the request is walked again. -/
def Work.walkAgain (v : Work) (req : Nat) (q : Req) (id : LeafId) : Work :=
  (v.updPge q.pge fun p => { p with tb := p.tb.filter fun y => decide (y.id ≠ id) }).setReq req { q with stage := .walk }

theorem shadowClear_unmapped {kind level : Nat} (hwalk : s.look.walk q.pge (q.ctx.getD 0) q.page = (.fault kind level, v)) :
    exec (.shadowClear req) s = done s (v.walkAgain req q t.id) := by
  change execShadowClear req s = _
  refine runs hp ?_
  have hleft : ¬ (q.stage ≠ .held ∨ (!s.look.pgeUp q.pge) = true ∨ (!q.op.isWrite) = true) := by simp [hheld, hup, hwrite]
  rw [hreq]
  dsimp only
  rw [hhit]
  dsimp only
  rw [if_neg hleft, hwalk]
  rfl

theorem shadowClear_changed {id : LeafId} {a e : Nat} (hwalk : s.look.walk q.pge (q.ctx.getD 0) q.page = (.leaf id a e, v))
    (hother : id ≠ t.id ∨ leafTier e = 1 ∨ leafMigrating e = true ∨ leafFrame id.slab e ≠ leafFrame id.slab t.leaf.toNat) :
    exec (.shadowClear req) s = done s (v.walkAgain req q t.id) := by
  change execShadowClear req s = _
  refine runs hp ?_
  have hleft : ¬ (q.stage ≠ .held ∨ (!s.look.pgeUp q.pge) = true ∨ (!q.op.isWrite) = true) := by simp [hheld, hup, hwrite]
  have hnot : ¬ (id = t.id ∧ leafTier e = 0 ∧ (!leafMigrating e) = true ∧ leafFrame id.slab e = leafFrame id.slab t.leaf.toNat) := by
    rintro ⟨hid, htier, hstill, hframe⟩
    rcases hother with h | h | h | h
    · exact h hid
    · omega
    · rw [h] at hstill
      cases hstill
    · exact h hframe
  rw [hreq]
  dsimp only
  rw [hhit]
  dsimp only
  rw [if_neg hleft, hwalk]
  dsimp only
  rw [if_neg hnot]
  rfl

end ShadowClear

/-! ### Shootdowns (R340) -/

theorem pgeInval_leaves {r : RegionIx} {value : DWord} {s : State} {lo hi : Nat} (hp : s.powered = true)
    (htakes : s.look.regTakes (Reg.PGE_INVAL r) = true) (hlo : lo = if decide (bits value.toNat 10 1 = 1) then 0 else bits value.toNat 16 32)
    (hhi : hi = if decide (bits value.toNat 10 1 = 1) then 2 ^ 32 else lo + bits value.toNat 48 16 + 1) :
    goesTo (exec (.pgeInval r value) s) fun t =>
      SMap.find? t.hw.invals s.hw.nextInval = some ⟨bits value.toNat 0 10, lo, hi, [], .write none⟩ ∧
        (∀ k, k ≠ s.hw.nextInval → SMap.find? t.hw.invals k = SMap.find? s.hw.invals k) ∧ sameBytes s t ∧ sameWords s t ∧
        t.hw = { s.hw with invals := t.hw.invals, nextInval := s.hw.nextInval + 1 } ∧ t.pending = s.pending := by
  have hrun : exec (.pgeInval r value) s = done s (s.look.startInval (bits value.toNat 0 10) lo hi (.write none)).2 := by
    change execPgeInval r value s = _
    refine runs hp ?_
    rw [Work.when, htakes, if_pos rfl, Work.pgeInval, hhi, hlo]
  refine ⟨_, hrun, SMap.find?_put_self .., fun k hk => SMap.find?_put_other _ _ hk, sameBytes_of rfl rfl rfl, sameWords_of rfl rfl, rfl, rfl⟩

section Shootdown
variable {r : RegionIx} {inval : Nat} {s : State} {v : Inval} (hp : s.powered = true) (hfound : SMap.find? s.hw.invals inval = some v)
include hp hfound

/-- The leaves that an invalidation leaves in a paging unit. -/
def Work.shotDown (w : Work) (r : Nat) (v : Inval) : Work :=
  w.updPge r fun p => { p with tb := p.tb.filter fun t =>
    !(decide (t.id.ctx = v.ctx) && decide (t.id.page < v.hi) && decide (v.lo < t.id.page + t.id.pages)) }

/-- A paging unit's acknowledgement of an invalidation. -/
def Work.acked (w : Work) (r inval : Nat) (v : Inval) : Work :=
  { w with hw := { w.hw with invals := SMap.put w.hw.invals inval { v with acks := v.acks ++ [r] } } }

theorem shootdown_run (hup : s.look.pgeUp r = true) (hack : v.acks.contains r.val = false) : exec (.shootdown r inval) s =
    done s (if s.look.drainedIn r v then (s.look.shotDown r v).acked r inval v else s.look.shotDown r v) := by
  have hlook : SMap.find? s.look.hw.invals inval = some v := hfound
  change execShootdown r inval s = _
  refine runs hp ?_
  dsimp only
  rw [hlook]
  dsimp only
  rw [hup, hack]
  rfl

theorem shootdown_leaves (hup : s.look.pgeUp r = true) (hack : v.acks.contains r.val = false) : goesTo (exec (.shootdown r inval) s) fun t =>
    (t.look.pge r).tb = ((s.look.pge r).tb.filter fun t =>
      !(decide (t.id.ctx = v.ctx) && decide (t.id.page < v.hi) && decide (v.lo < t.id.page + t.id.pages))) ∧
    SMap.find? t.hw.invals inval = some (if s.look.drainedIn r v then { v with acks := v.acks ++ [r.val] } else v) ∧
    (∀ x, x ≠ r.val → t.look.pge x = s.look.pge x) ∧ sameBytes s t ∧ sameWords s t ∧
    t.hw = { s.hw with paging := t.hw.paging, invals := t.hw.invals } ∧ t.pending = s.pending := by
  have hrun := shootdown_run hp hfound hup hack
  have htb : ((s.look.shotDown r v).pge r).tb = ((s.look.pge r).tb.filter fun t =>
      !(decide (t.id.ctx = v.ctx) && decide (t.id.page < v.hi) && decide (v.lo < t.id.page + t.id.pages))) :=
    congrArg Paging.tb (pge_updPge_self ..)
  have hothers : ∀ x, x ≠ r.val → (s.look.shotDown r v).pge x = s.look.pge x := fun x hx => pge_updPge_other _ _ hx
  cases hdrained : s.look.drainedIn r v with
  | true =>
    rw [hdrained, if_pos rfl] at hrun
    refine ⟨_, hrun, htb, ?_, hothers, sameBytes_of rfl rfl rfl, sameWords_of rfl rfl, rfl, rfl⟩
    rw [if_pos rfl]
    exact SMap.find?_put_self ..
  | false =>
    rw [hdrained, if_neg Bool.false_ne_true] at hrun
    refine ⟨_, hrun, htb, ?_, hothers, sameBytes_of rfl rfl rfl, sameWords_of rfl rfl, rfl, rfl⟩
    rw [if_neg Bool.false_ne_true]
    exact hfound

/-- The invalidation is over, and is forgotten. -/
def Work.endInval (w : Work) (inval : Nat) : Work := { w with hw := { w.hw with invals := SMap.del w.hw.invals inval } }

/-- What the change that an invalidation was for does next. -/
def Work.afterInval (w : Work) (inval : Nat) (purpose : InvalFor) : Work :=
  match purpose with
  | .write (some i) => w.answer i .ok
  | .write none => w
  | .move r => w.updPge r fun p => { p with move := p.move.map fun m => if m.inval = inval then { m with free := true } else m }
  | .unmap r => if (w.alc r).waiting then w.finishUnmap r else w

theorem shootdownAck_run (hall : allAcked v = true) : exec (.shootdownAck inval) s = done s ((s.look.endInval inval).afterInval inval v.purpose) := by
  have hlook : SMap.find? s.look.hw.invals inval = some v := hfound
  have hnot : ¬ (!allAcked v) = true := by rw [hall]; decide
  change execShootdownAck inval s = _
  refine runs hp ?_
  dsimp only
  rw [hlook]
  dsimp only
  rw [if_neg hnot]
  rfl

end Shootdown

/-- Settles O30: each command runs one branch of the walk or of the invalidation's end, which the premises single out. -/
theorem pgeShootsDown : Obligations.PgeShootsDown := by
  unfold Obligations.PgeShootsDown
  refine ⟨fun req q t s v => ?_, fun r inval value s => ⟨fun ⟨hp, htakes⟩ => pgeInval_leaves hp htakes rfl rfl, fun v ⟨hp, hfound⟩ => ?_⟩⟩
  · rintro w r x ⟨hp, hreq, hup, hheld, hwrite, hhit⟩
    exact ⟨fun a e ⟨hwalk, htier, hstill, hshadow, hframe⟩ => shadowClear_clean hp hreq hup hheld hwrite hhit hwalk htier hstill hshadow hframe,
      fun kind level hwalk => shadowClear_unmapped hp hreq hup hheld hwrite hhit hwalk,
      fun id a e ⟨hwalk, hother⟩ => shadowClear_changed hp hreq hup hheld hwrite hhit hwalk hother⟩
  · refine ⟨fun ⟨hup, hack⟩ => shootdown_leaves hp hfound hup hack, fun hall => ?_⟩
    have hrun := shootdownAck_run hp hfound hall
    refine ⟨fun i hi => ?_, fun hnone => ?_, fun n hn => ?_, fun n a rest ⟨hn, hwaiting, _⟩ => ?_⟩
    · rw [hrun, hi]
      rfl
    · rw [hrun, hnone]
      rfl
    · rw [hrun, hn]
      rfl
    · rw [hrun, hn]
      exact congrArg (done s) (if_pos hwaiting)

end Sys2Proof.Machine
end

section
/-! PROOFS. The operations of the allocators (R352–R355). -/

namespace Sys2Proof.Machine

theorem alcRun_first {w : Work} {r op : Nat} {a : AlcRec} {rest : List AlcRec} (f : Work → AlcRec → Work) (hon : w.alcOn r = true)
    (hqueue : (w.alc r).queue = a :: rest) (hwaiting : (w.alc r).waiting = false) (hop : a.op = op) : w.alcRun r op f = f w a := by
  rw [Work.alcRun, hqueue]
  dsimp only
  rw [hon, hwaiting, decide_eq_true hop]
  rfl

/-! ### MAP (R353, R354) -/

section Map
variable {w : Work} {r : Nat} {a : AlcRec} {slab : Bool} {choices : List Nat}

theorem doMap_short (h : w.reserveShort r = true) : w.doMap r a slab choices = w.alcDone r a 2 0 := if_pos h

theorem doMap_mapped (h : w.reserveShort r = false) (hmapped : w.anyMapped r a.ctx a.page (a.count * if slab then 32 else 1) = true) :
    w.doMap r a slab choices = w.alcDone r a 3 0 := by
  rw [Work.doMap, if_neg (ne_true_of_eq_false h), if_pos hmapped]

/-- How a MAP ends, from how far it got. -/
def Work.mapEnd (w v : Work) (r : Nat) (a : AlcRec) : Mapping → Work
  | .going _ taken => v.alcDone r a 1 ((taken.headD (0, 0)).2)
  | .nomem => w.alcDone r a 2 0
  | .badChoice => w

section One
variable (h : w.reserveShort r = false) (hfree : w.anyMapped r a.ctx a.page (a.count * if slab then 32 else 1) = false) (hcount : a.count = 1)
include h hfree hcount

/-- A record of one leaf maps it where it can. -/
theorem doMap_one {m : Mapping} {v : Work} (hleaf : w.mapLeaf r a a.page slab choices [] = (m, v)) : w.doMap r a slab choices = w.mapEnd v r a m := by
  rw [Work.doMap, if_neg (ne_true_of_eq_false h), if_neg (ne_true_of_eq_false hfree), hcount]
  have hfirst : a.page + 0 * (if slab then 32 else 1) = a.page := by rw [Nat.zero_mul, Nat.add_zero]
  rw [show List.range 1 = [0] from rfl, List.foldl_cons, List.foldl_nil]
  dsimp only
  rw [hfirst, hleaf]
  rfl

theorem doMap_noMemory {more : List Nat} {t : List (Nat × Nat)} {at_ : Nat} {v : Work}
    (hplace : w.leafPlace r a.ctx a.page slab choices = (.going more t, at_, v)) (hsource : v.mapSource a a.page slab [] = none) :
    w.doMap r a slab choices = w.alcDone r a 2 0 := by
  have hleaf : w.mapLeaf r a a.page slab choices [] = (.nomem, v) := by
    rw [Work.mapLeaf, hplace]
    dsimp only
    rw [hsource]
  exact doMap_one h hfree hcount hleaf

theorem doMap_leaf {f at_ tier src : Nat} {more : List Nat} {v : Work} (hzero : a.zero = false)
    (hplace : w.leafPlace r a.ctx a.page slab choices = (.going (f :: more) [], at_, v))
    (hsource : v.mapSource a a.page slab [] = some (tier, src)) (hfrom : (if tier = 0 then f / 524288 else f / 2097152) = src)
    (hframes : v.framesFree tier f slab = true) :
    w.doMap r a slab choices = ((v.setRecords tier f slab 1 a.ctx a.page).unitPut at_ 8 (leafOf tier f a.pin)).alcDone r a 1 f := by
  have hleaf : w.mapLeaf r a a.page slab choices [] =
      (.going more [(tier, f)], (v.setRecords tier f slab 1 a.ctx a.page).unitPut at_ 8 (leafOf tier f a.pin)) := by
    rw [Work.mapLeaf, hplace]
    dsimp only
    rw [hsource]
    dsimp only
    rw [decide_eq_true hfrom, hframes, hzero]
    rfl
  exact doMap_one h hfree hcount hleaf

end One

end Map

theorem map_run {r : RegionIx} {choices : List Nat} {slab : Bool} {a : AlcRec} {rest : List AlcRec} {s : State} {v : Work} (hp : s.powered = true)
    (hon : s.look.alcOn r = true) (hqueue : (s.look.alc r).queue = a :: rest) (hwaiting : (s.look.alc r).waiting = false)
    (hop : a.op = if slab then 2 else 1) (hmap : s.look.doMap r a slab choices = v) :
    exec (if slab then .mapSlabs r choices else .mapPages r choices) s = done s v := by
  cases slab with
  | true =>
    change execMapSlabs r choices s = _
    exact runs hp ((alcRun_first _ hon hqueue hwaiting hop).trans hmap)
  | false =>
    change execMapPages r choices s = _
    exact runs hp ((alcRun_first _ hon hqueue hwaiting hop).trans hmap)

/-! ### UNMAP, the granules and the descriptor indices (R352, R354) -/

theorem beginUnmap_still {w : Work} {r : Nat} {a : AlcRec} (h : ((w.unmapLeaves r a).any fun l => leafMigrating l.2.2) = false) {lo hi : Nat}
    (hrange : (if a.op = 8 then (0, 2 ^ 32) else (a.page, a.page + a.count)) = (lo, hi)) :
    w.beginUnmap r a = ((w.startInval a.ctx lo hi (.unmap r)).2).updAlc r fun x => { x with waiting := true } := by
  rw [Work.beginUnmap, if_neg (ne_true_of_eq_false h), hrange]

section First
variable {r : RegionIx} {a : AlcRec} {rest : List AlcRec} {s : State} (hp : s.powered = true) (hon : s.look.alcOn r = true)
  (hqueue : (s.look.alc r).queue = a :: rest) (hwaiting : (s.look.alc r).waiting = false)
include hp hon hqueue hwaiting

theorem unmap_run (hop : a.op = 3) (h : ((s.look.unmapLeaves r a).any fun l => leafMigrating l.2.2) = false) : exec (.unmap r) s =
    done s (((s.look.startInval a.ctx a.page (a.page + a.count) (.unmap r)).2).updAlc r fun x => { x with waiting := true }) := by
  change execUnmap r s = _
  exact runs hp ((alcRun_first _ hon hqueue hwaiting hop).trans (beginUnmap_still h (if_neg (by omega))))

theorem unmapCtx_run (hop : a.op = 8) (h : ((s.look.unmapLeaves r a).any fun l => leafMigrating l.2.2) = false) : exec (.unmapCtx r) s =
    done s (((s.look.startInval a.ctx 0 (2 ^ 32) (.unmap r)).2).updAlc r fun x => { x with waiting := true }) := by
  change execUnmapCtx r s = _
  exact runs hp ((alcRun_first _ hon hqueue hwaiting hop).trans (beginUnmap_still h (if_pos hop)))

theorem allocSpm_full {g0 : Fin 256} (hop : a.op = 4) (h : hasRun 256 a.count (s.look.granuleFree (a.arg % 256)) = false) :
    exec (.allocSpm r g0) s = done s (s.look.alcDone r a 2 0) := by
  change execAllocSpm r g0 s = _
  refine runs hp ((alcRun_first _ hon hqueue hwaiting hop).trans ?_)
  dsimp only
  rw [h]
  rfl

/-- Places from `b` on get the same value. -/
def fillRun (m : SMap Nat) (b n v : Nat) : SMap Nat := (List.range n).foldl (fun m i => SMap.set 0 m (b + i) v) m

theorem allocSpm_taken {g0 : Fin 256} (hop : a.op = 4) (h : hasRun 256 a.count (s.look.granuleFree (a.arg % 256)) = true) (hroom : g0.val + a.count ≤ 256)
    (hfree : ∀ i, i < a.count → s.look.granuleFree (a.arg % 256) (g0.val + i) = true) : exec (.allocSpm r g0) s =
      done s (({ s.look with hw := { s.look.hw with
        granules := fillRun s.look.hw.granules (256 * (a.arg % 256) + g0.val) a.count (a.ctx + 1) } } : Work).alcDone r a 1 (65536 * g0.val)) := by
  have hall : (List.range a.count).all (fun i => s.look.granuleFree (a.arg % 256) (g0.val + i)) = true :=
    List.all_eq_true.mpr fun i hi => hfree i (List.mem_range.mp hi)
  have hnot : ¬ (!hasRun 256 a.count (s.look.granuleFree (a.arg % 256))) = true := by rw [h]; decide
  change execAllocSpm r g0 s = _
  refine runs hp ((alcRun_first _ hon hqueue hwaiting hop).trans ?_)
  dsimp only
  rw [if_neg hnot, if_pos ⟨hroom, hall⟩, fillRun]

theorem freeSpm_held (hop : a.op = 5)
    (hheld : ∀ i, i < a.count → SMap.get 0 s.hw.granules (256 * (a.arg % 256) + bits a.arg 8 24 / 65536 + i) = a.ctx + 1) : exec (.freeSpm r) s =
      done s (({ s.look with hw := { s.look.hw with
        granules := fillRun s.look.hw.granules (256 * (a.arg % 256) + bits a.arg 8 24 / 65536) a.count 0 } } : Work).alcDone r a 1 0) := by
  have hall : (List.range a.count).all (fun i =>
      decide (SMap.get 0 s.look.hw.granules (256 * (a.arg % 256) + bits a.arg 8 24 / 65536 + i) = a.ctx + 1)) = true :=
    List.all_eq_true.mpr fun i hi => decide_eq_true (hheld i (List.mem_range.mp hi))
  change execFreeSpm r s = _
  refine runs hp ((alcRun_first _ hon hqueue hwaiting hop).trans ?_)
  dsimp only
  rw [if_pos hall, fillRun]

theorem freeSpm_notHeld (hop : a.op = 5)
    (hother : ∃ i, i < a.count ∧ SMap.get 0 s.hw.granules (256 * (a.arg % 256) + bits a.arg 8 24 / 65536 + i) ≠ a.ctx + 1) :
    exec (.freeSpm r) s = done s (s.look.alcDone r a 6 0) := by
  obtain ⟨i, hi, hne⟩ := hother
  have hnot : ¬ (List.range a.count).all (fun i =>
      decide (SMap.get 0 s.look.hw.granules (256 * (a.arg % 256) + bits a.arg 8 24 / 65536 + i) = a.ctx + 1)) = true :=
    fun h => hne (of_decide_eq_true (List.all_eq_true.mp h i (List.mem_range.mpr hi)))
  change execFreeSpm r s = _
  refine runs hp ((alcRun_first _ hon hqueue hwaiting hop).trans ?_)
  dsimp only
  rw [if_neg hnot]

theorem allocDesc_full {d0 : Fin 16384} (hop : a.op = 6)
    (h : hasRun 16384 a.count (fun i => decide (SMap.get 0 s.hw.descOwner (16384 * r.val + i) = 0)) = false) :
    exec (.allocDesc r d0) s = done s (s.look.alcDone r a 2 0) := by
  have hnone : (!hasRun 16384 a.count (fun i => decide (SMap.get 0 s.look.hw.descOwner (16384 * r.val + i) = 0))) = true := congrArg not h
  change execAllocDesc r d0 s = _
  refine runs hp ((alcRun_first _ hon hqueue hwaiting hop).trans ?_)
  dsimp only
  rw [if_pos hnone]

theorem allocDesc_taken {d0 : Fin 16384} (hop : a.op = 6)
    (h : hasRun 16384 a.count (fun i => decide (SMap.get 0 s.hw.descOwner (16384 * r.val + i) = 0)) = true) (hroom : d0.val + a.count ≤ 16384)
    (hfree : ∀ i, i < a.count → decide (SMap.get 0 s.hw.descOwner (16384 * r.val + (d0.val + i)) = 0) = true) : exec (.allocDesc r d0) s =
      done s (({ s.look with hw := { s.look.hw with
        descOwner := fillRun s.look.hw.descOwner (16384 * r.val + d0.val) a.count (a.ctx + 1) } } : Work).alcDone r a 1 d0) := by
  have hall : (List.range a.count).all (fun i => decide (SMap.get 0 s.look.hw.descOwner (16384 * r.val + (d0.val + i)) = 0)) = true :=
    List.all_eq_true.mpr fun i hi => hfree i (List.mem_range.mp hi)
  have hnot : ¬ (!hasRun 16384 a.count (fun i => decide (SMap.get 0 s.look.hw.descOwner (16384 * r.val + i) = 0))) = true :=
    ne_true_of_eq_false (congrArg not h)
  change execAllocDesc r d0 s = _
  refine runs hp ((alcRun_first _ hon hqueue hwaiting hop).trans ?_)
  dsimp only
  rw [if_neg hnot, if_pos ⟨hroom, hall⟩, fillRun]

theorem freeDesc_held (hop : a.op = 7) (hin : a.arg < 16384)
    (hheld : ∀ i, i < a.count → SMap.get 0 s.hw.descOwner (16384 * r.val + a.arg + i) = a.ctx + 1) : exec (.freeDesc r) s =
      done s (({ s.look with hw := { s.look.hw with descOwner := fillRun s.look.hw.descOwner (16384 * r.val + a.arg) a.count 0 } } : Work).alcDone r a 1 0) := by
  have hall : (List.range a.count).all (fun i => decide (SMap.get 0 s.look.hw.descOwner (16384 * r.val + a.arg + i) = a.ctx + 1)) = true :=
    List.all_eq_true.mpr fun i hi => decide_eq_true (hheld i (List.mem_range.mp hi))
  change execFreeDesc r s = _
  refine runs hp ((alcRun_first _ hon hqueue hwaiting hop).trans ?_)
  dsimp only
  rw [if_pos ⟨hin, hall⟩, fillRun]

theorem freeDesc_notHeld (hop : a.op = 7)
    (hother : 16384 ≤ a.arg ∨ ∃ i, i < a.count ∧ SMap.get 0 s.hw.descOwner (16384 * r.val + a.arg + i) ≠ a.ctx + 1) :
    exec (.freeDesc r) s = done s (s.look.alcDone r a 6 0) := by
  have hnot : ¬ (a.arg < 16384 ∧
      (List.range a.count).all (fun i => decide (SMap.get 0 s.look.hw.descOwner (16384 * r.val + a.arg + i) = a.ctx + 1)) = true) := by
    rintro ⟨hin, hall⟩
    rcases hother with h | ⟨i, hi, hne⟩
    · omega
    · exact hne (of_decide_eq_true (List.all_eq_true.mp hall i (List.mem_range.mpr hi)))
  change execFreeDesc r s = _
  refine runs hp ((alcRun_first _ hon hqueue hwaiting hop).trans ?_)
  dsimp only
  rw [if_neg hnot]

end First

/-- Settles O33: each operation is performed on the first record of its allocator, on the branch that the premises single out. -/
theorem alcOperations : Obligations.AlcOperations := by
  unfold Obligations.AlcOperations
  refine ⟨fun r choices slab a rest s => ?_, fun r g0 d0 a rest s => ?_⟩
  · rintro w cmd unit ⟨hp, hon, hqueue, hwaiting, hop⟩
    exact ⟨fun h => map_run hp hon hqueue hwaiting hop (doMap_short h), fun ⟨h, hmapped⟩ => map_run hp hon hqueue hwaiting hop (doMap_mapped h hmapped),
      fun at_ v tier src f more ⟨h, hfree, hcount, hzero, hplace, hsource, hfrom, hframes⟩ =>
        map_run hp hon hqueue hwaiting hop (doMap_leaf h hfree hcount hzero hplace hsource hfrom hframes),
      fun at_ v more t ⟨h, hfree, hcount, hplace, hsource⟩ => map_run hp hon hqueue hwaiting hop (doMap_noMemory h hfree hcount hplace hsource)⟩
  · rintro w g firstG firstD freeD fill ⟨hp, hon, hqueue, hwaiting⟩
    exact ⟨fun ⟨hop, h⟩ => unmap_run hp hon hqueue hwaiting hop h, fun ⟨hop, h⟩ => unmapCtx_run hp hon hqueue hwaiting hop h,
      fun ⟨hop, h⟩ => allocSpm_full hp hon hqueue hwaiting hop h,
      fun ⟨hop, h, hroom, hfree⟩ => allocSpm_taken hp hon hqueue hwaiting hop h hroom hfree,
      fun ⟨hop, hheld⟩ => freeSpm_held hp hon hqueue hwaiting hop hheld, fun ⟨hop, hother⟩ => freeSpm_notHeld hp hon hqueue hwaiting hop hother,
      fun ⟨hop, h⟩ => allocDesc_full hp hon hqueue hwaiting hop h,
      fun ⟨hop, h, hroom, hfree⟩ => allocDesc_taken hp hon hqueue hwaiting hop h hroom hfree,
      fun ⟨hop, hin, hheld⟩ => freeDesc_held hp hon hqueue hwaiting hop hin hheld,
      fun ⟨hop, hother⟩ => freeDesc_notHeld hp hon hqueue hwaiting hop hother⟩

end Sys2Proof.Machine
end

section
/-! PROOFS. The entry of a context and the exits of its cores (R361–R363, R367, R375). -/

namespace Sys2Proof.Machine

/-! ### The register file that a write starts from -/

theorem applyLinkCfg_csr (w : Work) (c i : Nat) : (w.applyLinkCfg c i).csr = w.csr := by
  unfold Work.applyLinkCfg
  dsimp only
  split
  · split <;> rfl
  · rfl

theorem storeReg_csr (w : Work) (who : ClampBy) (h : RegHit) (enabled : List Bool) (data : Nat) : (w.storeReg who h enabled data).csr = w.csr := by
  unfold Work.storeReg
  extract_lets old vs u v
  have hu : u.csr = w.csr := (countClamps_parts who h.addr vs w).2.1
  clear_value u v
  split
  · exact (applyLinkCfg_csr ..).trans hu
  · split
    · exact hu
    · split <;> exact hu

theorem regWrite_csr (w : Work) (m : Master) (a : Nat) (wd : AccWidth) (be v : Nat) : (w.regWrite m a wd be v).csr = w.csr := by
  rw [Work.regWrite, Work.storeParts]
  generalize regParts (a / wd.bytes * wd.bytes) wd.bytes be v = ps
  induction ps generalizing w with
  | nil => rfl
  | cons p ps ih =>
    refine (ih _).trans ?_
    dsimp only
    split
    · exact storeReg_csr ..
    · rfl

/-! ### A field that a command sets last -/

section Last
variable (s : State) (w : Work) (a : Nat) {f : Fld} (x : Nat) (hf : f.lsb + f.width ≤ 32)
include hf

theorem lastWrite_setFld : lastWrite (w.setFld a f x).cw a = some ((w.setFld a f x).r32 a) := by
  simp only [Work.setFld, hf, if_true, Work.w32, Work.r32, lastWrite, if_true, Option.getD_some]

theorem commit_fld_set : (Work.commit s (w.setFld a f x)).look.fld a f = x % 2 ^ f.width := by
  have hword : (Work.commit s (w.setFld a f x)).look.r32 a = (w.setFld a f x).r32 a := by
    change Csr.read (Csr.writeAll s.csr (w.setFld a f x).cw) a = _
    rw [Csr.read_writeAll, lastWrite_setFld w a x hf, Option.getD_some]
  rw [fld_of_r32 hf hword, fld_setFld_self _ _ _ _ hf]

theorem commit_r32_setBeside {b : Nat} (hb : b ≠ a) : (Work.commit s (w.setFld a f x)).look.r32 b = (Work.commit s w).look.r32 b := by
  have hskip : lastWrite (w.setFld a f x).cw b = lastWrite w.cw b := by
    simp only [Work.setFld, hf, if_true, Work.w32, lastWrite, if_neg hb.symm]
  change Csr.read (Csr.writeAll s.csr (w.setFld a f x).cw) b = Csr.read (Csr.writeAll s.csr w.cw) b
  rw [Csr.read_writeAll, Csr.read_writeAll, hskip]

end Last

/-! ### The transitions of an entry (R361–R363) -/

theorem ctxRun_ne_ctxCtrl (x y : Nat) : Reg.SCH_CTX_RUN x ≠ Reg.SCH_CTX_CTRL y := by
  unfold Reg.SCH_CTX_RUN Reg.SCH_CTX_CTRL
  omega

theorem admitCtx_leaves (s : State) (w : Work) (x : Nat) : (Work.commit s (w.admitCtx x)).look.ctxState x = 1 ∧
    (Work.commit s (w.admitCtx x)).look.cons x = 0 := by
  rw [Work.admitCtx]
  refine ⟨commit_fld_set s _ _ 1 (by decide), ?_⟩
  rw [Work.cons, fld_of_r32 (by decide) (commit_r32_setBeside s _ _ 1 (by decide) (ctxRun_ne_ctxCtrl x x)), commit_fld_set s _ _ 0 (by decide)]
  rfl

section Hook
variable {w pre : Work} {who : ClampBy} {x : Nat}

theorem ctxCtrlHook_admit (hold : pre.ctxState x = 0) (hnew : w.ctxState x = 1) (n : Nat) : w.ctxCtrlHook pre who x n =
    (w.setFld (Reg.SCH_CTX_CTRL x) Fld.SCH_CTX_CTRL_STATE (pre.ctxState x)).admitCtx x := by
  rw [Work.ctxCtrlHook, hold, hnew]
  dsimp only
  rw [if_neg (by decide), if_pos ⟨rfl, rfl⟩]

theorem ctxCtrlHook_withdraw (hold : pre.ctxState x = 1 ∨ pre.ctxState x = 2) (hnew : w.ctxState x = 3) (n : Nat) : w.ctxCtrlHook pre who x n =
    (w.setFld (Reg.SCH_CTX_CTRL x) Fld.SCH_CTX_CTRL_STATE (pre.ctxState x)).withdrawCtx x := by
  rw [Work.ctxCtrlHook, hnew]
  dsimp only
  rw [if_neg (by omega), if_neg (by omega), if_pos ⟨hold, rfl⟩]

theorem ctxCtrlHook_free (hold : pre.ctxState x = 1 ∨ (pre.ctxState x = 3 ∧ w.isPlaced x = false)) (hnew : w.ctxState x = 0) (n : Nat) :
    w.ctxCtrlHook pre who x n = w := by
  rw [Work.ctxCtrlHook, hnew]
  dsimp only
  rw [if_neg (by omega), if_neg (by omega), if_neg (by omega)]
  exact if_pos ⟨rfl, hold.imp_right fun ⟨h, hplaced⟩ => ⟨h, by rw [hplaced]; rfl⟩⟩

theorem ctxCtrlHook_freeActive (hold : pre.ctxState x = 2) (hnew : w.ctxState x = 0) : w.ctxCtrlHook pre who x 0 =
    ((w.setFld (Reg.SCH_CTX_CTRL x) Fld.SCH_CTX_CTRL_STATE (pre.ctxState x)).clamp who (Reg.SCH_CTX_CTRL x) 0 0 .joined).schPend := by
  have hno : ¬ ((0 : Nat) = 0 ∧ ((2 : Nat) = 1 ∨ ((2 : Nat) = 3 ∧ (!w.isPlaced x) = true))) := by omega
  rw [Work.ctxCtrlHook, hnew, hold]
  dsimp only
  rw [if_neg (by decide), if_neg (by decide), if_neg (by decide), if_neg hno, if_pos rfl]

end Hook

theorem setBits_low_mod (v n x : Nat) : setBits v 0 n x % 2 ^ n = x % 2 ^ n := by
  have hfield := bits_setBits_self v 0 n x
  rwa [bits, Nat.shiftRight_zero] at hfield

section Entry
variable {m : Master} {x : CtxIx} {value : Word} {s : State} {v : Nat → Work} (hp : s.powered = true)
  (hv : ∀ n, s.look.regWrite m (Reg.SCH_CTX_CTRL x) .w32 15 n = v n)
include hp hv

theorem ctxAdmit_run (hold : s.look.ctxState x = 0) (hnew : (v value.toNat).ctxState x = 1) : exec (.ctxAdmit m x value) s =
    done s (((v value.toNat).setFld (Reg.SCH_CTX_CTRL x) Fld.SCH_CTX_CTRL_STATE (s.look.ctxState x)).admitCtx x) := by
  change execCtxAdmit m x value s = _
  refine runs hp ?_
  rw [if_pos hold, Work.ctxCtrlWrite, hv]
  exact ctxCtrlHook_admit hold hnew _

theorem ctxWithdraw_run (hold : s.look.ctxState x = 1 ∨ s.look.ctxState x = 2) (hnew : (v (setBits value.toNat 0 3 3)).ctxState x = 3) :
    exec (.ctxWithdraw m x value) s =
      done s (((v (setBits value.toNat 0 3 3)).setFld (Reg.SCH_CTX_CTRL x) Fld.SCH_CTX_CTRL_STATE (s.look.ctxState x)).withdrawCtx x) := by
  change execCtxWithdraw m x value s = _
  refine runs hp ?_
  rw [Work.ctxCtrlWrite, hv]
  exact ctxCtrlHook_withdraw hold hnew _

theorem ctxFree_run (hnew : (v (setBits value.toNat 0 3 0)).ctxState x = 0)
    (hold : s.look.ctxState x = 1 ∨ (s.look.ctxState x = 3 ∧ (v (setBits value.toNat 0 3 0)).isPlaced x = false)) :
    exec (.ctxFree m x value) s = done s (v (setBits value.toNat 0 3 0)) := by
  change execCtxFree m x value s = _
  refine runs hp ?_
  rw [Work.ctxCtrlWrite, hv]
  exact ctxCtrlHook_free hold hnew _

omit hp in
theorem ctxFree_state (hnew : (v (setBits value.toNat 0 3 0)).ctxState x = 0) :
    (Work.commit s (v (setBits value.toNat 0 3 0))).look.ctxState x = 0 := by
  have hcsr : (v (setBits value.toNat 0 3 0)).csr = s.csr := by
    rw [← hv]
    exact regWrite_csr ..
  exact (Machine.commit_fld s _ hcsr ..).trans hnew

theorem ctxFree_active (hnew : (v (setBits value.toNat 0 3 0)).ctxState x = 0) (hold : s.look.ctxState x = 2) :
    exec (.ctxFree m x value) s = done s ((((v (setBits value.toNat 0 3 0)).setFld (Reg.SCH_CTX_CTRL x) Fld.SCH_CTX_CTRL_STATE (s.look.ctxState x)).clamp
      (s.look.clampBy m) (Reg.SCH_CTX_CTRL x) 0 0 .joined).schPend) := by
  have hwritten : setBits value.toNat 0 3 0 % 8 = 0 := setBits_low_mod ..
  change execCtxFree m x value s = _
  refine runs hp ?_
  rw [Work.ctxCtrlWrite, hv, hwritten]
  exact ctxCtrlHook_freeActive hold hnew

end Entry

/-! ### Exits (R367, R368, R375) -/

section Exit
variable {c : CoreIx} {s : State}

/-- The core that asks to exit, with its code. -/
def Work.asksExit (w : Work) (c value : Nat) : Work :=
  { w with hw := { w.hw with exiting := SMap.put w.hw.exiting c (1 + value % 65536) } }

theorem schExit_other (h : Fin 2) (value : Word) : exec (.schExit (.host h) value) s = .next s := by
  change execSchExit (.host h) value s = _
  cases hp : s.powered with
  | false => exact run_unpowered s _ hp
  | true =>
    rw [← done_look_self s]
    refine runs hp ?_
    rw [Work.when, show s.look.schExit (.host h) value.toNat = s.look from rfl, ite_self]

variable {x : Nat} (hp : s.powered = true) (htakes : s.look.regTakes Reg.SCH_EXIT = true) (hplaced : s.look.placedCtx c = some x)
include hp htakes hplaced

theorem schExit_asks {value : Word} (hstate : s.look.ctxState x = 2) (hexited : exitKey x (coreGlobal c) ∉ s.hw.exited) :
    exec (.schExit (.cell c 0) value) s = done s (s.look.asksExit c value.toNat) := by
  have hin : (!s.look.hw.exited.contains (exitKey x (coreGlobal c))) = true := by
    rw [Bool.not_eq_true', ← Bool.not_eq_true, List.contains_iff_mem]
    exact hexited
  change execSchExit (.cell c 0) value s = _
  refine runs hp ?_
  rw [Work.when, htakes, if_pos rfl, Work.schExit]
  dsimp only
  rw [hplaced]
  exact if_pos ⟨rfl, hstate, hin⟩

theorem schExit_ignored {value : Word} (hno : s.look.ctxState x ≠ 2 ∨ exitKey x (coreGlobal c) ∈ s.hw.exited) :
    exec (.schExit (.cell c 0) value) s = .next s := by
  rw [← done_look_self s]
  change execSchExit (.cell c 0) value s = _
  refine runs hp ?_
  rw [Work.when, htakes, if_pos rfl, Work.schExit]
  dsimp only
  rw [hplaced]
  refine if_neg ?_
  rintro ⟨-, hstate, hin⟩
  rcases hno with h | h
  · exact h hstate
  · rw [Bool.not_eq_true', ← Bool.not_eq_true, List.contains_iff_mem] at hin
    exact hin h

end Exit

/-- The core without its context's link and bank contents. -/
def Work.emptied (w : Work) (c : Nat) : Work :=
  w.updCore c fun k => { k with
    links := k.links.map fun l => (l.1, { l.2 with full0 := false, full1 := false, prod := 0, cons := 0 })
    mtx := { k.mtx with bank0 := { k.mtx.bank0 with state := .empty }, bank1 := { k.mtx.bank1 with state := .empty }, closed := [] } }

/-- The context of an exiting core is saved and taken off, and its launch is one core nearer its end. -/
def Work.exits (w : Work) (c x code : Nat) : Work :=
  let g := coreGlobal c
  let w := (w.forEach (List.range 15) fun w i => w.applyLinkCfg c i).setFld (Reg.SCH_CORE g) Fld.SCH_CORE_EXIT_CODE (code - 1)
  let w := (w.switchOut c x true).exitPhase x g
  let w : Work := { w with hw := { w.hw with exiting := SMap.del w.hw.exiting c, exited := exitKey x g :: w.hw.exited } }
  let r := Reg.SCH_CTX_RUN x
  (w.setFld r Fld.SCH_CTX_RUN_LEFT (w.fld r Fld.SCH_CTX_RUN_LEFT - 1)).launchEnds x

theorem exitFinish_run {c : CoreIx} {s : State} {code x : Nat} (hp : s.powered = true) (hexiting : SMap.find? s.hw.exiting c = some code)
    (hplaced : s.look.placedCtx c = some x) (hup : s.look.coreUp c = true) (hdrained : (s.look.core c).drained = true)
    (hhalt : (s.look.core c).halt = .none) (hopen : s.look.openStep c = false) : exec (.exitFinish c) s =
      done s (if ((s.look.emptied c).exits c x code).schOn then ((s.look.emptied c).exits c x code).placeNext c
        else (s.look.emptied c).exits c x code) := by
  have hlook : SMap.find? s.look.hw.exiting c = some code := hexiting
  change execExitFinish c s = _
  refine runs hp ?_
  dsimp only
  rw [hlook, hplaced]
  dsimp only
  rw [hup, hdrained, decide_eq_true hhalt, hopen]
  rfl

/-- Settles O34: each write is one transition of the entry; an exit marks its core, and the exit's end is the chain that the rule names. -/
theorem schContexts : Obligations.SchContexts := by
  unfold Obligations.SchContexts
  refine ⟨fun m x value s => ?_, fun c value s => ⟨fun x ⟨hp, htakes, hplaced⟩ => ?_, fun h => schExit_other h value, fun code x h => ?_⟩⟩
  · intro w a old v n3 n0 back hp
    have hv : ∀ n, s.look.regWrite m (Reg.SCH_CTX_CTRL x) .w32 15 n = v n := fun n => rfl
    exact ⟨fun ⟨hold, hnew⟩ => ⟨ctxAdmit_run hp hv hold hnew, _, ctxAdmit_run hp hv hold hnew, admitCtx_leaves ..⟩,
      fun ⟨hold, hnew⟩ => ctxWithdraw_run hp hv hold hnew,
      fun ⟨hnew, hold⟩ => ⟨ctxFree_run hp hv hnew hold, _, ctxFree_run hp hv hnew hold, ctxFree_state (value := value) hv hnew⟩,
      fun ⟨hnew, hold⟩ => ctxFree_active hp hv hnew hold⟩
  · exact ⟨fun ⟨hstate, hexited⟩ => ⟨_, schExit_asks hp htakes hplaced hstate hexited, SMap.find?_put_self .., fun d hd => SMap.find?_put_other _ _ hd,
      sameBytes_of rfl rfl rfl, sameWords_of rfl rfl, rfl, rfl⟩, fun hno => schExit_ignored hp htakes hplaced hno⟩
  · obtain ⟨hp, hexiting, hplaced, hup, hdrained, hhalt, hopen⟩ := h
    exact exitFinish_run hp hexiting hplaced hup hdrained hhalt hopen

end Sys2Proof.Machine
end

section
/-! PROOFS. Work rings and the scheduler's decisions (R365–R368, R372–R376). -/

namespace Sys2Proof.Machine

/-! ### Work rings (R365–R368) -/

section Ring
variable {x : CtxIx} {s : State} (hp : s.powered = true) (hon : s.look.schOn = true) (hidle : s.look.ctxState x = 1)
include hp hon hidle

omit hp in
/-- The scheduler's turn to read: an IDLE context with an entry that has not been read. -/
theorem ringTurn (hentry : s.look.producer x ≠ s.look.cons x) (hnone : SMap.find? s.hw.ringEntries x = none) :
    (s.look.schOn && decide (s.look.ctxState x = 1) && decide (s.look.producer x ≠ s.look.cons x) && (SMap.find? s.look.hw.ringEntries x).isNone) = true := by
  have hlook : SMap.find? s.look.hw.ringEntries x = none := hnone
  rw [hon, decide_eq_true hidle, decide_eq_true hentry, hlook]
  rfl

theorem ringEntryRead_good {bytes : List Byte} {v : Work} (hentry : s.look.producer x ≠ s.look.cons x) (hnone : SMap.find? s.hw.ringEntries x = none)
    (hread : s.look.unitRead (s.look.ringAt x) 64 = (some bytes, v)) {k : Clamping}
    (hk : (((⟨v, BitVec.ofNat 512 (leNat bytes), .program x, some (s.look.ringAt x)⟩ : Clamping).field 0 0 4 (Legal.take 2 15 1).apply).field 4 0 24
      (Legal.align 256).apply).field 5 0 24 (Legal.align 4).apply = k) :
    exec (.ringEntryRead x) s = done s { k.work with hw := { k.work.hw with ringEntries := SMap.put k.work.hw.ringEntries x k.cmd } } := by
  change execRingEntryRead x s = _
  refine runs hp ?_
  dsimp only
  rw [if_pos (ringTurn hon hidle hentry hnone), hread]
  dsimp only
  rw [hk]

theorem ringEntryRead_bad {v : Work} (hentry : s.look.producer x ≠ s.look.cons x) (hnone : SMap.find? s.hw.ringEntries x = none)
    (hread : s.look.unitRead (s.look.ringAt x) 64 = (none, v)) : exec (.ringEntryRead x) s = done s (v.fault
      { kind := 0x03, level := 3, lasting := true, ctx := some x, die := 28, unit := 13, core := 0, gen := v.hw.genChip, tag := 0
        addr := some (s.look.ringAt x, false), detail := 0 }) := by
  change execRingEntryRead x s = _
  refine runs hp ?_
  dsimp only
  rw [if_pos (ringTurn hon hidle hentry hnone), hread]

omit hp in
theorem ringHeld_entry {e : CmdBits} {kind : Nat} (hentry : SMap.find? s.hw.ringEntries x = some e) (hkind : ringKind e = kind) :
    s.look.ringHeld x kind = some e := by
  have hlook : SMap.find? s.look.hw.ringEntries x = some e := hentry
  rw [Work.ringHeld, hlook]
  dsimp only
  rw [hon, decide_eq_true hidle, decide_eq_true hkind]
  rfl

theorem ringNop_run {e : CmdBits} (hentry : SMap.find? s.hw.ringEntries x = some e) (hkind : ringKind e = 0) :
    exec (.ringNop x) s = done s (s.look.consume x e) := by
  change execRingNop x s = _
  refine runs hp ?_
  rw [ringHeld_entry hon hidle hentry hkind]

/-- The exits of a context's earlier launch are forgotten. -/
def Work.noExits (w : Work) (x : Nat) : Work := { w with hw := { w.hw with exited := w.hw.exited.filter fun k => decide (k / 256 ≠ x) } }

theorem ringLaunch_run {e : CmdBits} (hentry : SMap.find? s.hw.ringEntries x = some e) (hkind : ringKind e = 1) {cores : List Nat}
    (hcores : ((List.range 256).filter fun g => s.look.ctxMask x g) = cores) :
    exec (.ringLaunch x) s = done s (((((((s.look.clearSlots x false).digestStart x cores).noExits x).startVt x).setFld (Reg.SCH_CTX_CTRL x)
      Fld.SCH_CTX_CTRL_STATE 2).setFld (Reg.SCH_CTX_RUN x) Fld.SCH_CTX_RUN_LEFT (cores.filter fun g => !s.look.coreDisabled (globalSlot g)).length).launchEnds
        x).schPend := by
  have hleft : ((List.range 256).filter fun g => s.look.ctxMask x g && !s.look.coreDisabled (globalSlot g)) =
      cores.filter fun g => !s.look.coreDisabled (globalSlot g) := by
    rw [← hcores, List.filter_filter]
    exact List.filter_congr fun g _ => Bool.and_comm ..
  change execRingLaunch x s = _
  refine runs hp ?_
  rw [ringHeld_entry hon hidle hentry hkind]
  dsimp only
  rw [hleft, hcores]
  generalize (s.look.clearSlots x false).digestStart x cores = u
  generalize (cores.filter fun g => !s.look.coreDisabled (globalSlot g)).length = left
  rw [Work.noExits]

end Ring

/-! ### Decisions (R372–R376) -/

theorem noteConflict_none {w : Work} {g y : Nat} (hfirst : w.firstOf (w.readyOn g) = some y) (hfree : w.wsConflict y g = false) : w.noteConflict g = w := by
  unfold Work.noteConflict
  split
  · next x hx =>
    obtain rfl : x = y := Option.some.inj (hx.symm.trans hfirst)
    exact if_neg (ne_true_of_eq_false hfree)
  · rfl

/-- An idle core that no gang has reserved takes the next context. -/
theorem placeNext_first {w : Work} {c y : Nat} (hfree : w.flag (Reg.SCH_CORE (coreGlobal c)) Fld.SCH_CORE_RESERVED = false)
    (hnext : w.nextCtx (coreGlobal c) = some y) (hgang : w.isGang y = false) (hfirst : w.firstOf (w.readyOn (coreGlobal c)) = some y)
    (hconflict : w.wsConflict y (coreGlobal c) = false) : w.placeNext c = (w.place_ c y).schPend := by
  rw [Work.placeNext, if_neg (ne_true_of_eq_false hfree), noteConflict_none hfirst hconflict]
  dsimp only
  rw [hnext]
  dsimp only
  rw [if_neg (ne_true_of_eq_false hgang)]

/-- Whether a context is ready on a core, and whether another holds a granule of its working set, does not depend on SCH_STATUS. -/
theorem ready_of_schStatus {w v : Work} (h : w.words (· = Reg.SCH_STATUS) v) (x g : Nat) : v.ready x g = w.ready x g := by
  have hfld {a : Nat} {f : Fld} (hf : f.lsb + f.width ≤ 32) (ha : a ≠ Reg.SCH_STATUS) : v.fld a f = w.fld a f := h.fld_eq hf ha
  have hflag {a : Nat} {f : Fld} (hf : f.lsb + f.width ≤ 32) (ha : a ≠ Reg.SCH_STATUS) : v.flag a f = w.flag a f := h.flag_eq hf ha
  have hstate : v.ctxState x = w.ctxState x := hfld (by decide) (by
    unfold Reg.SCH_CTX_CTRL Reg.SCH_STATUS
    omega)
  have hmask : v.ctxMask x g = w.ctxMask x g := by
    rw [Work.ctxMask, Work.ctxMask, h.r64_eq] <;>
    · unfold Reg.SCH_CTX_MASK Reg.SCH_STATUS
      omega
  have hphys (c : Nat) : v.physIx c = w.physIx c := by rw [Work.physIx, Work.physIx, Work.physOf, Work.physOf, h.hw]
  have hregion (r : Nat) : v.regionDisabled r = w.regionDisabled r := hflag (by decide) (by
    unfold Reg.ERR_ESC_REGION Reg.SCH_STATUS
    omega)
  have hcore (c : Nat) : v.coreDisabled c = w.coreDisabled c := by
    rw [Work.coreDisabled, Work.coreDisabled, hregion, hphys, hflag (by decide) (by
      unfold Reg.ERR_ESC_CORE Reg.SCH_STATUS
      omega)]
  rw [Work.ready, Work.ready, hstate, hmask, hcore, h.hw]

theorem wsConflict_of_schStatus {w v : Work} (h : w.words (· = Reg.SCH_STATUS) v) (x g : Nat) : v.wsConflict x g = w.wsConflict x g := by
  have hspm {f : Fld} (hf : f.lsb + f.width ≤ 32) : v.fld (Reg.SCH_CTX_SPM x) f = w.fld (Reg.SCH_CTX_SPM x) f := h.fld_eq hf (by
    unfold Reg.SCH_CTX_SPM Reg.SCH_STATUS
    omega)
  have hcount : v.wsCount x = w.wsCount x := hspm (by decide)
  have hfirst : v.wsFirst x = w.wsFirst x := hspm (by decide)
  have hheld (n : Nat) : v.heldByOther x g n = w.heldByOther x g n := by rw [Work.heldByOther, Work.heldByOther, h.hw]
  rw [Work.wsConflict, Work.wsConflict, Work.wsGranules, Work.wsGranules, hcount, hfirst]
  exact congrArg (List.any _) (funext hheld)

section Decisions
variable {c : CoreIx} {s : State} {x : Nat} (hp : s.powered = true)
include hp

theorem quantumExpire_leaves {y : Nat} (hplaced : s.look.placedCtx c = some x) (hon : s.look.schOn = true) (hc : coreSlot c < 16)
    (hready : y ∈ s.look.readyOn (coreGlobal c)) (hother : y ≠ x) (hprio : s.look.prio x ≤ s.look.prio y) :
    goesTo (exec (.quantumExpire c) s) fun t => t.look.flag (Reg.SCH_CORE (coreGlobal c)) Fld.SCH_CORE_PENDING = true ∧
      onlyWords [Reg.SCH_CORE (coreGlobal c)] s t := by
  have hwaits : ((s.look.readyOn (coreGlobal c)).any fun y => decide (y ≠ x) && decide (s.look.prio x ≤ s.look.prio y)) = true :=
    List.any_eq_true.mpr ⟨y, hready, by rw [decide_eq_true hother, decide_eq_true hprio]; rfl⟩
  have hrun : exec (.quantumExpire c) s = done s (s.look.setFlag (Reg.SCH_CORE (coreGlobal c)) Fld.SCH_CORE_PENDING true) := by
    change execQuantumExpire c s = _
    refine runs hp ?_
    rw [hplaced]
    dsimp only
    rw [hon, decide_eq_true hc, hwaits]
    exact if_pos rfl
  have hwords : s.look.words (· = Reg.SCH_CORE (coreGlobal c)) (s.look.setFlag (Reg.SCH_CORE (coreGlobal c)) Fld.SCH_CORE_PENDING true) :=
    .at_ s.look (f := Fld.SCH_CORE_PENDING) 1 (by decide)
  exact ⟨_, hrun, (hwords.commit_flag ..).trans (flag_setFlag_self _ true (by decide) rfl), hwords.onlyWords fun a ha => List.mem_singleton.mpr ha⟩

theorem contextPlace_run (hon : s.look.schOn = true) (hidle : s.look.coreIdle c = true) : exec (.contextPlace c) s = done s (s.look.placeNext c) := by
  change execContextPlace c s = _
  refine runs hp ?_
  rw [hon, hidle]
  exact if_pos rfl

theorem gangForm_run (hnext : s.look.nextCtx (coreGlobal c) = some x) (hon : s.look.schOn = true) (hc : coreSlot c < 16) (hgang : s.look.isGang x = true)
    (hforming : s.look.flag Reg.SCH_STATUS Fld.SCH_STATUS_FORMING = false) (hplaced : s.look.placedCtx c ≠ some x) : exec (.gangForm c) s =
      done s (((s.look.setFlag Reg.SCH_STATUS Fld.SCH_STATUS_FORMING true).setFld Reg.SCH_STATUS Fld.SCH_STATUS_GANG_CTX x).forEach
        ((List.range 256).filter fun g => s.look.ready x g && !s.look.wsConflict x g) fun w g =>
          (w.setFlag (Reg.SCH_CORE g) Fld.SCH_CORE_RESERVED true).setFlag (Reg.SCH_CORE g) Fld.SCH_CORE_PENDING true) := by
  obtain ⟨v, hv⟩ : ∃ v, (s.look.setFlag Reg.SCH_STATUS Fld.SCH_STATUS_FORMING true).setFld Reg.SCH_STATUS Fld.SCH_STATUS_GANG_CTX x = v := ⟨_, rfl⟩
  have hwords : s.look.words (· = Reg.SCH_STATUS) v := by
    rw [← hv]
    exact .trans (.at_ s.look (f := Fld.SCH_STATUS_FORMING) 1 (by decide)) (.at_ _ (f := Fld.SCH_STATUS_GANG_CTX) x (by decide))
  have hcores : ((List.range 256).filter fun g => v.ready x g && !v.wsConflict x g) =
      (List.range 256).filter fun g => s.look.ready x g && !s.look.wsConflict x g :=
    List.filter_congr fun g _ => by rw [ready_of_schStatus hwords, wsConflict_of_schStatus hwords]
  change execGangForm c s = _
  refine runs hp ?_
  dsimp only
  rw [hnext]
  dsimp only
  rw [hon, decide_eq_true hc, hgang, hforming, decide_eq_true hplaced, hv, hcores]
  exact if_pos rfl

theorem gangPlace_run (hon : s.look.schOn = true) (hforming : s.look.flag Reg.SCH_STATUS Fld.SCH_STATUS_FORMING = true) {cores : List Nat}
    (hcores : ((List.range 256).filter fun g => s.look.flag (Reg.SCH_CORE g) Fld.SCH_CORE_RESERVED) = cores)
    (hready : ∀ g ∈ cores, s.look.coreIdle (globalSlot g) = true ∨ s.look.coreDisabled (globalSlot g) = true)
    (hx : s.look.fld Reg.SCH_STATUS Fld.SCH_STATUS_GANG_CTX = x) : exec .gangPlace s =
      done s (((s.look.forEach cores fun w g =>
        let u := (w.setFlag (Reg.SCH_CORE g) Fld.SCH_CORE_RESERVED false).setFlag (Reg.SCH_CORE g) Fld.SCH_CORE_PENDING false
        if u.ready x g then u.place_ (globalSlot g) x else u).setFlag Reg.SCH_STATUS Fld.SCH_STATUS_FORMING false).schPend) := by
  have hall : (cores.all fun g => s.look.coreIdle (globalSlot g) || s.look.coreDisabled (globalSlot g)) = true :=
    List.all_eq_true.mpr fun g hg => Bool.or_eq_true_iff.mpr (hready g hg)
  change execGangPlace s = _
  refine runs hp ?_
  dsimp only
  rw [hcores, hx, hon, hforming, hall]
  exact if_pos rfl

theorem schOverdue_run (hplaced : s.look.placedCtx c = some x) (hclocked : s.look.clocked = true) (hc : coreSlot c < 16)
    (hpending : s.look.flag (Reg.SCH_CORE (coreGlobal c)) Fld.SCH_CORE_PENDING = true)
    (hoverdue : s.look.flag (Reg.SCH_CORE (coreGlobal c)) Fld.SCH_CORE_OVERDUE = false) : exec (.schOverdue c) s =
      done s ((s.look.setFlag (Reg.SCH_CORE (coreGlobal c)) Fld.SCH_CORE_OVERDUE true).schFault x (coreGlobal c) 1 0x21 Fld.SCH_ERR_STAT_OVERDUE) := by
  change execSchOverdue c s = _
  refine runs hp ?_
  dsimp only
  rw [hplaced]
  dsimp only
  rw [hclocked, decide_eq_true hc, hpending, hoverdue]
  exact if_pos rfl

end Decisions

/-- Settles O35: each command runs the branch that its premises single out; a gang's cores are chosen on words that forming does not change. -/
theorem schRingsAndDecisions : Obligations.SchRingsAndDecisions := by
  unfold Obligations.SchRingsAndDecisions
  refine ⟨fun x s => ?_, fun c s => ?_⟩
  · intro w turn cores
    exact ⟨fun bytes v ⟨⟨hp, hon, hidle⟩, hentry, hnone, hread⟩ => ringEntryRead_good hp hon hidle hentry hnone hread rfl,
      fun v ⟨⟨hp, hon, hidle⟩, hentry, hnone, hread⟩ => ringEntryRead_bad hp hon hidle hentry hnone hread,
      fun e ⟨⟨hp, hon, hidle⟩, hentry, hkind⟩ => ringNop_run hp hon hidle hentry hkind,
      fun e ⟨⟨hp, hon, hidle⟩, hentry, hkind⟩ => ringLaunch_run hp hon hidle hentry hkind rfl⟩
  · intro w g sc st
    exact ⟨fun x y ⟨hp, hplaced, hon, hc, hready, hother, hprio⟩ => quantumExpire_leaves hp hplaced hon hc hready hother hprio,
      fun ⟨hp, hon, hidle⟩ => contextPlace_run hp hon hidle,
      fun y ⟨hp, hon, hidle, hfree, hnext, hgang, hfirst, hconflict⟩ =>
        (contextPlace_run hp hon hidle).trans (congrArg (done s) (placeNext_first hfree hnext hgang hfirst hconflict)),
      fun x ⟨hp, hnext, hon, hc, hgang, hforming, hplaced⟩ => gangForm_run hp hnext hon hc hgang hforming hplaced,
      fun ⟨hp, hon, hforming, hready⟩ => gangPlace_run hp hon hforming rfl hready rfl,
      fun x ⟨hp, hplaced, hclocked, hc, hpending, hoverdue⟩ => schOverdue_run hp hplaced hclocked hc hpending hoverdue⟩

end Sys2Proof.Machine
end

section
/-! SUPPORT. What the accesses of a unit inside the chip, and the recording of an external input, leave of a core (R274, R283, R438, R522). -/

namespace Sys2Proof.Machine

/-- A register word outside the window of core slot c. -/
def offCore (c a : Nat) : Prop := a < coreWindow c ∨ coreWindow c + 0x1000000 ≤ a

theorem offCore_of_beyond {c a : Nat} (hc : c < 272) (h : beyondCores a) : offCore c a := by
  simp only [beyondCores, offCore, coreWindow, dieWindow] at h ⊢
  omega

/-- A word of a region's memory block. -/
theorem offCore_memory (c r : Nat) {k : Nat} (hk : k < 0x10000) : offCore c (dieWindow r + 0x20000000 + k) := by
  simp only [offCore, coreWindow, dieWindow]
  omega

/-- A word of a capacity-port die. -/
theorem offCore_capacity {c : Nat} (hc : c < 272) (d k : Nat) : offCore c (dieWindow (24 + d) + k) := by
  simp only [offCore, coreWindow, dieWindow]
  omega

/-- The operation from w to w' leaves every core slot, and the register words of core slot c. -/
def Work.besideCore (c : Nat) (w w' : Work) : Prop := w.writes (fun _ => True) (offCore c) noCore w'

namespace Work.besideCore

variable {c : Nat} {u v w : Work}

theorem refl (c : Nat) (w : Work) : Work.besideCore c w w := Work.writes.refl ..

theorem trans (h : Work.besideCore c u v) (h' : Work.besideCore c v w) : Work.besideCore c u w := Work.writes.trans h h'

theorem of_touches (h : u.touches (offCore c) noCore v) : Work.besideCore c u v := h.writes _

theorem of_hw (hmem : v.mem = u.mem) (hcsr : v.csr = u.csr) (hwr : v.wr = u.wr) (hcw : v.cw = u.cw) (hwild : v.hw.wild = u.hw.wild)
    (hcores : v.hw.cores = u.hw.cores) : Work.besideCore c u v := Work.writes.of_hw hmem hcsr hwr hcw hwild hcores

theorem wrB (w : Work) (a : Nat) (x : Byte) : Work.besideCore c w (w.wrB a x) := Work.writes.wrB w x trivial

theorem foldl {α β : Type} (get : β → Work) {f : β → α → β} (l : List α) (h : ∀ k : β, ∀ x ∈ l, Work.besideCore c (get k) (get (f k x))) (k : β) :
    Work.besideCore c (get k) (get (l.foldl f k)) := Work.writes.foldl get l h k

theorem forEach {α : Type} {f : Work → α → Work} (l : List α) (h : ∀ (u : Work) (x : α), Work.besideCore c u (f u x)) (w : Work) :
    Work.besideCore c w (w.forEach l f) := foldl id l (fun u x _ => h u x) w

end Work.besideCore

/-! ### Answers -/

theorem answerHost_touches (w : Work) (q : Req) (port tag : Nat) (bad : ReqBad) : w.touches beyondCores noCore (w.answerHost q port tag bad) := by
  have hbytes : beyondCores (Reg.HUB_TX_BYTES port) := by
    simp only [beyondCores, Reg.HUB_TX_BYTES, dieWindow]
    omega
  unfold Work.answerHost
  split
  · dsimp only
    exact (Work.touches.w64 w _ hbytes (beyondCores_add hbytes 4)).trans (.of_hw rfl rfl rfl rfl rfl rfl)
  · exact .refl ..

/-- An answer changes requests, completions and ports, and registers behind the compute dies. -/
theorem answer_touches (w : Work) (i : Nat) (bad : ReqBad) : w.touches beyondCores noCore (w.answer i bad) := by
  have hset (q : Req) : w.touches beyondCores noCore (w.setReq i q) := .of_hw rfl rfl rfl rfl rfl rfl
  have hdrop : w.touches beyondCores noCore (w.dropReq i) := .of_hw rfl rfl rfl rfl rfl rfl
  unfold Work.answer
  split
  · dsimp only
    split
    · split
      · exact hset _
      · exact hdrop
    · exact hdrop.trans (answerHost_touches ..)
    · exact hdrop.trans (place_sends ..).touches
    · exact hset _
  · exact .refl ..

section Memory
variable {c : Nat} (hc : c < 272)
include hc

theorem answer_besideCore (w : Work) (i : Nat) (bad : ReqBad) : Work.besideCore c w (w.answer i bad) :=
  .of_touches ((answer_touches w i bad).mono (fun _ => offCore_of_beyond hc) fun _ => id)

/-! ### One access -/

theorem accessDone_besideCore (w : Work) (a : Access) (bad : ReqBad) : Work.besideCore c w (w.accessDone a bad) := by
  have hset (u : Work) (i : Nat) (q : Req) : Work.besideCore c u (u.setReq i q) := .of_hw rfl rfl rfl rfl rfl rfl
  unfold Work.accessDone
  split
  · exact .refl ..
  · split
    · exact .refl ..
    · dsimp only
      split
      · split
        · exact (hset ..).trans (answer_besideCore hc ..)
        · exact hset ..
      · exact .refl ..

omit hc in
theorem accessData_besideCore (w : Work) (a : Access) (bytes : List Byte) : Work.besideCore c w (w.accessData a bytes) := by
  unfold Work.accessData
  split
  · exact .refl ..
  · unfold Work.updReq
    split
    · exact .of_hw rfl rfl rfl rfl rfl rfl
    · exact .refl ..

theorem chErrInfo_besideCore (w : Work) (ch kind dpa : Nat) (ctx : Option Nat) : Work.besideCore c w (w.chErrInfo ch kind dpa ctx) := by
  refine .of_touches ?_
  unfold Work.chErrInfo
  dsimp only
  split
  · exact (Work.touches.w32 w _ (offCore_capacity hc ..)).trans (.w64 _ _ (offCore_capacity hc ..) (by
      rw [Reg.CAP_ERR_ADDR, Nat.add_assoc]
      exact offCore_capacity hc ..))
  · exact (Work.touches.w32 w _ (offCore_memory _ _ (by decide))).trans (.w64 _ _ (offCore_memory _ _ (by decide)) (by
      rw [Reg.MEM_ERR_ADDR, Nat.add_assoc]
      exact offCore_memory _ _ (by decide)))

theorem bumpCapacity_besideCore (w : Work) (d k n : Nat) : Work.besideCore c w (w.bump (dieWindow (24 + d) + k) n) :=
  .of_touches (.bump w n (offCore_capacity hc ..) (by
    rw [Nat.add_assoc]
    exact offCore_capacity hc ..))

omit hc in
theorem bumpMemory_besideCore (w : Work) (r n : Nat) {k : Nat} (hk : k + 4 < 0x10000) : Work.besideCore c w (w.bump (dieWindow r + 0x20000000 + k) n) :=
  .of_touches (.bump w n (offCore_memory _ _ (by omega)) (by
    rw [Nat.add_assoc]
    exact offCore_memory _ _ hk))

omit hc in
theorem bumpChannel_besideCore (w : Work) (r n : Nat) {i k a : Nat} (hi : i < 64) (hk : k < 0x40)
    (ha : a = dieWindow r + 0x20000000 + (0x1000 + k) + 64 * i) : Work.besideCore c w (w.bump a n) := by
  have hplace : a = dieWindow r + 0x20000000 + (0x1000 + k + 64 * i) := by omega
  rw [hplace]
  exact bumpMemory_besideCore w r n (by omega)

theorem chanCount_besideCore (w : Work) (ch : Nat) (a : Access) (act : Bool) : Work.besideCore c w (w.chanCount ch a act) := by
  have hi : ch % 64 < 64 := Nat.mod_lt _ (by decide)
  have hchan (u : Work) (f : Chan → Chan) : Work.besideCore c u (u.updChan ch f) := .of_hw rfl rfl rfl rfl rfl rfl
  have hcap (u : Work) (d q n k : Nat) : Work.besideCore c u (u.bump (dieWindow (24 + d) + (0x1000 + k) + 64 * q) n) := by
    rw [Nat.add_assoc]
    exact bumpCapacity_besideCore hc ..
  have hcapBytes (u : Work) (d q n : Nat) (b : Bool) : Work.besideCore c u (u.bump (if b then Reg.CAP_P_WR d q else Reg.CAP_P_RD d q) n) := by
    split
    · exact hcap u d q n 8
    · exact hcap u d q n 0
  have hbytes (u : Work) (r n : Nat) (b : Bool) :
      Work.besideCore c u (u.bump (if b then Reg.MEM_CH_WR r (ch % 64) else Reg.MEM_CH_RD r (ch % 64)) n) := by
    split
    · exact bumpChannel_besideCore u r n hi (k := 0x10) (by decide) rfl
    · exact bumpChannel_besideCore u r n hi (k := 0x8) (by decide) rfl
  have hbusy (u : Work) (r n : Nat) : Work.besideCore c u (u.bump (Reg.MEM_CH_BUSY r (ch % 64)) n) :=
    bumpChannel_besideCore u r n hi (k := 0x30) (by decide) rfl
  have hact (u : Work) (r n : Nat) : Work.besideCore c u (u.bump (Reg.MEM_CH_ACT r (ch % 64)) n) :=
    bumpChannel_besideCore u r n hi (k := 0x18) (by decide) rfl
  have hturn (u : Work) (r n : Nat) : Work.besideCore c u (u.bump (Reg.MEM_CH_TURN r (ch % 64)) n) :=
    bumpChannel_besideCore u r n hi (k := 0x20) (by decide) rfl
  unfold Work.chanCount
  dsimp only
  split
  · exact ((hchan ..).trans (hcapBytes ..)).trans (hcap _ _ _ _ 0x10)
  · exact ((((hchan ..).trans (hbytes ..)).trans (hbusy ..)).trans (hact ..)).trans (hturn ..)

theorem writeCrumb_besideCore (w : Work) (ch k : Nat) (a : Access) : Work.besideCore c w (w.writeCrumb ch k a .clean).1 := by
  have hput (u : Work) : Work.besideCore c u ((a.crumbBytes k).foldl (fun w e => w.wrB e.1 e.2) u) :=
    Work.besideCore.foldl id _ (fun u e _ => .wrB u e.1 e.2) u
  have hpoison (u : Work) (b : Bool) : Work.besideCore c u (u.setPoison k b) := .of_hw rfl rfl rfl rfl rfl rfl
  have hflag (u : Work) : Work.besideCore c u (u.setFlag (chErrStat ch) Fld.MEM_ERR_STAT_POISON_WRITE true) := by
    refine .of_touches (.setFld32 u _ (by decide) ?_)
    unfold chErrStat
    split
    · exact offCore_capacity hc ..
    · exact offCore_memory _ _ (by decide)
  unfold Work.writeCrumb
  dsimp only
  split
  · exact hpoison ..
  · split
    · exact (hpoison ..).trans (hput _)
    · split
      · exact .refl ..
      · split
        · exact hput _
        · split
          · exact (hflag _).trans (chErrInfo_besideCore hc ..)
          · rw [show w.readCheck ch k a .clean = (w, true) from rfl]
            dsimp only
            rw [if_pos rfl]
            exact hput _

theorem accessRead_besideCore (w : Work) (a : Access) (bad : List Nat) : Work.besideCore c w (w.accessRead a bad) := by
  unfold Work.accessRead
  split
  · exact (accessData_besideCore ..).trans (accessDone_besideCore hc ..)
  · have hdraw : Work.besideCore c w w.draw.2 := .of_hw rfl rfl rfl rfl rfl rfl
    unfold Work.draw at hdraw ⊢
    dsimp only at hdraw ⊢
    exact hdraw.trans ((accessData_besideCore ..).trans (accessDone_besideCore hc ..))

theorem performDram_besideCore (w : Work) (ch : Nat) (a : Access) (which : Nat) : Work.besideCore c w (w.performDram ch a which .clean) := by
  unfold Work.performDram
  extract_lets u event
  have hclean (k : Nat) : event k = .clean := ite_self _
  have hu : Work.besideCore c w u := chanCount_besideCore hc ..
  clear_value u event
  refine hu.trans ?_
  split
  · dsimp only
    have hwrite := Work.besideCore.foldl (c := c) (f := fun (st : Work × Bool) k =>
      ((st.1.writeCrumb ch k a (event k)).1, st.2 && (st.1.writeCrumb ch k a (event k)).2)) Prod.fst a.crumbList (fun st k _ => by
        dsimp only
        rw [hclean]
        exact writeCrumb_besideCore hc ..) (u, true)
    split
    · exact hwrite
    · exact hwrite.trans (accessDone_besideCore hc ..)
  · dsimp only
    refine Work.besideCore.trans ?_ (accessRead_besideCore hc ..)
    refine Work.besideCore.foldl (c := c) Prod.fst a.crumbList (fun st k _ => ?_) (u, [])
    split
    · dsimp only
      split
      · exact chErrInfo_besideCore hc ..
      · exact .refl ..
    · rw [hclean]
      exact .refl ..

theorem performAccess_besideCore (w : Work) (ch : Nat) (a : Access) (which : Nat) : Work.besideCore c w (w.performAccess ch a which .clean) := by
  unfold Work.performAccess Work.performFailed
  split
  · split
    · exact accessRead_besideCore hc ..
    · split
      · exact .refl ..
      · exact accessDone_besideCore hc ..
  · split
    · exact performDram_besideCore hc ..
    · exact performDram_besideCore hc ..

/-! ### Accesses of units, and external inputs -/

theorem drainChannel_besideCore (w : Work) (ch lo hi : Nat) : Work.besideCore c w (w.drainChannel ch lo hi) := by
  unfold Work.drainChannel
  dsimp only
  split
  · exact .refl ..
  · have hchan (f : Chan → Chan) : Work.besideCore c w (w.updChan ch f) := .of_hw rfl rfl rfl rfl rfl rfl
    exact (hchan _).trans (.forEach _ (fun u a => performAccess_besideCore hc u ch a 0) _)

theorem drain_besideCore (w : Work) (lo n : Nat) : Work.besideCore c w (w.drain lo n) := by
  unfold Work.drain
  split
  · exact .refl ..
  · exact .refl ..
  · exact .refl ..
  · exact .forEach _ (fun u b => drainChannel_besideCore hc ..) _

theorem unitRead_besideCore (w : Work) (a n : Nat) : Work.besideCore c w (w.unitRead a n).2 := by
  unfold Work.unitRead
  split
  · exact .refl ..
  · exact .refl ..
  · exact .refl ..
  · dsimp only
    split
    · exact drain_besideCore hc ..
    · exact drain_besideCore hc ..

omit hc in
theorem wrBytes_besideCore (l : List Byte) : ∀ (w : Work) (a : Nat), Work.besideCore c w (w.wrBytes a l) := by
  induction l with
  | nil => exact fun w a => .refl ..
  | cons x l ih => exact fun w a => (Work.besideCore.wrB w a x).trans (ih ..)

theorem unitWrite_besideCore (w : Work) (a : Nat) (bytes : List Byte) : Work.besideCore c w (w.unitWrite a bytes) := by
  unfold Work.unitWrite
  split
  · exact .refl ..
  · exact .refl ..
  · exact wrBytes_besideCore ..
  · split
    · exact .refl ..
    · exact (drain_besideCore hc ..).trans (Work.besideCore.foldl id _ (fun u j _ => performAccess_besideCore hc ..) _)

theorem externalInput_besideCore (w : Work) (x kind op dpa : Nat) (data : List Byte) : Work.besideCore c w (w.externalInput x kind op dpa data) := by
  have hreg {a : Nat} (h : beyondCores a) (u : Work) (v : DWord) : Work.besideCore c u (u.w64 a v) :=
    .of_touches (.w64 u v (offCore_of_beyond hc h) (offCore_of_beyond hc (beyondCores_add h 4)))
  have hflag {f : Fld} (u : Work) : Work.besideCore c u (u.setFlag Reg.DET_ERR_STAT f true) :=
    .of_touches (.setFlag u f true (offCore_of_beyond hc (by unfold beyondCores; decide)) (offCore_of_beyond hc (by unfold beyondCores; decide)))
  have hhead (u : Work) (v : DWord) : Work.besideCore c u (u.w64 Reg.DET_REC_HEAD v) := hreg (by unfold beyondCores; decide) u v
  unfold Work.externalInput
  dsimp only
  split
  · exact .refl ..
  · split
    · split
      · exact (hreg (a := Reg.DET_REC_LOST) (by unfold beyondCores; decide) ..).trans (hflag _)
      · exact (unitWrite_besideCore hc ..).trans (hhead ..)
    · generalize hread : w.unitRead _ 24 = r
      have hr : Work.besideCore c w r.2 := by
        rw [← hread]
        exact unitRead_besideCore hc ..
      refine Work.besideCore.trans ?_ (hhead ..)
      split
      · exact hr
      · exact ((hr.trans (hflag _)).trans (hreg (a := Reg.DET_REC_DIFF) (by unfold beyondCores; decide) ..)).trans (.of_hw rfl rfl rfl rfl rfl rfl)

end Memory

end Sys2Proof.Machine
end

section
/-! PROOFS. Operations on sync objects (R251–R256, R260). -/

namespace Sys2Proof.Machine

/-- The register words behind the compute dies, and those of core c's sync cell below its objects that do not count its operations (R270). -/
def watchWord (c a : Nat) : Prop :=
  beyondCores a ∨ coreWindow c + 0x40000 ≤ a ∧ a < coreWindow c + 0x48000 ∧ a ≠ coreWindow c + 0x40030 ∧ a ≠ coreWindow c + 0x40034

theorem watchWord_at (c : Nat) {k : Nat} (h : k < 0x8000) (h0 : k ≠ 0x30) (h4 : k ≠ 0x34) : watchWord c (coreWindow c + 0x40000 + k) := by
  unfold watchWord
  omega

theorem watchWord_entry (c : Nat) {b e : Nat} (he : e < 256) (hb : b < 0x1020) (hlo : 0x1000 ≤ b) : watchWord c (coreWindow c + 0x40000 + b + 32 * e) := by
  rw [Nat.add_assoc]
  exact watchWord_at c (by omega) (by omega) (by omega)

theorem watchWord_sync {c a : Nat} (h : watchWord c a) : synWord c a := by
  rcases h with h | ⟨hlo, hhi, -, -⟩
  · exact .inl h
  · exact .inr ⟨hlo, by omega⟩

theorem ops_not_watchWord {c : Nat} (hc : c < 272) : ¬ watchWord c (Reg.SYN_OPS c) ∧ ¬ watchWord c (Reg.SYN_OPS c + 4) := by
  simp only [watchWord, beyondCores, Reg.SYN_OPS, coreWindow, dieWindow]
  omega

theorem obj_not_watchWord {c i : Nat} (hc : c < 272) (hi : i < 1024) : ¬ watchWord c (Reg.SYN_OBJ c i) ∧ ¬ watchWord c (Reg.SYN_OBJ c i + 4) := by
  simp only [watchWord, beyondCores, Reg.SYN_OBJ, coreWindow, dieWindow]
  omega

/-! ### The watch table -/

theorem w64_entry (w : Work) {c b e : Nat} (v : DWord) (he : e < 256) (hb : b + 4 < 0x1020) (hlo : 0x1000 ≤ b) :
    w.touches (watchWord c) noCore (w.w64 (coreWindow c + 0x40000 + b + 32 * e) v) := by
  refine .w64 w v (watchWord_entry c he (by omega) hlo) ?_
  rw [Nat.add_right_comm]
  exact watchWord_entry c he hb (by omega)

theorem watchStat_touches (w : Work) (c : Nat) : w.touches (watchWord c) noCore (w.watchStat c) := by
  have hstat : watchWord c (Reg.SYN_WATCH_STAT c) := watchWord_at c (by decide) (by decide) (by decide)
  exact (Work.touches.setFld32 w _ (by decide) hstat).trans (.setFld32 _ _ (by decide) hstat)

theorem clearWatch_entry (w : Work) {c e : Nat} (he : e < 256) : w.touches (watchWord c) noCore (w.clearWatch c e) :=
  ((w64_entry w 0 he (b := 0x1000) (by decide) (by decide)).trans (w64_entry _ 0 he (b := 0x1008) (by decide) (by decide))).trans
    (w64_entry _ 0 he (b := 0x1010) (by decide) (by decide))

theorem bumpWakes_touches (w : Work) (c : Nat) : w.touches (watchWord c) noCore (w.bump (Reg.SYN_WAKES c) 1) :=
  .bump w 1 (watchWord_at c (by decide) (by decide) (by decide)) (watchWord_at c (k := 0x3C) (by decide) (by decide) (by decide))

theorem sendWatch_touches (w : Work) (c node core target gen : Nat) (ctx : Option Nat) (kind : WatchKind) :
    w.touches (watchWord c) noCore (w.sendWatch c node core target gen ctx kind) := (sendWatch_sends ..).touches.mono (fun _ => .inl) fun _ => id

theorem testWatches_beside (w : Work) (c obj : Nat) (v : DWord) : w.touches (watchWord c) noCore (w.testWatches c obj v) := by
  unfold Work.testWatches
  refine (Work.touches.forEach _ (fun u e he => ?_) w).trans (watchStat_touches ..)
  dsimp only
  split
  · exact ((clearWatch_entry u (List.mem_range.mp he)).trans (bumpWakes_touches ..)).trans (sendWatch_touches ..)
  · exact .refl ..

theorem register_touches (w : Work) (c obj op node core gen : Nat) (operand compare v : DWord) (table : Bool) :
    w.touches (watchWord c) noCore (w.register c obj op node core gen operand compare v table) := by
  unfold Work.register
  split
  · exact (bumpWakes_touches ..).trans (sendWatch_touches ..)
  · split
    · next e he =>
      have hentry : e < 256 := by
        cases table with
        | false => cases he
        | true => exact List.mem_range.mp (List.mem_of_find?_eq_some (show w.freeWatch c = some e from he))
      unfold Work.fillWatch
      exact ((((w64_entry w _ hentry (b := 0x1000) (by decide) (by decide)).trans (w64_entry _ _ hentry (b := 0x1008) (by decide) (by decide))).trans
        (w64_entry _ _ hentry (b := 0x1010) (by decide) (by decide))).trans (watchStat_touches ..)).trans (sendWatch_touches ..)
    · exact sendWatch_touches ..

/-! ### The return of an operation -/

theorem synResult_touches (w : Work) (c tag : Nat) (v : DWord) : w.touches (watchWord c) (· = c) (w.synResult c tag v false) := by
  have hlo : watchWord c (Reg.SYN_RESULT c) := watchWord_at c (by decide) (by decide) (by decide)
  have hhi : watchWord c (Reg.SYN_RESULT c + 4) := watchWord_at c (k := 0x1C) (by decide) (by decide) (by decide)
  have htag : watchWord c (Reg.SYN_RESULT_TAG c) := watchWord_at c (by decide) (by decide) (by decide)
  simp only [Work.synResult, Work.returned, Bool.false_eq_true, if_false]
  exact ((Work.touches.w64 w v hlo hhi).trans (.w32 _ _ htag)).trans (.updEngine _ _ _ _ _)

theorem synAnswer_touches (w : Work) (i : Nat) (v : DWord) : w.touches beyondCores noCore (w.synAnswer i v .ok) := by
  simp only [Work.synAnswer, Work.returned, Bool.false_eq_true, if_false]
  refine Work.touches.trans ?_ (answer_touches ..)
  unfold Work.updReq
  split
  · exact .of_hw rfl rfl rfl rfl rfl rfl
  · exact .refl ..

/-- The return of an operation that met no error leaves the objects and the count of operations, and every other core. -/
theorem synReturn_touches (w : Work) (c : Nat) (op : SynOp) (v : DWord) (table : Bool) :
    w.touches (watchWord c) (· = c) (w.synReturn c op v .ok table) := by
  unfold Work.synReturn
  split
  · exact synResult_touches ..
  · exact (synAnswer_touches ..).mono (fun _ => .inl) fun _ => False.elim
  · split
    · rw [if_pos rfl]
      exact (register_touches ..).noCore _
    · exact .refl ..
  · exact .refl ..

/-! ### One operation -/

/-- What an operation stores before it is counted and the tests follow: an ATOMIC its result, any other operation nothing. -/
def Work.stored (w : Work) (c : Nat) (op : SynOp) : Work :=
  match op.kind with
  | .atomic k => w.w64 (Reg.SYN_OBJ c op.obj) (atomicOp k (w.r64 (Reg.SYN_OBJ c op.obj)) op.operand op.compare)
  | _ => w

theorem synSet_beside (w : Work) (c obj : Nat) (v : DWord) :
    ((w.w64 (Reg.SYN_OBJ c obj) v).bump (Reg.SYN_OPS c) 1).touches (watchWord c) (· = c) (w.synSet c obj v) :=
  (testLocalWait_touches ..).trans ((testWatches_beside ..).noCore _)

/-- An operation stores, counts, and does nothing else to the objects and the count. -/
theorem cellPerform_touches (w : Work) (c : Nat) (op : SynOp) :
    ((w.stored c op).bump (Reg.SYN_OPS c) 1).touches (watchWord c) (· = c) (w.cellPerform c op .clean) := by
  unfold Work.cellPerform Work.stored
  dsimp only
  rw [if_neg (by decide), if_neg (by decide)]
  refine .trans ?_ (synReturn_touches ..)
  cases op.kind with
  | atomic k => exact synSet_beside ..
  | read => exact .refl ..
  | register k => exact .refl ..

section Object
variable {c : Nat} (w : Work) (op : SynOp)

theorem objRead_bumpOps {i : Nat} (u : Work) : (u.bump (Reg.SYN_OPS c) 1).r64 (Reg.SYN_OBJ c i) = u.r64 (Reg.SYN_OBJ c i) := by
  have hlo : Reg.SYN_OBJ c i ≠ Reg.SYN_OPS c ∧ Reg.SYN_OBJ c i ≠ Reg.SYN_OPS c + 4 := by
    unfold Reg.SYN_OBJ Reg.SYN_OPS
    omega
  have hhi : Reg.SYN_OBJ c i + 4 ≠ Reg.SYN_OPS c ∧ Reg.SYN_OBJ c i + 4 ≠ Reg.SYN_OPS c + 4 := by
    unfold Reg.SYN_OBJ Reg.SYN_OPS
    omega
  simp only [Work.r64, r32_bump_other _ _ hlo.1 hlo.2, r32_bump_other _ _ hhi.1 hhi.2]

/-- An object after an operation is as the store left it. -/
theorem obj_cellPerform (hc : c < 272) {i : Nat} (hi : i < 1024) : (w.cellPerform c op .clean).r64 (Reg.SYN_OBJ c i) = (w.stored c op).r64 (Reg.SYN_OBJ c i) := by
  obtain ⟨hlo, hhi⟩ := obj_not_watchWord hc hi
  rw [(cellPerform_touches w c op).r64_eq hlo hhi, objRead_bumpOps]

theorem stored_obj_other {i : Nat} (hi : i ≠ op.obj) : (w.stored c op).r64 (Reg.SYN_OBJ c i) = w.r64 (Reg.SYN_OBJ c i) := by
  unfold Work.stored
  split
  · have hne (x y : Nat) (hx : x = 0 ∨ x = 4) (hy : y = 0 ∨ y = 4) : Reg.SYN_OBJ c i + x ≠ Reg.SYN_OBJ c op.obj + y := by
      unfold Reg.SYN_OBJ
      omega
    have hlo := r32_w64_other w (atomicOp ‹_› (w.r64 (Reg.SYN_OBJ c op.obj)) op.operand op.compare) (hne 0 0 (.inl rfl) (.inl rfl)) (hne 0 4 (.inl rfl) (.inr rfl))
    have hhi := r32_w64_other w (atomicOp ‹_› (w.r64 (Reg.SYN_OBJ c op.obj)) op.operand op.compare) (hne 4 0 (.inr rfl) (.inl rfl)) (hne 4 4 (.inr rfl) (.inr rfl))
    rw [Work.r64, Work.r64]
    exact congrArg₂ _ hhi hlo
  · rfl

theorem stored_ops (hobj : op.obj < 1024) : (w.stored c op).r64 (Reg.SYN_OPS c) = w.r64 (Reg.SYN_OPS c) ∧
    (w.stored c op).frozen (coreRegion c) = w.frozen (coreRegion c) := by
  unfold Work.stored
  split
  · generalize atomicOp _ _ _ _ = x
    have hset : w.touches (fun a => a = Reg.SYN_OBJ c op.obj ∨ a = Reg.SYN_OBJ c op.obj + 4) noCore (w.w64 (Reg.SYN_OBJ c op.obj) x) :=
      .w64 w x (.inl rfl) (.inr rfl)
    have hfreeze : ¬ (Reg.DBG_CNT_CTRL (coreRegion c) = Reg.SYN_OBJ c op.obj ∨ Reg.DBG_CNT_CTRL (coreRegion c) = Reg.SYN_OBJ c op.obj + 4) := by
      simp only [Reg.DBG_CNT_CTRL, Reg.SYN_OBJ, coreWindow, dieWindow, coreRegion]
      omega
    refine ⟨hset.r64_eq ?_ ?_, ?_⟩
    · unfold Reg.SYN_OBJ Reg.SYN_OPS
      omega
    · unfold Reg.SYN_OBJ Reg.SYN_OPS
      omega
    · rw [Work.frozen, Work.frozen, Work.flag, Work.flag, hset.fld_eq (by decide) hfreeze]
  · exact ⟨rfl, rfl⟩

theorem ops_cellPerform (hc : c < 272) (hobj : op.obj < 1024) (hfrozen : w.frozen (coreRegion c) = false) :
    (w.cellPerform c op .clean).r64 (Reg.SYN_OPS c) = w.r64 (Reg.SYN_OPS c) + 1 := by
  obtain ⟨hlo, hhi⟩ := ops_not_watchWord hc
  obtain ⟨hsame, hruns⟩ := stored_ops (c := c) w op hobj
  have hdie : csrDie (Reg.SYN_OPS c) = coreRegion c := csrDie_core hc (k := 0x40030) (by decide)
  rw [(cellPerform_touches w c op).r64_eq hlo hhi, r64_bump_self 1 (by rw [hdie, hruns, hfrozen]), hsame]
  rfl

/-- An operation writes the words of the cell, behind the compute dies, and its own core only. -/
theorem cellPerform_synWords (hobj : op.obj < 1024) : w.touches (synWord c) (· = c) (w.cellPerform c op .clean) := by
  have hops : synWord c (Reg.SYN_OPS c) ∧ synWord c (Reg.SYN_OPS c + 4) := ⟨synWord_at c (by decide), synWord_at c (k := 0x34) (by decide)⟩
  have hstored : w.touches (synWord c) (· = c) (w.stored c op) := by
    unfold Work.stored
    split
    · refine .w64 w _ ?_ ?_ <;>
      · unfold synWord Reg.SYN_OBJ
        omega
    · exact .refl ..
  exact (hstored.trans (.bump _ 1 hops.1 hops.2)).trans ((cellPerform_touches w c op).mono (fun _ => watchWord_sync) fun _ => id)

end Object

theorem core_updSyn_self (w : Work) (c : Nat) (f : Syn → Syn) : (w.updSyn c f).core c = { w.core c with syn := f (w.core c).syn } := core_updCore_self ..

theorem syn_updSyn_self (w : Work) (c : Nat) (f : Syn → Syn) : ((w.updSyn c f).core c).syn = f (w.core c).syn := by rw [core_updSyn_self]

theorem core_updSyn_other (w : Work) {c x : Nat} (f : Syn → Syn) (h : x ≠ c) : (w.updSyn c f).core x = w.core x := core_updCore_other _ _ h

/-! ### A master's write (R251, R253, R256) -/

theorem cellPerform_master_pc (w : Work) (c : Nat) {op : SynOp} {k : Nat} (hkind : op.kind = .atomic k) (hsource : op.source = .master) :
    ((w.cellPerform c op .clean).core c).pc = (w.core c).pc := by
  rw [cellPerform_atomic w c hkind, Work.synReturn, hsource]
  dsimp only
  rw [synSet_core]
  obtain ⟨x, h | h⟩ := testLocalWait_core ((w.w64 (Reg.SYN_OBJ c op.obj) (atomicOp k (w.r64 (Reg.SYN_OBJ c op.obj)) op.operand op.compare)).bump
    (Reg.SYN_OPS c) 1) c op.obj (atomicOp k (w.r64 (Reg.SYN_OBJ c op.obj)) op.operand op.compare)
  · rw [h, core_bump]
    rfl
  · rw [h, core_bump]
    rfl

/-- A master's operation for the context that is placed, or for none, is one on the objects in the cell. -/
theorem synPerform_here {w : Work} {c : Nat} {op : SynOp} (hsource : op.source = .master) (hctx : op.ctx = none ∨ op.ctx = w.placedCtx c) :
    ∃ u, w.touches (· = Reg.SYN_ERR_STAT c) noCore u ∧ w.synPerform c op .clean = u.cellPerform c op .clean := by
  unfold Work.synPerform
  rw [hsource]
  cases hop : op.ctx with
  | none =>
    dsimp only
    split
    · exact ⟨w, .refl .., rfl⟩
    · exact ⟨_, .setFld32 w (f := Fld.SYN_ERR_STAT_NOCTX) _ (by decide) rfl, rfl⟩
  | some x =>
    have hplaced : w.placedCtx c = some x := by
      rcases hctx with h | h
      · rw [hop] at h
        cases h
      · rw [← h, hop]
    dsimp only
    rw [if_pos hplaced]
    exact ⟨w, .refl .., rfl⟩

/-- What follows a cell's operation, an external input at most, leaves the core. -/
theorem performOp_besideCore {c : Nat} (hc : c < 272) (w : Work) (op : SynOp) (check : ReadCheck) :
    Work.besideCore c (w.synPerform c op check) (w.performOp c op check) := by
  unfold Work.performOp
  dsimp only
  split
  · split
    · exact externalInput_besideCore hc ..
    · exact .refl ..
  · exact .refl ..

theorem performOp_here {w : Work} {c : Nat} (hc : c < 272) {op : SynOp} {k : Nat} (hobj : op.obj < 1024) (hkind : op.kind = .atomic k)
    (hsource : op.source = .master) (hctx : op.ctx = none ∨ op.ctx = w.placedCtx c) :
    (w.performOp c op .clean).csr = w.csr ∧
      (w.performOp c op .clean).r64 (Reg.SYN_OBJ c op.obj) = atomicOp k (w.r64 (Reg.SYN_OBJ c op.obj)) op.operand op.compare ∧
      ((w.performOp c op .clean).core c).pc = (w.core c).pc ∧ ∀ x, x ≠ c → (w.performOp c op .clean).core x = w.core x := by
  obtain ⟨u, hu, hcell⟩ := synPerform_here hsource hctx
  have hbeside := performOp_besideCore hc w op .clean
  rw [hcell] at hbeside
  have hwords := cellPerform_synWords (c := c) u op hobj
  have hin : ¬ offCore c (Reg.SYN_OBJ c op.obj) ∧ ¬ offCore c (Reg.SYN_OBJ c op.obj + 4) := by
    simp only [offCore, Reg.SYN_OBJ]
    omega
  have herr : Reg.SYN_OBJ c op.obj ≠ Reg.SYN_ERR_STAT c ∧ Reg.SYN_OBJ c op.obj + 4 ≠ Reg.SYN_ERR_STAT c := by
    unfold Reg.SYN_OBJ Reg.SYN_ERR_STAT
    omega
  refine ⟨(hbeside.csr.trans hwords.csr).trans hu.csr, ?_, ?_, fun x hx => ?_⟩
  · rw [Work.writes.r64_eq hbeside hin.1 hin.2, r64_cellPerform_obj u hc hobj hkind, hu.r64_eq herr.1 herr.2]
  · rw [hbeside.core c id, cellPerform_master_pc u c hkind hsource, hu.core c id]
  · rw [hbeside.core x id, hwords.core x hx, hu.core x id]

section Write
variable {m : Master} {c : CoreIx} {obj : Fin 1024} {v : DWord} {s : State} (hp : s.powered = true)
  (htakes : s.look.regTakes (Reg.SYN_OBJ c obj) = true) (hheld : s.look.installHolds m (coreRegion c) = false)
include hp htakes hheld

theorem objWrite_run {instr : Instr} {add : Bool} (hinstr : exec instr s = run s fun w => w.objWrite m c obj add v) :
    exec instr s = done s (s.look.syncWrite m (.obj c obj) add v) := by
  rw [hinstr]
  refine runs hp ?_
  rw [Work.objWrite, Work.when, htakes, hheld]
  exact if_pos rfl

/-- An empty queue: the write is performed at once. -/
theorem objWrite_here {instr : Instr} {add : Bool} (hinstr : exec instr s = run s fun w => w.objWrite m c obj add v)
    (hempty : (s.look.core c).syn.incoming = []) (hctx : s.look.masterCtx m = none ∨ s.look.masterCtx m = s.look.placedCtx c) :
    goesTo (exec instr s) fun t =>
      t.look.r64 (Reg.SYN_OBJ c obj) = atomicOp (if add then 1 else 0) (s.look.r64 (Reg.SYN_OBJ c obj)) v 0 ∧
        (t.look.core c).pc = (s.look.core c).pc ∧ sameCoresBut c s t := by
  have hrun := objWrite_run hp htakes hheld hinstr
  have hnow : s.look.syncWrite m (.obj c obj) add v =
      s.look.performOp c ⟨obj, .atomic (if add then 1 else 0), v, 0, s.look.masterCtx m, .master⟩ .clean := by
    rw [Work.syncWrite, hempty]
    rfl
  obtain ⟨hcsr, hword, hpc, hcores⟩ := performOp_here (w := s.look) c.isLt (op := ⟨obj, .atomic (if add then 1 else 0), v, 0, s.look.masterCtx m, .master⟩)
    obj.isLt rfl rfl hctx
  rw [hnow] at hrun
  exact ⟨_, hrun, (Machine.commit_r64 s _ hcsr _).trans hword, hpc, hcores⟩

/-- Otherwise it waits behind the operations in the queue. -/
theorem objWrite_queued {instr : Instr} {add : Bool} (hinstr : exec instr s = run s fun w => w.objWrite m c obj add v)
    (hbusy : (s.look.core c).syn.incoming ≠ []) : goesTo (exec instr s) fun t => onlyCore c s t ∧
      (t.look.core c).syn.incoming = (s.look.core c).syn.incoming ++ [⟨obj, .atomic (if add then 1 else 0), v, 0, s.look.masterCtx m, .master⟩] := by
  have hrun := objWrite_run hp htakes hheld hinstr
  have hno : ¬ (s.look.core c).syn.incoming.isEmpty = true := fun h => hbusy (List.isEmpty_iff.mp h)
  rw [Work.syncWrite, if_neg hno] at hrun
  refine ⟨_, hrun, onlyCore_commit (onlyCore_updCore (onlyCore_refl ..) _), ?_⟩
  rw [commit_core, syn_updSyn_self]

end Write

theorem syncOpPerform_run {c : CoreIx} {s : State} {op : SynOp} {rest : List SynOp} (check : ReadCheck) (hp : s.powered = true)
    (hup : s.look.coreUp c = true) (hqueue : (s.look.core c).syn.incoming = op :: rest) : exec (.syncOpPerform c check) s =
      done s (((s.look.updSyn c fun y => { y with incoming := rest }).performOp c op check).syncPull c) := by
  change execSyncOpPerform c check s = _
  refine runs hp ?_
  rw [hqueue]
  dsimp only
  rw [if_pos hup]

end Sys2Proof.Machine
end

section
/-! PROOFS. The messages between waiter and holder, polls and long waits (R260–R267). -/

namespace Sys2Proof.Machine

/-! ### Messages of this chip (R260–R266) -/

/-- A message leaves the queue of this chip. -/
def Work.tookWatch (w : Work) (later : List WatchMsg) : Work := { w with hw := { w.hw with watchMsgs := later } }

section Message
variable {s : State} {m : WatchMsg} {later : List WatchMsg} (hp : s.powered = true) (hclocked : s.look.clocked = true)
  (hqueue : s.hw.watchMsgs = m :: later)
include hclocked hqueue

/-- The oldest message is taken by the command of its kind. -/
theorem takeWatch_oldest {op : Nat} (hop : m.kind.op = op) {held : WatchMsg → Bool} (hheld : held m = false) (f : Work → Nat → WatchMsg → Work) :
    s.look.takeWatch (.here 0) op held f = f (s.look.tookWatch later) (coreRegion m.here) m := by
  have hlook : s.look.hw.watchMsgs = m :: later := hqueue
  rw [Work.takeWatch]
  dsimp only
  rw [hlook, List.drop_zero]
  dsimp only [List.take_zero, List.any_nil, List.nil_append]
  rw [hclocked, decide_eq_true hop, hheld]
  exact if_pos rfl

include hp

theorem watchRegister_run {d i op : Nat} {o p : DWord} (hkind : m.kind = .register op o p) (hword : m.word = some (.obj d i))
    (htakes : s.look.regTakes (Reg.SYN_OBJ d i) = true) (hroom : (s.look.core d).syn.incoming.length < 64) :
    exec (.watchRegister (.here 0)) s = done s ((s.look.tookWatch later).updSyn d fun y =>
      { y with incoming := y.incoming ++ [⟨i, .register op, o, p, m.ctx, .watch m.node m.core m.gen⟩] }) := by
  have hheld : s.look.registerHeld m = false := by
    rw [Work.registerHeld, hword]
    dsimp only
    rw [htakes, decide_eq_false (Nat.not_le.mpr hroom)]
    rfl
  have htook : (s.look.tookWatch later).regTakes (Reg.SYN_OBJ d i) = true := htakes
  change execWatchRegister (.here 0) s = _
  refine runs hp ?_
  rw [takeWatch_oldest hclocked hqueue (by rw [hkind]; rfl) hheld, Work.registerIn, hword, hkind]
  dsimp only
  rw [if_pos htook]

omit hclocked hqueue hp in
theorem waitExpects_tookWatch (w : Work) (m : WatchMsg) (a b : WaitMode) : (w.tookWatch later).waitExpects m a b = w.waitExpects m a b := rfl

theorem watchAccepted_run (hop : m.kind.op = 1) : exec (.watchAccepted (.here 0)) s =
    done s (if s.look.waitExpects m .sent .sent then (s.look.tookWatch later).updSyn m.here fun y => { y with mode := .accepted }
      else (s.look.tookWatch later).lateAnswer m) := by
  change execWatchAccepted (.here 0) s = _
  exact runs hp (takeWatch_oldest hclocked hqueue hop rfl _)

theorem watchFull_run (hop : m.kind.op = 2) : exec (.watchFull (.here 0)) s =
    done s (if s.look.waitExpects m .sent .sent then (s.look.tookWatch later).waitFallBack m.here else (s.look.tookWatch later).lateAnswer m) := by
  change execWatchFull (.here 0) s = _
  exact runs hp (takeWatch_oldest hclocked hqueue hop rfl _)

theorem watchWake_run (hop : m.kind.op = 3) : exec (.watchWake (.here 0)) s =
    done s (if s.look.waitExpects m .sent .accepted then (s.look.tookWatch later).synDone m.here
      else (s.look.tookWatch later).bump (Reg.SYN_WAKE_DROP m.here) 1) := by
  change execWatchWake (.here 0) s = _
  exact runs hp (takeWatch_oldest hclocked hqueue hop rfl _)

theorem watchAbsent_run (hop : m.kind.op = 4) : exec (.watchAbsent (.here 0)) s =
    done s (if s.look.waitExpects m .sent .accepted then (s.look.tookWatch later).waitFallBack m.here else s.look.tookWatch later) := by
  change execWatchAbsent (.here 0) s = _
  exact runs hp (takeWatch_oldest hclocked hqueue hop rfl _)

theorem watchCancel_run (hop : m.kind.op = 5) {d i e : Nat} (hword : m.word = some (.obj d i)) (hentry : s.look.entryOf d i m.node m.core m.gen = some e) :
    exec (.watchCancel (.here 0)) s = done s (((s.look.tookWatch later).clearWatch d e).watchStat d) := by
  have htook : (s.look.tookWatch later).entryOf d i m.node m.core m.gen = some e := hentry
  change execWatchCancel (.here 0) s = _
  refine runs hp ((takeWatch_oldest hclocked hqueue hop rfl _).trans ?_)
  rw [hword]
  dsimp only
  rw [htook]

end Message

/-! ### What the waiter does -/

section Waiter
variable {s : State} {later : List WatchMsg} {c : Nat}

/-- The messages left behind, and nothing else beside a core. -/
theorem tookWatch_touches (p q : Nat → Prop) (w : Work) (later : List WatchMsg) : w.touches p q (w.tookWatch later) := .of_hw rfl rfl rfl rfl rfl rfl

theorem accepted_leaves (s : State) (later : List WatchMsg) (c : Nat) (mode : WaitMode) :
    let t := Work.commit s ((s.look.tookWatch later).updSyn c fun y => { y with mode := mode })
    (t.hw = { s.hw with cores := t.hw.cores, watchMsgs := later } ∧ sameBytes s t ∧ sameCoresBut c s t) ∧
      ((t.look.core c).syn = { (s.look.core c).syn with mode := mode } ∧ (t.look.core c).engines = (s.look.core c).engines) ∧ sameWords s t := by
  refine ⟨⟨rfl, sameBytes_of rfl rfl rfl, fun x hx => ?_⟩, ⟨?_, ?_⟩, sameWords_of rfl rfl⟩
  · exact (commit_core ..).trans (core_updSyn_other _ _ hx)
  · rw [commit_core, syn_updSyn_self]
    rfl
  · rw [commit_core, core_updSyn_self]
    rfl

variable (hc : c < 272)
include hc

/-- A counter of the sync cell. -/
theorem csrDie_syn {k : Nat} (hk : k < 0x10000) : csrDie (coreWindow c + 0x40000 + k) = coreRegion c := by
  rw [Nat.add_assoc]
  exact csrDie_core hc (by omega)

theorem fallBack_leaves : let t := Work.commit s ((s.look.tookWatch later).waitFallBack c)
    (t.hw = { s.hw with cores := t.hw.cores, watchMsgs := later } ∧ sameBytes s t ∧ sameCoresBut c s t) ∧
      ((t.look.core c).syn = { (s.look.core c).syn with mode := .polling } ∧ (t.look.core c).engines = (s.look.core c).engines) ∧
      (s.look.frozen (coreRegion c) = false → t.look.r64 (Reg.SYN_FALLBACKS c) = s.look.r64 (Reg.SYN_FALLBACKS c) + 1) ∧
      sameWordsBut [Reg.SYN_FALLBACKS c, Reg.SYN_FALLBACKS c + 4] s t := by
  obtain ⟨u, hu⟩ : ∃ u, (s.look.tookWatch later).updSyn c (fun y => { y with mode := WaitMode.polling }) = u := ⟨_, rfl⟩
  obtain ⟨⟨hhw, -, -⟩, ⟨hsyn, hengines⟩, -⟩ := accepted_leaves s later c .polling
  have htouch : s.look.touches (fun a => a = Reg.SYN_FALLBACKS c ∨ a = Reg.SYN_FALLBACKS c + 4) (· = c) u := by
    rw [← hu]
    exact (tookWatch_touches ..).trans (.updCore _ _ rfl)
  have hfrozen : u.frozen (coreRegion c) = s.look.frozen (coreRegion c) := by
    rw [← hu]
    rfl
  have hcount : u.r64 (Reg.SYN_FALLBACKS c) = s.look.r64 (Reg.SYN_FALLBACKS c) := by
    rw [← hu]
    rfl
  rw [hu] at hhw hsyn hengines
  dsimp only
  rw [Work.waitFallBack, hu]
  have hbump : u.touches (fun a => a = Reg.SYN_FALLBACKS c ∨ a = Reg.SYN_FALLBACKS c + 4) (· = c) (u.bump (Reg.SYN_FALLBACKS c) 1) :=
    .bump u 1 (.inl rfl) (.inr rfl)
  have hcore : (u.bump (Reg.SYN_FALLBACKS c) 1).core c = u.core c := core_bump ..
  have hall := htouch.trans hbump
  refine ⟨⟨?_, hall.sameBytes, fun x hx => hall.core x hx⟩, ⟨?_, ?_⟩, fun hrun => ?_, hall.sameWordsBut fun a ha => ?_⟩
  · rw [commit_hw, bump_hw]
    exact hhw
  · exact (congrArg Core.syn hcore).trans hsyn
  · exact (congrArg Core.engines hcore).trans hengines
  · rw [Machine.commit_r64 s _ hall.csr, r64_bump_self 1 (by rw [Reg.SYN_FALLBACKS, csrDie_syn hc (by decide), hfrozen, hrun]), hcount]
    rfl
  · rcases ha with rfl | rfl
    · exact List.mem_cons_self
    · exact List.mem_cons_of_mem _ List.mem_cons_self

theorem wakeDrop_leaves (hrun : s.look.frozen (coreRegion c) = false) :
    let t := Work.commit s ((s.look.tookWatch later).bump (Reg.SYN_WAKE_DROP c) 1)
    (t.hw = { s.hw with cores := t.hw.cores, watchMsgs := later } ∧ sameBytes s t ∧ sameCoresBut c s t) ∧
      t.look.r64 (Reg.SYN_WAKE_DROP c) = s.look.r64 (Reg.SYN_WAKE_DROP c) + 1 ∧ t.look.core c = s.look.core c := by
  have hall : s.look.touches (fun _ => True) noCore ((s.look.tookWatch later).bump (Reg.SYN_WAKE_DROP c) 1) :=
    (tookWatch_touches ..).trans (.bump _ 1 trivial trivial)
  have hfrozen : (s.look.tookWatch later).frozen (coreRegion c) = false := hrun
  refine ⟨⟨?_, hall.sameBytes, fun x hx => hall.core x id⟩, ?_, hall.core c id⟩
  · rw [commit_hw, bump_hw]
    rfl
  · rw [Machine.commit_r64 s _ hall.csr, r64_bump_self 1 (by rw [Reg.SYN_WAKE_DROP, csrDie_syn hc (by decide), hfrozen])]
    rfl

end Waiter

theorem lateAnswer_leaves {s : State} {later : List WatchMsg} {m : WatchMsg} (hgen : m.gen ≠ SMap.get 0 s.hw.genCore m.here) :
    let t := Work.commit s ((s.look.tookWatch later).lateAnswer m)
    (t.hw = { s.hw with cores := t.hw.cores, watchMsgs := later } ∧ sameBytes s t ∧ sameCoresBut m.here s t) ∧
      t.look.r64 Reg.ERR_LATE_DROP = s.look.r64 Reg.ERR_LATE_DROP + 1 ∧ t.look.core m.here = s.look.core m.here := by
  have hlate : (s.look.tookWatch later).lateAnswer m = (s.look.tookWatch later).bumpErr Reg.ERR_LATE_DROP 1 := if_neg hgen
  have hall : s.look.touches (fun _ => True) noCore ((s.look.tookWatch later).bumpErr Reg.ERR_LATE_DROP 1) :=
    (tookWatch_touches ..).trans (.w64 _ _ trivial trivial)
  dsimp only
  rw [hlate]
  refine ⟨⟨rfl, hall.sameBytes, fun x hx => hall.core x id⟩, ?_, hall.core _ id⟩
  rw [Machine.commit_r64 s _ hall.csr, Work.bumpErr, r64_w64_self]
  rfl

/-- An unmet WAIT is the oldest command of its cell. -/
theorem first_of_unmetWait {w : Work} {c : Nat} {r : Running} (h : w.unmetWait c = some r) : (w.engine c 4).first = some r := by
  unfold Work.unmetWait Work.synRuns at h
  cases hfirst : (w.engine c 4).first with
  | none =>
    rw [hfirst] at h
    cases h
  | some x =>
    rw [hfirst] at h
    dsimp only at h
    split at h
    · split at h
      · next y hy _ =>
        rw [← Option.some.inj h]
        split at hy
        · exact hy
        · cases hy
      · cases h
    · cases h

theorem updFirst_first {x : Engine} {r : Running} (h : x.first = some r) (f : Running → Running) : (x.updFirst f).first = some (f r) := by
  unfold Engine.first at h ⊢
  unfold Engine.updFirst
  cases hrunning : x.running with
  | nil =>
    rw [hrunning] at h
    cases h
  | cons y ys =>
    rw [hrunning] at h
    rw [← Option.some.inj h]
    rfl

theorem synDone_first {w : Work} {c : Nat} {r : Running} (h : (w.engine c 4).first = some r) :
    ((w.synDone c).engine c 4).first = some { r with pos := 1 } := by
  rw [Work.synDone, Work.engine, core_updEngine, engine_setEngine_self]
  exact updFirst_first h _

theorem wake_leaves {s : State} {later : List WatchMsg} {m : WatchMsg} {a b : WaitMode} (hexpects : s.look.waitExpects m a b = true) :
    let t := Work.commit s ((s.look.tookWatch later).synDone m.here)
    (t.hw = { s.hw with cores := t.hw.cores, watchMsgs := later } ∧ sameBytes s t ∧ sameCoresBut m.here s t) ∧ sameWords s t ∧
      (t.look.engine m.here 4).first.map Running.pos = some 1 ∧ (t.look.core m.here).syn = (s.look.core m.here).syn := by
  have hsome : (s.look.unmetWait m.here).isSome = true := by
    unfold Work.waitExpects at hexpects
    simp only [Bool.and_eq_true] at hexpects
    exact hexpects.1.1
  obtain ⟨r, hr⟩ := Option.isSome_iff_exists.mp hsome
  have hfirst : ((s.look.tookWatch later).engine m.here 4).first = some r := first_of_unmetWait hr
  refine ⟨⟨rfl, sameBytes_of rfl rfl rfl, fun x hx => ?_⟩, sameWords_of rfl rfl, ?_, ?_⟩
  · exact (commit_core ..).trans (core_updCore_other _ _ hx)
  · exact congrArg (Option.map Running.pos) (synDone_first hfirst)
  · rw [commit_core, Work.synDone, core_updEngine]
    rfl

theorem cancel_leaves (s : State) (later : List WatchMsg) (d e : Nat) :
    let t := Work.commit s (((s.look.tookWatch later).clearWatch d e).watchStat d)
    t.hw = { s.hw with watchMsgs := later } ∧ sameBytes s t ∧ t.look.r64 (Reg.SYN_WATCH_CTL d e) = 0 := by
  obtain ⟨u, hu⟩ : ∃ u, (s.look.tookWatch later).w64 (Reg.SYN_WATCH_CTL d e) 0 = u := ⟨_, rfl⟩
  have hset : s.look.touches (fun _ => True) noCore u := by
    rw [← hu]
    exact (tookWatch_touches ..).trans (.w64 _ _ trivial trivial)
  have hzero : u.r64 (Reg.SYN_WATCH_CTL d e) = 0 := by
    rw [← hu]
    exact r64_w64_self ..
  have hhw : u.hw = { s.hw with watchMsgs := later } := by
    rw [← hu]
    rfl
  let p (a : Nat) : Prop := a ≠ Reg.SYN_WATCH_CTL d e ∧ a ≠ Reg.SYN_WATCH_CTL d e + 4
  have hword (v : Work) {b k : Nat} (x : DWord) (hb : b = coreWindow d + 0x40000 + 0x1008 + k + 32 * e) (hk : k = 0 ∨ k = 8) : v.words p (v.w64 b x) := by
    refine .w64 v x ⟨?_, ?_⟩ ⟨?_, ?_⟩ <;>
    · unfold Reg.SYN_WATCH_CTL
      omega
  have hstat (v : Work) {f : Fld} (x : Nat) (hf : f.lsb + f.width ≤ 32) : v.words p (v.setFld (Reg.SYN_WATCH_STAT d) f x) := by
    refine .setFld v x hf ⟨?_, ?_⟩ <;>
    · unfold Reg.SYN_WATCH_STAT Reg.SYN_WATCH_CTL
      omega
  have hrest : u.words p (((u.w64 (Reg.SYN_WATCH_OPND d e) 0).w64 (Reg.SYN_WATCH_CMP d e) 0).watchStat d) :=
    ((hword u 0 rfl (.inl rfl)).trans (hword _ 0 rfl (.inr rfl))).trans ((hstat _ _ (by decide)).trans (hstat _ _ (by decide)))
  have hall := hset.trans ((hrest.touches noCore).mono (fun _ _ => trivial) fun _ => id)
  dsimp only
  rw [Work.clearWatch, hu]
  refine ⟨?_, hall.sameBytes, ?_⟩
  · rw [commit_hw, hrest.hw, hhw]
  · rw [Machine.commit_r64 s _ hall.csr, hrest.r64_eq (fun h => h.1 rfl) (fun h => h.2 rfl), hzero]

/-! ### Ports with nothing to hand over -/

theorem takeWatch_noPacket {w : Work} {p : LinkIx} {v : Fin 8} (h : w.rxHead p v = none) (op : Nat) (held : WatchMsg → Bool)
    (f : Work → Nat → WatchMsg → Work) : w.takeWatch (.port p v) op held f = w := by
  rw [Work.takeWatch]
  dsimp only
  rw [Work.takePkt, h]

end Sys2Proof.Machine
end

section
/-! PROOFS. Polls, rechecks and long waits (R263, R264, R267), and the sync cells' obligation. -/

namespace Sys2Proof.Machine

section Poll
variable {c : CoreIx} {s : State} {r : Running} {mode : WaitMode} (hp : s.powered = true) (hwait : s.look.unmetWait c = some r)
  (hmode : (s.look.core c).syn.mode = mode)

/-- The read of a WAIT's target. -/
def Work.pollIssued (w : Work) (c : Nat) (r : Running) : Work := (w.bump (Reg.SYN_POLLS c) 1).synReq c r (.read 8)

/-- The return of a WAIT's read is taken from the requests. -/
def Work.pollTaken (w : Work) (c i : Nat) : Work := (w.dropReq i).updSyn c fun y => { y with awaiting := none }

section Read
include hwait hmode

theorem waitRead_issues (hnone : (s.look.core c).syn.awaiting = none) : s.look.waitRead c mode = s.look.pollIssued c r := by
  have hno : ¬ (s.look.core c).syn.mode ≠ mode := fun h => h hmode
  rw [Work.waitRead, hwait]
  dsimp only
  rw [if_neg hno, hnone]
  rfl

theorem waitRead_returns {i : Nat} {q : Req} (hawait : (s.look.core c).syn.awaiting = some i) (hreq : s.look.req? i = some q)
    (hreplied : q.stage = .replied) : s.look.waitRead c mode = s.look.pollReturn c i r q (decide (mode = .accepted)) := by
  have hno : ¬ (s.look.core c).syn.mode ≠ mode := fun h => h hmode
  rw [Work.waitRead, hwait]
  dsimp only
  rw [if_neg hno, hawait]
  dsimp only
  rw [hreq]
  dsimp only
  rw [if_pos hreplied]

end Read

/-- The value that a good return carries. -/
theorem pollReturn_good {w : Work} {i : Nat} {q : Req} (hok : q.bad = .ok) (recheck : Bool) : w.pollReturn c i r q recheck =
    if waitHolds r.cmd (BitVec.ofNat 64 (q.number 8)) then
      (if recheck then (w.pollTaken c i).cancelWatch c else w.pollTaken c i).synDone c
    else if recheck && (w.pollTaken c i).entryLost c r then (w.pollTaken c i).waitFallBack c
    else w.pollTaken c i := by
  have hreturns : ¬ (!q.bad.returns) = true := by rw [hok]; decide
  rw [Work.pollReturn, if_neg hreturns, if_pos hok, Work.pollTaken]

/-- Whether the holder has lost the waiter's entry is a matter of registers and of the cores' lives. -/
theorem entryLost_of_words {u w : Work} (hword : ∀ a, u.r32 a = w.r32 a) (hgen : u.hw.genCore = w.hw.genCore) (c : Nat) (r : Running) :
    u.entryLost c r = w.entryLost c r := by
  have hfld (a : Nat) (f : Fld) : u.fld a f = w.fld a f := by simp only [Work.fld, Work.r64, hword]
  have hentry (d i node core gen : Nat) : u.entryOf d i node core gen = w.entryOf d i node core gen := by
    simp only [Work.entryOf, Work.flag, hfld]
  have hnode : u.selfNode = w.selfNode := hfld ..
  -- The definition is replaced as a whole: unfolding it in the applied terms sends the kernel into the machine's state.
  generalize hlost : @Work.entryLost = lost
  delta Work.entryLost at hlost
  subst hlost
  beta_reduce
  generalize synTarget r.cmd = word
  cases word with
  | none => rfl
  | some word =>
    cases word with
    | obj d i =>
      dsimp only
      rw [hentry, hnode, hgen]
    | db n => rfl
    | iw h v => rfl

theorem r32_pollTaken (w : Work) (c i a : Nat) : (w.pollTaken c i).r32 a = w.r32 a := by
  rw [Work.pollTaken, Work.updSyn, r32_updCore]
  exact r32_of_cw _ _ (by simp only [Work.dropReq]) (by simp only [Work.dropReq]) a

theorem genCore_pollTaken (w : Work) (c i : Nat) : (w.pollTaken c i).hw.genCore = w.hw.genCore := by
  simp only [Work.pollTaken, Work.updSyn, Work.updCore, Work.setCore, Work.dropReq]

theorem entryLost_pollTaken (w : Work) (c i : Nat) (r : Running) : (w.pollTaken c i).entryLost c r = w.entryLost c r :=
  entryLost_of_words (r32_pollTaken w c i) (genCore_pollTaken w c i) c r

theorem engine_pollTaken (w : Work) (c i : Nat) : ((w.pollTaken c i).engine c 4) = w.engine c 4 := by
  have hcore : (w.dropReq i).core c = w.core c := rfl
  rw [Work.engine, Work.pollTaken, core_updSyn_self, hcore, Work.engine, Core.engine, Core.engine]

theorem pollTaken_leaves (s : State) (c i : Nat) : let t := Work.commit s (s.look.pollTaken c i)
    t.hw = { s.hw with cores := t.hw.cores, reqs := SMap.del s.hw.reqs i } ∧ sameBytes s t ∧ sameWords s t ∧ sameCoresBut c s t ∧
      (t.look.core c).syn = { (s.look.core c).syn with awaiting := none } := by
  refine ⟨rfl, sameBytes_of rfl rfl rfl, sameWords_of rfl rfl, fun x hx => ?_, ?_⟩
  · exact (commit_core ..).trans (core_updSyn_other _ _ hx)
  · rw [commit_core, Work.pollTaken, syn_updSyn_self]
    rfl

theorem pollMet_leaves (s : State) (c i : Nat) : let t := Work.commit s ((s.look.pollTaken c i).synDone c)
    t.hw = { s.hw with cores := t.hw.cores, reqs := SMap.del s.hw.reqs i } ∧ sameBytes s t ∧ sameWords s t ∧ sameCoresBut c s t ∧
      (t.look.core c).syn = { (s.look.core c).syn with awaiting := none } := by
  obtain ⟨-, -, -, hcores, hsyn⟩ := pollTaken_leaves s c i
  refine ⟨rfl, sameBytes_of rfl rfl rfl, sameWords_of rfl rfl, fun x hx => ?_, ?_⟩
  · exact ((commit_core ..).trans (core_updCore_other _ _ hx)).trans (hcores x hx)
  · rw [commit_core, Work.synDone, core_updEngine]
    exact hsyn

section Command
include hp hwait hmode

omit hwait in
theorem pollRead_run {w : Work} (hpoll : mode = .polling) (h : s.look.waitRead c mode = w) : exec (.pollRead c) s = done s w := by
  subst hpoll
  change execPollRead c s = _
  exact runs hp h

omit hwait in
theorem recheckRead_run {w : Work} (haccepted : mode = .accepted) (h : s.look.waitRead c mode = w) : exec (.recheckRead c) s = done s w := by
  subst haccepted
  change execRecheckRead c s = _
  exact runs hp h

variable {i : Nat} {q : Req} (hawait : (s.look.core c).syn.awaiting = some i) (hreq : s.look.req? i = some q) (hreplied : q.stage = .replied)
  (hok : q.bad = .ok)
include hawait hreq hreplied hok

theorem pollRead_returns (hpoll : mode = .polling) : goesTo (exec (.pollRead c) s) fun t =>
    t.hw = { s.hw with cores := t.hw.cores, reqs := SMap.del s.hw.reqs i } ∧ sameBytes s t ∧ sameWords s t ∧ sameCoresBut c s t ∧
      (t.look.core c).syn = { (s.look.core c).syn with awaiting := none } ∧
      (t.look.engine c 4).first = some (if waitHolds r.cmd (BitVec.ofNat 64 (q.number 8)) then { r with pos := 1 } else r) := by
  have hfirst : ((s.look.pollTaken c i).engine c 4).first = some r := by
    rw [engine_pollTaken]
    exact first_of_unmetWait hwait
  have hrun := pollRead_run hp hmode hpoll ((waitRead_returns hwait hmode hawait hreq hreplied).trans (pollReturn_good hok _))
  rw [hpoll, decide_eq_false (by decide), if_neg Bool.false_ne_true, Bool.false_and, if_neg Bool.false_ne_true] at hrun
  cases hholds : waitHolds r.cmd (BitVec.ofNat 64 (q.number 8)) with
  | true =>
    rw [hholds, if_pos rfl] at hrun
    obtain ⟨hhw, hbytes, hwords, hcores, hsyn⟩ := pollMet_leaves s c i
    refine ⟨_, hrun, hhw, hbytes, hwords, hcores, hsyn, ?_⟩
    rw [if_pos rfl]
    exact synDone_first hfirst
  | false =>
    rw [hholds, if_neg Bool.false_ne_true] at hrun
    obtain ⟨hhw, hbytes, hwords, hcores, hsyn⟩ := pollTaken_leaves s c i
    refine ⟨_, hrun, hhw, hbytes, hwords, hcores, hsyn, ?_⟩
    rw [if_neg Bool.false_ne_true]
    exact hfirst

theorem recheckRead_met (haccepted : mode = .accepted) (hholds : waitHolds r.cmd (BitVec.ofNat 64 (q.number 8)) = true) :
    exec (.recheckRead c) s = done s (((s.look.pollTaken c i).cancelWatch c).synDone c) := by
  have hrun := recheckRead_run hp hmode haccepted ((waitRead_returns hwait hmode hawait hreq hreplied).trans (pollReturn_good hok _))
  rwa [haccepted, decide_eq_true rfl, if_pos rfl, if_pos hholds] at hrun

theorem recheckRead_lost (haccepted : mode = .accepted) (hholds : waitHolds r.cmd (BitVec.ofNat 64 (q.number 8)) = false)
    (hlost : s.look.entryLost c r = true) : exec (.recheckRead c) s = done s ((s.look.pollTaken c i).waitFallBack c) := by
  have hrun := recheckRead_run hp hmode haccepted ((waitRead_returns hwait hmode hawait hreq hreplied).trans (pollReturn_good hok _))
  rwa [haccepted, decide_eq_true rfl, if_neg (ne_true_of_eq_false hholds), entryLost_pollTaken, hlost, Bool.true_and, if_pos rfl] at hrun

end Command

end Poll

theorem longwaitNotice_leaves {c : CoreIx} {s : State} (hp : s.powered = true) (hwaits : s.look.coreWaits c = true)
    (hon : s.look.flag (Reg.SYN_LONGWAIT c) Fld.SYN_LONGWAIT_EN = true) (hnew : (s.look.core c).syn.waiting = false) :
    goesTo (exec (.longwaitNotice c) s) fun t =>
      t.look.core c = { s.look.core c with syn := { (s.look.core c).syn with waiting := true } } ∧
        t.hw = { s.hw with cores := t.hw.cores, longWaits := s.hw.longWaits ++ [2 * c.val] } ∧ sameBytes s t ∧ sameWords s t ∧ sameCoresBut c s t := by
  obtain ⟨u, hu⟩ : ∃ u, s.look.updSyn c (fun y => { y with waiting := true }) = u := ⟨_, rfl⟩
  have hrun : exec (.longwaitNotice c) s = done s { u with hw := { u.hw with longWaits := u.hw.longWaits ++ [2 * c.val] } } := by
    change execLongwaitNotice c s = _
    refine runs hp ?_
    dsimp only
    rw [Work.when, hwaits, hon, hnew, ← hu]
    exact if_pos rfl
  have hcore (x : Nat) : (Work.commit s { u with hw := { u.hw with longWaits := u.hw.longWaits ++ [2 * c.val] } }).look.core x = u.core x := rfl
  refine ⟨_, hrun, ?_, ?_, ?_, ?_, fun x hx => ?_⟩
  · rw [hcore, ← hu, core_updSyn_self]
  · subst hu
    rfl
  · subst hu
    exact sameBytes_of rfl rfl rfl
  · subst hu
    exact sameWords_of rfl rfl
  · rw [hcore, ← hu, core_updSyn_other _ _ hx]

/-! ### The obligation -/

/-- An operation on an object held in its cell (R252–R254). -/
theorem cellPerform_object (c : CoreIx) (w : Work) (op : SynOp) (hobj : op.obj < 1024) :
    (∀ k, op.kind = .atomic k → (w.cellPerform c op .clean).r64 (Reg.SYN_OBJ c op.obj) =
      atomicOp k (w.r64 (Reg.SYN_OBJ c op.obj)) op.operand op.compare) ∧
    ((∀ k, op.kind ≠ .atomic k) → (w.cellPerform c op .clean).r64 (Reg.SYN_OBJ c op.obj) = w.r64 (Reg.SYN_OBJ c op.obj)) ∧
    (∀ i, i < 1024 → i ≠ op.obj → (w.cellPerform c op .clean).r64 (Reg.SYN_OBJ c i) = w.r64 (Reg.SYN_OBJ c i)) ∧
    (w.frozen (coreRegion c) = false → (w.cellPerform c op .clean).r64 (Reg.SYN_OPS c) = w.r64 (Reg.SYN_OPS c) + 1) ∧
    ∀ a, (w.cellPerform c op .clean).rdB a = w.rdB a := by
  refine ⟨fun k hk => r64_cellPerform_obj w c.isLt hobj hk, fun hno => ?_, fun i hi hne => ?_, fun hrun => ops_cellPerform w op c.isLt hobj hrun,
    (cellPerform_synWords w op hobj).rdB_eq⟩
  · have hstored : w.stored c op = w := by
      unfold Work.stored
      split
      · next k hk => exact absurd hk (hno k)
      · rfl
    rw [obj_cellPerform w op c.isLt hobj, hstored]
  · rw [obj_cellPerform w op c.isLt hi, stored_obj_other w op hne]

/-- Settles O25: an operation stores, counts and tests, and its return leaves the objects; each message and each poll is one change of the waiter or of
its holder. -/
theorem synObjectsAndWatches : Obligations.SynObjectsAndWatches := by
  unfold Obligations.SynObjectsAndWatches
  refine ⟨fun c w op hobj => cellPerform_object c w op hobj, fun c s => ⟨fun op rest check ⟨hp, hup, hqueue⟩ => syncOpPerform_run check hp hup hqueue,
    fun m obj v => ?_⟩, ⟨fun s m later => ?_, fun s p v ⟨hp, hnone⟩ => ?_⟩, fun c s r => ?_⟩
  · intro a reaches here queued
    refine ⟨fun ⟨⟨hp, htakes, hheld⟩, hempty, hctx⟩ => objWrite_here hp htakes hheld (add := false) rfl hempty hctx,
      fun ⟨⟨hp, htakes, hheld⟩, hempty, hctx⟩ => objWrite_here hp htakes hheld (add := true) rfl hempty hctx,
      fun ⟨⟨hp, htakes, hheld⟩, hbusy⟩ => objWrite_queued hp htakes hheld (add := false) rfl hbusy,
      fun ⟨⟨hp, htakes, hheld⟩, hbusy⟩ => objWrite_queued hp htakes hheld (add := true) rfl hbusy⟩
  · intro w c k takes mode falls on
    refine ⟨fun d i op o p ⟨⟨hp, hclocked, hqueue, _, _⟩, hword, hkind, htakes, hroom⟩ => ?_, fun ⟨⟨hp, hclocked, hqueue, hop, _⟩, hexpects⟩ => ?_,
      fun ⟨⟨hp, hclocked, hqueue, hop, _⟩, hexpects, hgen⟩ => ?_, fun ⟨⟨hp, hclocked, hqueue, hop, hc⟩, hexpects⟩ => ?_,
      fun ⟨⟨hp, hclocked, hqueue, hop, _⟩, hexpects⟩ => ?_, fun ⟨⟨hp, hclocked, hqueue, hop, hc⟩, hexpects, hrun⟩ => ?_,
      fun ⟨⟨hp, hclocked, hqueue, hop, hc⟩, hexpects⟩ => ?_, fun d i e ⟨⟨hp, hclocked, hqueue, hop, _⟩, hword, hentry⟩ => ?_⟩
    · refine ⟨_, watchRegister_run hp hclocked hqueue hkind hword htakes hroom, rfl, sameBytes_of rfl rfl rfl, sameWords_of rfl rfl, fun x hx => ?_, ?_⟩
      · exact (commit_core ..).trans (core_updSyn_other _ _ hx)
      · rw [commit_core, syn_updSyn_self]
        rfl
    · have hgo := watchAccepted_run hp hclocked hqueue hop
      rw [if_pos hexpects] at hgo
      obtain ⟨htook, hsyn, hwords⟩ := accepted_leaves s later m.here .accepted
      exact ⟨_, hgo, htook, hsyn, hwords⟩
    · have hgo := watchAccepted_run hp hclocked hqueue hop
      rw [if_neg (ne_true_of_eq_false hexpects)] at hgo
      exact ⟨_, hgo, lateAnswer_leaves hgen⟩
    · have hgo := watchFull_run hp hclocked hqueue hop
      rw [if_pos hexpects] at hgo
      exact ⟨_, hgo, fallBack_leaves hc⟩
    · have hgo := watchWake_run hp hclocked hqueue hop
      rw [if_pos hexpects] at hgo
      exact ⟨_, hgo, wake_leaves hexpects⟩
    · have hgo := watchWake_run hp hclocked hqueue hop
      rw [if_neg (ne_true_of_eq_false hexpects)] at hgo
      exact ⟨_, hgo, wakeDrop_leaves hc hrun⟩
    · have hgo := watchAbsent_run hp hclocked hqueue hop
      rw [if_pos hexpects] at hgo
      exact ⟨_, hgo, fallBack_leaves hc⟩
    · exact ⟨_, watchCancel_run hp hclocked hqueue hop hword hentry, cancel_leaves s later d e⟩
  · have hgo (op : Nat) (held : WatchMsg → Bool) (f : Work → Nat → WatchMsg → Work) :
        (run s fun w => w.takeWatch (.port p v) op held f) = .next s := by
      rw [← done_look_self s]
      exact runs hp (takeWatch_noPacket hnone op held f)
    have hregister : (run s fun w => w.takeWatch (.port p v) 0 w.registerHeld Work.registerIn) = .next s := by
      rw [← done_look_self s]
      exact runs hp (takeWatch_noPacket hnone 0 _ _)
    exact ⟨hregister, hgo .., hgo .., hgo .., hgo .., hgo ..⟩
  · intro w k waits reads
    refine ⟨fun ⟨⟨hp, hwait, hmode⟩, hnone⟩ => pollRead_run hp hmode rfl (waitRead_issues hwait hmode hnone),
      fun ⟨⟨hp, hwait, hmode⟩, hnone⟩ => recheckRead_run hp hmode rfl (waitRead_issues hwait hmode hnone),
      fun i q ⟨hawait, hreq, hreplied, hok⟩ => ⟨fun ⟨hp, hwait, hmode⟩ => pollRead_returns hp hwait hmode hawait hreq hreplied hok rfl,
        fun ⟨⟨hp, hwait, hmode⟩, hholds⟩ => recheckRead_met hp hwait hmode hawait hreq hreplied hok rfl hholds,
        fun ⟨⟨hp, hwait, hmode⟩, hholds, hlost⟩ => recheckRead_lost hp hwait hmode hawait hreq hreplied hok rfl hholds hlost⟩,
      fun ⟨hp, hwaits, hon, hnew⟩ => longwaitNotice_leaves hp hwaits hon hnew⟩

end Sys2Proof.Machine
end
